-- ==== Sys2Proof/Word.lean ====
section
/-!
DEFINITION. Sys2Proof/Word.lean: the word types of the block and the keyed lists its sparse state is held in.
-/
namespace Sys2Proof

/-- One byte of DRAM, flash or of a message. -/
abbrev Byte := BitVec 8

/-- The value of an object of the dictionary (R9). Integer types, B1, BU32, Q31 and F32 (its bits) are `int`;
HT80 is `int`, the whole harbour time in nanoseconds; STR and BLOB are `blob`. -/
inductive Val where
  | int (i : Int)
  | blob (b : List Byte)
  deriving DecidableEq, Repr

/-- A sparse table keyed by a number: keys strictly rising, an unlisted key holds the table's default. -/
abbrev Tab (α : Type) := List (Nat × α)

namespace Tab

/-- The entry of a key, if it is listed. -/
def find {α : Type} (k : Nat) : Tab α → Option α
  | [] => none
  | (k', v) :: l => if k < k' then none else if k = k' then some v else find k l

/-- Lists a value under a key, in order. -/
def put {α : Type} (k : Nat) (v : α) : Tab α → Tab α
  | [] => [(k, v)]
  | (k', v') :: l =>
    if k < k' then (k, v) :: (k', v') :: l
    else if k = k' then (k, v) :: l else (k', v') :: put k v l

/-- Takes a key out of the table. -/
def del {α : Type} (k : Nat) : Tab α → Tab α
  | [] => []
  | (k', v') :: l =>
    if k < k' then (k', v') :: l
    else if k = k' then l else (k', v') :: del k l

/-- The value of a key, `d` where it is not listed. -/
def getD {α : Type} (k : Nat) (d : α) (t : Tab α) : α := (t.find k).getD d

/-- The keys rise strictly. -/
def sorted {α : Type} : Tab α → Bool
  | [] => true
  | [_] => true
  | (k, _) :: (k', v') :: l => decide (k < k') && sorted ((k', v') :: l)

end Tab

/-- Bits `[hi:lo]` of a number (R6). -/
def bits (w hi lo : Nat) : Nat := (w >>> lo) % 2 ^ (hi + 1 - lo)

/-- Bit `[i]` of a number (R6). -/
def bit (w i : Nat) : Bool := w.testBit i

/-- The number with bit `i` set to `v`. -/
def setBit (w i : Nat) (v : Bool) : Nat :=
  if w.testBit i = v then w else if v then w + 2 ^ i else w - 2 ^ i

/-- A number of `n` bits read as two's complement. -/
def signed (n w : Nat) : Int := if w % 2 ^ n < 2 ^ (n - 1) then (w % 2 ^ n : Nat) else (w % 2 ^ n : Nat) - (2 ^ n : Nat)

/-- An integer in `n` bits of two's complement. -/
def unsigned (n : Nat) (i : Int) : Nat := (i % (2 ^ n : Nat)).toNat

/-- An integer kept between two bounds. -/
def clamp (i lo hi : Int) : Int := if i < lo then lo else if hi < i then hi else i

/-- 1 for true, 0 for false. -/
def b2n (b : Bool) : Nat := if b then 1 else 0

end Sys2Proof
end

