-- ==== Sys2Proof/Syntax.lean ====
section
/-!
DEFINITION. Sys2Proof/Syntax.lean: the commands of the block, one constructor per row of spec/opcode_table.json,
and the operand records they carry. An offset `off` is in nanoseconds from the start of the present loop frame.
-/
namespace Sys2Proof

/-- One entry of a READ, WRITE or WRITE_FENCED (R287). `part` says that the entry addresses part of a BLOB at
`offset`; `sig` is the signature of a write of an RWP object, empty if none (R296). In a READ, `data` is empty and
`len` is the length asked for. -/
structure Entry where
  idx    : Nat
  sub    : Nat
  part   : Bool
  offset : Nat
  len    : Nat
  data   : List Byte
  sig    : List Byte
  deriving DecidableEq, Repr

/-- What reaches the block from outside at a loop-frame boundary: the error characters each link counted in the frame that ended, and
the SLACK pairs its elastic buffer repeated and deleted (links 0-23 head, 24-25 quay; R222), the levels of BOL0-BOL15, and for each
berth whether tap 64 came late (R375). -/
structure FrameIn where
  errors : Tab Nat
  repeated : Tab Nat
  deleted : Tab Nat
  bol    : Nat
  late   : Nat
  deriving DecidableEq, Repr

/-- A frame as it comes over a link (R232): the bytes from its header to its CRC in the order of sending, and whether an error character
came in it. A quay link's frame is given by the bytes of its four physical lanes instead (R244). -/
structure WireFrame where
  bytes : List Byte
  lanes : List (List Byte)
  bad : Bool
  deriving DecidableEq, Repr

/-- A SEAT frame and what Identify compares besides (R227): the harbour size and the topology of the other end (0 chain, 1 ring; log 31). -/
structure SeatIn where
  frame : WireFrame
  size : Nat
  topology : Nat
  deriving DecidableEq, Repr

/-- A QTIME frame and this seat's stamp of the TICK it speaks of, in 2^-16 ns (R249). -/
structure QtimeIn where
  frame : WireFrame
  arrival : Int
  deriving DecidableEq, Repr

/-- FEEDBACK payload (R234). -/
structure FeedbackFrame where
  frame : Nat
  mx : Int
  my : Int
  ix : Int
  iy : Int
  focus : Int
  power : Int
  melt : Int
  status : Nat
  missing : Nat
  deriving DecidableEq, Repr

/-- STATUS payload (R234). -/
structure StatusFrame where
  temps : List Int
  faults : Nat
  frame : Nat
  deriving DecidableEq, Repr

/-- TILE payload, its pixels unpacked (R234). -/
structure TileFrame where
  seq : Nat
  depth : Nat
  ident : Nat
  index : Nat
  pixels : List Nat
  deriving DecidableEq, Repr

/-- A CSI-2 packet: virtual channel, data type, header and payload checks, and the pixels of a long packet (R150). -/
structure CsiPacket where
  vc : Nat
  dtype : Nat
  headerOk : Bool
  crcOk : Bool
  pixels : List Nat
  deriving DecidableEq, Repr

/-- CAPS payload (R234). -/
structure CapsFrame where
  major : Nat
  minor : Nat
  headType : Nat
  serial : Nat
  replyOffset : Nat
  channels : Nat
  camera : Nat
  largest : Nat
  deriving DecidableEq, Repr

/-- CONFIG REPLY (R234). -/
structure ConfigReply where
  seq : Nat
  addr : Nat
  result : Nat
  data : List Byte
  deriving DecidableEq, Repr

/-- A spot state record (R93). -/
structure SpotRecord where
  hb : Nat
  state : Nat
  gate : Bool
  gateAhead : Bool
  window : Bool
  budgetWait : Bool
  priority : Nat
  phase : Nat
  group : Nat
  reserved : Bool
  requested : Bool
  x : Int
  y : Int
  vx : Int
  vy : Int
  draw : Nat
  reservation : Nat
  toSafe : Nat
  arc : Int
  deriving DecidableEq, Repr

/-- A SPOT frame (R245). -/
structure SpotFrame where
  seat : Nat
  command : Nat
  hops : Nat
  frame : Nat
  records : List SpotRecord
  deriving DecidableEq, Repr

/-- SEAT payload (R245). -/
structure SeatFrame where
  seat : Nat
  ready : Bool
  decision : Bool
  quiet : Bool
  tideLocked : Bool
  layer : Nat
  commitFrame : Nat
  tide : Nat
  deriving DecidableEq, Repr

/-- QTIME payload (R245, R249): times are harbour times in 2^-16 ns. -/
structure QtimeFrame where
  frame : Nat
  launch : Int
  arrival : Int
  hops : Nat
  offset : Int
  deriving DecidableEq, Repr

/-- DATA payload, with its frame's sequence (R245). -/
structure DataFrame where
  seq : Nat
  ack : Nat
  bytes : List Byte
  deriving DecidableEq, Repr

/-- An OPEN request (R285). -/
structure OpenReq where
  cls : Nat
  watched : Bool
  nonce : List Byte
  port : Nat
  addr : List Byte
  seq : Nat
  deriving DecidableEq, Repr

/-- A received PRESENCE (R285). -/
structure PresenceMsg where
  node : Nat
  mac : Nat
  deriving DecidableEq, Repr

/-- A BULK_BEGIN (R285). -/
structure BulkBegin where
  idx : Nat
  sub : Nat
  read : Bool
  offset : Nat
  len : Nat
  crc : Nat
  sig : List Byte
  deriving DecidableEq, Repr

/-- A SUBSCRIBE (R285): class mask, report set (0xFF for none), period in ms and the objects of the set. -/
structure Subscription where
  mask : Nat
  set : Nat
  period : Nat
  objs : List (Nat × Nat)
  deriving DecidableEq, Repr

/-- An Ethernet frame as the MAC sees it (R271, R272): addresses, VLAN priority (8 for an untagged frame), Ethertype,
length in bytes, FCS check; `ptpEvent` and `ptpGeneral` name PTP messages with their type, sequence identifier, source port
and flags for the transparent clock (R281); `stamp` is the ingress time stamp and `egress` the egress stamp, in 2^-16 ns; `mop` is the
datagram the frame brings to the MOP port, empty where it brings none (R284). -/
structure EthFrame where
  dst : Nat
  src : Nat
  prio : Nat
  ethertype : Nat
  len : Nat
  tagged : Bool
  fcsOk : Bool
  ptp : Bool
  ptpType : Nat
  seqId : Nat
  source : Nat
  twoStep : Bool
  correction : Int
  stamp : Int
  egress : Int
  mop : List Byte := []
  deriving DecidableEq, Repr

/-- A PTP message for the ordinary clock (R279): its source, domain, sequence, step flag, correction and the time stamps it
brings (`origin` in the message, `rx` of its reception), in 2^-16 ns; for Announce the data set of the sender; and the transport
it came by, numbered as 0x0803:04 numbers them (R279). -/
structure PtpMsg where
  source : Nat
  domain : Nat
  seqId : Nat
  twoStep : Bool
  correction : Int
  origin : Int
  rx : Int
  requester : Nat
  port : Nat
  gm : Nat
  prio1 : Nat
  cls : Nat
  accuracy : Nat
  variance : Nat
  prio2 : Nat
  steps : Nat
  ptpScale : Bool
  transport : Nat := 0
  deriving DecidableEq, Repr

/-- A DRAM request of a client (R311): a read or a write of `data` at `addr` (bytes), and the devices of the burst that
show an error: none, one (correctable) or two (uncorrectable), by number 0-4 (R318). -/
structure MemReq where
  client : Nat
  write : Bool
  addr : Nat
  len : Nat
  data : List Byte
  errors : List Nat
  age : Nat
  deriving DecidableEq, Repr

/-- The measurements of one interval between evaluation points (R324), out of the sinc3 filters of R321 and not yet scaled: the
mean squares of the voltages and of the currents and the mean products of the two, as fractions of the modulators' full scale in
units of 2^-32, for L1 to L3; the frequency in mHz; and by how much L2 lags L1 in 0.1 degrees. -/
structure MainsIn where
  v2 : List Nat
  i2 : List Nat
  p : List Int
  freq : Nat
  sequence : Nat
  deriving DecidableEq, Repr

/-- The pins a whole-chip reset sees: NODE0-NODE9 and BOL0-BOL15 (R273, R334). -/
structure Straps where
  node : Nat
  bol : Nat
  deriving DecidableEq, Repr

/-- A result of DRAM training (R303): whether it succeeded, 32 Gb devices, two ranks, device organisation within R302,
and the 256 bytes of results. -/
structure TrainingIn where
  ok : Bool
  dense : Bool
  ranks2 : Bool
  supported : Bool
  result : List Byte
  deriving DecidableEq, Repr

/-- The commands of the block, in the order of spec/opcode_table.json. -/
inductive Instr where
  | pauseAtSafePoint (b : Nat)
  | pauseNow (b off : Nat)
  | resume (b off : Nat)
  | berthReset (b off : Nat)
  | harbourPauseAtSafePoint
  | harbourPauseNow
  | harbourResume
  | safePointReached (b : Nat)
  | decelerationComplete (b : Nat)
  | fence (sess : Nat)
  | objectWrite (sess idx sub : Nat) (v : Val)
  | loadData (b : Nat) (data : List Byte)
  | closeLength (b len : Nat)
  | validationComplete (b slot : Nat)
  | repairComplete (b slot : Nat)
  | slotClear (b slot : Nat)
  | noHostCopy (b : Nat)
  | groupSeal (sess group layer : Nat) (sig : List Byte)
  | groupUnseal (sess group : Nat) (sig : List Byte)
  | commitRequest (layer : Nat)
  | lockWindowOpen
  | lockGateCommit
  | lockTimeout
  | commitAbort
  | exposingStart
  | endReached (b : Nat)
  | fenceComplete (id : Nat)
  | waitComplete (b : Nat)
  | waitTimeout (b : Nat)
  | loopFrame (inp : FrameIn)
  | feedback (h : Nat) (w : WireFrame)
  | eventGroup (b : Nat)
  | powerSample (b j : Nat)
  | status (h : Nat) (w : WireFrame)
  | temperatureReportTimeout (b : Nat)
  | recordMissing (k : Nat)
  | budgetWaitTimeout (b : Nat)
  | budgetWithdrawal (phase : Nat)
  | reassignBerth (b : Nat)
  | reassignment
  | bankSelect (n v : Nat)
  | loopMode (n v : Nat)
  | tripClear (n : Nat)
  | hostTrigger (c off : Nat)
  | contextEnable (c : Nat) (v : Bool)
  | tile (h : Nat) (w : WireFrame)
  | csiPacket (port : Nat) (p : CsiPacket)
  | tileFrameTimeout (c : Nat)
  | frameTimeout (c : Nat)
  | tileProcessed (c : Nat)
  | overload
  | lampTemperatureRead (temps : List (Option Int))
  | lampBoardTimeout (d : Nat)
  | channelDiagnosis (volts : List (Option Nat))
  | sequenceStart
  | projectorStartTime
  | projectorEntry
  | sequenceStop
  | featureCharted
  | bufferClosed
  | release (layer : Nat)
  | exportLayer (layer : Nat)
  | breakwaterSet (sess : Nat) (set sig : List Byte)
  | keySlotProgram (sess : Nat) (data sig : List Byte)
  | keySlotRevoke (sess slot : Nat) (sig : List Byte)
  | blockCoded
  | streamResume (st : Nat)
  | gapEntry (st : Nat)
  | sampleAnchor (b : Nat)
  | readPointer (st v : Nat)
  | jobStart
  | jobResume
  | jobAbort
  | jobSaveState
  | linkEnable (l : Nat)
  | linkDisable (l : Nat)
  | signalDetected (l : Nat)
  | commaAligned (l inverted : Nat)
  | lanesDeskewed (k : Nat) (order skews : List Nat)
  | equaliseComplete (l : Nat) (margins : List Nat)
  | caps (h : Nat) (w : WireFrame)
  | measurementComplete (l : Nat)
  | trainingTimeout (l : Nat)
  | retryInterval (l : Nat)
  | eyeMargin (l : Nat) (margins : List Nat)
  | retrain (l : Nat)
  | retrainStart (l : Nat)
  | feedbackMissing (h : Nat)
  | measurementInterval (h : Nat)
  | echoReply (h : Nat) (bytes : List Byte) (bad : Bool) (trip : Nat)
  | configWrite (sess h : Nat) (data : List Byte)
  | configRead (sess h : Nat)
  | configReply (h : Nat) (w : WireFrame)
  | configTimeout (h : Nat)
  | spot (k : Nat) (w : WireFrame)
  | seat (k : Nat) (f : SeatIn)
  | seatFrameMissing (k : Nat)
  | qtime (k : Nat) (f : QtimeIn)
  | data (k : Nat) (w : WireFrame)
  | target (m : Nat) (pos : Int)
  | strokeEnd (m : Nat)
  | stopDecelerate (m : Nat)
  | stopFreeze (m : Nat)
  | motionHoldClear
  | stall (m : Nat)
  | stallClear (m : Nat)
  | home (m : Nat)
  | homingTravelLimit (m : Nat)
  | standstillDelay (m : Nat)
  | idleAction (m : Nat)
  | energiseComplete (m : Nat)
  | encoderEdge (i : Nat) (a bb : Bool) (off : Nat)
  | indexPulse (i : Nat) (a bb : Bool) (off : Nat)
  | countSet (i : Nat) (v : Int)
  | referenceArm (i : Nat)
  | ssiFrame (i word : Nat) (startLow endHigh : Bool) (off : Nat)
  | counterStandstill (i : Nat)
  | wakeRelease
  | wakeResume (b : Nat)
  | openSession (r : OpenReq)
  | closeSession (sess seq : Nat)
  | sessionTimeout (sess : Nat)
  | discover
  | presence (p : PresenceMsg)
  | keepalive (sess seq : Nat)
  | read (sess seq : Nat) (es : List Entry)
  | write (sess seq : Nat) (es : List Entry)
  | writeFenced (sess seq : Nat) (es : List Entry)
  | bulkBegin (sess seq : Nat) (r : BulkBegin)
  | bulkData (sess id offset : Nat) (data : List Byte)
  | bulkAck (sess id received : Nat)
  | bulkResendTimeout (sess id : Nat)
  | bulkTimeout (sess id : Nat)
  | subscribe (sess seq : Nat) (r : Subscription)
  | noticeBatch (sess : Nat)
  | reportPeriod (sess set : Nat)
  | signProof (sess seq : Nat) (key sig : List Byte)
  | hostSilence
  | spiReadRequest (idx sub offset len : Nat) (crcOk : Bool)
  | spiWrite (e : Entry) (crcOk : Bool)
  | spiWriteFenced (e : Entry) (crcOk : Bool)
  | spiStatus
  | fetchReply
  | fetchNotices
  | store
  | storeComplete (ok : Bool)
  | restoreDefaults
  | ethernetFrame (port : Nat) (f : EthFrame)
  | portLinkUp (port : Nat)
  | sync (m : PtpMsg)
  | followUp (m : PtpMsg)
  | delayReq (m : PtpMsg)
  | delayResp (m : PtpMsg)
  | pdelayReq (m : PtpMsg)
  | pdelayResp (m : PtpMsg)
  | announce (m : PtpMsg)
  | announceReceiptTimeout
  | servoLocked
  | timeSet (ns : Nat)
  | memoryRequest (r : MemReq)
  | trainingComplete (r : TrainingIn)
  | dqsOscillatorCheck (drift : Nat)
  | refresh (sc : Nat) (hot : Bool)
  | pageIdleClose (sc bank : Nat)
  | selfRefreshEntry (ch : Nat)
  | patrolScrub (errors : List Nat)
  | evaluationPoint (r : MainsIn)
  | holdOffComplete
  | tideEnable (v : Bool)
  | inputFault (i : Nat)
  | inputFaultClear (i : Nat)
  | tideLock
  | tideLockLost
  | bollardLatch (i off : Nat)
  | acknowledge (mask : Nat)
  | activeLevel (mask : Nat)
  | rungRequest (n : Nat)
  | wake (source exitUs : Nat)
  | powerOnReset (p : Straps)
  | nrst (p : Straps)
  | watchdog
  | warmReset
  | imageData (offset : Nat) (data : List Byte)
  | verifyAndWrite
  | updateReady (flashOk : Bool)
  | activate
  | updateDiscard
  | confirm
  | logbookFlushTimer
  | flush
  | blockEraseComplete
  | clear (v : Nat)
  | window (sess : Nat)
  | calibrationStart
  | settleTime (b : Nat)
  | runComplete
  | calibrationAbort
  | apply
  | calibrationDiscard
  | dieTemperature (t : Int)
  | lockOrAlignmentLost (l : Nat)
  | echoReplyTimeout (h token : Nat)
  | backOffComplete (m : Nat)
  | syncInterval
  | announceInterval
  | minimumDelayInterval
  | signedLockoutEnd
  | bulkAckInterval (sess id : Nat)
  | portLinkDown (port : Nat)
  | positiveGoingZeroCrossing
  deriving DecidableEq, Repr

end Sys2Proof
end

