-- ==== Sys2Proof/Config.lean ====
section
/-!
DEFINITION. Sys2Proof/Config.lean: what one part or one board fixes, and the free values: constants with no body, of which
nothing can be proved but what holds of every value.
-/
namespace Sys2Proof

/-- The value of a factory object of this part (F kind, R10), by its key (log 12). -/
opaque Config.factoryInt (key : Nat) : Int

/-- The contents of a factory object of this part (F kind, R10), by its key (log 12). -/
opaque Config.factoryBlob (key : Nat) : List Byte

/-- The images in flash as the part is supplied: 0 pilot A, 1 pilot B, 2 berth A, 3 berth B (R355, log 7). -/
opaque Config.shippedImage (bank : Nat) : List Byte

/-- The product of an F32 that is not a number or infinite with an integer, times 2^31: the spec states none (log 15). -/
opaque Config.nonFinite (w : Nat) (z : Int) : Int

/-- Whether the bias code rises when tap 64 comes late: R375 names no direction (log 3). -/
opaque Config.biasRises : Bool

/-- A free value: whatever the spec leaves open, drawn with the counter of the state (log 3). -/
opaque Config.freeValue (n : Nat) : Nat

end Sys2Proof
end

