-- ==== Sys2Proof/Machine/Arith.lean ====
section
/-!
DEFINITION. Sys2Proof/Machine/Arith.lean: rounding, square roots and angles in fixed point, and the byte order of
stored fields (R7). Angles and their sines are in units of 2^-48 (log 14).
-/
namespace Sys2Proof.Machine

/-- n / d rounded half up, d > 0. -/
def roundHalfUp (n : Int) (d : Nat) : Int := (2 * n + d) / (2 * d)

/-- n / d rounded half away from zero, d > 0. -/
def roundHalfAway (n : Int) (d : Nat) : Int :=
  if n < 0 then -((2 * -n + d) / (2 * d)) else (2 * n + d) / (2 * d)

/-- n / d rounded half away from zero for a divisor of either sign; 0 for a divisor of 0. -/
def divAway (n d : Int) : Int := if d < 0 then roundHalfAway (-n) d.natAbs else if d = 0 then 0 else roundHalfAway n d.natAbs

/-- The integer square root by halving bits, `k` bits to go. -/
def sqrtBits (n : Nat) : Nat → Nat → Nat
  | 0, r => r
  | k + 1, r => sqrtBits n k (if (r + 2 ^ k) * (r + 2 ^ k) ≤ n then r + 2 ^ k else r)

/-- The integer square root, rounded down. -/
def isqrt (n : Nat) : Nat := sqrtBits n (n.log2 / 2 + 1) 0

/-- One in the fixed point of angles. -/
def one48 : Int := 2 ^ 48

/-- Pi in the fixed point of angles. -/
def pi48 : Int := 884279719003555

/-- A product in the fixed point of angles. -/
def mul48 (a b : Int) : Int := a * b / one48

/-- The tail of a sine or cosine series: the sum of the terms from `t` on, the next factor being x^2 / (n (n + 1)). -/
def series48 (x2 : Int) : Nat → Nat → Int → Int
  | 0, _, _ => 0
  | k + 1, n, t => t - series48 x2 k (n + 2) (mul48 t x2 / (n * (n + 1) : Nat))

/-- An angle brought into [-pi, pi). -/
def wrap48 (a : Int) : Int := (a + pi48) % (2 * pi48) - pi48

/-- The sine of an angle. -/
def sin48 (a : Int) : Int := series48 (mul48 (wrap48 a) (wrap48 a)) 18 2 (wrap48 a)

/-- The cosine of an angle. -/
def cos48 (a : Int) : Int := series48 (mul48 (wrap48 a) (wrap48 a)) 18 1 one48

/-- The sum t - t^3/3 + t^5/5 ... -/
def atanSeries48 (t2 : Int) : Nat → Nat → Int → Int
  | 0, _, _ => 0
  | k + 1, n, p => p / (n : Nat) - atanSeries48 t2 k (n + 2) (mul48 p t2)

/-- t / (1 + sqrt (1 + t^2)): the tangent of half the angle of tangent t. -/
def halfTan48 (t : Int) : Int :=
  t * one48 / (one48 + (isqrt ((one48 * one48 + t * t).toNat) : Nat))

/-- The arc tangent of 0 ≤ t ≤ 1. -/
def atan48 (t : Int) : Int :=
  4 * atanSeries48 (mul48 (halfTan48 (halfTan48 t)) (halfTan48 (halfTan48 t))) 20 1 (halfTan48 (halfTan48 t))

/-- The direction of the vector (x, y), from 0 up to 2 pi; 0 for the zero vector. -/
def direction48 (x y : Int) : Int :=
  let ax : Int := x.natAbs
  let ay : Int := y.natAbs
  let a := if ax = 0 ∧ ay = 0 then 0
    else if ay ≤ ax then atan48 (ay * one48 / ax) else pi48 / 2 - atan48 (ax * one48 / ay)
  let b := if x < 0 then pi48 - a else a
  if y < 0 then (2 * pi48 - b) % (2 * pi48) else b

/-- An angle given in units of 0.01 degree. -/
def centideg48 (c : Int) : Int := c * pi48 / 18000

/-- The number held by little-endian bytes (R7). -/
def ofLe : List Byte → Nat
  | [] => 0
  | b :: l => b.toNat + 256 * ofLe l

/-- A number in n little-endian bytes (R7). -/
def toLe : Nat → Nat → List Byte
  | 0, _ => []
  | n + 1, w => BitVec.ofNat 8 w :: toLe n (w / 256)

/-- The number held by big-endian bytes (R194). -/
def ofBe (l : List Byte) : Nat := l.foldl (fun a b => 256 * a + b.toNat) 0

/-- A signed number in n little-endian bytes. -/
def toLeI (n : Nat) (i : Int) : List Byte := toLe n (unsigned (8 * n) i)

/-- n bytes of a list from an offset, zero where it is too short. -/
def slice (l : List Byte) (o n : Nat) : List Byte := ((l.drop o).take n) ++ List.replicate (n - ((l.drop o).take n).length) 0#8

/-- A little-endian field of a byte list. -/
def field (l : List Byte) (o n : Nat) : Nat := ofLe (slice l o n)

/-- A signed little-endian field of a byte list. -/
def fieldI (l : List Byte) (o n : Nat) : Int := signed (8 * n) (field l o n)

/-- The bytes of `new` laid over those of `old` from an offset. -/
def overlay (old : List Byte) (o : Nat) (new : List Byte) : List Byte :=
  slice old 0 o ++ new ++ old.drop (o + new.length)

/-- binary32 bits times an integer, times 2^31, rounded half away from zero (R71's focus slope; R287). Not-a-number and
infinity give a free value (log 15). -/
def f32Times (w : Nat) (z : Int) : Int :=
  let ex := bits w 30 23
  let m : Int := if ex = 0 then (bits w 22 0 : Nat) else (2 ^ 23 + bits w 22 0 : Nat)
  let s : Int := if bit w 31 then -1 else 1
  let e := if ex = 0 then 1 else ex
  if ex = 255 then Config.nonFinite w z
  else if 150 ≤ e + 31 then s * m * z * (2 ^ (e + 31 - 150) : Nat) else roundHalfAway (s * m * z) (2 ^ (150 - (e + 31)))

/-- The bit length of a number. -/
def bitLen (n : Nat) : Nat := if n = 0 then 0 else n.log2 + 1

/-- The sum of a list of integers. -/
def sumI (l : List Int) : Int := l.foldl (· + ·) 0

/-- The largest of a list of naturals, 0 of none. -/
def maxN (l : List Nat) : Nat := l.foldl max 0

/-- Inserts into a list ordered by a key, after equals. -/
def insertBy {α : Type} (key : α → Nat) (x : α) : List α → List α
  | [] => [x]
  | y :: l => if key x < key y then x :: y :: l else y :: insertBy key x l

/-- Orders a list by a key, stably. -/
def sortBy {α : Type} (key : α → Nat) (l : List α) : List α := l.foldl (fun acc x => insertBy key x acc) []

/-- The element with the least key, the first of equals. -/
def leastBy {α : Type} (key : α → Nat) : List α → Option α
  | [] => none
  | x :: l => match leastBy key l with
    | none => some x
    | some y => if key y < key x then some y else some x

end Sys2Proof.Machine
end

