-- ==== Sys2Proof/Machine/Crypto.lean ====
section
/-!
DEFINITION. Sys2Proof/Machine/Crypto.lean: CRC-32C, SHA-256 and the verification of ECDSA P-256 signatures, as R42, R194,
R195, R284, R295, R296, R357 and R358 name them. The algorithms themselves are those of the standards that the spec names.
-/
namespace Sys2Proof.Machine

/-- One bit of CRC-32C (reflected polynomial 0x82F6_3B78). -/
def crcBit (c : Nat) : Nat := if c % 2 = 1 then (c / 2) ^^^ 0x82F63B78 else c / 2

/-- One byte of CRC-32C. -/
def crcByte (c : Nat) (b : Byte) : Nat :=
  crcBit (crcBit (crcBit (crcBit (crcBit (crcBit (crcBit (crcBit (c ^^^ b.toNat))))))))

/-- CRC-32C over a list of bytes. -/
def crc32c (l : List Byte) : Nat := (l.foldl crcByte 0xFFFFFFFF) ^^^ 0xFFFFFFFF

/-- The first 64 primes. -/
def shaPrimes : List Nat := (List.range 312).filter (fun n => decide (2 ≤ n) && (List.range n).all (fun d => decide (d < 2) || n % d != 0))

/-- The integer cube root by halving bits, `k` bits to go. -/
def cbrtBits (n : Nat) : Nat → Nat → Nat
  | 0, r => r
  | k + 1, r => cbrtBits n k (if (r + 2 ^ k) ^ 3 ≤ n then r + 2 ^ k else r)

/-- The round constants of SHA-256: 32 bits of the fractions of the primes' cube roots. -/
def shaK : List Nat := shaPrimes.map (fun p => cbrtBits (p * 2 ^ 96) 35 0 % 2 ^ 32)

/-- The initial hash value of SHA-256: 32 bits of the fractions of the first eight primes' square roots. -/
def shaH : List Nat := (shaPrimes.take 8).map (fun p => isqrt (p * 2 ^ 64) % 2 ^ 32)

/-- The exclusive or of a 32-bit word's rotations to the right by each number of a list. -/
def shaTurn (x : Nat) (l : List Nat) : Nat := l.foldl (fun z n => z ^^^ (x * (2 ^ 32 + 1) / 2 ^ n % 2 ^ 32)) 0

/-- The message schedule, newest word first, `k` words to go. -/
def shaSchedule : Nat → List Nat → List Nat
  | 0, w => w
  | k + 1, w =>
    let old := w.getD 14 0
    let new := w.getD 1 0
    let z := (shaTurn old [7, 18] ^^^ (old / 8)) + (shaTurn new [17, 19] ^^^ (new / 1024))
    shaSchedule k ((z + w.getD 15 0 + w.getD 6 0) % 2 ^ 32 :: w)

/-- One round of SHA-256 on the eight working words, with the sum of its constant and its schedule word. -/
def shaRound (v : List Nat) (k : Nat) : List Nat :=
  let x := fun (i : Nat) => v.getD i 0
  let pick := ((x 5 ^^^ x 6) &&& x 4) ^^^ x 6
  let most := (x 0 &&& (x 1 ||| x 2)) ||| (x 1 &&& x 2)
  let t := k + x 7 + pick + shaTurn (x 4) [6, 11, 25]
  ((t + most + shaTurn (x 0) [2, 13, 22]) % 2 ^ 32 :: v.take 3) ++ ((t + x 3) % 2 ^ 32 :: (v.drop 4).take 3)

/-- One 64-byte block of SHA-256. -/
def shaBlock (h : List Nat) (blk : List Byte) : List Nat :=
  let w0 := ((List.range 16).map (fun i => ofBe (slice blk (4 * i) 4))).reverse
  let w := (shaSchedule 48 w0).reverse
  let v := (List.zipWith (· + ·) shaK w).foldl shaRound h
  (h.zip v).map (fun p => (p.1 + p.2) % 2 ^ 32)

/-- The blocks of a padded message, `n` to go. -/
def shaBlocks : Nat → List Byte → List Nat → List Nat
  | 0, _, h => h
  | n + 1, l, h => shaBlocks n (l.drop 64) (shaBlock h (l.take 64))

/-- A number in n big-endian bytes. -/
def toBe (n w : Nat) : List Byte := (toLe n w).reverse

/-- SHA-256 of a message. -/
def sha256 (m : List Byte) : List Byte :=
  let p := m ++ [0x80#8] ++ List.replicate ((119 - m.length % 64) % 64) 0#8 ++ toBe 8 (8 * m.length)
  (shaBlocks (p.length / 64) p shaH).flatMap (toBe 4)

/-- The field prime of P-256. -/
def p256p : Nat := 0xffffffff00000001000000000000000000000000ffffffffffffffffffffffff
/-- The order of the base point of P-256. -/
def p256n : Nat := 0xffffffff00000000ffffffffffffffffbce6faada7179e84f3b9cac2fc632551
/-- The coefficient b of P-256. -/
def p256b : Nat := 0x5ac635d8aa3a93e7b3ebbd55769886bc651d06b0cc53b0f63bce3c3e27d2604b
/-- The base point of P-256. -/
def p256g : Nat × Nat := (0x6b17d1f2e12c4247f8bce6e563a440f277037d812deb33a0f4a13945d898c296,
  0x4fe342e2fe1a7f9b8ee7eb4a7c0f9e162bce33576b315ececbb6406837bf51f5)

/-- x^e modulo m, the low `k` bits of e to go. -/
def powMod (m : Nat) : Nat → Nat → Nat → Nat
  | 0, _, _ => 1 % m
  | k + 1, x, e => let r := powMod m k (x * x % m) (e / 2)
    if e % 2 = 1 then r * x % m else r

/-- The inverse modulo a prime. -/
def invMod (m x : Nat) : Nat := powMod m 257 (x % m) (m - 2)

/-- The sum of two points of P-256; none is the point at infinity. -/
def p256add : Option (Nat × Nat) → Option (Nat × Nat) → Option (Nat × Nat)
  | none, q => q
  | p, none => p
  | some (x1, y1), some (x2, y2) =>
    if x1 = x2 ∧ (y1 + y2) % p256p = 0 then none
    else
      let l := if x1 = x2 then (3 * x1 * x1 + (p256p - 3)) * invMod p256p (2 * y1) % p256p
        else (y2 + p256p - y1) * invMod p256p (x2 + p256p - x1) % p256p
      let x3 := (l * l + 2 * p256p - x1 - x2) % p256p
      some (x3, (l * (x1 + p256p - x3) + p256p - y1) % p256p)

/-- A multiple of a point of P-256, the low `n` bits of the factor to go. -/
def p256mul : Nat → Nat → Option (Nat × Nat) → Option (Nat × Nat)
  | 0, _, _ => none
  | n + 1, k, p => let r := p256mul n (k / 2) (p256add p p)
    if k % 2 = 1 then p256add r p else r

/-- ECDSA P-256 verification: a 64-byte key, a 64-byte signature and the message whose SHA-256 is signed (R194, R295, R358). -/
def verify (key sig msg : List Byte) : Bool :=
  let r := ofBe (slice sig 0 32)
  let s := ofBe (slice sig 32 32)
  let x := ofBe (slice key 0 32)
  let y := ofBe (slice key 32 32)
  let onCurve := x < p256p && y < p256p && (y * y % p256p == (x * x * x + (p256p - 3) * x + p256b) % p256p)
  let e := ofBe (sha256 msg)
  let w := invMod p256n s
  key.length == 64 && sig.length == 64 && onCurve && 0 < r && r < p256n && 0 < s && s < p256n &&
    match p256add (p256mul 256 (e * w % p256n) (some p256g)) (p256mul 256 (r * w % p256n) (some (x, y))) with
    | none => false
    | some (vx, _) => vx % p256n == r

/-- The point of P-256 with an abscissa and an even or odd ordinate, if there is one. -/
def p256lift (x : Nat) (odd : Bool) : Option (Nat × Nat) :=
  let c := (x * x * x + (p256p - 3) * x + p256b) % p256p
  let y := powMod p256p 257 c ((p256p + 1) / 4)
  if p256p ≤ x ∨ y * y % p256p ≠ c then none else some (x, if (y % 2 == 1) == odd then y else (p256p - y) % p256p)

/-- The keys under which a signature of a message verifies: at most four (R358, whose header holds no key). -/
def signersOf (sig msg : List Byte) : List (List Byte) :=
  let r := ofBe (slice sig 0 32)
  let s := ofBe (slice sig 32 32)
  let e := ofBe (sha256 msg) % p256n
  let w := invMod p256n r
  let cands := [(r, false), (r, true), (r + p256n, false), (r + p256n, true)]
  (cands.filterMap (fun c =>
    match p256lift c.1 c.2 with
    | none => none
    | some p => p256add (p256mul 256 (w * s % p256n) (some p)) (p256mul 256 ((p256n - e) * w % p256n) (some p256g)))).map
      (fun q => toBe 32 q.1 ++ toBe 32 q.2) |>.filter (fun k => verify k sig msg)

end Sys2Proof.Machine
end

