-- ==== Sys2Proof/Machine/State.lean ====
section
/-!
DEFINITION. Sys2Proof/Machine/State.lean: the state of one T2492 as plain data, its reset, and why a step can stop.
Every object of the dictionary is held by its address in `obj` (value in force) and `shadow` (RWC and RWF values written and
not yet in force); the records below hold what the spec gives the machine beside its objects. Arcs named in `ubu` are in
2^-16 bed units, times in 2^-16 ns of harbour time (`Time`), speeds in nm/s.
-/
namespace Sys2Proof.Machine

/-- Why a command faults. -/
inductive Fault where
  /-- Raised by MEMORY_REQUEST for an address beyond the capacity in force: R306 gives no such address. Safe: the machine stops
  where the spec gives no effect. -/
  | noSuchAddress (addr : Nat)
  deriving DecidableEq, Repr

/-- Why a command is refused. -/
inductive Refusal where
  /-- Raised by the dispatcher for a command that has no meaning yet. Safe. -/
  | notModelled (mnemonic : String)
  deriving DecidableEq, Repr

/-- Harbour time in units of 2^-16 ns (R276). -/
abbrev Time := Nat

/-- A point of the bed in bu (R5). -/
structure Pt where
  x : Int := 0
  y : Int := 0
  z : Int := 0
  deriving DecidableEq, Repr

/-- What a phase of the plan moves along. -/
inductive PhaseKind where
  /-- The manifest's path. -/
  | path
  /-- The tangent of the path at an arc (ubu), from behind it (R90, R103, R269). -/
  | runUp (anchor : Int)
  /-- A straight gate-off move between two points (R90). -/
  | move (p q : Pt)
  deriving DecidableEq, Repr

/-- A phase of constant acceleration of the planned path (R70): from `t0` for `dur`, starting at arc `g0` (ubu, counted from
record 0 for `path` and `runUp`, from the start of the move for `move`) with speed `v0` (nm/s) and acceleration `acc` (m/s^2). -/
structure Phase where
  t0 : Time := 0
  dur : Nat := 0
  g0 : Int := 0
  v0 : Nat := 0
  acc : Int := 0
  kind : PhaseKind := .path
  deriving DecidableEq, Repr

/-- A good feedback sample: its instant, the along-path error and the lateral deviation in 2^-16 bu (R75). -/
structure Sample where
  t : Time := 0
  e : Int := 0
  d : Int := 0
  deriving DecidableEq, Repr

/-- The kinds of event a berth fires (R78, R48, R153, R268). -/
inductive EvKind where
  | gate (on breakwater : Bool)
  | wakeOff
  | entry (action param value : Nat)
  | periodic
  deriving DecidableEq, Repr

/-- An event of the schedule at its place on the path: record, arc in the record (bu), arc from record 0 (ubu). -/
structure Event where
  ri : Nat := 0
  arc : Int := 0
  g : Int := 0
  kind : EvKind := .periodic
  deriving DecidableEq, Repr

/-- An event whose fired instant is final (R76), and the opening instant of the group it belongs to (R80). -/
structure FinalEvent where
  t : Time := 0
  group : Time := 0
  ev : Event := {}
  deriving DecidableEq, Repr

/-- A pause at safe point still running to its safe point (R31): its cause, the resume record and the arc of the point. -/
structure SafeStop where
  cause : Nat := 0
  ri : Nat := 0
  g : Int := 0
  deriving DecidableEq, Repr

/-- An annexed run: the source berth and its first and last record (R119). -/
structure Annex where
  src : Nat := 0
  first : Nat := 0
  last : Nat := 0
  deriving DecidableEq, Repr

/-- A berth's part in a handover (R103-R110): phase 0 none, 1 waiting at the run-up point since `since`, 2 in the window since
frame `launched`, 3 giving, with its gate-off placed at the cross-fade start. -/
structure Handover where
  phase : Nat := 0
  taking : Bool := false
  ri : Nat := 0
  partner : Nat := 0
  join : Int := 0
  since : Time := 0
  launched : Nat := 0
  k6Held : Bool := false
  stopAtC0 : Option Nat := none
  deriving DecidableEq, Repr

/-- A berth held at the wake line (R268): record and arc of s_w, its coordinate q, the time of the gate-off. -/
structure WakeHold where
  ri : Nat := 0
  arc : Int := 0
  g : Int := 0
  q : Int := 0
  t : Time := 0
  held : List Event := []
  deriving DecidableEq, Repr

/-- The gate-on run being exposed (R80, kind 0x03 of R203): whether one is, the record it began in, its counts. -/
structure RunStats where
  opened : Bool := false
  first : Nat := 0
  merged : Nat := 0
  dropped : Nat := 0
  deriving DecidableEq, Repr

/-- What a berth holds beside its objects (R67-R91, R103-R120, R268-R270). `origin` names the record that starts from a
standing position instead of its predecessor's end (R90, R404); `stretch` counts the safe points passed and `goFrom` is
the record begun when a reservation is granted (R113); `reopen` is the
gate-on with which a resume opens its gate (R34, R90, R269); of the schedule's events the first `evDone` and those numbered in
`evAhead` are final or past (R76); `words` are the planned power words of the next frame, `power` the words of the present one
(R79, R84); `planned` is the planned word of the power
sample at the present frame's TICK, without the correction (R405); `trigAt` is the group whose camera trigger was sent last (R153, R236);
`refusedAt` is the HANDOVER record at whose run-up point a refused taking berth pauses, with its cause (R109). -/
structure Berth where
  standing : Option Pt := none
  origin : Option (Nat × Pt) := none
  stretch : Nat := 0
  goFrom : Nat := 0
  plan : List Phase := []
  samples : List Sample := []
  evDone : Nat := 0
  evAhead : List Nat := []
  finals : List FinalEvent := []
  lastGroup : Option Time := none
  trigAt : Option Time := none
  gate : Bool := false
  gateSched : Bool := false
  len : Bool := false
  lenPin : Bool := false
  manifestLen : Bool := false
  e1 : Int := 0
  e2 : Int := 0
  corr : Int := 0
  words : List Nat := []
  planned : Nat := 0
  power : List Nat := []
  codes : List Nat := []
  strength : Nat := 0
  stopAt : Option SafeStop := none
  halting : Bool := false
  resuming : Bool := false
  overlap : Option (Int × Int) := none
  waitingAt : Option (Nat × Time) := none
  wake : Option WakeHold := none
  reopen : Option Event := none
  reserved : Option Nat := none
  requested : Option Nat := none
  waitSince : Option Time := none
  clearance : Bool := true
  handover : Handover := {}
  refusedAt : Option (Nat × Nat) := none
  annexes : List Annex := []
  annexNow : Option Annex := none
  givenAway : List (Nat × Nat) := []
  damaged : Option (Nat × Nat) := none
  lastStatus : Time := 0
  run : RunStats := {}
  startFrame : Option Nat := none
  calibrating : Bool := false
  spHeld : List Int := []
  headTook : Nat := 0
  late : Option Bool := none
  biasStep : Option Bool := none
  closeLens : Tab Nat := []
  slotCauses : Tab Nat := []
  deriving DecidableEq, Repr

/-- The delay states of one biquad (R129). -/
structure Biquad where
  x1 : Int := 0
  x2 : Int := 0
  w1 : Int := 0
  w2 : Int := 0
  deriving DecidableEq, Repr

/-- What a loop holds beside its objects (R129-R147). `yPrev` is the measurement of its latest sample, `yBefore` that of the sample
before; `features` are the measurements of the latest feature record, one for each source that takes one (R163); `due`, `gateAt`,
`freshAt` and `taken` are taken at the TICK of its sampling frame (R126): that it samples, the gate, whether a feature has come, and
the feature measurement or, of k5, the planned power. -/
structure Loop where
  z : Int := 0
  u : Int := 0
  uPre : Int := 0
  yPrev : Int := 0
  yBefore : Int := 0
  yfPrev : Int := 0
  rPrev : Int := 0
  bq1 : Biquad := {}
  bq2 : Biquad := {}
  model : Int := 0
  modelInit : Bool := true
  modelRun : Nat := 0
  history : List Int := []
  staleRun : Nat := 0
  features : List Int := []
  fresh : Bool := false
  freshAt : Bool := false
  taken : Int := 0
  due : Bool := false
  photoSum : Int := 0
  photoCount : Nat := 0
  selManifest : Option Nat := none
  modeManifest : Option Nat := none
  transfer : Option Nat := none
  wasHeld : Bool := false
  gateAt : Bool := false
  hostArmed : Bool := false
  manifestArmed : Bool := false
  deriving DecidableEq, Repr

/-- A committed set of a camera context: its tag, the first frame that carries it, and its settings by index:sub (R157). -/
structure CommittedSet where
  tag : Nat := 0
  first : Nat := 0
  vals : Tab Val := []
  deriving DecidableEq, Repr

/-- A frame of a camera context (R149-R168); `px`, `py` are the berth's position latched at the exposure midpoint (R176). -/
structure Frame where
  num : Nat := 0
  tag : Nat := 0
  trig : Time := 0
  flags : Nat := 0
  ri : Nat := 0
  arc : Int := 0
  vx : Int := 0
  vy : Int := 0
  mid : Time := 0
  latched : Bool := false
  px : Int := 0
  py : Int := 0
  power : Nat := 0
  speed : Nat := 0
  expected : Nat := 0
  tiles : Tab (List Nat) := []
  processed : Nat := 0
  arriving : Bool := true
  bad : Bool := false
  started : Bool := false
  deriving DecidableEq, Repr

/-- A camera context beside its objects (R148-R168). -/
structure Context where
  sets : List CommittedSet := []
  frames : List Frame := []
  lastTrig : Option Time := none
  inFrame : Bool := false
  everEnabled : Bool := false
  pulseEnd : Time := 0
  frameBase : Nat := 0
  firstTrigger : Bool := true
  deriving DecidableEq, Repr

/-- An open strobe window on a beacon channel (R170). -/
structure Strobe where
  ctx : Nat := 0
  mask : Nat := 0
  start : Time := 0
  stop : Time := 0
  level : Nat := 0
  deriving DecidableEq, Repr

/-- A lamp board on the bus (R174). -/
structure Board where
  good : Option Int := none
  misses : Nat := 0
  lostAt : Option Time := none
  hot : Bool := false
  dark : Bool := false
  deriving DecidableEq, Repr

/-- The pipeline and the beacon beside their objects (R165-R175). `turn` is the context the pipeline visits in its round, and `turnDone` the
tiles of it processed there (R165). `beaconFrom` is when the beacon was enabled last, from which its periods run; `pins` are the channels
(0-15) and projectors (16, 17) that are on, by when they went on; `factors` the temperature factors in force; `shown` the projector levels
of the entries begun, by their start; `diagAt` is when the last diagnosis came, `tested` the channels tested since, `stretch` the stretched
pulses placed, by their start (R169-R175). -/
structure Vision where
  overSince : Option Time := none
  granules : Tab (Nat × Nat) := []
  strobes : List Strobe := []
  boards : Tab Board := []
  untested : Tab Nat := []
  entryStart : Time := 0
  beaconFrom : Time := 0
  pins : Tab Time := []
  lit : Option Nat := none
  factors : List Nat := []
  shown : List (Time × List Nat) := []
  diagAt : Time := 0
  tested : Nat := 0
  stretch : Tab Time := []
  turn : Nat := 0
  turnDone : Nat := 0
  deriving DecidableEq, Repr

/-- A cell of a chart (R180). -/
structure Cell where
  hits : Nat := 0
  flags : Nat := 0
  last : Nat := 0xFF
  vals : List Nat := []
  deriving DecidableEq, Repr

/-- A chart buffer (R185-R187): the number of its state, its header fields, and its touched cells by
tile index x 4,096 + place in the tile. -/
structure Buffer where
  state : Nat := 0
  layer : Nat := 0
  commit : Time := 0
  closing : Time := 0
  originX : Int := 0
  originY : Int := 0
  cell : Nat := 0
  cols : Nat := 0
  rows : Nat := 0
  sources : List Nat := []
  rules : List Nat := []
  mode : Nat := 0
  policy : Nat := 0
  channels : Nat := 0
  cells : Tab Cell := []
  age : Nat := 0
  base : Nat := 0
  seat : Nat := 0
  ended : Time := 0
  deriving DecidableEq, Repr

/-- A feature waiting in the compositor's queue (R176, R184). -/
structure Feature where
  ctx : Nat := 0
  tag : Nat := 0
  flags : Nat := 0
  frame : Nat := 0
  trig : Time := 0
  ri : Nat := 0
  arc : Int := 0
  area : Nat := 0
  cx : Nat := 0
  cy : Nat := 0
  len : Nat := 0
  width : Nat := 0
  peak : Nat := 0
  mean : Nat := 0
  px : Int := 0
  py : Int := 0
  planned : Nat := 0
  speed : Nat := 0
  vals : Tab Val := []
  deriving DecidableEq, Repr

/-- The compositor beside its objects (R176-R190). -/
structure Chart where
  buffers : Tab Buffer := []
  queue : List Feature := []
  dropNoted : Bool := false
  counter : Nat := 0
  deriving DecidableEq, Repr

/-- A polygon of the breakwater (R191). -/
structure Polygon where
  id : Nat := 0
  pts : List (Int × Int) := []
  deriving DecidableEq, Repr

/-- The breakwater unit beside its objects (R191-R198): the set of the shadow, of the force, and of the exposures that
were under way at the last commit; by berth, the last record fetched under each earlier set, and that set. -/
structure Breakwater where
  shadow : Option (List Byte) := none
  force : List Polygon := []
  old : List Polygon := []
  oldBerths : Nat := 0
  eras : Tab (List (Nat × List Polygon)) := []
  caught : Bool := false
  deriving DecidableEq, Repr

/-- The history of a stream or job (R211): last element by channel, class counts of the current and the last 16
epochs, blocks of the current epoch, code lengths in force. -/
structure History where
  last : Tab Nat := []
  counts : List (List Nat) := []
  fill : Nat := 0
  lengths : List Nat := [2, 2, 3, 3, 4, 4, 5, 5, 6, 6, 7, 7, 8, 8, 8, 9, 9]
  deriving DecidableEq, Repr

/-- A segment of a stream, from its opening until its header is rewritten (R201, R202, R211-R215), with the settings it opened with.
`started`: its first header is written, at `headAt`; `ended`: it takes no more input. `feed` is what the compressor still has to take of a
chart buffer, number `buffer`; `sets` counts sample sets, `part` those of the last, padded blocks; `input` is what has been coded. Staged
elements are bytes for byte streams; for element streams each is a 16-bit element with the channel of its block above bit 16. -/
structure Segment where
  started : Bool := false
  ended : Bool := false
  mode : Nat := 0
  layer : Nat := 0
  start : Time := 0
  headAt : Nat := 0
  blocks : Nat := 0
  flags : Nat := 0
  worst : Nat := 0
  outBase : Nat := 0
  outSize : Nat := 0
  stageBase : Nat := 0
  stageSize : Nat := 0
  mask : Nat := 0
  decim : Nat := 0
  resume : Nat := 0
  staging : List Nat := []
  planar : List (List Nat) := []
  feed : List Nat := []
  buffer : Option Nat := none
  history : History := {}
  sets : Nat := 0
  part : Nat := 0
  input : Nat := 0
  frames : Nat := 0
  deriving DecidableEq, Repr

/-- A sample anchor that waits for room in its event stream (R204): the index and the frame of its run's first set, when it was taken, and
what was lost before it (R215). -/
structure Anchor where
  index : Nat := 0
  frame : Nat := 0
  t : Time := 0
  lost : Nat := 0
  deriving DecidableEq, Repr

/-- A record stream beside its objects (R200-R216): its segments, the oldest first, coded in turn; the last takes input unless it has
ended. `lastSet` is the frame of the last sample set of the run under way; `lost` counts a loss whose entry waits, `need` the bytes the
stream must have room for before it is written; `staged` counts the bytes put into the staging ring. -/
structure Stream where
  segs : List Segment := []
  lastSet : Option Nat := none
  anchors : List Anchor := []
  lost : Nat := 0
  need : Nat := 0
  staged : Nat := 0
  deriving DecidableEq, Repr

/-- The compressor beside its objects (R200-R218). -/
structure Recorder where
  streams : Tab Stream := []
  jobPos : Nat := 0
  jobDst : Nat := 0
  jobRoom : Nat := 0
  jobHist : History := {}
  jobWorst : Nat := 0
  deriving DecidableEq, Repr

/-- A latency measurement burst of a head link (R238): tokens sent and not answered, and the (round trip, turnaround)
of the answers, in 15.625 ps units. -/
structure Burst where
  left : Nat := 0
  token : Nat := 0
  waiting : List (Nat × Time) := []
  got : List (Nat × Nat) := []
  attempts : Nat := 0
  next : Time := 0
  deriving DecidableEq, Repr

/-- The last COMMAND sent to a head (R234). -/
structure Command where
  frame : Nat := 0
  x : Int := 0
  y : Int := 0
  focus : Int := 0
  codes : List Nat := []
  flags : Nat := 0
  ack : Nat := 0
  deriving DecidableEq, Repr

/-- A head configuration access waiting for its reply (R240). -/
structure ConfigAccess where
  sess : Nat := 0
  write : Bool := false
  seq : Nat := 0
  sends : Nat := 0
  addr : Nat := 0
  data : List Byte := []
  len : Nat := 0
  deriving DecidableEq, Repr

/-- A lane's adaptation beside its objects (R230): its last hundred margins, since when it is frozen, and its run of low margins. -/
structure Lane where
  margins : List Nat := []
  frozenAt : Option Time := none
  noted : Bool := false
  low : Nat := 0
  deriving DecidableEq, Repr

/-- A head or quay link beside its objects (R223-R250). Of its transmitter: the first frame at whose end a COMMAND goes (R226), the
sequence of its next frame (R232), the phase of its characters in 1/640 ns, the characters sent in the frame and one left over, its PRBS7
generator (R220), the launch of its last TICK in 2^-16 ns and that TICK's frame (R235, R249); `tickIn` is the arrival of the last TICK
received. Of a quay link: the seats heard on it in this frame and in the one before (R246, R248). -/
structure Link where
  attemptAt : Time := 0
  downAt : Time := 0
  failed : Nat := 0
  noted : Bool := false
  capsOk : Bool := false
  capSides : Nat := 0
  capCamera : Nat := 0
  burst : Burst := {}
  missRun : Nat := 0
  statusRun : Nat := 0
  fbFrame : Nat := 0
  fbLast : Option FeedbackFrame := none
  fbGood : Option FeedbackFrame := none
  faults : Nat := 0
  command : Command := {}
  commandFrom : Option Nat := none
  txSeq : Nat := 0
  charPhase : Nat := 0
  chars : Nat := 0
  spare : Nat := 0
  prbs : Nat := 127
  tickAt : Int := 0
  tickFrame : Nat := 0
  tickIn : Int := 0
  standWait : Bool := false
  heard : List Nat := []
  heardBefore : List Nat := []
  tileNext : Nat := 0
  retry : Option Nat := none
  retryFrame : Nat := 0
  cfg : Option ConfigAccess := none
  cfgLen : Nat := 0
  lanes : List Lane := []
  retrainPending : Bool := false
  seatFrame : Option SeatFrame := none
  thetas : List Int := []
  neighbourHops : Nat := 0
  neighbourOffset : Int := 0
  dataSeq : Nat := 0
  dataAck : Nat := 0
  dataIn : List Byte := []
  deriving DecidableEq, Repr

/-- The harbourmaster beside its objects (R93-R123, R247), with the seat, size and topology in force since the last quay
link retrain (R14, R16). Of the frame the records describe: this chip's tide angle and lock (R94), the handover partners of its
berths (R99). By harbour berth of the other seats: its state in the frame before, and since when it rests while it exposes (R104,
R110). -/
structure Harbour where
  seatNo : Nat := 0
  size : Nat := 1
  ring : Bool := false
  own : Tab SpotRecord := []
  others : Tab SpotRecord := []
  seats : Tab SeatFrame := []
  excess : List Nat := [0, 0, 0]
  command : Option Nat := none
  carried : Option Nat := none
  arrived : List (Nat × Nat) := []
  trigger : List Nat := []
  tide : Nat := 0
  tideLocked : Bool := false
  pairs : List (Nat × Nat) := []
  before : Tab Nat := []
  rests : Tab Time := []
  servoInt : Int := 0
  deriving DecidableEq, Repr

/-- The commit sequencer beside its objects (R57-R66); `told` are the seats seen since the decision reached this one, which it has
therefore reached too (R66). -/
structure Commit where
  layer : Nat := 0
  openedAt : Option Time := none
  opened : Bool := false
  met : Bool := false
  mode : Nat := 0
  ready : Bool := false
  decided : Option Nat := none
  decidedLayer : Nat := 0
  missed : List Nat := []
  told : List Nat := []
  startFrame : Option Nat := none
  wakeLayer : Bool := false
  instant : Time := 0
  deriving DecidableEq, Repr

/-- A stepper axis beside its objects (R251-R258). The move runs from `start` since `t0` to `goal` at `vmax`; `pos` is the
position of the last profile step. `hold` is the standstill phase: 0 run current, 1 reduced, 2 idle action applied, 3 energising; `rampAt` is
when the current began to fall. `pwmNext` is when the next PWM period begins, `pwmAt` when the present one began; `sets` and `amps` are the
set-points and the mean currents of phases A and B in mA, `sums` the integral terms and `duties` the duties of the two bridges in Q1.31. -/
structure Axis where
  start : Int := 0
  goal : Int := 0
  t0 : Time := 0
  stopping : Bool := false
  frozen : Bool := false
  standAt : Time := 0
  hold : Nat := 0
  energiseAt : Time := 0
  homing : Nat := 0
  homeStart : Int := 0
  pins : Nat := 0
  accel : Nat := 0
  decel : Nat := 0
  vmax : Nat := 0
  rampAt : Time := 0
  pwmNext : Time := 0
  pwmAt : Time := 0
  sets : Int × Int := (0, 0)
  amps : Int × Int := (0, 0)
  sums : Int × Int := (0, 0)
  duties : Int × Int := (0, 0)
  deriving DecidableEq, Repr

/-- A counter beside its objects (R259-R263). -/
structure Counter where
  a : Bool := false
  b : Bool := false
  lastEdge : Option Time := none
  period : Option Nat := none
  lastDir : Int := 0
  badRun : Nat := 0
  limitNoted : Bool := false
  lastGood : Option (Time × Int) := none
  deriving DecidableEq, Repr

/-- The wake line beside its objects (R265-R270). -/
structure Wake where
  pendingW : Option Int := none
  furthest : Int := 0
  deriving DecidableEq, Repr

/-- A request of a session, as it is held ahead of a missing one (R287). -/
inductive Request where
  | keepalive
  | read (es : List Entry)
  | write (fenced : Bool) (es : List Entry)
  | bulk (r : BulkBegin)
  | subscribe (r : Subscription)
  | proof (key sig : List Byte)
  | close
  deriving DecidableEq, Repr

/-- A notice record (R292). -/
structure Notice where
  cls : Nat := 0
  num : Nat := 0
  code : Nat := 0
  seq : Nat := 0
  t : Time := 0
  detail : List Byte := []
  deriving DecidableEq, Repr

/-- A report set (R294). -/
structure ReportSet where
  objs : List (Nat × Nat) := []
  period : Nat := 0
  deriving DecidableEq, Repr

/-- A bulk transfer (R290, R291): what BULK_BEGIN asked for; the slot and window offset of a load, or the window address of a read,
at its start; the staging area; the bytes received in order, and the pieces ahead of them; for a read, the bytes acknowledged and
sent; the datagrams since the last BULK_ACK. -/
structure Bulk where
  read : Bool := false
  idx : Nat := 0
  sub : Nat := 0
  offset : Nat := 0
  len : Nat := 0
  crc : Nat := 0
  sig : List Byte := []
  slot : Nat := 0
  base : Nat := 0
  area : Nat := 0
  got : Nat := 0
  ahead : Tab Nat := []
  acked : Nat := 0
  sent : Nat := 0
  grams : Nat := 0
  deriving DecidableEq, Repr

/-- A part of a reply that waits for head configuration accesses (R240, R289): the entry's own header, the head it waits for. -/
structure Part where
  head : Option Nat := none
  hdr : List Byte := []
  res : Nat := 0
  data : List Byte := []
  deriving DecidableEq, Repr

/-- A READ or a WRITE under way whose reply waits (R24, R27, R240, R289): its sequence number, whether it is a READ, its parts, the entries
still to come, the bytes left for data in a READ's reply, and whether a fence stands before the entries. -/
structure Deferred where
  seq : Nat := 0
  read : Bool := false
  parts : List Part := []
  rest : List Entry := []
  room : Nat := 0
  fence : Bool := false
  src : Nat × List Byte := (0, [])
  deriving DecidableEq, Repr

/-- A session (R286-R296). -/
structure Session where
  opened : Bool := false
  cls : Nat := 0
  watched : Bool := false
  proven : Bool := false
  port : Nat := 0
  addr : List Byte := []
  hostNonce : List Byte := []
  nodeNonce : List Byte := []
  key : List Byte := []
  rwp : Nat := 0
  last : Nat := 0
  held : Tab Request := []
  replies : List (Nat × Nat × List Byte) := []
  deferred : Option Deferred := none
  mask : Nat := 0
  sets : Tab ReportSet := []
  queue : List Notice := []
  dropped : Nat := 0
  outSeq : Nat := 0
  bulks : Tab Bulk := []
  cursor : Nat := 0
  deriving DecidableEq, Repr

/-- The network side beside its objects (R271-R298). -/
structure Net where
  sessions : Tab Session := []
  seqs : Tab Nat := []
  failures : List Time := []
  macs : Tab (Nat × Time) := []
  withdrawn : Bool := false
  spiState : Nat := 0
  spiResult : Nat := 0
  spiReply : List Byte := []
  deriving DecidableEq, Repr

/-- A residence time kept by the transparent clock (R281). -/
structure Residence where
  kind : Nat := 0
  seqId : Nat := 0
  source : Nat := 0
  value : Int := 0
  at' : Time := 0
  deriving DecidableEq, Repr

/-- The time unit beside its objects (R276-R283). -/
structure Ptp where
  foreign : List PtpMsg := []
  master : Option PtpMsg := none
  announceAt : Time := 0
  syncWait : Option PtpMsg := none
  lastSync : Option (Int × Int) := none
  delaySent : Option (Nat × Int) := none
  pdelaySent : Option (Nat × Int) := none
  linkDelay : Tab Int := []
  pathDelay : Int := 0
  slewBase : Option Int := none
  residences : List Residence := []
  outSeq : Nat := 0
  deriving DecidableEq, Repr

/-- A bank of a subchannel (R314): its open row, its last row and its predictor. -/
structure Bank where
  openRow : Option Nat := none
  lastRow : Option Nat := none
  predict : Nat := 0
  lastUse : Time := 0
  deriving DecidableEq, Repr

/-- A request queued in a subchannel (R311): order of arrival, arrival time, the request. -/
structure Queued where
  order : Nat := 0
  at' : Time := 0
  req : MemReq
  late : Bool := false
  deriving DecidableEq, Repr

/-- A subchannel of the memory controller (R311-R316). -/
structure Subchannel where
  queue : List Queued := []
  banks : Tab Bank := []
  refreshDue : Nat := 0
  refreshAt : Time := 0
  nextBank : Nat := 0
  neighbours : List (Nat × Nat) := []
  deriving DecidableEq, Repr

/-- The memory controller beside its objects (R302-R320). -/
structure MemCtl where
  subs : Tab Subchannel := []
  order : Nat := 0
  idleAt : Tab Time := []
  scrubPos : Nat := 0
  attempts : Nat := 0
  layout : List Nat := []
  poison : Tab Nat := []
  driftAt : Time := 0
  deriving DecidableEq, Repr

/-- The tide tracker, the dips and the bollards beside their objects (R321-R339). The windows hold the latest interval last;
`input` are the levels of BOL0-BOL15, low on an open input (R388, log 10). -/
structure Mains where
  v2 : List (List Nat) := [[], [], []]
  i2 : List (List Nat) := [[], [], []]
  p : List (List Int) := [[], [], []]
  below : Nat := 0
  lowest : Nat := 0
  lowPhase : Nat := 0
  runAngle : Nat := 0
  runTime : Time := 0
  faultSince : Bool := false
  freqHeld : Nat := 50000
  advancing : Bool := false
  input : Nat := 0
  inactiveSince : Tab Time := []
  deriving DecidableEq, Repr

/-- An image of an update being staged, and the outcome of its verification (R363). -/
structure Update where
  staged : List Byte := []
  bank : Nat := 0
  cause : Nat := 0
  deriving DecidableEq, Repr

/-- A boot record in flash (R357). -/
structure BootRecord where
  seq : Nat := 0
  pilotBank : Nat := 0
  berthBank : Nat := 0
  pilotTrial : Nat := 0
  berthTrial : Nat := 0
  divider : Nat := 4
  deriving DecidableEq, Repr

/-- A logbook record (R365). -/
structure LogRecord where
  index : Nat := 0
  cls : Nat := 0
  num : Nat := 0
  code : Nat := 0
  t : Time := 0
  detail : List Byte := []
  crcOk : Bool := true
  deriving DecidableEq, Repr

/-- The NOR flash (R355): boot records, image banks (0 pilot A, 1 pilot B, 2 berth A, 3 berth B), breakwater copies, logbook
areas, store copies. -/
structure Flash where
  boot : List BootRecord := []
  images : Tab (List Byte) := []
  breakwater : List (List Byte) := []
  permanent : List LogRecord := []
  circulating : List LogRecord := []
  store : Option (Tab Val) := none
  storeOld : Option (Tab Val) := none
  big : Bool := true
  deriving DecidableEq, Repr

/-- Power, reset, boot, update and store beside their objects (R340-R364, R300). -/
structure Pilot where
  anchorage : Bool := false
  romRecovery : Bool := false
  storing : Option (Tab Val) := none
  restorePending : Bool := false
  update : Update := {}
  keptS : Tab Val := []
  resetAt : Time := 0
  hot : Int := 0
  deriving DecidableEq, Repr

/-- The logbook's staging in D0 (R368-R370). -/
structure Logbook where
  staging : List LogRecord := []
  firstAt : Time := 0
  lost : Nat := 0
  erasing : Bool := false
  deriving DecidableEq, Repr

/-- A berth's share of a calibration (R378): the place of its mark in its round, whether it has settled there, the frames still
awaited and the centroids so far; by run x 2^20 + mark the measured spot error, or 1 for a mark missing; by run the X and Y node
values of its map. -/
structure CalBerth where
  mark : Nat := 0
  settled : Bool := false
  awaited : Nat := 0
  sums : List (Nat × Nat × Bool) := []
  errors : Tab (Int × Int) := []
  missing : Tab Nat := []
  done : Bool := false
  maps : Tab (List Int) := []
  deriving DecidableEq, Repr

/-- A calibration (R377-R381). -/
structure Calib where
  mask : Nat := 0
  berths : Tab CalBerth := []
  result : Tab (List Byte) := []
  deriving DecidableEq, Repr

/-- What a command sends or drives outside the block. -/
inductive Out where
  /-- A frame on a head link, from its header to its CRC (R232). -/
  | frame (h : Nat) (bytes : List Byte)
  /-- A frame on the four lanes of a quay link (R244). -/
  | lanes (k : Nat) (bytes : List (List Byte))
  /-- A TICK on a link: the character boundary of its launch in 1/640 ns, its phase byte (R219, R235). -/
  | tick (l at' p : Nat)
  /-- A SLACK on every lane of a link (R222). -/
  | slack (l : Nat)
  /-- A MOP datagram of a session (0xFF: none), with the IPv4 and the IPv6 address it is sent from (R274, R284). -/
  | mop (sess : Nat) (src : Nat × List Byte) (bytes : List Byte)
  | multicast (payload : List Byte)
  | spi (bytes : List Byte)
  | ptp (type seqId : Nat) (requester : Nat) (time : Int)
  | ethernet (port : Nat) (f : EthFrame) (upper : Bool)
  | deliver (f : EthFrame)
  /-- A pulse on LTRG0, LTRG1 or PSYNC (pins 0-2) at a level, from a time for a width in ns (R155, R172). -/
  | pulse (pin : Nat) (start : Time) (width : Nat) (level : Bool)
  /-- BCN0-BCN15 (pins 0-15), PRJ0 or PRJ1 (16, 17) goes to a level at a time (R169-R172). -/
  | lamp (pin : Nat) (level : Bool) (t : Time)
  /-- A read of a register of a lamp board on the lamp bus (R174). -/
  | lampRead (addr reg : Nat)
  /-- LTRG0, LTRG1 or PSYNC is driven at a level from now on (R155, R172). -/
  | pin (pin : Nat) (level : Bool)
  /-- The duties of an axis's bridges of phases A and B, in Q1.31, for a PWM period from a time (R251, R252). -/
  | bridges (m : Nat) (a b : Int) (t : Time)
  /-- LENn (group 0), BCN0-BCN15, PRJ0 or PRJ1 (1), LTRG0, LTRG1 or PSYNC (2), or the four PWM pins of an axis (3) go to high
  impedance (R386). -/
  | highZ (group pin : Nat)
  | gate (b : Nat) (level : Bool) (t : Time)
  | len (b : Nat) (level : Bool) (t : Time)
  | dram (client addr : Nat) (data : List Byte) (poisoned : Bool)
  | issue (sc : Nat) (addr : Nat) (write : Bool)
  /-- A neighbour refresh: an activate and precharge of a row of a bank (R316). -/
  | neighbour (sc bank row : Nat)
  | value (sess : Nat) (bytes : List Byte)
  deriving DecidableEq, Repr

/-- The state of the block. -/
structure State where
  pending : List Instr := []
  out : List Out := []
  result : Nat := 0
  free : Nat := 0
  now : Time := 0
  frame : Nat := 0
  timeSet : Option Nat := none
  obj : Tab Val := []
  shadow : Tab Val := []
  dram : List Host.Cell := []
  berths : Tab Berth := []
  loops : Tab Loop := []
  ctxs : Tab Context := []
  links : Tab Link := []
  axes : Tab Axis := []
  ctrs : Tab Counter := []
  hm : Harbour := {}
  commit : Commit := {}
  vision : Vision := {}
  chart : Chart := {}
  bw : Breakwater := {}
  rcd : Recorder := {}
  wake : Wake := {}
  net : Net := {}
  ptp : Ptp := {}
  mem : MemCtl := {}
  mains : Mains := {}
  flash : Flash := {}
  pilot : Pilot := {}
  log : Logbook := {}
  cal : Calib := {}
  deriving DecidableEq, Repr

/-- The machine right after a power-on reset, its images loaded: P0, every object at its default but the reset cause (R349), the
bollard inputs, active on open pins (R388), the breakwater store state of a flash that holds no copy (R197, log 9) and the memory
state of the training under way (R303), every berth Idle (R67). Values the spec does not state are named in the log. -/
def State.reset : State := { obj := [(0x030102, .int 1), (0x040214, .int 0xFFFF), (0x510008, .int 1), (0x600001, .int 1)] }

end Sys2Proof.Machine
end

