-- ==== Sys2Proof/Machine/Dictionary.lean ====
section
/-!
DEFINITION. Sys2Proof/Machine/Dictionary.lean: the object dictionary (R9, R10, R301): a row for each line of the object
tables of spec/, with its type, access class, default, kind and the values a write may carry.
-/
namespace Sys2Proof.Machine

/-- The Type column of R9. -/
inductive Ty where
  | b1 | u8 | u16 | u32 | u64 | i16 | i32 | i64 | q31 | f32 | bu32 | ht80 | str | blob
  deriving DecidableEq, Repr

/-- The Access column of R9; `na` is an object at an instance that does not use it (R288, result 0x0002). -/
inductive Acc where
  | ro | rw | wo | rwc | rwf | rwp | na
  deriving DecidableEq, Repr

/-- The Kept column (R10). -/
inductive Kind where
  | v | w | s | f | p
  deriving DecidableEq, Repr

/-- The values a row lets a write carry, beside its type. -/
inductive Chk where
  | any
  | range (lo hi : Int)
  | oneOf (l : List Int)
  | mask (m : Nat)
  | mult (lo hi k : Nat)
  | zeroOr (lo hi : Int)
  | nz
  deriving DecidableEq, Repr

/-- A row: indices `idx + step * i` for i < `num`, subindices `sub` to `sub + subs - 1`. -/
structure Row where
  idx : Nat
  step : Nat
  num : Nat
  sub : Nat
  subs : Nat
  ty : Ty
  acc : Acc
  kind : Kind
  dflt : Int
  chk : Chk
  deriving DecidableEq, Repr

/-- The objects of 01_harbour_model.md. -/
def rowsHarbour : List Row := [
  ⟨0x1800, 0x0, 1, 0x01, 1, .u8, .rw, .s, 0, .range (0) (7)⟩,
  ⟨0x1800, 0x0, 1, 0x02, 1, .u8, .rw, .s, 1, .range (1) (8)⟩,
  ⟨0x1800, 0x0, 1, 0x03, 1, .u8, .rw, .s, 0, .oneOf [0, 1]⟩,
  ⟨0x1800, 0x0, 1, 0x04, 1, .bu32, .rwc, .s, 0, .any⟩,
  ⟨0x1800, 0x0, 1, 0x05, 1, .bu32, .rwc, .s, 0, .any⟩,
  ⟨0x1800, 0x0, 1, 0x06, 1, .bu32, .rwc, .s, 0, .any⟩,
  ⟨0x1800, 0x0, 1, 0x07, 1, .bu32, .rwc, .s, 0, .any⟩,
  ⟨0x1800, 0x0, 1, 0x08, 1, .u32, .rw, .s, 200000, .any⟩,
  ⟨0x1800, 0x0, 1, 0x09, 1, .bu32, .rwc, .s, 12800, .range (0) (1280000)⟩,
  ⟨0x1800, 0x0, 1, 0x0A, 1, .u8, .wo, .v, 0, .oneOf [1, 2, 3]⟩]

/-- The objects of 02_manifest_and_commit.md. -/
def rowsCommit : List Row := [
  ⟨0x8000, 0x0, 1, 0x01, 1, .u32, .wo, .v, 0, .any⟩,
  ⟨0x8000, 0x0, 1, 0x02, 1, .u8, .rw, .s, 0, .oneOf [0, 1, 2]⟩,
  ⟨0x8000, 0x0, 1, 0x03, 1, .u8, .rw, .s, 0, .range (0) (7)⟩,
  ⟨0x8000, 0x0, 1, 0x04, 1, .i32, .rw, .v, 0, .any⟩,
  ⟨0x8000, 0x0, 1, 0x05, 1, .u8, .rw, .s, 0, .oneOf [0, 1]⟩,
  ⟨0x8000, 0x0, 1, 0x06, 1, .ht80, .rw, .v, 0, .any⟩,
  ⟨0x8000, 0x0, 1, 0x07, 1, .u32, .rw, .s, 2000, .range (10) (60000)⟩,
  ⟨0x8000, 0x0, 1, 0x08, 1, .u8, .ro, .v, 0, .any⟩,
  ⟨0x8000, 0x0, 1, 0x09, 1, .u32, .ro, .w, 0, .any⟩,
  ⟨0x8000, 0x0, 1, 0x0A, 1, .ht80, .ro, .w, 0, .any⟩,
  ⟨0x8000, 0x0, 1, 0x0B, 1, .u16, .ro, .v, 0, .any⟩,
  ⟨0x8000, 0x0, 1, 0x0C, 1, .blob, .ro, .v, 0, .any⟩,
  ⟨0x8000, 0x0, 1, 0x0D, 1, .u8, .wo, .v, 0, .oneOf [1]⟩,
  ⟨0x8000, 0x0, 1, 0x0F, 1, .u32, .rw, .s, 10000, .any⟩,
  ⟨0x8001, 0x0, 1, 0x01, 1, .u32, .rw, .v, 0, .any⟩,
  ⟨0x8001, 0x0, 1, 0x02, 1, .u32, .rw, .v, 0, .mask 16777215⟩,
  ⟨0x8001, 0x0, 1, 0x03, 1, .u32, .rw, .v, 0, .mask 15⟩,
  ⟨0x8001, 0x0, 1, 0x04, 1, .u32, .rw, .v, 0, .mask 16777215⟩,
  ⟨0x8002, 0x0, 1, 0x01, 1, .u32, .rw, .v, 0, .any⟩,
  ⟨0x8002, 0x0, 1, 0x02, 1, .u32, .rw, .v, 0, .any⟩,
  ⟨0x8002, 0x0, 1, 0x03, 1, .u32, .rwp, .v, 0, .any⟩,
  ⟨0x8002, 0x0, 1, 0x04, 1, .u32, .rw, .v, 0, .any⟩,
  ⟨0x8002, 0x0, 1, 0x10, 24, .u32, .rw, .v, 0, .any⟩,
  ⟨0x8100, 0x1, 24, 0x01, 1, .u8, .rw, .v, 0, .range (0) (3)⟩,
  ⟨0x8100, 0x1, 24, 0x02, 1, .u32, .rw, .v, 0, .any⟩,
  ⟨0x8100, 0x1, 24, 0x03, 1, .blob, .wo, .v, 0, .any⟩,
  ⟨0x8100, 0x1, 24, 0x04, 1, .u32, .wo, .v, 0, .any⟩,
  ⟨0x8100, 0x1, 24, 0x05, 4, .u8, .ro, .w, 0, .any⟩,
  ⟨0x8100, 0x1, 24, 0x09, 4, .u32, .ro, .w, 0, .any⟩,
  ⟨0x8100, 0x1, 24, 0x0D, 1, .u16, .ro, .v, 0, .any⟩,
  ⟨0x8100, 0x1, 24, 0x0E, 1, .u32, .ro, .v, 0, .any⟩,
  ⟨0x8100, 0x1, 24, 0x0F, 1, .u8, .wo, .v, 0, .range (0) (3)⟩,
  ⟨0x8100, 0x1, 24, 0x10, 1, .u64, .ro, .w, 0, .any⟩,
  ⟨0x8100, 0x1, 24, 0x11, 1, .u8, .wo, .v, 0, .oneOf [1]⟩]

/-- The objects of 03_berth_exposure.md. -/
def rowsBerth : List Row := [
  ⟨0x1000, 0x40, 24, 0x01, 1, .u8, .ro, .w, 0, .any⟩,
  ⟨0x1000, 0x40, 24, 0x02, 1, .u32, .ro, .w, 0, .any⟩,
  ⟨0x1000, 0x40, 24, 0x03, 1, .bu32, .ro, .v, 0, .any⟩,
  ⟨0x1000, 0x40, 24, 0x04, 1, .bu32, .ro, .v, 0, .any⟩,
  ⟨0x1000, 0x40, 24, 0x05, 1, .bu32, .ro, .v, 0, .any⟩,
  ⟨0x1000, 0x40, 24, 0x06, 1, .u16, .ro, .w, 0, .any⟩,
  ⟨0x1000, 0x40, 24, 0x07, 1, .b1, .ro, .v, 0, .any⟩,
  ⟨0x1001, 0x40, 24, 0x01, 1, .u8, .wo, .v, 0, .oneOf [1, 2, 3, 4]⟩,
  ⟨0x1001, 0x40, 24, 0x02, 1, .u32, .ro, .w, 0, .any⟩,
  ⟨0x1001, 0x40, 24, 0x03, 1, .bu32, .ro, .w, 0, .any⟩,
  ⟨0x1001, 0x40, 24, 0x04, 1, .u32, .ro, .w, 0, .any⟩,
  ⟨0x1001, 0x40, 24, 0x05, 1, .ht80, .ro, .w, 0, .any⟩,
  ⟨0x1001, 0x40, 24, 0x06, 1, .u32, .ro, .w, 0, .any⟩,
  ⟨0x1001, 0x40, 24, 0x07, 1, .bu32, .ro, .w, 0, .any⟩,
  ⟨0x1001, 0x40, 24, 0x08, 1, .u8, .ro, .w, 0, .any⟩,
  ⟨0x1002, 0x40, 24, 0x01, 1, .u32, .rwc, .s, 0, .range (0) (640000)⟩,
  ⟨0x1002, 0x40, 24, 0x02, 1, .u32, .rwc, .s, 0, .range (0) (640000)⟩,
  ⟨0x1002, 0x40, 24, 0x03, 1, .u8, .rwc, .s, 1, .oneOf [0, 1]⟩,
  ⟨0x1002, 0x40, 24, 0x04, 1, .u8, .rwc, .s, 1, .oneOf [0, 1]⟩,
  ⟨0x1002, 0x40, 24, 0x05, 1, .u16, .rwc, .s, 500, .range (100) (5000)⟩,
  ⟨0x1002, 0x40, 24, 0x06, 1, .u32, .rwc, .s, 50000, .range (1000) (500000)⟩,
  ⟨0x1002, 0x40, 24, 0x07, 1, .bu32, .rwc, .s, 6400, .range (128) (128000)⟩,
  ⟨0x1002, 0x40, 24, 0x08, 1, .u32, .rwc, .s, 5000000, .range (1000) (20000000)⟩,
  ⟨0x1003, 0x40, 24, 0x01, 1, .u8, .rwc, .s, 2, .oneOf [0, 2]⟩,
  ⟨0x1003, 0x40, 24, 0x02, 1, .u32, .ro, .v, 0, .any⟩,
  ⟨0x1003, 0x40, 24, 0x03, 1, .u8, .ro, .v, 0, .any⟩,
  ⟨0x1004, 0x40, 24, 0x01, 4, .i16, .ro, .v, 0, .any⟩,
  ⟨0x1004, 0x40, 24, 0x05, 1, .i16, .rwf, .s, 600, .any⟩,
  ⟨0x1004, 0x40, 24, 0x06, 1, .i16, .rwf, .s, 700, .any⟩,
  ⟨0x1004, 0x40, 24, 0x07, 1, .u16, .rwf, .s, 20, .any⟩,
  ⟨0x1004, 0x40, 24, 0x08, 1, .u16, .rwf, .s, 50, .range (5) (1000)⟩,
  ⟨0x1004, 0x40, 24, 0x09, 1, .u8, .ro, .v, 0, .any⟩,
  ⟨0x1005, 0x40, 24, 0x01, 1, .u32, .rwc, .s, 0, .any⟩,
  ⟨0x1005, 0x40, 24, 0x02, 1, .bu32, .rwc, .s, 0, .any⟩,
  ⟨0x1005, 0x40, 24, 0x03, 1, .bu32, .rwc, .s, 0, .any⟩,
  ⟨0x1005, 0x40, 24, 0x04, 1, .bu32, .rwc, .s, 0, .range (1280) (1024000)⟩,
  ⟨0x1005, 0x40, 24, 0x05, 1, .blob, .rwc, .s, 0, .any⟩,
  ⟨0x1005, 0x40, 24, 0x06, 1, .u32, .ro, .s, 0, .any⟩,
  ⟨0x1005, 0x40, 24, 0x07, 1, .u8, .ro, .v, 0, .any⟩,
  ⟨0x1005, 0x40, 24, 0x08, 1, .f32, .rwc, .s, 0, .any⟩,
  ⟨0x1006, 0x40, 24, 0x01, 1, .u64, .ro, .w, 0, .any⟩,
  ⟨0x1006, 0x40, 24, 0x02, 1, .u32, .ro, .w, 0, .any⟩,
  ⟨0x1006, 0x40, 24, 0x03, 1, .u32, .ro, .w, 0, .any⟩,
  ⟨0x1006, 0x40, 24, 0x04, 1, .u32, .ro, .w, 0, .any⟩,
  ⟨0x1006, 0x40, 24, 0x05, 1, .u32, .ro, .w, 0, .any⟩] ++ [
  ⟨0x1006, 0x40, 24, 0x06, 1, .u32, .ro, .w, 0, .any⟩,
  ⟨0x1006, 0x40, 24, 0x07, 1, .u8, .wo, .v, 0, .oneOf [1]⟩]

/-- The objects of 04_harbourmaster.md. -/
def rowsHarbourmaster : List Row := [
  ⟨0x1801, 0x0, 1, 0x01, 1, .bu32, .rwc, .s, 640000, .range (12800) (12800000)⟩,
  ⟨0x1801, 0x0, 1, 0x02, 1, .u32, .rwc, .s, 50000, .range (10000) (1000000)⟩,
  ⟨0x1801, 0x0, 1, 0x03, 1, .i32, .rwc, .s, 0, .any⟩,
  ⟨0x1801, 0x0, 1, 0x04, 1, .i32, .rwc, .s, 0, .any⟩,
  ⟨0x1801, 0x0, 1, 0x05, 1, .bu32, .rwc, .s, 5120000, .range (0) (64000000)⟩,
  ⟨0x1801, 0x0, 1, 0x06, 1, .u16, .rwc, .s, 1000, .range (0) (4500)⟩,
  ⟨0x1801, 0x0, 1, 0x07, 1, .bu32, .rwc, .s, 128000, .range (0) (1280000)⟩,
  ⟨0x1801, 0x0, 1, 0x08, 1, .u8, .rwc, .s, 3, .mask 3⟩,
  ⟨0x1802, 0x0, 1, 0x01, 3, .u32, .rwc, .s, 0, .any⟩,
  ⟨0x1802, 0x0, 1, 0x04, 1, .u16, .rwc, .s, 1000, .range (0) (5000)⟩,
  ⟨0x1802, 0x0, 1, 0x05, 1, .u16, .rwc, .s, 500, .range (0) (5000)⟩,
  ⟨0x1802, 0x0, 1, 0x06, 1, .u32, .rwc, .s, 100, .range (1) (60000)⟩,
  ⟨0x1802, 0x0, 1, 0x07, 1, .u8, .rwc, .s, 1, .range (1) (16)⟩,
  ⟨0x1802, 0x0, 1, 0x08, 1, .u32, .rwc, .s, 0, .any⟩,
  ⟨0x1802, 0x0, 1, 0x09, 3, .u32, .ro, .v, 0, .any⟩,
  ⟨0x1803, 0x0, 1, 0x01, 24, .u32, .rwc, .s, 0, .any⟩,
  ⟨0x1804, 0x0, 1, 0x01, 24, .u8, .rwc, .s, 0, .mask 63⟩,
  ⟨0x1805, 0x0, 1, 0x01, 1, .u8, .rwc, .s, 1, .oneOf [0, 1]⟩,
  ⟨0x1805, 0x0, 1, 0x02, 1, .bu32, .rwc, .s, 256, .range (64) (12800)⟩,
  ⟨0x1805, 0x0, 1, 0x03, 1, .u32, .rwc, .s, 20000, .range (5000) (1000000)⟩,
  ⟨0x1805, 0x0, 1, 0x04, 1, .u32, .ro, .w, 0, .any⟩,
  ⟨0x1805, 0x0, 1, 0x05, 1, .u32, .ro, .w, 0, .any⟩,
  ⟨0x1805, 0x0, 1, 0x06, 1, .u32, .ro, .w, 0, .any⟩,
  ⟨0x1806, 0x0, 1, 0x01, 1, .b1, .rwc, .s, 0, .range (0) (1)⟩,
  ⟨0x1806, 0x0, 1, 0x02, 1, .u8, .wo, .v, 0, .range (0) (23)⟩,
  ⟨0x1806, 0x0, 1, 0x03, 1, .u32, .ro, .w, 0, .any⟩,
  ⟨0x1806, 0x0, 1, 0x10, 24, .u8, .ro, .w, 255, .any⟩,
  ⟨0x1807, 0x0, 1, 0x01, 24, .u32, .rwc, .s, 0, .mask 16777215⟩,
  ⟨0x1808, 0x0, 1, 0x01, 1, .u32, .ro, .w, 0, .any⟩,
  ⟨0x1808, 0x0, 1, 0x02, 1, .u32, .ro, .w, 0, .any⟩,
  ⟨0x1808, 0x0, 1, 0x03, 1, .u32, .ro, .w, 0, .any⟩,
  ⟨0x1808, 0x0, 1, 0x04, 1, .u32, .ro, .w, 0, .any⟩,
  ⟨0x1808, 0x0, 1, 0x05, 1, .u32, .ro, .v, 0, .any⟩,
  ⟨0x1808, 0x0, 1, 0x06, 1, .i32, .ro, .v, 0, .any⟩,
  ⟨0x1808, 0x0, 1, 0x07, 1, .u32, .ro, .w, 0, .any⟩,
  ⟨0x1808, 0x0, 1, 0x08, 1, .u8, .wo, .v, 0, .oneOf [1]⟩]

/-- The objects of 05_loop_engine.md. -/
def rowsLoop : List Row := [
  ⟨0x2000, 0x80, 24, 0x01, 1, .u8, .rwc, .s, 1, .oneOf [0, 1]⟩,
  ⟨0x2010, 0x80, 24, 0x01, 1, .u8, .rwc, .s, 1, .oneOf [0, 1]⟩,
  ⟨0x2020, 0x80, 24, 0x01, 1, .u8, .rwc, .s, 4, .oneOf [0, 2, 4, 5, 8, 10, 16, 20, 40, 80]⟩,
  ⟨0x2030, 0x80, 24, 0x01, 1, .u8, .rwc, .s, 4, .oneOf [0, 2, 4, 5, 8, 10, 16, 20, 40, 80]⟩,
  ⟨0x2040, 0x80, 24, 0x01, 1, .u8, .rwc, .s, 4, .oneOf [0, 1, 2, 4, 5, 8, 10, 16, 20, 40, 80]⟩,
  ⟨0x2050, 0x80, 24, 0x01, 1, .u8, .rwc, .s, 1, .oneOf [0, 1]⟩,
  ⟨0x2060, 0x80, 24, 0x01, 1, .u8, .rwc, .s, 16, .oneOf [0, 2, 4, 5, 8, 10, 16, 20, 40, 80]⟩,
  ⟨0x2070, 0x80, 24, 0x01, 1, .u8, .rwc, .s, 20, .oneOf [0, 2, 4, 5, 8, 10, 16, 20, 40, 80]⟩,
  ⟨0x2000, 0x80, 24, 0x02, 1, .u8, .rwc, .s, 0, .range (0) (79)⟩,
  ⟨0x2010, 0x80, 24, 0x02, 1, .u8, .rwc, .s, 0, .range (0) (79)⟩,
  ⟨0x2020, 0x80, 24, 0x02, 1, .u8, .rwc, .s, 0, .range (0) (79)⟩,
  ⟨0x2030, 0x80, 24, 0x02, 1, .u8, .rwc, .s, 1, .range (0) (79)⟩,
  ⟨0x2040, 0x80, 24, 0x02, 1, .u8, .rwc, .s, 2, .range (0) (79)⟩,
  ⟨0x2050, 0x80, 24, 0x02, 1, .u8, .rwc, .s, 0, .range (0) (79)⟩,
  ⟨0x2060, 0x80, 24, 0x02, 1, .u8, .rwc, .s, 3, .range (0) (79)⟩,
  ⟨0x2070, 0x80, 24, 0x02, 1, .u8, .rwc, .s, 7, .range (0) (79)⟩,
  ⟨0x2000, 0x80, 24, 0x03, 1, .u8, .rwc, .s, 4, .mask 7⟩,
  ⟨0x2010, 0x80, 24, 0x03, 1, .u8, .rwc, .s, 4, .mask 7⟩,
  ⟨0x2020, 0x80, 24, 0x03, 1, .u8, .rwc, .s, 0, .mask 7⟩,
  ⟨0x2030, 0x80, 24, 0x03, 1, .u8, .rwc, .s, 0, .mask 7⟩,
  ⟨0x2040, 0x80, 24, 0x03, 1, .u8, .rwc, .s, 0, .mask 7⟩,
  ⟨0x2050, 0x80, 24, 0x03, 1, .u8, .rwc, .s, 0, .mask 7⟩,
  ⟨0x2060, 0x80, 24, 0x03, 1, .u8, .rwc, .s, 0, .mask 7⟩,
  ⟨0x2070, 0x80, 24, 0x03, 1, .u8, .rwc, .s, 0, .mask 3⟩,
  ⟨0x2000, 0x80, 24, 0x04, 1, .u8, .rwc, .s, 0, .range (0) (0)⟩,
  ⟨0x2010, 0x80, 24, 0x04, 1, .u8, .rwc, .s, 0, .range (0) (0)⟩,
  ⟨0x2020, 0x80, 24, 0x04, 1, .u8, .rwc, .s, 0, .range (0) (0)⟩,
  ⟨0x2030, 0x80, 24, 0x04, 1, .u8, .rwc, .s, 0, .range (0) (0)⟩,
  ⟨0x2040, 0x80, 24, 0x04, 1, .u8, .rwc, .s, 0, .range (0) (0)⟩,
  ⟨0x2050, 0x80, 24, 0x04, 1, .u8, .rwc, .s, 0, .range (0) (0)⟩,
  ⟨0x2060, 0x80, 24, 0x04, 1, .u8, .rwc, .s, 1, .range (0) (2)⟩,
  ⟨0x2070, 0x80, 24, 0x04, 1, .u8, .rwc, .s, 0, .range (0) (1)⟩,
  ⟨0x2000, 0x10, 192, 0x05, 1, .q31, .rwc, .s, 214748365, .any⟩,
  ⟨0x2000, 0x80, 24, 0x06, 1, .u8, .rwc, .s, 0, .oneOf [0, 1, 2]⟩,
  ⟨0x2010, 0x80, 24, 0x06, 1, .u8, .rwc, .s, 0, .oneOf [0, 1, 2]⟩,
  ⟨0x2020, 0x80, 24, 0x06, 1, .u8, .rwc, .s, 0, .oneOf [0, 1, 2]⟩,
  ⟨0x2030, 0x80, 24, 0x06, 1, .u8, .rwc, .s, 0, .oneOf [0, 1, 2]⟩,
  ⟨0x2040, 0x80, 24, 0x06, 1, .u8, .rwc, .s, 0, .oneOf [0, 1, 2]⟩,
  ⟨0x2050, 0x80, 24, 0x06, 1, .u8, .rwc, .s, 2, .oneOf [0, 1, 2]⟩,
  ⟨0x2060, 0x80, 24, 0x06, 1, .u8, .rwc, .s, 2, .oneOf [0, 1, 2]⟩,
  ⟨0x2070, 0x80, 24, 0x06, 1, .u8, .rwc, .s, 1, .oneOf [0, 1, 2]⟩,
  ⟨0x2000, 0x80, 24, 0x07, 1, .u16, .na, .s, 0, .any⟩,
  ⟨0x2010, 0x80, 24, 0x07, 1, .u16, .na, .s, 0, .any⟩,
  ⟨0x2020, 0x80, 24, 0x07, 1, .u16, .na, .s, 0, .any⟩,
  ⟨0x2030, 0x80, 24, 0x07, 1, .u16, .na, .s, 0, .any⟩] ++ [
  ⟨0x2040, 0x80, 24, 0x07, 1, .u16, .na, .s, 0, .any⟩,
  ⟨0x2050, 0x80, 24, 0x07, 1, .u16, .na, .s, 0, .any⟩,
  ⟨0x2060, 0x80, 24, 0x07, 1, .u16, .rwc, .s, 0, .any⟩,
  ⟨0x2070, 0x80, 24, 0x07, 1, .u16, .rwc, .s, 0, .any⟩,
  ⟨0x2001, 0x80, 24, 0x01, 1, .u8, .rwf, .w, 1, .oneOf [0, 1]⟩,
  ⟨0x2011, 0x80, 24, 0x01, 1, .u8, .rwf, .w, 1, .oneOf [0, 1]⟩,
  ⟨0x2021, 0x80, 24, 0x01, 1, .u8, .rwf, .w, 1, .oneOf [0, 1]⟩,
  ⟨0x2031, 0x80, 24, 0x01, 1, .u8, .rwf, .w, 1, .oneOf [0, 1]⟩,
  ⟨0x2041, 0x80, 24, 0x01, 1, .u8, .rwf, .w, 1, .oneOf [0, 1]⟩,
  ⟨0x2051, 0x80, 24, 0x01, 1, .u8, .rwf, .w, 1, .oneOf [0, 1]⟩,
  ⟨0x2061, 0x80, 24, 0x01, 1, .u8, .rwf, .w, 0, .oneOf [0, 1]⟩,
  ⟨0x2071, 0x80, 24, 0x01, 1, .u8, .rwf, .w, 1, .oneOf [0, 1]⟩,
  ⟨0x2001, 0x10, 192, 0x02, 1, .q31, .rwf, .s, 0, .any⟩,
  ⟨0x2001, 0x10, 192, 0x03, 1, .q31, .rwf, .s, 2147484, .any⟩,
  ⟨0x2001, 0x10, 192, 0x04, 1, .u8, .rwf, .w, 0, .oneOf [0, 1]⟩,
  ⟨0x2001, 0x80, 24, 0x05, 1, .q31, .na, .s, 0, .any⟩,
  ⟨0x2011, 0x80, 24, 0x05, 1, .q31, .na, .s, 0, .any⟩,
  ⟨0x2021, 0x80, 24, 0x05, 1, .q31, .na, .s, 0, .any⟩,
  ⟨0x2031, 0x80, 24, 0x05, 1, .q31, .na, .s, 0, .any⟩,
  ⟨0x2041, 0x80, 24, 0x05, 1, .q31, .na, .s, 0, .any⟩,
  ⟨0x2051, 0x80, 24, 0x05, 1, .q31, .na, .s, 0, .any⟩,
  ⟨0x2061, 0x80, 24, 0x05, 1, .q31, .rwf, .s, 0, .any⟩,
  ⟨0x2071, 0x80, 24, 0x05, 1, .q31, .rwf, .s, 0, .any⟩,
  ⟨0x2001, 0x10, 192, 0x06, 1, .u8, .wo, .v, 0, .oneOf [1]⟩,
  ⟨0x2002, 0x10, 192, 0x01, 1, .i32, .rw, .s, 0, .any⟩,
  ⟨0x2003, 0x10, 192, 0x01, 1, .i32, .rw, .s, 0, .any⟩,
  ⟨0x2002, 0x10, 192, 0x02, 1, .i32, .rw, .s, 0, .any⟩,
  ⟨0x2003, 0x10, 192, 0x02, 1, .i32, .rw, .s, 0, .any⟩,
  ⟨0x2002, 0x10, 192, 0x03, 1, .i32, .rw, .s, 0, .any⟩,
  ⟨0x2003, 0x10, 192, 0x03, 1, .i32, .rw, .s, 0, .any⟩,
  ⟨0x2002, 0x10, 192, 0x04, 1, .i32, .rw, .s, 0, .any⟩,
  ⟨0x2003, 0x10, 192, 0x04, 1, .i32, .rw, .s, 0, .any⟩,
  ⟨0x2002, 0x10, 192, 0x05, 1, .i32, .rw, .s, 0, .any⟩,
  ⟨0x2003, 0x10, 192, 0x05, 1, .i32, .rw, .s, 0, .any⟩,
  ⟨0x2002, 0x10, 192, 0x06, 1, .i32, .rw, .s, 16777216, .any⟩,
  ⟨0x2002, 0x10, 192, 0x07, 4, .i32, .rw, .s, 0, .any⟩,
  ⟨0x2003, 0x10, 192, 0x06, 1, .i32, .rw, .s, 16777216, .any⟩,
  ⟨0x2003, 0x10, 192, 0x07, 4, .i32, .rw, .s, 0, .any⟩,
  ⟨0x2002, 0x10, 192, 0x0B, 1, .i32, .rw, .s, 16777216, .any⟩,
  ⟨0x2002, 0x10, 192, 0x0C, 4, .i32, .rw, .s, 0, .any⟩,
  ⟨0x2003, 0x10, 192, 0x0B, 1, .i32, .rw, .s, 16777216, .any⟩,
  ⟨0x2003, 0x10, 192, 0x0C, 4, .i32, .rw, .s, 0, .any⟩,
  ⟨0x2002, 0x10, 192, 0x10, 1, .q31, .rw, .s, (-2147483648), .any⟩,
  ⟨0x2003, 0x10, 192, 0x10, 1, .q31, .rw, .s, (-2147483648), .any⟩,
  ⟨0x2002, 0x10, 192, 0x11, 1, .q31, .rw, .s, 2147483647, .any⟩] ++ [
  ⟨0x2003, 0x10, 192, 0x11, 1, .q31, .rw, .s, 2147483647, .any⟩,
  ⟨0x2002, 0x10, 192, 0x12, 1, .q31, .rw, .s, (-2147483648), .any⟩,
  ⟨0x2003, 0x10, 192, 0x12, 1, .q31, .rw, .s, (-2147483648), .any⟩,
  ⟨0x2002, 0x10, 192, 0x13, 1, .q31, .rw, .s, 2147483647, .any⟩,
  ⟨0x2003, 0x10, 192, 0x13, 1, .q31, .rw, .s, 2147483647, .any⟩,
  ⟨0x2004, 0x10, 192, 0x01, 1, .u8, .rwc, .s, 3, .mask 15⟩,
  ⟨0x2004, 0x10, 192, 0x02, 1, .q31, .rwc, .s, (-2147483648), .any⟩,
  ⟨0x2004, 0x10, 192, 0x03, 1, .q31, .rwc, .s, 2147483647, .any⟩,
  ⟨0x2004, 0x10, 192, 0x04, 1, .q31, .rwc, .s, 2147483647, .any⟩,
  ⟨0x2004, 0x10, 192, 0x05, 1, .i32, .rwc, .s, 0, .any⟩,
  ⟨0x2004, 0x10, 192, 0x06, 1, .i32, .rwc, .s, 0, .any⟩,
  ⟨0x2004, 0x10, 192, 0x07, 1, .u8, .rwc, .s, 0, .range (0) (15)⟩,
  ⟨0x2004, 0x10, 192, 0x08, 1, .q31, .rwc, .s, 2147483647, .any⟩,
  ⟨0x2004, 0x10, 192, 0x09, 1, .u16, .rwc, .s, 4, .range (1) (1000)⟩,
  ⟨0x2005, 0x80, 24, 0x01, 1, .u8, .ro, .w, 1, .any⟩,
  ⟨0x2015, 0x80, 24, 0x01, 1, .u8, .ro, .w, 1, .any⟩,
  ⟨0x2025, 0x80, 24, 0x01, 1, .u8, .ro, .w, 1, .any⟩,
  ⟨0x2035, 0x80, 24, 0x01, 1, .u8, .ro, .w, 1, .any⟩,
  ⟨0x2045, 0x80, 24, 0x01, 1, .u8, .ro, .w, 1, .any⟩,
  ⟨0x2055, 0x80, 24, 0x01, 1, .u8, .ro, .w, 1, .any⟩,
  ⟨0x2065, 0x80, 24, 0x01, 1, .u8, .ro, .w, 0, .any⟩,
  ⟨0x2075, 0x80, 24, 0x01, 1, .u8, .ro, .w, 1, .any⟩,
  ⟨0x2005, 0x10, 192, 0x02, 1, .u8, .ro, .w, 0, .any⟩,
  ⟨0x2005, 0x10, 192, 0x03, 1, .u16, .ro, .v, 0, .any⟩,
  ⟨0x2005, 0x10, 192, 0x04, 1, .q31, .ro, .v, 0, .any⟩,
  ⟨0x2005, 0x10, 192, 0x05, 1, .q31, .ro, .v, 0, .any⟩,
  ⟨0x2005, 0x10, 192, 0x06, 1, .q31, .ro, .v, 0, .any⟩,
  ⟨0x2005, 0x10, 192, 0x07, 1, .q31, .ro, .v, 0, .any⟩,
  ⟨0x2005, 0x10, 192, 0x08, 1, .q31, .ro, .v, 0, .any⟩,
  ⟨0x2005, 0x10, 192, 0x09, 1, .u8, .ro, .w, 0, .any⟩,
  ⟨0x2005, 0x10, 192, 0x0A, 1, .u8, .ro, .w, 0, .any⟩,
  ⟨0x2005, 0x10, 192, 0x0B, 1, .i32, .ro, .v, 16777216, .any⟩,
  ⟨0x2005, 0x10, 192, 0x0C, 1, .q31, .ro, .v, 0, .any⟩,
  ⟨0x2006, 0x10, 192, 0x01, 1, .u64, .ro, .w, 0, .any⟩,
  ⟨0x2006, 0x10, 192, 0x02, 1, .u32, .ro, .w, 0, .any⟩,
  ⟨0x2006, 0x10, 192, 0x03, 1, .u32, .ro, .w, 0, .any⟩,
  ⟨0x2006, 0x10, 192, 0x04, 1, .u32, .ro, .w, 0, .any⟩,
  ⟨0x2006, 0x10, 192, 0x05, 1, .u32, .ro, .w, 0, .any⟩,
  ⟨0x2006, 0x10, 192, 0x06, 1, .u32, .ro, .w, 0, .any⟩,
  ⟨0x2006, 0x10, 192, 0x07, 1, .u8, .wo, .v, 0, .oneOf [1]⟩,
  ⟨0x3000, 0x0, 1, 0x01, 1, .u16, .ro, .v, 3808, .any⟩,
  ⟨0x3000, 0x0, 1, 0x02, 1, .u16, .ro, .v, 3808, .any⟩,
  ⟨0x3000, 0x0, 1, 0x03, 1, .u8, .ro, .v, 67, .any⟩,
  ⟨0x3000, 0x0, 1, 0x04, 1, .u8, .ro, .v, 0, .any⟩,
  ⟨0x3001, 0x0, 1, 0x01, 1, .u8, .rwc, .s, 0, .oneOf [0, 1]⟩] ++ [
  ⟨0x3002, 0x0, 1, 0x01, 1, .u32, .ro, .w, 0, .any⟩,
  ⟨0x3002, 0x0, 1, 0x02, 1, .u32, .ro, .w, 0, .any⟩,
  ⟨0x3002, 0x0, 1, 0x03, 1, .u32, .ro, .w, 0, .any⟩,
  ⟨0x3002, 0x0, 1, 0x04, 1, .u8, .wo, .v, 0, .oneOf [1]⟩]

/-- The objects of 06_melt_pool_vision.md. -/
def rowsVision : List Row := [
  ⟨0x4100, 0x8, 26, 0x01, 1, .b1, .rw, .s, 0, .range (0) (1)⟩,
  ⟨0x4100, 0x8, 24, 0x02, 1, .u16, .rwf, .s, 64, .mult 16 256 16⟩,
  ⟨0x41C0, 0x8, 2, 0x02, 1, .u16, .rwf, .s, 4096, .mult 64 8192 16⟩,
  ⟨0x4100, 0x8, 24, 0x03, 1, .u16, .rwf, .s, 64, .mult 16 256 16⟩,
  ⟨0x41C0, 0x8, 2, 0x03, 1, .u16, .rwf, .s, 3072, .mult 16 8192 16⟩,
  ⟨0x4100, 0x8, 26, 0x04, 1, .u8, .rwf, .s, 12, .oneOf [8, 10, 12]⟩,
  ⟨0x4100, 0x8, 26, 0x05, 1, .u8, .rwf, .s, 1, .oneOf [0, 1, 2]⟩,
  ⟨0x4100, 0x8, 24, 0x06, 1, .u8, .rwf, .s, 16, .range (1) (255)⟩,
  ⟨0x41C0, 0x8, 2, 0x06, 1, .u8, .na, .s, 16, .range (1) (255)⟩,
  ⟨0x4100, 0x8, 26, 0x07, 1, .u32, .rwf, .s, 20000, .range (1000) (1000000000)⟩,
  ⟨0x4100, 0x8, 24, 0x08, 1, .u8, .rw, .s, 8, .range (1) (15)⟩,
  ⟨0x41C0, 0x8, 2, 0x08, 1, .u8, .rw, .s, 2, .range (1) (15)⟩,
  ⟨0x4100, 0x8, 26, 0x09, 1, .u8, .rw, .s, 2, .range (0) (7)⟩,
  ⟨0x4100, 0x8, 26, 0x0A, 1, .u8, .rw, .s, 4, .range (1) (16)⟩,
  ⟨0x4100, 0x8, 24, 0x0B, 1, .u8, .na, .s, 0, .range (0) (3)⟩,
  ⟨0x41C0, 0x8, 2, 0x0B, 1, .u8, .rw, .s, 0, .range (0) (3)⟩,
  ⟨0x4100, 0x8, 24, 0x0C, 1, .u8, .na, .s, 4, .oneOf [1, 2, 4]⟩,
  ⟨0x41C0, 0x8, 2, 0x0C, 1, .u8, .rw, .s, 4, .oneOf [1, 2, 4]⟩,
  ⟨0x4100, 0x8, 24, 0x0D, 1, .u8, .na, .v, 0, .oneOf [1]⟩,
  ⟨0x41C0, 0x8, 2, 0x0D, 1, .u8, .wo, .v, 0, .oneOf [1]⟩,
  ⟨0x4100, 0x8, 24, 0x0E, 1, .u32, .na, .s, 100, .range (1) (10000)⟩,
  ⟨0x41C0, 0x8, 2, 0x0E, 1, .u32, .rw, .s, 100, .range (1) (10000)⟩,
  ⟨0x4100, 0x8, 24, 0x0F, 1, .u8, .na, .s, 1, .oneOf [0, 1]⟩,
  ⟨0x41C0, 0x8, 2, 0x0F, 1, .u8, .rw, .s, 1, .oneOf [0, 1]⟩,
  ⟨0x4101, 0x8, 24, 0x01, 1, .u32, .rwf, .s, 10000, .range (100) (1000000)⟩,
  ⟨0x41C1, 0x8, 2, 0x01, 1, .u32, .rwf, .s, 10000, .range (1000) (100000000)⟩,
  ⟨0x4101, 0x8, 24, 0x02, 1, .u16, .rwf, .s, 256, .range (256) (4096)⟩,
  ⟨0x41C1, 0x8, 2, 0x02, 1, .u16, .na, .s, 256, .range (256) (4096)⟩,
  ⟨0x4101, 0x8, 24, 0x03, 1, .u32, .rwf, .s, 0, .any⟩,
  ⟨0x41C1, 0x8, 2, 0x03, 1, .u32, .na, .s, 0, .any⟩,
  ⟨0x4102, 0x8, 26, 0x01, 1, .u16, .rwf, .s, 0, .any⟩,
  ⟨0x4102, 0x8, 26, 0x02, 1, .u8, .rwf, .s, 7, .mask 7⟩,
  ⟨0x4102, 0x8, 26, 0x03, 1, .u16, .rwf, .s, 0, .range (0) (1024)⟩,
  ⟨0x4102, 0x8, 26, 0x04, 1, .blob, .rwf, .s, 0, .any⟩,
  ⟨0x4102, 0x8, 26, 0x05, 1, .blob, .rwf, .s, 0, .any⟩,
  ⟨0x4103, 0x8, 24, 0x01, 1, .u16, .rwf, .s, 16384, .any⟩,
  ⟨0x41C3, 0x8, 2, 0x01, 1, .u16, .na, .s, 16384, .any⟩,
  ⟨0x4103, 0x8, 24, 0x02, 1, .u64, .rwf, .s, 0, .mask 0xFFF0FFF0FFF0FFF0⟩,
  ⟨0x41C3, 0x8, 2, 0x02, 1, .u64, .na, .s, 0, .any⟩,
  ⟨0x4103, 0x8, 24, 0x03, 1, .u16, .rwf, .s, 0, .range (0) (35999)⟩,
  ⟨0x41C3, 0x8, 2, 0x03, 1, .u16, .na, .s, 0, .range (0) (35999)⟩,
  ⟨0x4103, 0x8, 24, 0x04, 1, .u8, .rwf, .s, 0, .oneOf [0, 1]⟩,
  ⟨0x41C3, 0x8, 2, 0x04, 1, .u8, .na, .s, 0, .oneOf [0, 1]⟩,
  ⟨0x4103, 0x8, 24, 0x05, 1, .u32, .rwf, .s, 4096, .range (1) (4294967295)⟩,
  ⟨0x41C3, 0x8, 2, 0x05, 1, .u32, .na, .s, 4096, .range (1) (4294967295)⟩] ++ [
  ⟨0x4103, 0x8, 24, 0x06, 1, .u16, .rwf, .s, 1024, .range (16) (65535)⟩,
  ⟨0x41C3, 0x8, 2, 0x06, 1, .u16, .na, .s, 1024, .range (16) (65535)⟩,
  ⟨0x4103, 0x8, 26, 0x07, 1, .bu32, .rwf, .s, 2560, .any⟩,
  ⟨0x4104, 0x8, 26, 0x01, 1, .u64, .rwf, .s, 0, .mask 0xFFF0FFF0FFF0FFF0⟩,
  ⟨0x4104, 0x8, 26, 0x02, 1, .u16, .rwf, .s, 0, .any⟩,
  ⟨0x4104, 0x8, 26, 0x03, 1, .u32, .rwf, .s, 0, .range (0) (1000000)⟩,
  ⟨0x4104, 0x8, 26, 0x04, 1, .u32, .rwf, .s, 0, .range (0) (100000000)⟩,
  ⟨0x4104, 0x8, 26, 0x05, 1, .u16, .rwf, .s, 0, .any⟩,
  ⟨0x4105, 0x8, 26, 0x01, 1, .u32, .ro, .v, 0, .any⟩,
  ⟨0x4105, 0x8, 26, 0x02, 1, .u8, .ro, .v, 0, .any⟩,
  ⟨0x4105, 0x8, 26, 0x03, 1, .u32, .ro, .w, 0, .any⟩,
  ⟨0x4105, 0x8, 26, 0x04, 1, .u32, .ro, .w, 0, .any⟩,
  ⟨0x4105, 0x8, 26, 0x05, 1, .u32, .ro, .w, 0, .any⟩,
  ⟨0x4105, 0x8, 26, 0x06, 1, .u32, .ro, .w, 0, .any⟩,
  ⟨0x4105, 0x8, 26, 0x07, 1, .u32, .ro, .v, 0, .any⟩,
  ⟨0x4105, 0x8, 26, 0x08, 1, .u8, .wo, .v, 0, .oneOf [1]⟩,
  ⟨0x4106, 0x8, 26, 0x01, 1, .blob, .ro, .v, 0, .any⟩,
  ⟨0x4106, 0x8, 26, 0x02, 1, .blob, .ro, .v, 0, .any⟩,
  ⟨0x4106, 0x8, 24, 0x03, 1, .blob, .ro, .v, 0, .any⟩,
  ⟨0x41C6, 0x8, 2, 0x03, 1, .blob, .na, .v, 0, .any⟩,
  ⟨0x4000, 0x0, 1, 0x01, 1, .u32, .ro, .v, 0, .any⟩,
  ⟨0x4000, 0x0, 1, 0x02, 1, .u32, .rw, .s, 4194304, .range (65536) (67108864)⟩,
  ⟨0x4000, 0x0, 1, 0x03, 1, .u32, .rw, .s, 100000, .range (2500) (100000000)⟩,
  ⟨0x4000, 0x0, 1, 0x04, 1, .b1, .ro, .v, 0, .any⟩,
  ⟨0x4000, 0x0, 1, 0x05, 1, .u32, .ro, .w, 0, .any⟩,
  ⟨0x4000, 0x0, 1, 0x06, 1, .u8, .wo, .v, 0, .oneOf [1]⟩,
  ⟨0x4800, 0x0, 1, 0x01, 1, .b1, .rw, .s, 0, .range (0) (1)⟩,
  ⟨0x4800, 0x0, 1, 0x02, 1, .u32, .rw, .s, 20000, .range (1000) (1000000)⟩,
  ⟨0x4800, 0x0, 1, 0x03, 1, .b1, .rw, .s, 0, .range (0) (1)⟩,
  ⟨0x4800, 0x0, 1, 0x04, 1, .u32, .rw, .s, 1000, .any⟩,
  ⟨0x4800, 0x0, 1, 0x05, 1, .u16, .rw, .s, 65535, .any⟩,
  ⟨0x4801, 0x0, 1, 0x01, 16, .u8, .rw, .s, 0, .oneOf [0, 1, 2]⟩,
  ⟨0x4802, 0x0, 1, 0x01, 16, .u16, .rw, .s, 0, .any⟩,
  ⟨0x4803, 0x0, 1, 0x01, 48, .u16, .rw, .s, 0, .any⟩,
  ⟨0x4804, 0x0, 1, 0x01, 1, .u8, .rw, .s, 0, .any⟩,
  ⟨0x4804, 0x0, 1, 0x02, 1, .i16, .rw, .s, 250, .any⟩,
  ⟨0x4804, 0x0, 1, 0x10, 8, .u16, .rw, .s, 32768, .any⟩,
  ⟨0x4805, 0x0, 1, 0x01, 16, .i16, .rw, .s, 0, .any⟩,
  ⟨0x4806, 0x0, 1, 0x01, 1, .u8, .rw, .s, 0, .range (0) (4)⟩,
  ⟨0x4806, 0x0, 1, 0x02, 1, .u8, .rw, .s, 72, .range (0) (127)⟩,
  ⟨0x4806, 0x0, 1, 0x03, 1, .u8, .rw, .s, 73, .range (0) (127)⟩,
  ⟨0x4806, 0x0, 1, 0x04, 1, .u8, .rw, .s, 74, .range (0) (127)⟩,
  ⟨0x4806, 0x0, 1, 0x05, 1, .u8, .rw, .s, 75, .range (0) (127)⟩,
  ⟨0x4806, 0x0, 1, 0x06, 1, .i16, .rw, .s, 850, .any⟩,
  ⟨0x4806, 0x0, 1, 0x07, 1, .u32, .rw, .s, 1000, .range (100) (60000)⟩] ++ [
  ⟨0x4806, 0x0, 1, 0x08, 1, .u32, .rw, .s, 5000, .range (4000) (100000)⟩,
  ⟨0x4806, 0x0, 1, 0x09, 1, .u16, .rw, .s, 0, .any⟩,
  ⟨0x4806, 0x0, 1, 0x0A, 1, .u16, .rw, .s, 0, .any⟩,
  ⟨0x4807, 0x0, 1, 0x01, 4, .i16, .ro, .v, (-32768), .any⟩,
  ⟨0x4807, 0x0, 1, 0x05, 1, .u32, .ro, .v, 4294967295, .any⟩,
  ⟨0x4807, 0x0, 1, 0x06, 1, .u8, .ro, .v, 0, .any⟩,
  ⟨0x4807, 0x0, 1, 0x07, 1, .u8, .ro, .v, 0, .any⟩,
  ⟨0x4808, 0x0, 1, 0x01, 1, .u8, .rw, .s, 0, .mask 3⟩,
  ⟨0x4808, 0x0, 1, 0x02, 1, .u8, .rw, .s, 0, .oneOf [0, 1, 2]⟩,
  ⟨0x4808, 0x0, 1, 0x03, 1, .u8, .wo, .v, 0, .oneOf [1]⟩,
  ⟨0x4808, 0x0, 1, 0x04, 1, .u32, .rw, .s, 1000, .range (100) (100000)⟩,
  ⟨0x4808, 0x0, 1, 0x05, 1, .u8, .rw, .s, 1, .oneOf [0, 1]⟩,
  ⟨0x4808, 0x0, 1, 0x06, 1, .u8, .ro, .v, 0, .any⟩,
  ⟨0x4808, 0x0, 1, 0x07, 1, .u8, .ro, .v, 0, .any⟩,
  ⟨0x4808, 0x0, 1, 0x08, 1, .blob, .rw, .s, 0, .any⟩,
  ⟨0x4808, 0x0, 1, 0x09, 1, .ht80, .rw, .v, 0, .any⟩,
  ⟨0x4808, 0x0, 1, 0x0A, 1, .u8, .wo, .v, 0, .oneOf [1]⟩]

/-- The objects of 07_chart_and_breakwater.md. -/
def rowsChart : List Row := [
  ⟨0x5000, 0x0, 1, 0x01, 1, .b1, .rwc, .s, 0, .range (0) (1)⟩,
  ⟨0x5000, 0x0, 1, 0x02, 1, .bu32, .rwc, .s, 0, .any⟩,
  ⟨0x5000, 0x0, 1, 0x03, 1, .bu32, .rwc, .s, 0, .any⟩,
  ⟨0x5000, 0x0, 1, 0x04, 1, .bu32, .rwc, .s, 3200, .mult 1280 25600 128⟩,
  ⟨0x5000, 0x0, 1, 0x05, 1, .u32, .rwc, .s, 64, .mult 64 65536 64⟩,
  ⟨0x5000, 0x0, 1, 0x06, 1, .u32, .rwc, .s, 64, .mult 64 65536 64⟩,
  ⟨0x5000, 0x0, 1, 0x07, 1, .u8, .rwc, .s, 4, .range (1) (8)⟩,
  ⟨0x5000, 0x0, 1, 0x08, 1, .u8, .rwc, .s, 0, .oneOf [0, 1]⟩,
  ⟨0x5000, 0x0, 1, 0x09, 1, .u8, .rwc, .s, 0, .oneOf [0, 1]⟩,
  ⟨0x5000, 0x0, 1, 0x0A, 1, .u8, .rwc, .s, 2, .range (2) (4)⟩,
  ⟨0x5000, 0x0, 1, 0x0B, 1, .b1, .rwc, .s, 0, .range (0) (1)⟩,
  ⟨0x5000, 0x0, 1, 0x0C, 1, .u32, .rwc, .s, 10, .range (1) (1000)⟩,
  ⟨0x5001, 0x0, 1, 0x01, 1, .u8, .rwc, .s, 1, .range (0) (10)⟩,
  ⟨0x5001, 0x0, 1, 0x02, 1, .u8, .rwc, .s, 2, .range (0) (10)⟩,
  ⟨0x5001, 0x0, 1, 0x03, 1, .u8, .rwc, .s, 4, .range (0) (10)⟩,
  ⟨0x5001, 0x0, 1, 0x04, 1, .u8, .rwc, .s, 8, .range (0) (10)⟩,
  ⟨0x5001, 0x0, 1, 0x05, 1, .u8, .rwc, .s, 0, .range (0) (10)⟩,
  ⟨0x5001, 0x0, 1, 0x06, 1, .u8, .rwc, .s, 0, .range (0) (10)⟩,
  ⟨0x5001, 0x0, 1, 0x07, 1, .u8, .rwc, .s, 0, .range (0) (10)⟩,
  ⟨0x5001, 0x0, 1, 0x08, 1, .u8, .rwc, .s, 0, .range (0) (10)⟩,
  ⟨0x5002, 0x0, 1, 0x01, 1, .u8, .rwc, .s, 4, .range (0) (5)⟩,
  ⟨0x5002, 0x0, 1, 0x02, 1, .u8, .rwc, .s, 2, .range (0) (5)⟩,
  ⟨0x5002, 0x0, 1, 0x03, 1, .u8, .rwc, .s, 4, .range (0) (5)⟩,
  ⟨0x5002, 0x0, 1, 0x04, 1, .u8, .rwc, .s, 0, .range (0) (5)⟩,
  ⟨0x5002, 0x0, 1, 0x05, 1, .u8, .rwc, .s, 0, .range (0) (5)⟩,
  ⟨0x5002, 0x0, 1, 0x06, 1, .u8, .rwc, .s, 0, .range (0) (5)⟩,
  ⟨0x5002, 0x0, 1, 0x07, 1, .u8, .rwc, .s, 0, .range (0) (5)⟩,
  ⟨0x5002, 0x0, 1, 0x08, 1, .u8, .rwc, .s, 0, .range (0) (5)⟩,
  ⟨0x5003, 0x0, 1, 0x01, 1, .u32, .ro, .w, 0, .any⟩,
  ⟨0x5003, 0x0, 1, 0x02, 1, .u64, .ro, .w, 0, .any⟩,
  ⟨0x5003, 0x0, 1, 0x03, 1, .u32, .ro, .w, 0, .any⟩,
  ⟨0x5003, 0x0, 1, 0x04, 1, .u32, .ro, .w, 0, .any⟩,
  ⟨0x5003, 0x0, 1, 0x05, 1, .u32, .ro, .w, 0, .any⟩,
  ⟨0x5003, 0x0, 1, 0x06, 1, .u8, .wo, .v, 0, .oneOf [1]⟩,
  ⟨0x5004, 0x0, 1, 0x01, 1, .u32, .rw, .v, 0, .any⟩,
  ⟨0x5004, 0x0, 1, 0x02, 1, .u8, .ro, .v, 0, .any⟩,
  ⟨0x5004, 0x0, 1, 0x03, 1, .blob, .ro, .v, 0, .any⟩,
  ⟨0x5004, 0x0, 1, 0x04, 1, .u32, .rw, .v, 0, .any⟩,
  ⟨0x5004, 0x0, 1, 0x05, 1, .blob, .ro, .v, 0, .any⟩,
  ⟨0x5004, 0x0, 1, 0x06, 1, .u32, .wo, .v, 0, .any⟩,
  ⟨0x5100, 0x0, 1, 0x01, 1, .blob, .rwp, .p, 0, .any⟩,
  ⟨0x5100, 0x0, 1, 0x02, 1, .u8, .ro, .v, 0, .any⟩,
  ⟨0x5100, 0x0, 1, 0x03, 1, .u64, .ro, .p, 0, .any⟩,
  ⟨0x5100, 0x0, 1, 0x04, 1, .u8, .ro, .p, 0, .any⟩,
  ⟨0x5100, 0x0, 1, 0x05, 1, .blob, .ro, .p, 0, .any⟩] ++ [
  ⟨0x5100, 0x0, 1, 0x06, 1, .blob, .ro, .p, 0, .any⟩,
  ⟨0x5100, 0x0, 1, 0x07, 1, .u32, .ro, .w, 0, .any⟩,
  ⟨0x5100, 0x0, 1, 0x08, 1, .u8, .ro, .v, 0, .any⟩,
  ⟨0x5101, 0x0, 1, 0x01, 4, .blob, .ro, .p, 0, .any⟩,
  ⟨0x5101, 0x0, 1, 0x05, 1, .u8, .ro, .p, 0, .any⟩,
  ⟨0x5101, 0x0, 1, 0x06, 1, .blob, .rwp, .p, 0, .any⟩,
  ⟨0x5101, 0x0, 1, 0x07, 1, .u8, .rwp, .p, 0, .range (0) (3)⟩]

/-- The objects of 08_record_compressor.md. -/
def rowsRecord : List Row := [
  ⟨0x5900, 0x2, 24, 0x01, 1, .u8, .rw, .s, 0, .oneOf [0, 1, 2]⟩,
  ⟨0x5940, 0x2, 24, 0x01, 1, .u8, .rw, .s, 0, .range (0) (5)⟩,
  ⟨0x5980, 0x2, 26, 0x01, 1, .u8, .rw, .s, 0, .range (0) (5)⟩,
  ⟨0x59C0, 0x2, 2, 0x01, 1, .u8, .rw, .s, 0, .oneOf [0, 1, 2]⟩,
  ⟨0x5900, 0x2, 24, 0x02, 1, .u64, .rw, .s, 0, .mult 0 18446744073709551615 4096⟩,
  ⟨0x5940, 0x2, 24, 0x02, 1, .u64, .rw, .s, 0, .mult 0 18446744073709551615 4096⟩,
  ⟨0x5980, 0x2, 26, 0x02, 1, .u64, .rw, .s, 0, .mult 0 18446744073709551615 4096⟩,
  ⟨0x59C0, 0x2, 2, 0x02, 1, .u64, .rw, .s, 0, .mult 0 18446744073709551615 4096⟩,
  ⟨0x5900, 0x2, 24, 0x03, 1, .u32, .rw, .s, 0, .mult 65536 4294967295 4096⟩,
  ⟨0x5940, 0x2, 24, 0x03, 1, .u32, .rw, .s, 0, .mult 65536 4294967295 4096⟩,
  ⟨0x5980, 0x2, 26, 0x03, 1, .u32, .rw, .s, 0, .mult 65536 4294967295 4096⟩,
  ⟨0x59C0, 0x2, 2, 0x03, 1, .u32, .rw, .s, 0, .mult 65536 4294967295 4096⟩,
  ⟨0x5900, 0x2, 24, 0x04, 1, .u64, .rw, .s, 0, .mult 0 18446744073709551615 4096⟩,
  ⟨0x5940, 0x2, 24, 0x04, 1, .u64, .rw, .s, 0, .mult 0 18446744073709551615 4096⟩,
  ⟨0x5980, 0x2, 26, 0x04, 1, .u64, .rw, .s, 0, .mult 0 18446744073709551615 4096⟩,
  ⟨0x59C0, 0x2, 2, 0x04, 1, .u64, .rw, .s, 0, .mult 0 18446744073709551615 4096⟩,
  ⟨0x5900, 0x2, 24, 0x05, 1, .u32, .rw, .s, 0, .mult 16384 4294967295 4096⟩,
  ⟨0x5940, 0x2, 24, 0x05, 1, .u32, .rw, .s, 0, .mult 16384 4294967295 4096⟩,
  ⟨0x5980, 0x2, 26, 0x05, 1, .u32, .rw, .s, 0, .mult 16384 4294967295 4096⟩,
  ⟨0x59C0, 0x2, 2, 0x05, 1, .u32, .rw, .s, 0, .mult 16384 4294967295 4096⟩,
  ⟨0x5900, 0x2, 24, 0x06, 1, .u64, .rw, .w, 0, .any⟩,
  ⟨0x5940, 0x2, 24, 0x06, 1, .u64, .rw, .w, 0, .any⟩,
  ⟨0x5980, 0x2, 26, 0x06, 1, .u64, .rw, .w, 0, .any⟩,
  ⟨0x59C0, 0x2, 2, 0x06, 1, .u64, .rw, .w, 0, .any⟩,
  ⟨0x5900, 0x2, 24, 0x07, 1, .u32, .rw, .s, 65536, .any⟩,
  ⟨0x5940, 0x2, 24, 0x07, 1, .u32, .rw, .s, 65536, .any⟩,
  ⟨0x5980, 0x2, 26, 0x07, 1, .u32, .rw, .s, 65536, .any⟩,
  ⟨0x59C0, 0x2, 2, 0x07, 1, .u32, .rw, .s, 65536, .any⟩,
  ⟨0x5900, 0x2, 24, 0x08, 1, .u16, .na, .s, 0, .any⟩,
  ⟨0x5940, 0x2, 24, 0x08, 1, .u16, .na, .s, 0, .any⟩,
  ⟨0x5980, 0x2, 26, 0x08, 1, .u16, .rw, .s, 0, .any⟩,
  ⟨0x59C0, 0x2, 2, 0x08, 1, .u16, .na, .s, 0, .any⟩,
  ⟨0x5900, 0x2, 24, 0x09, 1, .u8, .na, .s, 255, .any⟩,
  ⟨0x5940, 0x2, 24, 0x09, 1, .u8, .rw, .s, 255, .any⟩,
  ⟨0x5980, 0x2, 26, 0x09, 1, .u8, .na, .s, 255, .any⟩,
  ⟨0x59C0, 0x2, 2, 0x09, 1, .u8, .na, .s, 255, .any⟩,
  ⟨0x5901, 0x2, 24, 0x01, 1, .u8, .ro, .v, 0, .any⟩,
  ⟨0x5941, 0x2, 24, 0x01, 1, .u8, .ro, .v, 0, .any⟩,
  ⟨0x5981, 0x2, 26, 0x01, 1, .u8, .ro, .v, 0, .any⟩,
  ⟨0x59C1, 0x2, 2, 0x01, 1, .u8, .ro, .v, 0, .any⟩,
  ⟨0x5901, 0x2, 24, 0x02, 1, .u64, .ro, .w, 0, .any⟩,
  ⟨0x5941, 0x2, 24, 0x02, 1, .u64, .ro, .w, 0, .any⟩,
  ⟨0x5981, 0x2, 26, 0x02, 1, .u64, .ro, .w, 0, .any⟩,
  ⟨0x59C1, 0x2, 2, 0x02, 1, .u64, .ro, .w, 0, .any⟩,
  ⟨0x5901, 0x2, 24, 0x03, 1, .u64, .ro, .w, 0, .any⟩] ++ [
  ⟨0x5941, 0x2, 24, 0x03, 1, .u64, .ro, .w, 0, .any⟩,
  ⟨0x5981, 0x2, 26, 0x03, 1, .u64, .ro, .w, 0, .any⟩,
  ⟨0x59C1, 0x2, 2, 0x03, 1, .u64, .ro, .w, 0, .any⟩,
  ⟨0x5901, 0x2, 24, 0x04, 1, .u32, .ro, .w, 0, .any⟩,
  ⟨0x5941, 0x2, 24, 0x04, 1, .u32, .ro, .w, 0, .any⟩,
  ⟨0x5981, 0x2, 26, 0x04, 1, .u32, .ro, .w, 0, .any⟩,
  ⟨0x59C1, 0x2, 2, 0x04, 1, .u32, .ro, .w, 0, .any⟩,
  ⟨0x5901, 0x2, 24, 0x05, 1, .u16, .ro, .v, 0, .any⟩,
  ⟨0x5941, 0x2, 24, 0x05, 1, .u16, .ro, .v, 0, .any⟩,
  ⟨0x5981, 0x2, 26, 0x05, 1, .u16, .ro, .v, 0, .any⟩,
  ⟨0x59C1, 0x2, 2, 0x05, 1, .u16, .ro, .v, 0, .any⟩,
  ⟨0x5901, 0x2, 24, 0x06, 1, .u8, .wo, .v, 0, .oneOf [1]⟩,
  ⟨0x5941, 0x2, 24, 0x06, 1, .u8, .wo, .v, 0, .oneOf [1]⟩,
  ⟨0x5981, 0x2, 26, 0x06, 1, .u8, .wo, .v, 0, .oneOf [1]⟩,
  ⟨0x59C1, 0x2, 2, 0x06, 1, .u8, .wo, .v, 0, .oneOf [1]⟩,
  ⟨0x5800, 0x0, 1, 0x01, 1, .u32, .ro, .v, 0, .any⟩,
  ⟨0x5800, 0x0, 1, 0x02, 1, .u32, .ro, .w, 0, .any⟩,
  ⟨0x5801, 0x0, 1, 0x01, 1, .u64, .rw, .v, 0, .any⟩,
  ⟨0x5801, 0x0, 1, 0x02, 1, .u32, .rw, .v, 0, .mult 0 4294967295 128⟩,
  ⟨0x5801, 0x0, 1, 0x03, 1, .u64, .rw, .v, 0, .any⟩,
  ⟨0x5801, 0x0, 1, 0x04, 1, .u32, .rw, .v, 0, .any⟩,
  ⟨0x5801, 0x0, 1, 0x05, 1, .u8, .rw, .v, 1, .range (1) (5)⟩,
  ⟨0x5801, 0x0, 1, 0x06, 1, .u8, .rw, .v, 0, .oneOf [0, 1]⟩,
  ⟨0x5801, 0x0, 1, 0x07, 1, .u8, .wo, .v, 0, .oneOf [1, 2, 3, 4]⟩,
  ⟨0x5801, 0x0, 1, 0x08, 1, .u8, .ro, .v, 0, .any⟩,
  ⟨0x5801, 0x0, 1, 0x09, 1, .u32, .ro, .v, 0, .any⟩,
  ⟨0x5801, 0x0, 1, 0x0B, 1, .u32, .ro, .v, 0, .any⟩,
  ⟨0x5801, 0x0, 1, 0x0A, 1, .blob, .rw, .v, 0, .any⟩,
  ⟨0x5801, 0x0, 1, 0x0C, 1, .u16, .ro, .v, 0, .any⟩,
  ⟨0x5801, 0x0, 1, 0x0D, 1, .b1, .rw, .v, 0, .range (0) (1)⟩]

/-- The objects of 09_head_and_quay_links.md. -/
def rowsLink : List Row := [
  ⟨0x3800, 0x0, 1, 0x01, 1, .u32, .ro, .v, 0, .any⟩,
  ⟨0x3800, 0x0, 1, 0x02, 1, .u8, .ro, .v, 0, .any⟩,
  ⟨0x3800, 0x0, 1, 0x03, 1, .u16, .rw, .s, 100, .range (10) (10000)⟩,
  ⟨0x3800, 0x0, 1, 0x04, 1, .u16, .rw, .s, 10, .range (1) (10000)⟩,
  ⟨0x3800, 0x0, 1, 0x05, 1, .u8, .ro, .v, 0, .any⟩,
  ⟨0x3800, 0x0, 1, 0x06, 1, .u8, .ro, .v, 0, .any⟩,
  ⟨0x3800, 0x0, 1, 0x07, 1, .u16, .rw, .s, 0, .range (0) (65535)⟩,
  ⟨0x3810, 0x1, 24, 0x01, 1, .b1, .rw, .s, 0, .range (0) (1)⟩,
  ⟨0x3810, 0x1, 24, 0x02, 1, .u8, .ro, .v, 0, .any⟩,
  ⟨0x3810, 0x1, 24, 0x03, 1, .u8, .ro, .w, 0, .any⟩,
  ⟨0x3810, 0x1, 24, 0x04, 1, .u32, .ro, .v, 0, .any⟩,
  ⟨0x3810, 0x1, 24, 0x05, 1, .u32, .ro, .v, 0, .any⟩,
  ⟨0x3810, 0x1, 24, 0x06, 1, .u32, .ro, .v, 0, .any⟩,
  ⟨0x3810, 0x1, 24, 0x07, 1, .i32, .rw, .s, 0, .range (-2000) (2000)⟩,
  ⟨0x3810, 0x1, 24, 0x08, 1, .u16, .rw, .s, 100, .range (10) (10000)⟩,
  ⟨0x3810, 0x1, 24, 0x09, 1, .u16, .rw, .s, 1000, .range (400) (1500)⟩,
  ⟨0x3810, 0x1, 24, 0x0A, 1, .u8, .rw, .s, 2, .range (1) (8)⟩,
  ⟨0x3810, 0x1, 24, 0x0B, 1, .u8, .ro, .v, 0, .any⟩,
  ⟨0x3810, 0x1, 24, 0x0C, 1, .u8, .rw, .s, 30, .range (10) (80)⟩,
  ⟨0x3810, 0x1, 24, 0x0D, 1, .u8, .rw, .s, 20, .range (5) (50)⟩,
  ⟨0x3810, 0x1, 24, 0x0E, 1, .u8, .ro, .v, 0, .any⟩,
  ⟨0x3810, 0x1, 24, 0x0F, 1, .u8, .wo, .v, 0, .oneOf [1]⟩,
  ⟨0x3810, 0x1, 24, 0x10, 1, .u8, .rw, .s, 0, .any⟩,
  ⟨0x3810, 0x1, 24, 0x11, 1, .b1, .ro, .v, 0, .any⟩,
  ⟨0x3810, 0x1, 24, 0x12, 1, .blob, .ro, .v, 0, .any⟩,
  ⟨0x3810, 0x1, 24, 0x13, 1, .u16, .rw, .v, 0, .any⟩,
  ⟨0x3810, 0x1, 24, 0x14, 1, .blob, .rw, .v, 0, .range (1) (240)⟩,
  ⟨0x3810, 0x1, 24, 0x15, 1, .u32, .ro, .w, 0, .any⟩,
  ⟨0x3810, 0x1, 24, 0x16, 1, .u32, .ro, .w, 0, .any⟩,
  ⟨0x3810, 0x1, 24, 0x17, 1, .u32, .ro, .w, 0, .any⟩,
  ⟨0x3810, 0x1, 24, 0x18, 1, .u32, .ro, .w, 0, .any⟩,
  ⟨0x3810, 0x1, 24, 0x19, 1, .u32, .ro, .w, 0, .any⟩,
  ⟨0x3810, 0x1, 24, 0x1A, 1, .u32, .ro, .w, 0, .any⟩,
  ⟨0x3810, 0x1, 24, 0x1B, 1, .u32, .ro, .w, 0, .any⟩,
  ⟨0x3810, 0x1, 24, 0x1C, 1, .u32, .ro, .w, 0, .any⟩,
  ⟨0x3810, 0x1, 24, 0x1D, 1, .u8, .wo, .v, 0, .oneOf [1]⟩,
  ⟨0x3840, 0x1, 2, 0x01, 1, .b1, .rw, .s, 0, .range (0) (1)⟩,
  ⟨0x3840, 0x1, 2, 0x02, 1, .u8, .ro, .v, 0, .any⟩,
  ⟨0x3840, 0x1, 2, 0x03, 1, .u8, .ro, .w, 0, .any⟩,
  ⟨0x3840, 0x1, 2, 0x04, 1, .u8, .ro, .v, 0, .any⟩,
  ⟨0x3840, 0x1, 2, 0x05, 1, .u8, .ro, .v, 0, .any⟩,
  ⟨0x3840, 0x1, 2, 0x06, 1, .u32, .ro, .v, 0, .any⟩,
  ⟨0x3840, 0x1, 2, 0x07, 1, .u32, .ro, .v, 0, .any⟩,
  ⟨0x3840, 0x1, 2, 0x08, 1, .u8, .rw, .s, 30, .range (10) (80)⟩,
  ⟨0x3840, 0x1, 2, 0x09, 1, .u8, .rw, .s, 20, .range (5) (50)⟩] ++ [
  ⟨0x3840, 0x1, 2, 0x0A, 1, .u8, .ro, .v, 0, .any⟩,
  ⟨0x3840, 0x1, 2, 0x0B, 1, .u8, .wo, .v, 0, .oneOf [1]⟩,
  ⟨0x3840, 0x1, 2, 0x0C, 1, .i32, .rw, .s, 0, .range (-2000) (2000)⟩,
  ⟨0x3840, 0x1, 2, 0x0D, 1, .i32, .ro, .v, 0, .any⟩,
  ⟨0x3840, 0x1, 2, 0x0E, 1, .u8, .ro, .v, 255, .any⟩,
  ⟨0x3840, 0x1, 2, 0x0F, 1, .u8, .rw, .s, 0, .any⟩,
  ⟨0x3840, 0x1, 2, 0x10, 1, .u32, .ro, .w, 0, .any⟩,
  ⟨0x3840, 0x1, 2, 0x11, 1, .u32, .ro, .w, 0, .any⟩,
  ⟨0x3840, 0x1, 2, 0x12, 1, .u32, .ro, .w, 0, .any⟩,
  ⟨0x3840, 0x1, 2, 0x13, 1, .u8, .wo, .v, 0, .oneOf [1]⟩]

/-- The objects of 10_recoater_motion.md. -/
def rowsMotion : List Row := [
  ⟨0x7000, 0x20, 4, 0x01, 1, .b1, .rw, .s, 0, .range (0) (1)⟩,
  ⟨0x7000, 0x20, 4, 0x02, 1, .u32, .rw, .s, 40000, .range (20000) (100000)⟩,
  ⟨0x7000, 0x20, 4, 0x03, 1, .u16, .rw, .s, 250, .range (50) (2000)⟩,
  ⟨0x7000, 0x20, 4, 0x04, 1, .u32, .rw, .s, 5000, .any⟩,
  ⟨0x7000, 0x20, 4, 0x05, 1, .u32, .rw, .s, 0, .any⟩,
  ⟨0x7000, 0x20, 4, 0x06, 1, .i32, .rw, .s, 0, .any⟩,
  ⟨0x7000, 0x20, 4, 0x07, 1, .i32, .rw, .s, 0, .any⟩,
  ⟨0x7000, 0x20, 4, 0x08, 1, .u32, .rw, .s, 0, .any⟩,
  ⟨0x7000, 0x20, 4, 0x09, 1, .u32, .rw, .s, 0, .any⟩,
  ⟨0x7000, 0x20, 4, 0x0A, 1, .u32, .rw, .s, 60000, .any⟩,
  ⟨0x7001, 0x20, 4, 0x01, 1, .i32, .wo, .v, 0, .any⟩,
  ⟨0x7001, 0x20, 4, 0x02, 1, .u32, .rw, .s, 500000, .range (1) (5000000)⟩,
  ⟨0x7001, 0x20, 4, 0x03, 1, .u32, .rw, .s, 5000000, .range (1000) (1000000000)⟩,
  ⟨0x7001, 0x20, 4, 0x04, 1, .u32, .rw, .s, 5000000, .range (1000) (1000000000)⟩,
  ⟨0x7001, 0x20, 4, 0x05, 1, .u8, .wo, .v, 0, .oneOf [1, 2]⟩,
  ⟨0x7001, 0x20, 4, 0x06, 1, .i32, .ro, .w, 0, .any⟩,
  ⟨0x7001, 0x20, 4, 0x07, 1, .i32, .ro, .v, 0, .any⟩,
  ⟨0x7001, 0x20, 4, 0x08, 1, .u8, .ro, .v, 0, .any⟩,
  ⟨0x7001, 0x20, 4, 0x09, 1, .u16, .ro, .v, 0, .any⟩,
  ⟨0x7001, 0x20, 4, 0x0A, 1, .i32, .wo, .v, 0, .any⟩,
  ⟨0x7002, 0x20, 4, 0x01, 1, .u16, .rw, .s, 7500, .range (1000) (9000)⟩,
  ⟨0x7002, 0x20, 4, 0x02, 1, .u16, .rw, .s, 16, .range (1) (1000)⟩,
  ⟨0x7002, 0x20, 4, 0x03, 1, .u32, .rw, .s, 20000, .any⟩,
  ⟨0x7002, 0x20, 4, 0x04, 1, .i16, .ro, .v, 0, .any⟩,
  ⟨0x7002, 0x20, 4, 0x05, 1, .u32, .rw, .s, 200, .range (0) (60000)⟩,
  ⟨0x7002, 0x20, 4, 0x06, 1, .u16, .rw, .s, 5000, .any⟩,
  ⟨0x7002, 0x20, 4, 0x07, 1, .u16, .rw, .s, 50, .range (0) (10000)⟩,
  ⟨0x7002, 0x20, 4, 0x08, 1, .u8, .rw, .s, 0, .oneOf [0, 1, 2]⟩,
  ⟨0x7002, 0x20, 4, 0x09, 1, .u32, .rw, .s, 0, .any⟩,
  ⟨0x7002, 0x20, 4, 0x0A, 1, .u16, .rw, .s, 20, .range (0) (1000)⟩,
  ⟨0x7002, 0x20, 4, 0x0B, 1, .u8, .wo, .v, 0, .oneOf [1]⟩,
  ⟨0x7002, 0x20, 4, 0x0C, 1, .u8, .rw, .s, 0, .oneOf [0, 1]⟩,
  ⟨0x7002, 0x20, 4, 0x0D, 1, .u32, .rw, .s, 50000, .any⟩,
  ⟨0x7002, 0x20, 4, 0x0E, 1, .u16, .rw, .s, 6000, .any⟩,
  ⟨0x7002, 0x20, 4, 0x0F, 1, .u32, .rw, .s, 2048, .any⟩,
  ⟨0x7002, 0x20, 4, 0x10, 1, .u32, .rw, .s, 10000000, .any⟩,
  ⟨0x7002, 0x20, 4, 0x11, 1, .i32, .rw, .s, 0, .any⟩,
  ⟨0x7002, 0x20, 4, 0x12, 1, .u32, .rw, .s, 1024, .any⟩,
  ⟨0x7002, 0x20, 4, 0x13, 1, .u8, .rw, .s, 255, .oneOf [0, 1, 2, 3, 4, 5, 6, 7, 255]⟩,
  ⟨0x7002, 0x20, 4, 0x14, 1, .i32, .rw, .s, 0, .any⟩,
  ⟨0x7002, 0x20, 4, 0x15, 1, .u32, .ro, .w, 0, .any⟩,
  ⟨0x7002, 0x20, 4, 0x16, 1, .u8, .wo, .v, 0, .oneOf [1]⟩,
  ⟨0x7080, 0x0, 1, 0x01, 1, .b1, .rw, .v, 0, .oneOf [0]⟩,
  ⟨0x7200, 0x10, 8, 0x01, 1, .b1, .rw, .s, 0, .range (0) (1)⟩,
  ⟨0x7200, 0x10, 8, 0x02, 1, .b1, .rw, .s, 0, .range (0) (1)⟩] ++ [
  ⟨0x7200, 0x10, 8, 0x03, 1, .u16, .rw, .s, 20, .range (0) (1000)⟩,
  ⟨0x7200, 0x10, 8, 0x04, 1, .i32, .rw, .s, (-2147483648), .any⟩,
  ⟨0x7200, 0x10, 8, 0x05, 1, .i32, .rw, .s, 2147483647, .any⟩,
  ⟨0x7200, 0x10, 8, 0x06, 1, .i32, .rw, .s, 0, .any⟩,
  ⟨0x7200, 0x10, 8, 0x07, 1, .u32, .rw, .s, 0, .any⟩,
  ⟨0x7200, 0x10, 8, 0x08, 1, .u16, .rw, .s, 2, .range (0) (1000)⟩,
  ⟨0x7200, 0x10, 8, 0x09, 1, .u8, .rw, .s, 4, .mask 7⟩,
  ⟨0x7200, 0x10, 8, 0x0A, 1, .u16, .rw, .s, 10, .range (1) (1000)⟩,
  ⟨0x7200, 0x10, 8, 0x0B, 1, .u32, .rw, .s, 1000000, .range (100000) (2000000)⟩,
  ⟨0x7200, 0x10, 8, 0x0C, 1, .u8, .rw, .s, 25, .range (8) (32)⟩,
  ⟨0x7200, 0x10, 8, 0x0D, 1, .u8, .rw, .s, 1, .oneOf [0, 1]⟩,
  ⟨0x7200, 0x10, 8, 0x0E, 1, .u32, .rw, .s, 50000, .range (10000) (10000000)⟩,
  ⟨0x7200, 0x10, 8, 0x0F, 1, .i32, .rw, .s, 0, .any⟩,
  ⟨0x7201, 0x10, 8, 0x01, 1, .i32, .ro, .w, 0, .any⟩,
  ⟨0x7201, 0x10, 8, 0x02, 1, .i32, .wo, .v, 0, .any⟩,
  ⟨0x7201, 0x10, 8, 0x03, 1, .i32, .ro, .v, 0, .any⟩,
  ⟨0x7201, 0x10, 8, 0x04, 1, .i16, .ro, .v, 0, .any⟩,
  ⟨0x7201, 0x10, 8, 0x05, 1, .u16, .ro, .w, 0, .any⟩,
  ⟨0x7201, 0x10, 8, 0x06, 1, .u8, .wo, .v, 0, .oneOf [1]⟩,
  ⟨0x7201, 0x10, 8, 0x07, 1, .i32, .ro, .w, 0, .any⟩,
  ⟨0x7201, 0x10, 8, 0x08, 1, .ht80, .ro, .v, 0, .any⟩,
  ⟨0x7201, 0x10, 8, 0x09, 1, .u32, .ro, .w, 0, .any⟩,
  ⟨0x7201, 0x10, 8, 0x0A, 1, .u32, .ro, .w, 0, .any⟩,
  ⟨0x7201, 0x10, 8, 0x0B, 1, .u32, .ro, .w, 0, .any⟩,
  ⟨0x7201, 0x10, 8, 0x0C, 1, .u32, .ro, .w, 0, .any⟩,
  ⟨0x7201, 0x10, 8, 0x0D, 1, .u32, .ro, .w, 0, .any⟩,
  ⟨0x7201, 0x10, 8, 0x0E, 1, .u8, .wo, .v, 0, .oneOf [1]⟩,
  ⟨0x7202, 0x10, 8, 0x01, 1, .b1, .rw, .v, 0, .range (0) (1)⟩,
  ⟨0x7203, 0x10, 8, 0x01, 1, .b1, .rw, .v, 0, .range (0) (1)⟩,
  ⟨0x7204, 0x10, 8, 0x01, 1, .b1, .rw, .v, 0, .range (0) (1)⟩,
  ⟨0x7205, 0x10, 8, 0x01, 1, .b1, .rw, .v, 0, .range (0) (1)⟩,
  ⟨0x7202, 0x10, 8, 0x02, 1, .i32, .rw, .v, 0, .any⟩,
  ⟨0x7203, 0x10, 8, 0x02, 1, .i32, .rw, .v, 0, .any⟩,
  ⟨0x7204, 0x10, 8, 0x02, 1, .i32, .rw, .v, 0, .any⟩,
  ⟨0x7205, 0x10, 8, 0x02, 1, .i32, .rw, .v, 0, .any⟩,
  ⟨0x7202, 0x10, 8, 0x03, 1, .i32, .rw, .v, 0, .nz⟩,
  ⟨0x7203, 0x10, 8, 0x03, 1, .i32, .rw, .v, 0, .nz⟩,
  ⟨0x7204, 0x10, 8, 0x03, 1, .i32, .rw, .v, 0, .nz⟩,
  ⟨0x7205, 0x10, 8, 0x03, 1, .i32, .rw, .v, 0, .nz⟩,
  ⟨0x7202, 0x10, 8, 0x04, 1, .u32, .rw, .v, 0, .any⟩,
  ⟨0x7203, 0x10, 8, 0x04, 1, .u32, .rw, .v, 0, .any⟩,
  ⟨0x7204, 0x10, 8, 0x04, 1, .u32, .rw, .v, 0, .any⟩,
  ⟨0x7205, 0x10, 8, 0x04, 1, .u32, .rw, .v, 0, .any⟩,
  ⟨0x7202, 0x10, 8, 0x05, 1, .u8, .rw, .s, 0, .mask 31⟩,
  ⟨0x7203, 0x10, 8, 0x05, 1, .u8, .rw, .s, 0, .mask 31⟩] ++ [
  ⟨0x7204, 0x10, 8, 0x05, 1, .u8, .rw, .s, 0, .mask 31⟩,
  ⟨0x7205, 0x10, 8, 0x05, 1, .u8, .rw, .s, 0, .mask 31⟩,
  ⟨0x7202, 0x10, 8, 0x06, 1, .u32, .ro, .w, 0, .any⟩,
  ⟨0x7203, 0x10, 8, 0x06, 1, .u32, .ro, .w, 0, .any⟩,
  ⟨0x7204, 0x10, 8, 0x06, 1, .u32, .ro, .w, 0, .any⟩,
  ⟨0x7205, 0x10, 8, 0x06, 1, .u32, .ro, .w, 0, .any⟩,
  ⟨0x7202, 0x10, 8, 0x07, 1, .u32, .ro, .w, 0, .any⟩,
  ⟨0x7203, 0x10, 8, 0x07, 1, .u32, .ro, .w, 0, .any⟩,
  ⟨0x7204, 0x10, 8, 0x07, 1, .u32, .ro, .w, 0, .any⟩,
  ⟨0x7205, 0x10, 8, 0x07, 1, .u32, .ro, .w, 0, .any⟩,
  ⟨0x7202, 0x10, 8, 0x08, 1, .ht80, .ro, .v, 0, .any⟩,
  ⟨0x7203, 0x10, 8, 0x08, 1, .ht80, .ro, .v, 0, .any⟩,
  ⟨0x7204, 0x10, 8, 0x08, 1, .ht80, .ro, .v, 0, .any⟩,
  ⟨0x7205, 0x10, 8, 0x08, 1, .ht80, .ro, .v, 0, .any⟩,
  ⟨0x7202, 0x10, 8, 0x09, 1, .i32, .ro, .v, 0, .any⟩,
  ⟨0x7203, 0x10, 8, 0x09, 1, .i32, .ro, .v, 0, .any⟩,
  ⟨0x7204, 0x10, 8, 0x09, 1, .i32, .ro, .v, 0, .any⟩,
  ⟨0x7205, 0x10, 8, 0x09, 1, .i32, .ro, .v, 0, .any⟩,
  ⟨0x7300, 0x0, 1, 0x01, 1, .u8, .rw, .s, 0, .range (0) (7)⟩,
  ⟨0x7300, 0x0, 1, 0x02, 1, .u8, .rw, .s, 0, .oneOf [0, 1, 2, 3]⟩,
  ⟨0x7300, 0x0, 1, 0x03, 1, .i32, .rw, .s, 128, .nz⟩,
  ⟨0x7300, 0x0, 1, 0x04, 1, .bu32, .rw, .s, 0, .any⟩,
  ⟨0x7300, 0x0, 1, 0x05, 1, .bu32, .rw, .s, 640000, .range (12800) (12800000)⟩,
  ⟨0x7300, 0x0, 1, 0x06, 1, .bu32, .rw, .s, 64000, .range (0) (1280000)⟩,
  ⟨0x7300, 0x0, 1, 0x07, 1, .bu32, .rw, .s, 2147483647, .any⟩,
  ⟨0x7300, 0x0, 1, 0x08, 1, .u32, .rw, .s, 64, .range (1) (100000)⟩,
  ⟨0x7300, 0x0, 1, 0x09, 1, .bu32, .ro, .v, (-2147483648), .any⟩,
  ⟨0x7300, 0x0, 1, 0x0A, 1, .u8, .ro, .v, 0, .any⟩,
  ⟨0x7300, 0x0, 1, 0x0B, 1, .u8, .ro, .v, 0, .any⟩,
  ⟨0x7300, 0x0, 1, 0x0C, 1, .u8, .wo, .v, 0, .oneOf [1]⟩,
  ⟨0x7301, 0x0, 1, 0x01, 24, .u32, .ro, .w, 0, .any⟩,
  ⟨0x7302, 0x0, 1, 0x01, 24, .u32, .ro, .w, 0, .any⟩]

/-- The objects of 11_network_objects_time.md. -/
def rowsNetwork : List Row := [
  ⟨0x0200, 0x0, 1, 0x01, 1, .u16, .ro, .v, 0, .any⟩,
  ⟨0x0200, 0x0, 1, 0x02, 1, .u8, .ro, .v, 0, .any⟩,
  ⟨0x0200, 0x0, 1, 0x03, 1, .u32, .rw, .s, 5000, .range (1000) (600000)⟩,
  ⟨0x0200, 0x0, 1, 0x04, 1, .u32, .ro, .w, 0, .any⟩,
  ⟨0x0200, 0x0, 1, 0x05, 1, .b1, .ro, .v, 0, .any⟩,
  ⟨0x0200, 0x0, 1, 0x06, 1, .blob, .ro, .v, 0, .any⟩,
  ⟨0x0210, 0x0, 1, 0x00, 1, .u8, .wo, .v, 0, .any⟩,
  ⟨0x0211, 0x0, 1, 0x01, 1, .u32, .rw, .s, 1000, .range (100) (60000)⟩,
  ⟨0x0211, 0x0, 1, 0x02, 1, .u8, .ro, .v, 0, .any⟩,
  ⟨0x0211, 0x0, 1, 0x03, 1, .b1, .rw, .s, 0, .range (0) (1)⟩,
  ⟨0x0211, 0x0, 1, 0x04, 1, .u32, .ro, .w, 0, .any⟩,
  ⟨0x0220, 0x0, 1, 0x01, 1, .u8, .wo, .v, 0, .oneOf [1, 2]⟩,
  ⟨0x0220, 0x0, 1, 0x02, 1, .u8, .ro, .v, 0, .any⟩,
  ⟨0x0220, 0x0, 1, 0x03, 1, .u32, .ro, .s, 0, .any⟩,
  ⟨0x0220, 0x0, 1, 0x04, 1, .ht80, .ro, .s, 0, .any⟩,
  ⟨0x0800, 0x0, 1, 0x01, 1, .u8, .rw, .s, 1, .range (0) (3)⟩,
  ⟨0x0800, 0x0, 1, 0x02, 1, .u8, .rw, .s, 1, .range (0) (3)⟩,
  ⟨0x0800, 0x0, 1, 0x03, 1, .b1, .rw, .s, 1, .range (0) (1)⟩,
  ⟨0x0800, 0x0, 1, 0x04, 1, .u8, .ro, .v, 0, .any⟩,
  ⟨0x0800, 0x0, 1, 0x05, 1, .b1, .rw, .s, 1, .range (0) (1)⟩,
  ⟨0x0800, 0x0, 1, 0x06, 4, .i32, .rw, .s, 0, .range (-100000) (100000)⟩,
  ⟨0x0800, 0x0, 1, 0x0A, 1, .u64, .ro, .w, 0, .any⟩,
  ⟨0x0800, 0x0, 1, 0x0B, 1, .u32, .ro, .w, 0, .any⟩,
  ⟨0x0801, 0x0, 1, 0x01, 1, .u16, .ro, .v, 0, .any⟩,
  ⟨0x0801, 0x0, 1, 0x02, 1, .u8, .rw, .s, 0, .oneOf [0, 1]⟩,
  ⟨0x0801, 0x0, 1, 0x03, 1, .u16, .rw, .s, 0, .range (0) (1023)⟩,
  ⟨0x0801, 0x0, 1, 0x04, 1, .u16, .ro, .v, 0, .any⟩,
  ⟨0x0801, 0x0, 1, 0x05, 1, .b1, .ro, .v, 0, .any⟩,
  ⟨0x0801, 0x0, 1, 0x06, 1, .u64, .ro, .f, 0, .any⟩,
  ⟨0x0802, 0x0, 1, 0x01, 1, .u8, .rw, .s, 1, .oneOf [0, 1, 2]⟩,
  ⟨0x0802, 0x0, 1, 0x02, 1, .u32, .rw, .s, 172425216, .any⟩,
  ⟨0x0802, 0x0, 1, 0x03, 1, .u32, .rw, .s, 4294965248, .any⟩,
  ⟨0x0802, 0x0, 1, 0x04, 1, .u32, .rw, .s, 0, .any⟩,
  ⟨0x0802, 0x0, 1, 0x05, 1, .u32, .ro, .v, 0, .any⟩,
  ⟨0x0802, 0x0, 1, 0x06, 1, .blob, .rw, .s, 0, .any⟩,
  ⟨0x0802, 0x0, 1, 0x07, 1, .u16, .rw, .s, 47112, .any⟩,
  ⟨0x0802, 0x0, 1, 0x08, 1, .blob, .ro, .v, 0, .any⟩,
  ⟨0x0805, 0x0, 1, 0x01, 1, .u64, .ro, .w, 0, .any⟩,
  ⟨0x0805, 0x0, 1, 0x02, 1, .u32, .ro, .w, 0, .any⟩,
  ⟨0x0805, 0x0, 1, 0x03, 1, .u32, .ro, .w, 0, .any⟩,
  ⟨0x0805, 0x0, 1, 0x04, 1, .u32, .ro, .w, 0, .any⟩,
  ⟨0x0805, 0x0, 1, 0x05, 1, .u8, .wo, .v, 0, .oneOf [1]⟩,
  ⟨0x0803, 0x0, 1, 0x01, 1, .u8, .rw, .s, 0, .oneOf [0, 1, 2]⟩,
  ⟨0x0803, 0x0, 1, 0x02, 1, .b1, .rw, .s, 0, .range (0) (1)⟩,
  ⟨0x0803, 0x0, 1, 0x03, 1, .u8, .rw, .s, 1, .oneOf [0, 1]⟩] ++ [
  ⟨0x0803, 0x0, 1, 0x04, 1, .u8, .rw, .s, 0, .oneOf [0, 1, 2]⟩,
  ⟨0x0803, 0x0, 1, 0x05, 1, .u8, .rw, .s, 0, .oneOf [0, 1]⟩,
  ⟨0x0803, 0x0, 1, 0x06, 1, .u8, .rw, .s, 0, .range (0) (127)⟩,
  ⟨0x0803, 0x0, 1, 0x07, 1, .u8, .rw, .s, 255, .any⟩,
  ⟨0x0803, 0x0, 1, 0x08, 1, .u8, .rw, .s, 255, .any⟩,
  ⟨0x0803, 0x0, 1, 0x09, 1, .i16, .rw, .s, (-3), .range (-7) (1)⟩,
  ⟨0x0803, 0x0, 1, 0x0A, 1, .i16, .rw, .s, 1, .range (0) (4)⟩,
  ⟨0x0803, 0x0, 1, 0x0B, 1, .i16, .rw, .s, (-3), .range (-7) (5)⟩,
  ⟨0x0803, 0x0, 1, 0x0C, 1, .u8, .rw, .s, 3, .range (2) (10)⟩,
  ⟨0x0803, 0x0, 1, 0x0D, 1, .u8, .ro, .v, 1, .any⟩,
  ⟨0x0803, 0x0, 1, 0x0E, 1, .u64, .ro, .v, 0, .any⟩,
  ⟨0x0803, 0x0, 1, 0x0F, 1, .u16, .ro, .v, 0, .any⟩,
  ⟨0x0804, 0x0, 1, 0x01, 1, .ht80, .ro, .v, 0, .any⟩,
  ⟨0x0804, 0x0, 1, 0x02, 1, .ht80, .wo, .v, 0, .any⟩,
  ⟨0x0804, 0x0, 1, 0x03, 1, .u8, .ro, .v, 0, .any⟩,
  ⟨0x0804, 0x0, 1, 0x04, 1, .i32, .ro, .v, 0, .any⟩,
  ⟨0x0804, 0x0, 1, 0x05, 1, .i32, .ro, .v, 0, .any⟩,
  ⟨0x0804, 0x0, 1, 0x06, 1, .i32, .ro, .v, 0, .any⟩,
  ⟨0x0804, 0x0, 1, 0x07, 1, .u16, .rw, .s, 500, .range (10) (4000)⟩,
  ⟨0x0804, 0x0, 1, 0x08, 1, .u32, .rw, .s, 1000, .range (100) (1000000000)⟩,
  ⟨0x0804, 0x0, 1, 0x09, 1, .u8, .ro, .v, 0, .any⟩,
  ⟨0x0804, 0x0, 1, 0x0A, 1, .u32, .ro, .w, 0, .any⟩,
  ⟨0x0804, 0x0, 1, 0x0B, 1, .u32, .ro, .w, 0, .any⟩,
  ⟨0x0804, 0x0, 1, 0x0C, 1, .u32, .ro, .w, 0, .any⟩,
  ⟨0x0804, 0x0, 1, 0x0D, 1, .u8, .wo, .v, 0, .oneOf [1]⟩]

/-- The objects of 12_memory_controller.md. -/
def rowsMemory : List Row := [
  ⟨0x6000, 0x0, 1, 0x01, 1, .u8, .ro, .v, 0, .any⟩,
  ⟨0x6000, 0x0, 1, 0x02, 1, .u16, .rw, .s, 6400, .oneOf [4800, 5600, 6400]⟩,
  ⟨0x6000, 0x0, 1, 0x03, 1, .u32, .ro, .v, 0, .any⟩,
  ⟨0x6000, 0x0, 1, 0x04, 1, .u8, .ro, .v, 0, .any⟩,
  ⟨0x6000, 0x0, 1, 0x05, 1, .blob, .ro, .w, 0, .any⟩,
  ⟨0x6000, 0x0, 1, 0x06, 1, .u32, .ro, .w, 0, .any⟩,
  ⟨0x6001, 0x0, 1, 0x01, 1, .u32, .rw, .s, 64, .range (1) (1024)⟩,
  ⟨0x6001, 0x0, 1, 0x02, 1, .u32, .rw, .s, 2048, .range (256) (65536)⟩,
  ⟨0x6001, 0x0, 1, 0x03, 1, .u32, .rw, .s, 16384, .range (256) (98304)⟩,
  ⟨0x6001, 0x0, 1, 0x04, 1, .u32, .rw, .s, 256, .range (64) (1024)⟩,
  ⟨0x6001, 0x0, 1, 0x05, 1, .u32, .ro, .v, 0, .any⟩,
  ⟨0x6001, 0x0, 1, 0x06, 1, .blob, .ro, .v, 0, .any⟩,
  ⟨0x6001, 0x0, 1, 0x07, 1, .b1, .ro, .v, 0, .any⟩,
  ⟨0x6002, 0x0, 1, 0x01, 1, .u8, .rw, .s, 2, .oneOf [0, 1, 2]⟩,
  ⟨0x6002, 0x0, 1, 0x02, 1, .u16, .rw, .s, 200, .range (20) (10000)⟩,
  ⟨0x6002, 0x0, 1, 0x03, 1, .u32, .rw, .s, 10000, .zeroOr 1000 10000000⟩,
  ⟨0x6002, 0x0, 1, 0x04, 1, .u8, .rw, .s, 10, .range (6) (16)⟩,
  ⟨0x6002, 0x0, 1, 0x05, 1, .u8, .rw, .s, 1, .oneOf [1, 2]⟩,
  ⟨0x6002, 0x0, 1, 0x06, 1, .u16, .rw, .s, 24, .range (0) (720)⟩,
  ⟨0x6002, 0x0, 1, 0x07, 1, .u8, .ro, .v, 0, .any⟩,
  ⟨0x6003, 0x0, 1, 0x01, 1, .u32, .rw, .s, 2000, .range (500) (1000000)⟩,
  ⟨0x6003, 0x0, 1, 0x02, 1, .u32, .rw, .s, 10000, .range (500) (1000000)⟩,
  ⟨0x6003, 0x0, 1, 0x03, 1, .u32, .rw, .s, 5000, .range (500) (1000000)⟩,
  ⟨0x6003, 0x0, 1, 0x04, 1, .u32, .rw, .s, 20000, .range (500) (1000000)⟩,
  ⟨0x6003, 0x0, 1, 0x05, 1, .u32, .rw, .s, 50000, .range (500) (1000000)⟩,
  ⟨0x6003, 0x0, 1, 0x06, 1, .u32, .rw, .s, 1000, .range (500) (1000000)⟩,
  ⟨0x6003, 0x0, 1, 0x07, 1, .u32, .rw, .s, 1500, .range (500) (1000000)⟩,
  ⟨0x6004, 0x0, 1, 0x01, 7, .u32, .ro, .w, 0, .any⟩,
  ⟨0x6004, 0x0, 1, 0x08, 1, .u8, .wo, .v, 0, .oneOf [1]⟩,
  ⟨0x6005, 0x0, 1, 0x01, 1, .u32, .ro, .w, 0, .any⟩,
  ⟨0x6005, 0x0, 1, 0x02, 1, .u32, .ro, .w, 0, .any⟩,
  ⟨0x6005, 0x0, 1, 0x03, 1, .blob, .ro, .w, 0, .any⟩,
  ⟨0x6005, 0x0, 1, 0x04, 1, .u16, .ro, .v, 0, .any⟩,
  ⟨0x6005, 0x0, 1, 0x05, 1, .u32, .ro, .w, 0, .any⟩,
  ⟨0x6005, 0x0, 1, 0x06, 1, .u64, .ro, .w, 0, .any⟩,
  ⟨0x6005, 0x0, 1, 0x07, 1, .u8, .wo, .v, 0, .oneOf [1]⟩,
  ⟨0x6010, 0x0, 1, 0x01, 1, .u64, .rw, .v, 0, .any⟩,
  ⟨0x6010, 0x0, 1, 0x02, 1, .blob, .rw, .v, 0, .any⟩,
  ⟨0x6010, 0x0, 1, 0x03, 1, .u64, .ro, .v, 0, .any⟩]

/-- The objects of 13_mains_bollards_recovery.md. -/
def rowsMains : List Row := [
  ⟨0x0400, 0x0, 1, 0x01, 1, .b1, .rw, .s, 0, .range (0) (1)⟩,
  ⟨0x0400, 0x0, 1, 0x02, 1, .u8, .rw, .s, 0, .oneOf [0, 1, 2]⟩,
  ⟨0x0400, 0x0, 1, 0x03, 1, .u32, .rw, .s, 400000, .any⟩,
  ⟨0x0400, 0x0, 1, 0x04, 1, .u32, .rw, .s, 50000, .any⟩,
  ⟨0x0400, 0x0, 1, 0x05, 1, .u8, .rw, .s, 7, .range (1) (7)⟩,
  ⟨0x0400, 0x0, 1, 0x06, 1, .u16, .rw, .s, 100, .range (10) (200)⟩,
  ⟨0x0400, 0x0, 1, 0x07, 1, .u32, .ro, .v, 0, .any⟩,
  ⟨0x0400, 0x0, 1, 0x08, 1, .u32, .ro, .v, 0, .any⟩,
  ⟨0x0400, 0x0, 1, 0x09, 1, .u8, .ro, .v, 0, .any⟩,
  ⟨0x0400, 0x0, 1, 0x0A, 1, .u8, .ro, .v, 0, .any⟩,
  ⟨0x0400, 0x0, 1, 0x0B, 3, .u32, .ro, .v, 0, .any⟩,
  ⟨0x0400, 0x0, 1, 0x0E, 3, .u32, .ro, .v, 0, .any⟩,
  ⟨0x0400, 0x0, 1, 0x11, 3, .i32, .ro, .v, 0, .any⟩,
  ⟨0x0400, 0x0, 1, 0x14, 1, .u8, .ro, .v, 0, .any⟩,
  ⟨0x0401, 0x0, 1, 0x01, 1, .u32, .rw, .s, 230000, .any⟩,
  ⟨0x0401, 0x0, 1, 0x02, 1, .u16, .rw, .s, 8500, .range (5000) (9800)⟩,
  ⟨0x0401, 0x0, 1, 0x03, 1, .u16, .rw, .s, 7000, .any⟩,
  ⟨0x0401, 0x0, 1, 0x04, 1, .u16, .rw, .s, 300, .range (50) (1000)⟩,
  ⟨0x0401, 0x0, 1, 0x05, 1, .u8, .rw, .s, 32, .range (1) (64)⟩,
  ⟨0x0401, 0x0, 1, 0x06, 1, .u32, .rw, .s, 500, .range (10) (60000)⟩,
  ⟨0x0401, 0x0, 1, 0x07, 1, .b1, .rw, .s, 0, .range (0) (1)⟩,
  ⟨0x0401, 0x0, 1, 0x08, 1, .u8, .ro, .v, 4, .any⟩,
  ⟨0x0401, 0x0, 1, 0x09, 1, .u16, .ro, .v, 0, .any⟩,
  ⟨0x0401, 0x0, 1, 0x0A, 1, .u16, .ro, .w, 0, .any⟩,
  ⟨0x0401, 0x0, 1, 0x0B, 1, .u32, .ro, .w, 0, .any⟩,
  ⟨0x0401, 0x0, 1, 0x0C, 1, .u32, .ro, .w, 0, .any⟩,
  ⟨0x0401, 0x0, 1, 0x0D, 1, .u32, .ro, .w, 0, .any⟩,
  ⟨0x0401, 0x0, 1, 0x0E, 1, .u8, .wo, .v, 0, .oneOf [1]⟩,
  ⟨0x0401, 0x0, 1, 0x10, 1, .b1, .ro, .v, 0, .any⟩,
  ⟨0x0402, 0x0, 1, 0x01, 16, .u8, .rw, .s, 0, .oneOf [0, 1, 2]⟩,
  ⟨0x0402, 0x0, 1, 0x11, 1, .u16, .rw, .s, 0, .any⟩,
  ⟨0x0402, 0x0, 1, 0x12, 1, .u16, .rw, .s, 100, .range (0) (300)⟩,
  ⟨0x0402, 0x0, 1, 0x13, 1, .u16, .rw, .s, 20, .range (1) (10000)⟩,
  ⟨0x0402, 0x0, 1, 0x14, 1, .u16, .ro, .v, 0, .any⟩,
  ⟨0x0402, 0x0, 1, 0x15, 1, .u16, .ro, .w, 0, .any⟩,
  ⟨0x0402, 0x0, 1, 0x16, 1, .u16, .wo, .v, 0, .any⟩,
  ⟨0x0403, 0x0, 1, 0x01, 16, .u32, .rw, .s, 0, .mask 16777215⟩,
  ⟨0x0404, 0x0, 1, 0x01, 16, .u8, .rw, .s, 0, .mask 15⟩,
  ⟨0x0405, 0x0, 1, 0x01, 16, .u32, .ro, .w, 0, .any⟩,
  ⟨0x0405, 0x0, 1, 0x11, 1, .u8, .wo, .v, 0, .oneOf [1]⟩,
  ⟨0x0406, 0x0, 1, 0x01, 1, .u16, .ro, .w, 0, .any⟩,
  ⟨0x0406, 0x0, 1, 0x02, 1, .ht80, .ro, .w, 0, .any⟩]

/-- The objects of 14_power_reset_boot.md. -/
def rowsPower : List Row := [
  ⟨0x0100, 0x0, 1, 0x01, 1, .u32, .ro, .f, 9362, .any⟩,
  ⟨0x0100, 0x0, 1, 0x02, 1, .u8, .ro, .f, 0, .any⟩,
  ⟨0x0100, 0x0, 1, 0x03, 1, .str, .ro, .f, 0, .any⟩,
  ⟨0x0100, 0x0, 1, 0x04, 1, .u64, .ro, .f, 0, .any⟩,
  ⟨0x0100, 0x0, 1, 0x05, 1, .u16, .ro, .v, 0, .any⟩,
  ⟨0x0100, 0x0, 1, 0x06, 1, .u32, .ro, .v, 0, .any⟩,
  ⟨0x0100, 0x0, 1, 0x07, 1, .u16, .ro, .v, 0, .any⟩,
  ⟨0x0100, 0x0, 1, 0x08, 1, .u32, .ro, .v, 0, .any⟩,
  ⟨0x0100, 0x0, 1, 0x09, 1, .u8, .ro, .v, 0, .any⟩,
  ⟨0x0100, 0x0, 1, 0x0A, 1, .u8, .ro, .v, 0, .any⟩,
  ⟨0x0100, 0x0, 1, 0x0B, 1, .blob, .ro, .f, 0, .any⟩,
  ⟨0x0110, 0x0, 1, 0x01, 1, .u8, .rw, .v, 1, .oneOf [1, 2]⟩,
  ⟨0x0110, 0x0, 1, 0x02, 1, .blob, .wo, .v, 0, .any⟩,
  ⟨0x0110, 0x0, 1, 0x03, 1, .u8, .ro, .v, 0, .any⟩,
  ⟨0x0110, 0x0, 1, 0x04, 1, .u8, .ro, .v, 0, .any⟩,
  ⟨0x0110, 0x0, 1, 0x05, 1, .u8, .wo, .v, 0, .oneOf [1, 2, 3]⟩,
  ⟨0x0110, 0x0, 1, 0x06, 1, .u8, .wo, .v, 0, .oneOf [1]⟩,
  ⟨0x0110, 0x0, 1, 0x07, 1, .blob, .ro, .v, 0, .any⟩,
  ⟨0x0300, 0x0, 1, 0x01, 1, .u8, .wo, .v, 0, .range (0) (5)⟩,
  ⟨0x0300, 0x0, 1, 0x02, 1, .u8, .ro, .v, 0, .any⟩,
  ⟨0x0300, 0x0, 1, 0x03, 1, .u8, .rw, .s, 7, .mask 15⟩,
  ⟨0x0300, 0x0, 1, 0x04, 1, .u8, .ro, .v, 0, .any⟩,
  ⟨0x0300, 0x0, 1, 0x05, 1, .ht80, .rw, .w, 0, .any⟩,
  ⟨0x0300, 0x0, 1, 0x06, 1, .u8, .ro, .w, 0, .any⟩,
  ⟨0x0300, 0x0, 1, 0x07, 1, .u32, .ro, .v, 0, .any⟩,
  ⟨0x0301, 0x0, 1, 0x01, 1, .u8, .wo, .v, 0, .oneOf [1]⟩,
  ⟨0x0301, 0x0, 1, 0x02, 1, .u8, .ro, .v, 0, .any⟩,
  ⟨0x0301, 0x0, 1, 0x03, 1, .u32, .ro, .w, 0, .any⟩,
  ⟨0xF000, 0x0, 1, 0x01, 1, .i16, .ro, .v, 0, .any⟩,
  ⟨0xF000, 0x0, 1, 0x02, 1, .u16, .ro, .v, 0, .any⟩,
  ⟨0xF000, 0x0, 1, 0x03, 1, .u16, .ro, .v, 0, .any⟩,
  ⟨0xF000, 0x0, 1, 0x04, 1, .u32, .ro, .v, 0, .any⟩,
  ⟨0xF000, 0x0, 1, 0x05, 1, .u32, .ro, .v, 0, .any⟩]

/-- The objects of 15_logbook_and_calibration.md. -/
def rowsLogbook : List Row := [
  ⟨0x0500, 0x0, 1, 0x01, 1, .u32, .ro, .v, 0, .any⟩,
  ⟨0x0500, 0x0, 1, 0x02, 1, .u32, .ro, .v, 0, .any⟩,
  ⟨0x0500, 0x0, 1, 0x03, 1, .u32, .rw, .v, 0, .any⟩,
  ⟨0x0500, 0x0, 1, 0x04, 1, .blob, .ro, .v, 0, .any⟩,
  ⟨0x0500, 0x0, 1, 0x05, 1, .u8, .rw, .v, 32, .range (1) (32)⟩,
  ⟨0x0500, 0x0, 1, 0x06, 1, .u16, .ro, .v, 0, .any⟩,
  ⟨0x0500, 0x0, 1, 0x07, 1, .u32, .ro, .w, 0, .any⟩,
  ⟨0x0500, 0x0, 1, 0x08, 1, .u32, .wo, .v, 0, .any⟩,
  ⟨0x0500, 0x0, 1, 0x09, 1, .u16, .rw, .s, 105, .mask 1023⟩,
  ⟨0x0500, 0x0, 1, 0x0A, 1, .u8, .wo, .v, 0, .oneOf [1]⟩,
  ⟨0x0500, 0x0, 1, 0x0B, 1, .u32, .ro, .v, 0, .any⟩,
  ⟨0x0600, 0x0, 1, 0x01, 1, .blob, .ro, .f, 0, .any⟩,
  ⟨0x0600, 0x0, 1, 0x02, 1, .blob, .ro, .f, 0, .any⟩,
  ⟨0x0600, 0x0, 1, 0x03, 1, .blob, .ro, .v, 0, .any⟩,
  ⟨0x0600, 0x0, 1, 0x04, 1, .u32, .ro, .w, 0, .any⟩,
  ⟨0x0600, 0x0, 1, 0x05, 1, .u32, .ro, .v, 0, .any⟩,
  ⟨0x0602, 0x0, 1, 0x01, 1, .bu32, .rw, .s, 0, .any⟩,
  ⟨0x0602, 0x0, 1, 0x02, 1, .bu32, .rw, .s, 0, .any⟩,
  ⟨0x0602, 0x0, 1, 0x03, 1, .bu32, .rw, .s, 0, .zeroOr 12800 1280000⟩,
  ⟨0x0602, 0x0, 1, 0x04, 1, .u16, .rw, .s, 0, .range (0) (1024)⟩,
  ⟨0x0602, 0x0, 1, 0x05, 1, .u16, .rw, .s, 0, .range (0) (1024)⟩,
  ⟨0x0602, 0x0, 1, 0x06, 1, .bu32, .rw, .s, 0, .any⟩,
  ⟨0x0602, 0x0, 1, 0x07, 1, .u8, .rw, .s, 0, .oneOf [0, 1]⟩,
  ⟨0x0602, 0x0, 1, 0x08, 1, .u16, .rw, .s, 0, .any⟩,
  ⟨0x0603, 0x0, 1, 0x01, 1, .u32, .rw, .v, 0, .mask 16777215⟩,
  ⟨0x0603, 0x0, 1, 0x02, 1, .u8, .wo, .v, 0, .oneOf [1, 2, 3, 4]⟩,
  ⟨0x0603, 0x0, 1, 0x03, 1, .u8, .ro, .v, 0, .any⟩,
  ⟨0x0603, 0x0, 1, 0x04, 1, .u8, .ro, .v, 0, .any⟩,
  ⟨0x0603, 0x0, 1, 0x05, 1, .bu32, .rw, .s, 64, .range (8) (1280)⟩,
  ⟨0x0603, 0x0, 1, 0x06, 1, .bu32, .rw, .s, 128, .range (8) (2560)⟩,
  ⟨0x0603, 0x0, 1, 0x07, 1, .bu32, .rw, .s, 256, .range (8) (2560)⟩,
  ⟨0x0603, 0x0, 1, 0x08, 1, .u32, .rw, .s, 200000, .range (10000) (10000000)⟩,
  ⟨0x0603, 0x0, 1, 0x09, 1, .u8, .rw, .s, 4, .range (1) (16)⟩,
  ⟨0x0603, 0x0, 1, 0x0A, 1, .u32, .rw, .s, 0, .any⟩,
  ⟨0x0604, 0x0, 1, 0x01, 1, .u32, .ro, .v, 0, .any⟩,
  ⟨0x0604, 0x0, 1, 0x02, 1, .bu32, .ro, .v, 0, .any⟩,
  ⟨0x0604, 0x0, 1, 0x03, 1, .bu32, .ro, .v, 0, .any⟩,
  ⟨0x0604, 0x0, 1, 0x04, 1, .bu32, .ro, .v, 0, .any⟩,
  ⟨0x0604, 0x0, 1, 0x05, 1, .u8, .ro, .v, 255, .any⟩,
  ⟨0x0604, 0x0, 1, 0x06, 1, .u32, .ro, .v, 0, .any⟩,
  ⟨0x0604, 0x0, 1, 0x07, 1, .blob, .ro, .v, 0, .any⟩,
  ⟨0x0604, 0x0, 1, 0x08, 1, .u8, .rw, .v, 0, .range (0) (23)⟩,
  ⟨0x0604, 0x0, 1, 0x09, 1, .u32, .ro, .v, 0, .any⟩]

/-- Whether a row holds an index. -/
def Row.hasIdx (r : Row) (i : Nat) : Bool :=
  if r.step = 0 then i == r.idx
  else decide (r.idx ≤ i) && (i - r.idx) % r.step == 0 && decide ((i - r.idx) / r.step < r.num)

/-- Whether a row holds an object. -/
def Row.has (r : Row) (i s : Nat) : Bool := decide (r.sub ≤ s) && decide (s < r.sub + r.subs) && r.hasIdx i

/-- The rows of the chapter that defines an index (R301). -/
def rowsAt (i : Nat) : List Row :=
  if i < 0x0200 then rowsPower
  else if i < 0x0300 then rowsNetwork
  else if i < 0x0400 then rowsPower
  else if i < 0x0500 then rowsMains
  else if i < 0x0800 then rowsLogbook
  else if i < 0x1000 then rowsNetwork
  else if i < 0x1800 then rowsBerth
  else if i = 0x1800 then rowsHarbour
  else if i < 0x2000 then rowsHarbourmaster
  else if i < 0x3800 then rowsLoop
  else if i < 0x4000 then rowsLink
  else if i < 0x5000 then rowsVision
  else if i < 0x5800 then rowsChart
  else if i < 0x6000 then rowsRecord
  else if i < 0x7000 then rowsMemory
  else if i < 0x8000 then rowsMotion
  else if i < 0xF000 then rowsCommit
  else rowsPower

/-- The row of an object, if the dictionary has it (R301). -/
def findRow (i s : Nat) : Option Row := (rowsAt i).find? (fun r => r.has i s)

/-- The key of an object: index and subindex in one number (R9). -/
def key (i s : Nat) : Nat := i * 256 + s

/-- The BLOB defaults that the tables state; an object with none reads empty (log 13), but for the bias codes of R375: 24 bytes that
track the part, free values (log 12). -/
def blobDefault (i s : Nat) : List Byte :=
  if 0x4100 ≤ i ∧ i < 0x41D0 ∧ i % 8 = 2 ∧ s = 5 then (List.replicate 289 [0x00#8, 0x10#8]).flatten
  else if i = 0x0600 ∧ s = 3 then slice (Config.factoryBlob (key i s)) 0 24
  else if i = 0x4808 ∧ s = 8 then List.replicate 2048 0#8
  else if i = 0x5101 ∧ 1 ≤ s ∧ s ≤ 4 then List.replicate 32 0#8
  else if i = 0x0802 ∧ s = 6 then List.replicate 16 0#8
  else []

/-- The lengths a write of a BLOB may have: least and most bytes. -/
def blobLength (i s : Nat) : Nat × Nat :=
  if 0x1000 ≤ i ∧ i < 0x1600 ∧ s = 5 then (0, 199692)
  else if 0x4100 ≤ i ∧ i < 0x41D0 ∧ i % 8 = 2 then (if s = 5 then (578, 578) else (0, 4096))
  else if i = 0x4808 then (2048, 2048)
  else if i = 0x5801 then (4096, 4096)
  else if i = 0x0802 then (16, 16)
  else if 0x3810 ≤ i ∧ i < 0x3828 then (1, 240)
  else (0, 2 ^ 32)

/-- The value an object holds until something is written (R9): its default; for a factory object the constant of this part. -/
def objDefault (i s : Nat) : Val :=
  match findRow i s with
  | none => .int 0
  | some r =>
    match r.ty with
    | .blob => if r.kind = .f then .blob (Config.factoryBlob (key i s)) else .blob (blobDefault i s)
    | .str => .blob (Config.factoryBlob (key i s))
    | _ => if r.kind = .f ∧ r.dflt = 0 then .int (Config.factoryInt (key i s)) else .int r.dflt

/-- The values of a type (R9, R287). -/
def Ty.holds (t : Ty) (v : Val) : Bool :=
  match v with
  | .blob _ => t == .blob || t == .str
  | .int i =>
    match t with
    | .b1 => decide (0 ≤ i ∧ i ≤ 1)
    | .u8 => decide (0 ≤ i ∧ i < 2 ^ 8)
    | .u16 => decide (0 ≤ i ∧ i < 2 ^ 16)
    | .u32 | .f32 => decide (0 ≤ i ∧ i < 2 ^ 32)
    | .u64 => decide (0 ≤ i ∧ i < 2 ^ 64)
    | .i16 => decide (-2 ^ 15 ≤ i ∧ i < 2 ^ 15)
    | .i32 | .q31 | .bu32 => decide (-2 ^ 31 ≤ i ∧ i < 2 ^ 31)
    | .i64 => decide (-2 ^ 63 ≤ i ∧ i < 2 ^ 63)
    | .ht80 => decide (0 ≤ i ∧ i < 2 ^ 48 * 1000000000)
    | .str | .blob => false

/-- Whether a row's range allows a value. -/
def Chk.allows (c : Chk) (i : Int) : Bool :=
  match c with
  | .any => true
  | .range lo hi => decide (lo ≤ i ∧ i ≤ hi)
  | .oneOf l => l.contains i
  | .mask m => decide (0 ≤ i) && (i.toNat &&& m) == i.toNat
  | .mult lo hi k => decide ((lo : Int) ≤ i ∧ i ≤ hi) && i.toNat % k == 0
  | .zeroOr lo hi => i == 0 || decide (lo ≤ i ∧ i ≤ hi)
  | .nz => i != 0

/-- The width of a type in bytes on the wire (R287); 0 for text and BLOB. -/
def Ty.width : Ty → Nat
  | .b1 | .u8 => 1
  | .u16 | .i16 => 2
  | .u32 | .i32 | .q31 | .f32 | .bu32 => 4
  | .u64 | .i64 => 8
  | .ht80 => 10
  | .str | .blob => 0

/-- A value as R287 encodes it. -/
def encodeVal (t : Ty) (v : Val) : List Byte :=
  match v with
  | .blob b => b
  | .int i => if t = .ht80 then toLe 4 (i.toNat % 1000000000) ++ toLe 6 (i.toNat / 1000000000) else toLeI t.width i

/-- A value read from its bytes as R287 encodes it; none for a wrong length. -/
def decodeVal (t : Ty) (b : List Byte) : Option Val :=
  match t with
  | .str | .blob => some (.blob b)
  | .ht80 => if b.length = 10 then some (.int (field b 4 6 * 1000000000 + field b 0 4 : Nat)) else none
  | .i16 | .i32 | .i64 | .q31 | .bu32 =>
    if b.length = t.width then some (.int (signed (8 * t.width) (ofLe b))) else none
  | _ => if b.length = t.width then some (.int (ofLe b : Nat)) else none

/-- The power domain of the owner of an index (R301, R340). -/
def domainOf (i : Nat) : Nat :=
  if i < 0x0400 then 1
  else if i < 0x0402 then 2
  else if i < 0x0600 then 0
  else if i < 0x1000 then 1
  else if i < 0x2000 then 5
  else if i < 0x3800 then 6
  else if i < 0x4000 then 4
  else if i < 0x4800 then 7
  else if i < 0x5000 then 2
  else if i < 0x5100 then 7
  else if i < 0x5800 then 5
  else if i < 0x6000 then 7
  else if i < 0x7000 then 3
  else if i < 0x8000 then 2
  else if i < 0xF000 then 5
  else 1

end Sys2Proof.Machine
end

