-- ==== Sys2Proof/WellFormed.lean ====
section
/-!
DEFINITION. Sys2Proof/WellFormed.lean: which commands name something of the part (R4, R15, R56, R148, R200, R223, R251,
R259, R286): a berth, head or camera number below its count, a number of bytes a field can carry.
-/
namespace Sys2Proof

/-- A berth or head number (R4). -/
def berthOk (b : Nat) : Bool := decide (b < 24)

/-- A stream number of R200: event, sample, feature or chart and harbour streams. -/
def streamOk (s : Nat) : Bool :=
  decide (s < 0x18) || (decide (0x20 ≤ s) && decide (s < 0x38)) || (decide (0x40 ≤ s) && decide (s < 0x5A))
    || s == 0x60 || s == 0x61

/-- An offset inside a loop frame, in ns (R124). -/
def offOk (o : Nat) : Bool := decide (o < 2500)

/-- An index and a subindex (R9). -/
def objOk (i s : Nat) : Bool := decide (i < 2 ^ 16) && decide (s < 2 ^ 8)

/-- A session: 0-15 MOP, 16 the SPI port (R286, R299). -/
def sessOk (n : Nat) : Bool := decide (n ≤ 16)

/-- The fields of an entry fit R287. -/
def Entry.wf (e : Entry) : Bool :=
  objOk e.idx e.sub && decide (e.offset < 2 ^ 32) && decide (e.len < 2 ^ 16) && decide (e.data.length < 2 ^ 16)
    && (e.sig.length == 0 || e.sig.length == 64)

/-- The operands name something of the part. -/
def Instr.wf : Instr → Bool
  | .pauseAtSafePoint b | .safePointReached b | .decelerationComplete b | .noHostCopy b | .endReached b
  | .waitComplete b | .waitTimeout b | .eventGroup b | .temperatureReportTimeout b | .budgetWaitTimeout b
  | .reassignBerth b | .sampleAnchor b | .wakeResume b | .settleTime b => berthOk b
  | .pauseNow b off | .resume b off | .berthReset b off => berthOk b && offOk off
  | .fence n | .window n => sessOk n
  | .objectWrite n i s _ => sessOk n && objOk i s
  | .loadData b d => berthOk b && decide (d.length < 2 ^ 16)
  | .closeLength b n => berthOk b && decide (n < 2 ^ 32)
  | .validationComplete b n | .repairComplete b n | .slotClear b n => berthOk b && decide (n < 4)
  | .groupSeal n g l sig =>
    sessOk n && decide (g < 28) && decide (0 < l) && decide (l < 2 ^ 32) && (sig.length == 0 || sig.length == 64)
  | .groupUnseal n g sig => sessOk n && decide (g < 28) && (sig.length == 0 || sig.length == 64)
  | .commitRequest l | .release l | .exportLayer l | .fenceComplete l => decide (l < 2 ^ 32)
  | .powerSample b j => berthOk b && decide (j < 25)
  | .feedback h _ | .status h _ | .tile h _ | .caps h _ | .configReply h _ | .feedbackMissing h
  | .measurementInterval h | .configTimeout h => berthOk h
  | .echoReply h _ _ p => berthOk h && decide (p < 2 ^ 32)
  | .echoReplyTimeout h t => berthOk h && decide (t < 2 ^ 16)
  | .configWrite n h d => sessOk n && berthOk h && decide (1 ≤ d.length) && decide (d.length ≤ 240)
  | .configRead n h => sessOk n && berthOk h
  | .recordMissing k | .seatFrameMissing k | .lanesDeskewed k _ _ | .spot k _ | .seat k _
  | .qtime k _ | .data k _ => decide (k < 2)
  | .budgetWithdrawal p => decide (p < 3)
  | .bankSelect n v | .loopMode n v => decide (n < 192) && decide (v < 256)
  | .tripClear n => decide (n < 192)
  | .hostTrigger c off => (c == 24 || c == 25) && offOk off
  | .contextEnable c _ | .tileFrameTimeout c | .frameTimeout c | .tileProcessed c => decide (c < 26)
  | .csiPacket p _ | .portLinkUp p | .portLinkDown p | .ethernetFrame p _ => decide (p < 2)
  | .lampTemperatureRead l => decide (l.length = 4)
  | .lampBoardTimeout d => decide (d < 4)
  | .channelDiagnosis v => decide (v.length = 16)
  | .breakwaterSet n _ sig => sessOk n && (sig.length == 0 || sig.length == 64)
  | .keySlotProgram n _ sig => sessOk n && (sig.length == 0 || sig.length == 64)
  | .keySlotRevoke n v sig => sessOk n && decide (v < 256) && (sig.length == 0 || sig.length == 64)
  | .streamResume st | .gapEntry st => streamOk st
  | .readPointer st v => streamOk st && decide (v < 2 ^ 64)
  | .linkEnable l | .linkDisable l | .signalDetected l | .equaliseComplete l _ | .measurementComplete l
  | .trainingTimeout l | .retryInterval l | .eyeMargin l _ | .retrain l | .retrainStart l
  | .lockOrAlignmentLost l => decide (l < 26)
  | .commaAligned l m => decide (l < 26) && decide (m < 16)
  | .target m p => decide (m < 4) && decide (-2 ^ 31 ≤ p) && decide (p < 2 ^ 31)
  | .strokeEnd m | .stopDecelerate m | .stopFreeze m | .stall m | .stallClear m | .home m | .homingTravelLimit m
  | .standstillDelay m | .idleAction m | .energiseComplete m | .backOffComplete m => decide (m < 4)
  | .encoderEdge i _ _ off | .indexPulse i _ _ off => decide (i < 6) && offOk off
  | .countSet i v => decide (i < 8) && decide (-2 ^ 31 ≤ v) && decide (v < 2 ^ 31)
  | .referenceArm i => decide (i < 6)
  | .ssiFrame i w _ _ off => (i == 6 || i == 7) && decide (w < 2 ^ 32) && offOk off
  | .counterStandstill i => decide (i < 8)
  | .openSession r => decide (r.cls < 256) && decide (r.nonce.length = 16)
  | .closeSession n q | .keepalive n q => decide (n < 16) && decide (q < 2 ^ 32)
  | .sessionTimeout n | .noticeBatch n => decide (n < 16)
  | .read n q es | .write n q es | .writeFenced n q es => decide (n < 16) && decide (q < 2 ^ 32) && es.all Entry.wf
  | .bulkBegin n q _ | .subscribe n q _ => decide (n < 16) && decide (q < 2 ^ 32)
  | .signProof n q key sig =>
    decide (n < 16) && decide (q < 2 ^ 32) && decide (key.length = 64) && decide (sig.length = 64)
  | .bulkData n i _ _ | .bulkAck n i _ | .bulkResendTimeout n i | .bulkTimeout n i | .bulkAckInterval n i =>
    decide (n < 16) && decide (i < 2 ^ 32)
  | .reportPeriod n k => decide (n < 16) && decide (k < 4)
  | .spiReadRequest i s _ _ _ => objOk i s
  | .spiWrite e _ | .spiWriteFenced e _ => e.wf
  | .timeSet ns => decide (ns < 2 ^ 48 * 1000000000)
  | .memoryRequest r => decide (r.client < 7) && decide (r.len ≤ 4096) && (!r.write || r.data.length == r.len)
  | .refresh c _ | .pageIdleClose c _ => decide (c < 4)
  | .selfRefreshEntry c => decide (c < 2)
  | .evaluationPoint r => decide (r.v2.length = 3) && decide (r.i2.length = 3) && decide (r.p.length = 3)
  | .inputFault i | .inputFaultClear i => decide (i < 6)
  | .bollardLatch i off => decide (i < 16) && offOk off
  | .acknowledge m | .activeLevel m => decide (m < 2 ^ 16)
  | .rungRequest n => decide (n < 256)
  | .wake src _ => decide (src < 256)
  | .imageData o d => decide (o < 2 ^ 32) && decide (d.length < 2 ^ 16)
  | .clear v => decide (v < 2 ^ 32)
  | .powerOnReset p | .nrst p => decide (p.node < 1024) && decide (p.bol < 2 ^ 16)
  | .loopFrame _ | .harbourPauseAtSafePoint | .harbourPauseNow | .harbourResume | .lockWindowOpen | .lockGateCommit
  | .lockTimeout | .commitAbort | .exposingStart | .reassignment | .overload | .sequenceStart | .projectorStartTime
  | .projectorEntry | .sequenceStop | .featureCharted | .bufferClosed | .blockCoded | .jobStart | .jobResume
  | .jobAbort | .jobSaveState | .motionHoldClear | .wakeRelease | .discover | .presence _ | .hostSilence
  | .spiStatus | .fetchReply | .fetchNotices | .store | .storeComplete _ | .restoreDefaults | .sync _ | .followUp _
  | .delayReq _ | .delayResp _ | .pdelayReq _ | .pdelayResp _ | .announce _ | .announceReceiptTimeout | .servoLocked
  | .trainingComplete _ | .dqsOscillatorCheck _ | .patrolScrub _ | .holdOffComplete | .tideEnable _ | .tideLock
  | .tideLockLost | .watchdog | .warmReset | .verifyAndWrite | .updateReady _ | .activate | .updateDiscard | .confirm
  | .logbookFlushTimer | .flush | .blockEraseComplete | .calibrationStart | .runComplete | .calibrationAbort | .apply
  | .calibrationDiscard | .dieTemperature _ | .syncInterval | .announceInterval | .minimumDelayInterval
  | .signedLockoutEnd | .positiveGoingZeroCrossing => true

end Sys2Proof
end

