-- ==== Sys2Proof/Machine/Domains.lean ====
section
/-!
DEFINITION. Sys2Proof/Machine/Domains.lean: the power domain in which each command acts (R340), and which commands are a host's
access to an object (R346).
-/
namespace Sys2Proof.Machine

/-- Where a command acts (R340, R361, R362): 0-7 the domain of its block; 8 the tide tracker of D2, which Anchorage leaves
running; 9 the calibrations of D1, which it does not; 10 what the boot ROM serves in ROM recovery as well; 11 a host's access to D0. -/
def commandDomain : Instr → Nat
  | .loopFrame _ | .bollardLatch _ _ | .wake _ _ | .powerOnReset _ | .nrst _ | .watchdog => 0
  | .acknowledge _ | .activeLevel _ => 11
  | .fence _ | .objectWrite _ _ _ _ | .openSession _ | .closeSession _ _ | .sessionTimeout _ | .discover | .presence _
  | .keepalive _ _ | .read _ _ _ | .write _ _ _ | .writeFenced _ _ _ | .bulkBegin _ _ _ | .bulkData _ _ _ _
  | .bulkAck _ _ _ | .bulkResendTimeout _ _ | .bulkTimeout _ _ | .subscribe _ _ _ | .noticeBatch _ | .reportPeriod _ _
  | .signProof _ _ _ _ | .hostSilence | .store | .storeComplete _ | .restoreDefaults | .ethernetFrame _ _
  | .portLinkUp _ | .portLinkDown _ | .sync _ | .followUp _ | .delayReq _ | .delayResp _ | .pdelayReq _ | .pdelayResp _
  | .announce _ | .announceReceiptTimeout | .servoLocked | .timeSet _ | .syncInterval | .announceInterval
  | .minimumDelayInterval | .signedLockoutEnd | .bulkAckInterval _ _ | .rungRequest _ | .logbookFlushTimer | .flush
  | .blockEraseComplete | .clear _ | .window _ | .dieTemperature _ => 1
  | .spiReadRequest _ _ _ _ _ | .spiWrite _ _ | .spiWriteFenced _ _ | .spiStatus | .fetchReply | .fetchNotices
  | .warmReset | .imageData _ _ | .verifyAndWrite | .updateReady _ | .activate | .updateDiscard | .confirm => 10
  | .calibrationStart | .settleTime _ | .runComplete | .calibrationAbort | .apply | .calibrationDiscard => 9
  | .target _ _ | .strokeEnd _ | .stopDecelerate _ | .stopFreeze _ | .motionHoldClear | .stall _ | .stallClear _
  | .home _ | .homingTravelLimit _ | .standstillDelay _ | .idleAction _ | .energiseComplete _ | .backOffComplete _
  | .encoderEdge _ _ _ _ | .indexPulse _ _ _ _ | .countSet _ _ | .referenceArm _ | .ssiFrame _ _ _ _ _
  | .counterStandstill _ | .wakeRelease | .tideEnable _ | .lampTemperatureRead _ | .lampBoardTimeout _ | .channelDiagnosis _
  | .sequenceStart | .projectorStartTime | .projectorEntry | .sequenceStop => 2
  | .evaluationPoint _ | .holdOffComplete | .inputFault _ | .inputFaultClear _ | .tideLock
  | .tideLockLost | .positiveGoingZeroCrossing => 8
  | .memoryRequest _ | .trainingComplete _ | .dqsOscillatorCheck _ | .refresh _ _ | .pageIdleClose _ _
  | .selfRefreshEntry _ | .patrolScrub _ => 3
  | .feedback _ _ | .status _ _ | .recordMissing _ | .linkEnable _ | .linkDisable _ | .signalDetected _
  | .commaAligned _ _ | .lanesDeskewed _ _ _ | .equaliseComplete _ _ | .caps _ _ | .measurementComplete _
  | .trainingTimeout _ | .retryInterval _ | .eyeMargin _ _ | .retrain _ | .retrainStart _ | .feedbackMissing _
  | .measurementInterval _ | .echoReply _ _ _ _ | .echoReplyTimeout _ _ | .configWrite _ _ _ | .configRead _ _
  | .configReply _ _ | .configTimeout _ | .spot _ _ | .seat _ _ | .seatFrameMissing _ | .qtime _ _ | .data _ _
  | .lockOrAlignmentLost _ => 4
  | .pauseAtSafePoint _ | .pauseNow _ _ | .resume _ _ | .berthReset _ _ | .harbourPauseAtSafePoint | .harbourPauseNow
  | .harbourResume | .safePointReached _ | .decelerationComplete _ | .loadData _ _ | .closeLength _ _
  | .validationComplete _ _ | .repairComplete _ _ | .slotClear _ _ | .noHostCopy _ | .groupSeal _ _ _ _ | .groupUnseal _ _ _
  | .commitRequest _ | .lockWindowOpen | .lockGateCommit | .lockTimeout | .commitAbort | .exposingStart | .endReached _
  | .fenceComplete _ | .waitComplete _ | .waitTimeout _ | .eventGroup _ | .powerSample _ _ | .temperatureReportTimeout _
  | .budgetWaitTimeout _ | .budgetWithdrawal _ | .reassignBerth _ | .reassignment | .breakwaterSet _ _ _
  | .keySlotProgram _ _ _ | .keySlotRevoke _ _ _ | .wakeResume _ => 5
  | .bankSelect _ _ | .loopMode _ _ | .tripClear _ => 6
  | .hostTrigger _ _ | .contextEnable _ _ | .tile _ _ | .csiPacket _ _ | .tileFrameTimeout _ | .frameTimeout _
  | .tileProcessed _ | .overload | .featureCharted | .bufferClosed | .release _ | .exportLayer _ | .blockCoded
  | .streamResume _ | .gapEntry _ | .sampleAnchor _ | .readPointer _ _ | .jobStart | .jobResume | .jobAbort
  | .jobSaveState => 7

/-- Whether a command is a host's access to an object, which ungates its domain on P1 and is answered with a result (R346). -/
def isAccess : Instr → Bool
  | .pauseAtSafePoint _ | .pauseNow _ _ | .resume _ _ | .berthReset _ _ | .harbourPauseAtSafePoint | .harbourPauseNow
  | .harbourResume | .loadData _ _ | .closeLength _ _ | .slotClear _ _ | .noHostCopy _ | .groupSeal _ _ _ _ | .groupUnseal _ _ _
  | .commitRequest _ | .commitAbort | .reassignBerth _ | .bankSelect _ _ | .loopMode _ _ | .tripClear _
  | .hostTrigger _ _ | .contextEnable _ _ | .sequenceStart | .sequenceStop | .release _ | .exportLayer _
  | .breakwaterSet _ _ _ | .keySlotProgram _ _ _ | .keySlotRevoke _ _ _ | .readPointer _ _ | .jobStart | .jobResume
  | .jobAbort | .jobSaveState | .linkEnable _ | .linkDisable _ | .retrain _ | .configWrite _ _ _ | .configRead _ _
  | .target _ _ | .stopDecelerate _ | .stopFreeze _ | .motionHoldClear | .stallClear _ | .home _ | .countSet _ _
  | .referenceArm _ | .wakeRelease | .tideEnable _ | .acknowledge _ | .activeLevel _ | .calibrationStart | .calibrationAbort | .apply
  | .calibrationDiscard => true
  | _ => false

/-- The result of an access whose operands are not well formed (R288, log 2): a value wider than its object has the wrong length, an
instance the part does not have is no object. A command that is no access has no result. -/
def illResult (c : Instr) : Nat :=
  match c with
  | .commitRequest _ | .release _ | .exportLayer _ | .clear _ | .rungRequest _ | .acknowledge _ | .activeLevel _ | .imageData _ _
  | .timeSet _ => 5
  | .pauseNow b _ | .resume b _ | .berthReset b _ | .loadData b _ | .closeLength b _ => if berthOk b then 5 else 1
  | .groupSeal _ g _ _ | .groupUnseal _ g _ => if g < 28 then 5 else 1
  | .configWrite _ h _ => if berthOk h then 5 else 1
  | .readPointer st _ => if streamOk st then 5 else 1
  | .bankSelect n _ | .loopMode n _ => if n < 192 then 5 else 1
  | .target m _ => if m < 4 then 5 else 1
  | .countSet i _ => if i < 8 then 5 else 1
  | .breakwaterSet _ _ _ | .keySlotProgram _ _ _ | .keySlotRevoke _ _ _ => 5
  | .objectWrite n _ _ _ => if sessOk n then 1 else 0
  | c => if isAccess c then 1 else 0

end Sys2Proof.Machine
end

