-- ==== Sys2Proof/Machine/Ops.lean ====
section
/-!
DEFINITION. Sys2Proof/Machine/Ops.lean: the named operations every meaning is built from: objects in force and in their
shadow, the records of each block, outputs, free values, DRAM bytes, notices (R29, R292, R293) and the logbook (R365-R371).
-/
namespace Sys2Proof.Machine

/-- The value in force of an object (R9). -/
def getV (i k : Nat) (s : State) : Val := (s.obj.find (key i k)).getD (objDefault i k)

/-- The integer in a value, 0 for bytes. -/
def asInt : Val → Int
  | .int i => i
  | .blob _ => 0

/-- The bytes in a value, none for an integer. -/
def asBytes : Val → List Byte
  | .int _ => []
  | .blob b => b

/-- An integer object in force. -/
def getI (i k : Nat) (s : State) : Int := asInt (getV i k s)

/-- An object in force as a natural number. -/
def getN (i k : Nat) (s : State) : Nat := (getI i k s).toNat

/-- Whether the domain of a command runs (R341, R346, R361, R362): P1 gates D5 to D7 but for an access, P2 leaves the pilot
running, P3 and below D0 alone. -/
def running (c : Instr) (s : State) : Bool :=
  let r := getN 0x0300 2 s
  let d := commandDomain c
  if d = 0 then true
  else if d = 10 then r ≤ 2
  else if s.pilot.romRecovery then false
  else if d = 1 then r ≤ 2
  else if d = 11 then r ≤ 2 ∧ !s.pilot.anchorage
  else if d = 3 ∨ d = 8 then r ≤ 1
  else if s.pilot.anchorage then false
  else if d = 2 ∨ d = 4 ∨ d = 9 ∨ isAccess c then r ≤ 1
  else r = 0

/-- The result of an access whose domain does not run: 0x000C in Anchorage, 0x0004 on a rung (R346, R361). -/
def offResult (c : Instr) (s : State) : Nat := if isAccess c then (if s.pilot.anchorage then 0xC else 4) else 0

/-- The state as a command finds it: no output yet, result 0 (log 4). -/
def fresh (s : State) : State := { s with out := [], result := 0 }

/-- A well-formed command has the effect `f` where its domain runs, from a state with no output and result 0; where it does not, an
access is refused and nothing else happens. A command whose operands name nothing of the part does nothing, and an access answers with
its result (R288, log 2). -/
def gated (c : Instr) (f : State → State) (s : State) : Host.Outcome State Fault Refusal :=
  .next (if !c.wf then { fresh s with result := illResult c }
    else if running c s then f (fresh s) else { fresh s with result := offResult c s })

/-- A BLOB in force. -/
def getB (i k : Nat) (s : State) : List Byte := asBytes (getV i k s)

/-- Puts a value in force. -/
def setV (i k : Nat) (v : Val) (s : State) : State := { s with obj := s.obj.put (key i k) v }

/-- Puts an integer in force. -/
def setI (i k : Nat) (v : Int) (s : State) : State := setV i k (.int v) s

/-- Puts a number in force. -/
def setN (i k : Nat) (v : Nat) (s : State) : State := setV i k (.int v) s

/-- Puts bytes in force. -/
def setB (i k : Nat) (v : List Byte) (s : State) : State := setV i k (.blob v) s

/-- Adds to a counter of `w` bits, which wraps. -/
def addN (i k w n : Nat) (s : State) : State := setN i k ((getN i k s + n) % 2 ^ w) s

/-- The shadow of an RWC or RWF object: the value written and not yet in force, else the value in force (R26, R27). -/
def shadowV (i k : Nat) (s : State) : Val := (s.shadow.find (key i k)).getD (getV i k s)

/-- The shadow of an integer object. -/
def shadowI (i k : Nat) (s : State) : Int := asInt (shadowV i k s)

/-- Writes a shadow. -/
def setShadow (i k : Nat) (v : Val) (s : State) : State := { s with shadow := s.shadow.put (key i k) v }

/-- Brings the shadow of an object into force. -/
def takeShadow (i k : Nat) (s : State) : State :=
  match s.shadow.find (key i k) with
  | none => s
  | some v => { setV i k v s with shadow := s.shadow.del (key i k) }

/-- Brings into force every shadow whose key satisfies `p`. -/
def takeShadows (p : Nat → Bool) (s : State) : State :=
  { s with obj := (s.shadow.filter (fun e => p e.1)).foldl (fun o e => o.put e.1 e.2) s.obj,
           shadow := s.shadow.filter (fun e => !p e.1) }

/-- Whether a shadow whose key satisfies `p` waits. -/
def shadowHas (p : Nat → Bool) (s : State) : Bool := s.shadow.any (fun e => p e.1)

/-- The result of the command (R288). -/
def withResult (r : Nat) (s : State) : State := { s with result := r }

/-- An output of the command. -/
def emit (o : Out) (s : State) : State := { s with out := s.out ++ [o] }

/-- The free value the state draws next (log 3). -/
def freeVal (s : State) : Nat := Config.freeValue s.free

/-- The state after a free value was drawn. -/
def drawn (s : State) : State := { s with free := s.free + 1 }

/-- One nanosecond of harbour time. -/
def nsT : Nat := 65536

/-- One loop frame of harbour time (R124). -/
def frameT : Nat := 2500 * nsT

/-- The harbour time at an offset into the loop frame. -/
def timeAt (off : Nat) (s : State) : Time := s.now + off * nsT

/-- Harbour time in whole nanoseconds, as HT80 (R276). -/
def nsOf (t : Time) : Nat := t / nsT

/-- Puts a harbour time into an HT80 object. -/
def setTime (i k : Nat) (t : Time) (s : State) : State := setN i k (nsOf t) s

/-- Milliseconds of harbour time. -/
def msT (n : Nat) : Nat := n * 1000000 * nsT

/-- Index Bb+off of berth b (R89). -/
def bi (b off : Nat) : Nat := 0x1000 + 0x40 * b + off

/-- Index 0x81bb of berth b. -/
def qi (b : Nat) : Nat := 0x8100 + b

/-- Index Ln+off of loop n (R124). -/
def li (n off : Nat) : Nat := 0x2000 + 0x10 * n + off

/-- Index Cc+off of camera context c (R148). -/
def ci (c off : Nat) : Nat := 0x4100 + 8 * c + off

/-- Index Hh of head link h. -/
def hi (h : Nat) : Nat := 0x3810 + h

/-- Index of link l: head links 0-23, quay links 24 and 25. -/
def lki (l : Nat) : Nat := if l < 24 then 0x3810 + l else 0x3840 + (l - 24)

/-- Index Ss+off of stream st. -/
def ssi (st off : Nat) : Nat := 0x5900 + 2 * st + off

/-- A berth's record. -/
def berth (b : Nat) (s : State) : Berth := s.berths.getD b {}

/-- Changes a berth's record. -/
def modBerth (b : Nat) (f : Berth → Berth) (s : State) : State := { s with berths := s.berths.put b (f (berth b s)) }

/-- A loop's record. -/
def loop (n : Nat) (s : State) : Loop := s.loops.getD n {}

/-- Changes a loop's record. -/
def modLoop (n : Nat) (f : Loop → Loop) (s : State) : State := { s with loops := s.loops.put n (f (loop n s)) }

/-- A camera context's record. -/
def ctx (c : Nat) (s : State) : Context := s.ctxs.getD c {}

/-- Changes a camera context's record. -/
def modCtx (c : Nat) (f : Context → Context) (s : State) : State := { s with ctxs := s.ctxs.put c (f (ctx c s)) }

/-- A link's record. -/
def link (l : Nat) (s : State) : Link := s.links.getD l {}

/-- Changes a link's record. -/
def modLink (l : Nat) (f : Link → Link) (s : State) : State := { s with links := s.links.put l (f (link l s)) }

/-- An axis's record. -/
def axis (m : Nat) (s : State) : Axis := s.axes.getD m {}

/-- Changes an axis's record. -/
def modAxis (m : Nat) (f : Axis → Axis) (s : State) : State := { s with axes := s.axes.put m (f (axis m s)) }

/-- A counter's record. -/
def ctr (i : Nat) (s : State) : Counter := s.ctrs.getD i {}

/-- Changes a counter's record. -/
def modCtr (i : Nat) (f : Counter → Counter) (s : State) : State := { s with ctrs := s.ctrs.put i (f (ctr i s)) }

/-- The SPI port's session: always open, control class, every notice class (R299). -/
def spiSession : Session := { opened := true, cls := 1, mask := 0x3FF }

/-- A session's record; 16 is the SPI port. -/
def sess (n : Nat) (s : State) : Session := s.net.sessions.getD n (if n = 16 then spiSession else {})

/-- Changes a session's record. -/
def modSess (n : Nat) (f : Session → Session) (s : State) : State :=
  { s with net := { s.net with sessions := s.net.sessions.put n (f (sess n s)) } }

/-- A record stream's record. -/
def stream (st : Nat) (s : State) : Stream := s.rcd.streams.getD st {}

/-- Changes a record stream's record. -/
def modStream (st : Nat) (f : Stream → Stream) (s : State) : State :=
  { s with rcd := { s.rcd with streams := s.rcd.streams.put st (f (stream st s)) } }

/-- Runs `f` for each number of a list in turn. -/
def each (l : List Nat) (f : Nat → State → State) (s : State) : State := l.foldl (fun s n => f n s) s

/-- The berths of a chip (R4). -/
def berthList : List Nat := List.range 24

/-- Runs `f` for each berth whose bit is set in a mask. -/
def eachBerth (m : Nat) (f : Nat → State → State) (s : State) : State := each (berthList.filter (fun b => bit m b)) f s

/-- The mask of the berths that satisfy `p`. -/
def maskOf (p : Nat → Bool) : Nat := berthList.foldl (fun m b => if p b then m + 2 ^ b else m) 0

/-- A byte of DRAM; a byte nothing has written reads 0 (log 6). -/
def readByte (a : Nat) (m : List Host.Cell) : Byte := Tab.getD a 0#8 m

/-- Writes a byte of DRAM, keeping the canonical form. -/
def writeByte (a : Nat) (v : Byte) (m : List Host.Cell) : List Host.Cell :=
  if v = 0#8 then Tab.del a m else Tab.put a v m

/-- n bytes of DRAM. -/
def readBytes (a n : Nat) (m : List Host.Cell) : List Byte := (List.range n).map (fun i => readByte (a + i) m)

/-- Writes bytes to DRAM at rising addresses. -/
def writeBytes (a : Nat) : List Byte → List Host.Cell → List Host.Cell
  | [], m => m
  | v :: l, m => writeBytes (a + 1) l (writeByte a v m)

/-- The canonical form of DRAM: addresses strictly rising, no byte 0 listed. -/
abbrev Memory.wf (m : List Host.Cell) : Prop := Tab.sorted m = true ∧ ∀ c ∈ m, c.2 ≠ 0#8

/-- Reads DRAM. -/
def dramRead (a n : Nat) (s : State) : List Byte := readBytes a n s.dram

/-- Writes DRAM. -/
def dramWrite (a : Nat) (l : List Byte) (s : State) : State := { s with dram := writeBytes a l s.dram }

/-- A write of a whole burst takes its poison away (R318). -/
def clearPoison (a n : Nat) (s : State) : State :=
  { s with mem := { s.mem with poison := s.mem.poison.filter (fun e => !decide (a ≤ e.1 ∧ e.1 + 64 ≤ a + n)) } }

/-- Writes DRAM anew: the poison of the bursts that are wholly overwritten goes (R318). -/
def dramFresh (a : Nat) (l : List Byte) (s : State) : State := clearPoison a l.length (dramWrite a l s)

/-- Bytes of a logbook record before its CRC (R365). -/
def LogRecord.body (r : LogRecord) : List Byte :=
  toLe 4 r.index ++ toLe 1 r.cls ++ toLe 1 r.num ++ toLe 2 r.code ++ toLe 4 (nsOf r.t % 1000000000)
    ++ toLe 4 (nsOf r.t / 1000000000) ++ slice r.detail 0 12

/-- The 32 bytes of a logbook record (R365). -/
def LogRecord.bytes (r : LogRecord) : List Byte :=
  r.body ++ toLe 4 (if r.crcOk then crc32c r.body else (crc32c r.body + 1) % 2 ^ 32)

/-- The 32 bytes of a notice record (R292). -/
def Notice.bytes (n : Notice) : List Byte :=
  toLe 1 n.cls ++ toLe 1 n.num ++ toLe 2 n.code ++ toLe 4 n.seq ++ toLe 4 (nsOf n.t % 1000000000)
    ++ toLe 6 (nsOf n.t / 1000000000 % 2 ^ 48) ++ toLe 2 0 ++ slice n.detail 0 12

/-- Programs one staged record into flash (R370): the permanent area up to index 2,047, then the circulating area, whose
oldest block is erased when all five are full. -/
def logProgram (r : LogRecord) (s : State) : State :=
  if r.index < 2048 then { s with flash := { s.flash with permanent := s.flash.permanent ++ [r] } }
  else if s.flash.circulating.length + 1 = 10240 then
    { s with flash := { s.flash with circulating := (s.flash.circulating ++ [r]).drop 2048 },
             log := { s.log with erasing := true } }
  else { s with flash := { s.flash with circulating := s.flash.circulating ++ [r] } }

/-- Programs staged records in index order until none is left or an erase begins. -/
def logDrain : List LogRecord → State → State
  | [], s => { s with log := { s.log with staging := [] } }
  | r :: l, s => if s.log.erasing then { s with log := { s.log with staging := r :: l } } else logDrain l (logProgram r s)

/-- Puts a record into the staging with the next index. -/
def logStage (cls num code : Nat) (detail : List Byte) (t : Time) (s : State) : State :=
  let r : LogRecord := { index := getN 0x0500 1 s, cls := cls, num := num, code := code, t := t, detail := slice detail 0 12 }
  let s := { s with log := { s.log with staging := s.log.staging ++ [r],
                                        firstAt := if s.log.staging = [] then s.now else s.log.firstAt } }
  addN 0x0500 1 32 1 s

/-- The oldest circulating index and the staging occupancy. -/
def logCount (s : State) : State :=
  let oldest := match s.flash.circulating.head? with
    | none => 0
    | some r => r.index
  setN 0x0500 6 s.log.staging.length (if getN 0x0500 2 s = oldest then s else setN 0x0500 2 oldest s)

/-- Stages the record of lost records once a place is free (R369). -/
def logLostNote (s : State) : State :=
  if s.log.lost ≠ 0 ∧ s.log.staging.length < 255 then
    logStage 5 0 0x0271 (toLe 4 s.log.lost) s.now { s with log := { s.log with lost := 0 } }
  else s

/-- Writes the staging to flash (R368). -/
def logFlush (s : State) : State := logCount (logLostNote (logDrain s.log.staging s))

/-- A record enters the logbook (R367-R369). -/
def logAdd (cls num code : Nat) (detail : List Byte) (t : Time) (s : State) : State :=
  if s.log.staging.length < 255 then
    let s := logStage cls num code detail t s
    if 8 ≤ s.log.staging.length then logFlush s else logCount s
  else addN 0x0500 7 32 1 { s with log := { s.log with lost := s.log.lost + 1 } }

/-- Queues a notice to a session that subscribes to its class (R293). -/
def queueNotice (n : Notice) (k : Nat) (s : State) : State :=
  let q := sess k s
  if q.opened ∧ bit q.mask n.cls then
    if q.queue.length < 256 then modSess k (fun q => { q with queue := q.queue ++ [n] }) s
    else addN 0x0805 4 32 1 (modSess k (fun q => { q with dropped := q.dropped + 1 }) s)
  else s

/-- A block raises a notice at a harbour time (R29, R292, R293, R367). -/
def noticeAt (cls num code : Nat) (detail : List Byte) (t : Time) (s : State) : State :=
  let k := cls * 256 + num
  let n : Notice := { cls := cls, num := num, code := code, seq := s.net.seqs.getD k 0, t := t, detail := slice detail 0 12 }
  let s := { s with net := { s.net with seqs := s.net.seqs.put k ((n.seq + 1) % 2 ^ 32) } }
  let s := each (List.range 17) (queueNotice n) s
  if bit (getN 0x0500 9 s) cls then logAdd cls num code detail t s else s

/-- A notice with its logbook record, whatever the class mask (R366, R367). -/
def noticeLogAt (cls num code : Nat) (detail : List Byte) (t : Time) (s : State) : State :=
  let s := noticeAt cls num code detail t s
  if bit (getN 0x0500 9 s) cls then s else logAdd cls num code detail t s

/-- A notice with its own code raised now. -/
def notice (cls num code : Nat) (detail : List Byte) (s : State) : State := noticeAt cls num code detail s.now s

/-- A notice and its logbook record now. -/
def noticeLog (cls num code : Nat) (detail : List Byte) (s : State) : State := noticeLogAt cls num code detail s.now s

/-- The detail of code 0x0100 (R366). -/
def changeDetail (i k : Nat) (new old : Int) : List Byte :=
  toLe 2 i ++ toLe 1 k ++ toLe 1 0 ++ toLe 4 (unsigned 32 new) ++ toLe 4 (unsigned 32 old)

/-- A notice of code 0x0100 that names the object showing the happening (R366). -/
def noticeObj (cls num i k : Nat) (old : Int) (s : State) : State :=
  notice cls num 0x0100 (changeDetail i k (getI i k s) old) s

/-- Puts a number into an object and raises the notice of code 0x0100 that names it. -/
def setNotice (cls num i k : Nat) (v : Int) (s : State) : State :=
  noticeObj cls num i k (getI i k s) (setI i k v s)

/-- Refuses the command with a result of R288 and a notice of code 0x0100 that names an object. -/
def refuseNotice (r cls num i k : Nat) (s : State) : State :=
  noticeObj cls num i k (getI i k s) (withResult r s)

end Sys2Proof.Machine
end

