-- ==== Sys2Proof/Machine/Geometry.lean ====
section
/-!
DEFINITION. Sys2Proof/Machine/Geometry.lean: segment records read from DRAM (R44, R45), their paths in the bed plane (R402,
log 16) and the field map (R72). Arcs are in ubu (2^-16 bu), unit vectors in 2^-48.
-/
namespace Sys2Proof.Machine

/-- The layout of the DRAM regions in force, in MB: slot size, frame area, chart area, quay area (R307, R308). -/
def layoutMB (s : State) (n : Nat) : Nat := s.mem.layout.getD n ([64, 2048, 16384, 256].getD n 0)

/-- Bytes of a megabyte. -/
def mbB : Nat := 2 ^ 20

/-- The seven region bases of a layout in MB, in the order of R307. -/
def regionBases (l : List Nat) : List Nat :=
  let m := 768 + 96 * l.getD 0 0
  let q := m + l.getD 3 0
  let f := q + l.getD 1 0
  [0, 512, 768, m, q, f, f + l.getD 2 0]

/-- The base address of a region. -/
def regionBase (n : Nat) (s : State) : Nat := (regionBases ((List.range 4).map (fun i => layoutMB s i))).getD n 0 * mbB

/-- The size of a manifest slot in bytes. -/
def slotSize (s : State) : Nat := layoutMB s 0 * 2 ^ 20

/-- The address of slot k of berth b (R307). -/
def slotBase (b k : Nat) (s : State) : Nat := 768 * 2 ^ 20 + (4 * b + k) * slotSize s

/-- A segment record as its bytes give it (R44, R45). -/
structure Rec where
  ty : Nat := 0
  flags : Nat := 0
  prof : Nat := 0
  speed : Nat := 0
  endp : Pt := {}
  raw : List Byte := []
  deriving DecidableEq, Repr

/-- The Z of a record's end, or of its start for SPLINE, is filled in by the path. -/
def recOf (l : List Byte) : Rec :=
  let ty := field l 0 1
  { ty := ty, flags := field l 1 1, prof := field l 2 2, speed := field l 4 4,
    endp := if ty = 4 then { x := fieldI l 24 4, y := fieldI l 28 4 }
      else { x := fieldI l 8 4, y := fieldI l 12 4, z := fieldI l 16 4 },
    raw := l }

/-- Record i of the manifest at an address (R42). -/
def recAt (base i : Nat) (s : State) : Rec := recOf (dramRead (base + 64 + 32 * i) 32 s)

/-- Motion records: JUMP, MARK, ARC, SPLINE, SAFE, HANDOVER. -/
def isMotion (ty : Nat) : Bool := (decide (1 ≤ ty) && decide (ty ≤ 5)) || ty == 7

/-- Gate-on records: MARK, ARC, SPLINE, HANDOVER (R45). -/
def isOn (ty : Nat) : Bool := ty == 2 || ty == 3 || ty == 4 || ty == 7

/-- The segment count of the manifest at an address (R42). -/
def segCount (base : Nat) (s : State) : Nat := ofLe (dramRead (base + 0x10) 4 s)

/-- A field of the manifest header (R42). The manifest ID at 0x2C is kept in the slot and stands in no notice or record, whose layouts
have no place for it (log 77). -/
def header (base off n : Nat) (s : State) : Nat := ofLe (dramRead (base + off) n s)

/-- A motion segment on its path: its record, its start, the arc at which it starts from record 0, and its length (ubu). -/
structure Seg where
  ri : Nat := 0
  r : Rec := {}
  p0 : Pt := {}
  g0 : Int := 0
  len : Int := 0
  deriving DecidableEq, Repr

/-- The distance of two points of the bed plane, in ubu. -/
def dist (p q : Pt) : Int :=
  (isqrt (((q.x - p.x) * (q.x - p.x) + (q.y - p.y) * (q.y - p.y)).toNat * 2 ^ 32) : Nat)

/-- The centre of an ARC. -/
def arcCentre (r : Rec) : Pt := { x := fieldI r.raw 20 4, y := fieldI r.raw 24 4 }

/-- The sweep of an ARC, 0 < theta ≤ 2 pi (R402). -/
def arcSweep (p0 : Pt) (r : Rec) : Int :=
  let c := arcCentre r
  let a0 := direction48 (p0.x - c.x) (p0.y - c.y)
  let a1 := direction48 (r.endp.x - c.x) (r.endp.y - c.y)
  let d := if bit r.flags 2 then a1 - a0 else a0 - a1
  let d := d % (2 * pi48)
  if d = 0 ∨ (p0.x - c.x) * (r.endp.y - c.y) = (p0.y - c.y) * (r.endp.x - c.x)
      ∧ 0 < (p0.x - c.x) * (r.endp.x - c.x) + (p0.y - c.y) * (r.endp.y - c.y) then 2 * pi48 else d

/-- The start and end radius of an ARC, in ubu. -/
def arcRadii (p0 : Pt) (r : Rec) : Int × Int := (dist (arcCentre r) p0, dist (arcCentre r) r.endp)

/-- The four control points of a SPLINE (R45). -/
def splinePoles (p0 : Pt) (r : Rec) : List (Int × Int) :=
  [(p0.x, p0.y), (fieldI r.raw 8 4, fieldI r.raw 12 4), (fieldI r.raw 16 4, fieldI r.raw 20 4), (r.endp.x, r.endp.y)]

/-- The larger second difference of a coordinate of four control points. -/
def bend (a b c d : Int) : Nat := max (a - 2 * b + c).natAbs (b - 2 * c + d).natAbs

/-- The parts of equal parameter a SPLINE is taken in (R192, log 17): so many that the chord of a part lies within 8 bu of it (its
deviation is at most the largest second derivative over 8 N^2). -/
def splineParts (p0 : Pt) (r : Rec) : Nat :=
  let l := splinePoles p0 r
  let at' := fun (f : Int × Int → Int) => bend (f (l.getD 0 (0, 0))) (f (l.getD 1 (0, 0))) (f (l.getD 2 (0, 0))) (f (l.getD 3 (0, 0)))
  isqrt (6 * (at' (·.1) + at' (·.2)) / 32) + 16

/-- A coordinate of a cubic at parameter t / n, in ubu. -/
def bezier (a b c d t n : Int) : Int :=
  let u := n - t
  divAway ((a * u * u * u + 3 * b * u * u * t + 3 * c * u * t * t + d * t * t * t) * 65536) (n * n * n)

/-- The derivative of a cubic's coordinate at parameter t / n, in ubu per unit of the parameter. -/
def bezierD (a b c d t n : Int) : Int :=
  let u := n - t
  divAway (3 * ((b - a) * u * u + 2 * (c - b) * u * t + (d - c) * t * t) * 65536) (n * n)

/-- The point of a SPLINE at parameter t / n, in ubu. -/
def splinePt (p0 : Pt) (r : Rec) (t n : Int) : Int × Int :=
  match splinePoles p0 r with
  | [a, b, c, d] => (bezier a.1 b.1 c.1 d.1 t n, bezier a.2 b.2 c.2 d.2 t n)
  | _ => (0, 0)

/-- The derivative of a SPLINE at parameter t / n, in ubu. -/
def splineD (p0 : Pt) (r : Rec) (t n : Int) : Int × Int :=
  match splinePoles p0 r with
  | [a, b, c, d] => (bezierD a.1 b.1 c.1 d.1 t n, bezierD a.2 b.2 c.2 d.2 t n)
  | _ => (0, 0)

/-- The length of a vector. -/
def norm (v : Int × Int) : Nat := isqrt (v.1 * v.1 + v.2 * v.2).toNat

/-- The length of part k of n of a SPLINE, in ubu: its speed integrated by Simpson's rule (R92, log 17). -/
def partLen (p0 : Pt) (r : Rec) (n k : Nat) : Int :=
  let v := fun (t : Nat) => (norm (splineD p0 r t (2 * n : Nat)) : Int)
  (v (2 * k) + 4 * v (2 * k + 1) + v (2 * k + 2)) / (6 * n : Nat)

/-- The part of a SPLINE that holds an arc, from part k on with `m` more to try, and the arc inside it. -/
def partAt (p0 : Pt) (r : Rec) (n : Nat) : Nat → Nat → Int → Nat × Int
  | 0, k, a => (k, a)
  | m + 1, k, a => if k + 1 < n ∧ partLen p0 r n k ≤ a then partAt p0 r n m (k + 1) (a - partLen p0 r n k) else (k, a)

/-- The parameter of a SPLINE at an arc, over n x 2^32 for its n parts: inside a part the speed runs on linearly (log 17). -/
def splineParam (p0 : Pt) (r : Rec) (a : Int) : Int × Int :=
  let n := splineParts p0 r
  let p := partAt p0 r n n 0 (max 0 a)
  let v0 : Int := norm (splineD p0 r p.1 n)
  let v1 : Int := norm (splineD p0 r (p.1 + 1 : Nat) n)
  let root : Int := (isqrt ((v0 * v0 + 2 * (v1 - v0) * p.2 * n).toNat) : Nat)
  (p.1 * 2 ^ 32 + min (2 ^ 32) (divAway (2 * p.2 * n * 2 ^ 32) (v0 + root)), n * 2 ^ 32)

/-- The length of a motion record that starts at a point, in ubu. -/
def recLen (p0 : Pt) (r : Rec) : Int :=
  if r.ty = 3 then arcSweep p0 r * ((arcRadii p0 r).1 + (arcRadii p0 r).2) / (2 * one48)
  else if r.ty = 4 then sumI ((List.range (splineParts p0 r)).map (partLen p0 r (splineParts p0 r)))
  else dist p0 r.endp

/-- The end of a motion record: a SPLINE holds Z. -/
def recEnd (p0 : Pt) (r : Rec) : Pt := if r.ty = 4 then { r.endp with z := p0.z } else r.endp

/-- The motion segments of records i .. i + n - 1 of a manifest, with the point and the arc reached before record i. The
record named by `origin` starts at its point instead (R90, R404). Records for which `skip` holds were given to another berth
(R120): `q` is where the spot stands, `p` where the record starts, and a gate-off move at `jv` um/s joins them (log 19). -/
def segsFrom (base : Nat) (origin : Option (Nat × Pt)) (skip : Nat → Bool) (jv : Nat) (s : State) :
    Nat → Nat → Pt → Pt → Int → List Seg
  | 0, _, _, _, _ => []
  | n + 1, i, p, q, g =>
    let r := recAt base i s
    if isMotion r.ty then
      if skip i then segsFrom base origin skip jv s n (i + 1) (recEnd p r) q g
      else
        let p0 := match origin with
          | some (j, o) => if j = i then o else if r.ty = 1 ∨ r.ty = 5 then q else p
          | none => if r.ty = 1 ∨ r.ty = 5 then q else p
        let gap : List Seg := if p0 = q ∨ origin = some (i, p0) then [] else
          [{ ri := i - 1, r := { ty := 1, speed := jv, endp := p0 }, p0 := q, g0 := g, len := dist q p0 }]
        let g' := if gap = [] then g else g + dist q p0
        gap ++ { ri := i, r := r, p0 := p0, g0 := g', len := recLen p0 r }
          :: segsFrom base origin skip jv s n (i + 1) (recEnd p0 r) (recEnd p0 r) (g' + recLen p0 r)
    else segsFrom base origin skip jv s n (i + 1) p q g

/-- The unit tangent of a segment at an arc, 2^-48. -/
def tangentAt (g : Seg) (a : Int) : Int × Int :=
  if g.r.ty = 3 then
    let c := arcCentre g.r
    let a0 := direction48 (g.p0.x - c.x) (g.p0.y - c.y)
    let turn := if g.len = 0 then 0 else arcSweep g.p0 g.r * a / g.len
    let an := if bit g.r.flags 2 then a0 + turn + pi48 / 2 else a0 - turn - pi48 / 2
    (cos48 an, sin48 an)
  else if g.r.ty = 4 then
    let t := splineParam g.p0 g.r a
    let v := splineD g.p0 g.r t.1 t.2
    (divAway (v.1 * one48) (norm v), divAway (v.2 * one48) (norm v))
  else (divAway ((g.r.endp.x - g.p0.x) * 2 ^ 64) g.len, divAway ((g.r.endp.y - g.p0.y) * 2 ^ 64) g.len)

/-- The X and Y of a segment at an arc from its start, in ubu (R402). -/
def finePoint (g : Seg) (a : Int) : Int × Int :=
  if g.r.ty = 3 then
    let c := arcCentre g.r
    let a0 := direction48 (g.p0.x - c.x) (g.p0.y - c.y)
    let turn := if g.len = 0 then 0 else arcSweep g.p0 g.r * a / g.len
    let an := if bit g.r.flags 2 then a0 + turn else a0 - turn
    let (r0, r1) := arcRadii g.p0 g.r
    let rr := if g.len = 0 then r0 else r0 + (r1 - r0) * a / g.len
    (c.x * 65536 + roundHalfAway (rr * cos48 an) (2 ^ 48), c.y * 65536 + roundHalfAway (rr * sin48 an) (2 ^ 48))
  else if g.r.ty = 4 then
    let t := splineParam g.p0 g.r a
    splinePt g.p0 g.r t.1 t.2
  else
    (g.p0.x * 65536 + divAway ((g.r.endp.x - g.p0.x) * a * 65536) g.len, g.p0.y * 65536 + divAway ((g.r.endp.y - g.p0.y) * a * 65536) g.len)

/-- The point of a segment at an arc from its start, rounded to 1 bu (R92). -/
def pointAt (g : Seg) (a : Int) : Pt :=
  let p := finePoint g a
  let line := g.r.ty ≠ 3 ∧ g.r.ty ≠ 4
  { x := if line then g.p0.x + divAway ((g.r.endp.x - g.p0.x) * a) g.len else roundHalfAway p.1 65536,
    y := if line then g.p0.y + divAway ((g.r.endp.y - g.p0.y) * a) g.len else roundHalfAway p.2 65536,
    z := g.p0.z + divAway (((recEnd g.p0 g.r).z - g.p0.z) * a) g.len }

/-- The field map of a berth as its objects hold it (R72). -/
structure FieldMap where
  gen : Nat := 0
  ox : Int := 0
  oy : Int := 0
  pitch : Nat := 0
  data : List Byte := []
  slope : Nat := 0
  deriving DecidableEq, Repr

/-- The map in force of berth b. -/
def fieldMap (b : Nat) (s : State) : FieldMap :=
  { gen := getN (bi b 5) 6 s, ox := getI (bi b 5) 2 s, oy := getI (bi b 5) 3 s, pitch := getN (bi b 5) 4 s,
    data := getB (bi b 5) 5 s, slope := getN (bi b 5) 8 s }

/-- Whether a map is in force (R74). -/
def FieldMap.held (m : FieldMap) : Bool := m.gen != 0 && m.pitch != 0

/-- A component (0 mirror X, 1 mirror Y, 2 focus) of a node inside the grid (R72). -/
def node (m : FieldMap) (c i j : Nat) : Int := fieldI m.data (12 * (129 * j + i) + 4 * c) 4

/-- A node extended linearly along X (R72). -/
def nodeX (m : FieldMap) (c : Nat) (i : Int) (j : Nat) : Int :=
  if i < 0 then node m c 0 j + i * (node m c 1 j - node m c 0 j)
  else if 128 < i then node m c 128 j + (i - 128) * (node m c 128 j - node m c 127 j)
  else node m c i.toNat j

/-- A node extended linearly outside the outermost ring (R72). -/
def nodeXY (m : FieldMap) (c : Nat) (i j : Int) : Int :=
  if j < 0 then nodeX m c i 0 + j * (nodeX m c i 1 - nodeX m c i 0)
  else if 128 < j then nodeX m c i 128 + (j - 128) * (nodeX m c i 128 - nodeX m c i 127)
  else nodeX m c i j.toNat

/-- Cubic convolution weights with the coefficient -0.5 for the offset t / p, times 2 p^3. -/
def cubicW (t p : Int) : List Int :=
  [-t * t * t + 2 * t * t * p - t * p * p,
   3 * t * t * t - 5 * t * t * p + 2 * p * p * p,
   -3 * t * t * t + 4 * t * t * p + t * p * p,
   t * t * t - t * t * p]

/-- Their slopes by t / p, times 2 p^2. -/
def cubicD (t p : Int) : List Int :=
  [-3 * t * t + 4 * t * p - p * p, 9 * t * t - 10 * t * p, -9 * t * t + 8 * t * p + p * p, 3 * t * t - 2 * t * p]

/-- The weighted sum over the 4 x 4 nodes around a point. -/
def mapSum (m : FieldMap) (c : Nat) (x y : Int) (wx wy : List Int) : Int :=
  let i := (x - m.ox) / m.pitch
  let j := (y - m.oy) / m.pitch
  sumI ((List.range 4).map (fun (l : Nat) =>
    wy.getD l 0 * sumI ((List.range 4).map (fun (k : Nat) => wx.getD k 0 * nodeXY m c (i - 1 + k) (j - 1 + l)))))

/-- A component of the map interpolated at a point, rounded to a unit of Q1.31 (R71, R72). -/
def mapAt (m : FieldMap) (c : Nat) (x y : Int) : Int :=
  let p : Int := m.pitch
  roundHalfAway (mapSum m c x y (cubicW ((x - m.ox) % p) p) (cubicW ((y - m.oy) % p) p)) (4 * m.pitch ^ 6)

/-- The Jacobian of the two mirror components by X and Y in units of Q1.31 per bu, each times 4 p^6. -/
def jacobian (m : FieldMap) (x y : Int) : Int × Int × Int × Int :=
  let p : Int := m.pitch
  let tx := (x - m.ox) % p
  let ty := (y - m.oy) % p
  (mapSum m 0 x y (cubicD tx p) (cubicW ty p), mapSum m 0 x y (cubicW tx p) (cubicD ty p),
   mapSum m 1 x y (cubicD tx p) (cubicW ty p), mapSum m 1 x y (cubicW tx p) (cubicD ty p))

/-- The bed offset of a mirror offset by one inverse step at a point, in bu; zero where the Jacobian has no inverse. -/
def inverseStep (m : FieldMap) (x y dmx dmy : Int) : Int × Int :=
  let (a, b, c, d) := jacobian m x y
  let det := a * d - b * c
  let k : Int := (4 * m.pitch ^ 6 : Nat)
  (divAway ((d * dmx - b * dmy) * k) det, divAway ((a * dmy - c * dmx) * k) det)

/-- The focus set-point at a point: the focus node value plus Z times the focus slope (R71). -/
def focusAt (m : FieldMap) (p : Pt) : Int := mapAt m 2 p.x p.y + f32Times m.slope p.z

/-- The inverse of the map by repeated inverse steps until it moves by less than 1 bu, at most `k` steps (R404). -/
def inverseMap (m : FieldMap) (mx my : Int) : Nat → Pt → Pt
  | 0, p => p
  | k + 1, p =>
    let (dx, dy) := inverseStep m p.x p.y (mx - mapAt m 0 p.x p.y) (my - mapAt m 1 p.x p.y)
    if dx = 0 ∧ dy = 0 then p else inverseMap m mx my k { p with x := p.x + dx, y := p.y + dy }

/-- The standing position whose set-points are given (R404): X, Y by the inverse map from the middle of the grid, Z
through the focus slope. -/
def standingAt (m : FieldMap) (mx my focus : Int) : Pt :=
  let p := inverseMap m mx my 64 { x := m.ox + 64 * m.pitch, y := m.oy + 64 * m.pitch }
  { p with z := divAway ((focus - mapAt m 2 p.x p.y) * 2 ^ 31) (f32Times m.slope (2 ^ 31)) }

/-- Whether a point lies inside the grid of a map (R73). -/
def inGrid (m : FieldMap) (p : Pt) : Bool :=
  decide (m.ox ≤ p.x ∧ p.x ≤ m.ox + 128 * m.pitch ∧ m.oy ≤ p.y ∧ p.y ≤ m.oy + 128 * m.pitch)

end Sys2Proof.Machine
end

