-- ==== Sys2Proof/Machine/Manifest.lean ====
section
/-!
DEFINITION. Sys2Proof/Machine/Manifest.lean: the checks of a closed slot in the order of R403 with the causes of R53, and the
planned power of R51.
-/
namespace Sys2Proof.Machine

/-- Full scale of a power word (R50). -/
def fullScale : Nat := 0x00100000

/-- Where no record or profile is named (R403). -/
def nowhere : Nat := 0xFFFFFFFF

/-- Point p of the profile points of a manifest (R50): offset and word. -/
def profPoint (base p : Nat) (s : State) : Nat × Nat :=
  let a := base + header base 0x20 4 s + 8 * p
  (ofLe (dramRead a 4 s), ofLe (dramRead (a + 4) 4 s))

/-- The first point of profile n. -/
def profStart (base n : Nat) (s : State) : Nat := ofLe (dramRead (base + header base 0x18 4 s + 4 * n) 4 s)

/-- Whether the points of a profile from p on are well formed: `k` points may follow, `prev` is the last offset (R50). -/
def profOk (base : Nat) (strict : Bool) (s : State) : Nat → Nat → Option Nat → Bool
  | 0, _, _ => false
  | k + 1, p, prev =>
    let (off, w) := profPoint base p s
    decide (p < header base 0x1C 4 s) && decide (bits w 20 0 ≤ fullScale) && (!strict || bits w 30 21 == 0)
      && (match prev with
          | none => off == 0
          | some o => decide (o < off))
      && (bit w 31 || profOk base strict s k (p + 1) (some off))

/-- The speed range of a type, in um/s (R45). -/
def speedOk (ty v : Nat) : Bool :=
  if ty = 1 ∨ ty = 5 then decide (1000 ≤ v ∧ v ≤ 20000000)
  else if isOn ty then decide (100 ≤ v ∧ v ≤ 8000000) else true

/-- Whether a type is one of R45. -/
def typeOk (ty : Nat) : Bool := (decide (1 ≤ ty) && decide (ty ≤ 9)) || ty == 0x0F

/-- The reserved fields and bits of a record hold their values (R43-R45, R51). -/
def reservedOk (r : Rec) : Bool :=
  let f := fun o n => field r.raw o n
  r.flags / 8 == 0 && (r.ty == 3 || !bit r.flags 2) &&
  (match r.ty with
   | 1 | 5 => f 2 2 == 0xFFFF && f 24 8 == 0
   | 2 => f 24 8 == 0 && f 20 4 / 2 ^ 21 == 0
   | 3 => f 28 4 / 2 ^ 21 == 0
   | 6 => f 2 2 == 0xFFFF
   | 7 => f 31 1 == 0
   | 8 => f 2 2 == 0xFFFF && f 10 2 == 0 && f 16 16 == 0
   | 9 => f 3 1 == 0 && f 4 4 == 0
   | 0x0F => f 2 2 == 0 && f 4 28 == 0
   | _ => true)

/-- An EVENT entry: arc offset, action, parameter, value (R48). -/
structure Entry48 where
  off : Nat := 0
  action : Nat := 0
  param : Nat := 0
  value : Nat := 0
  deriving DecidableEq, Repr

/-- Entry k of an EVENT record. -/
def entryOf (r : Rec) (k : Nat) : Entry48 :=
  { off := field r.raw (8 + 8 * k) 4, action := field r.raw (12 + 8 * k) 1, param := field r.raw (13 + 8 * k) 1,
    value := field r.raw (14 + 8 * k) 2 }

/-- The entries of an EVENT record. -/
def entriesOf (r : Rec) : List Entry48 := (List.range (field r.raw 2 1)).map (entryOf r)

/-- An entry's action, parameter and value are those of R48. -/
def entryOk (e : Entry48) : Bool :=
  match e.action with
  | 1 => e.param == 0 && e.value == 0
  | 2 => e.param == 0
  | 3 | 4 => e.param == 0 && decide (e.value ≤ 1)
  | 5 => decide (e.param ≤ 7) && decide (e.value ≤ 1)
  | _ => false

/-- Offsets that do not fall. -/
def nonFalling : List Entry48 → Bool
  | a :: b :: l => decide (a.off ≤ b.off) && nonFalling (b :: l)
  | _ => true

/-- What the checks of records carry from record to record: the end of the last motion segment, the entries waiting for
their segment, whether a portable run is open, the flags of the record before and of the last motion segment. -/
structure Scan where
  pos : Option Pt := none
  entries : List Entry48 := []
  inRun : Bool := false
  prevFlags : Nat := 0
  segFlags : Nat := 0
  deriving DecidableEq, Repr

/-- R46 but for END, and that the first record is a JUMP (R45), which takes the cause of R46 (log 77). `hb` is the berth's harbour
number. -/
def contentOk (hb i : Nat) (c : Scan) (r : Rec) : Bool :=
  let l := match c.pos with
    | none => 0
    | some p => recLen p r
  let radii := match c.pos with
    | none => (0, 0)
    | some p => arcRadii p r
  let f := fun o n => field r.raw o n
  (i != 0 || r.ty == 1)
  && (!isOn r.ty || decide (65536 ≤ l))
  && (r.ty != 3 || (decide ((radii.1 - radii.2).natAbs ≤ 8 * 65536) && decide (1280 * 65536 ≤ radii.1)
        && decide (1280 * 65536 ≤ radii.2)))
  && (!(r.ty == 2 && r.prof == 0xFFFF) || decide (bits (f 20 4) 20 0 ≤ fullScale))
  && (!(r.ty == 3 && r.prof == 0xFFFF) || decide (bits (f 28 4) 20 0 ≤ fullScale))
  && (r.ty != 7 || (f 28 2 != hb && decide (f 28 2 ≤ 191) && decide (f 30 1 ≤ 1)
        && decide ((fieldI r.raw 20 4 + fieldI r.raw 24 4) * 65536 ≤ l)))
  && (r.ty != 8 || (decide (f 8 1 ≤ 7) && decide (f 9 1 ≤ 1)))
  && (r.ty != 6 || bit (f 8 24) hb)

/-- Whether a record's profile number is one it may have (R45, R50). -/
def profRefOk (profiles : Nat) (r : Rec) : Bool :=
  !isOn r.ty || (if r.prof = 0xFFFF then r.ty == 2 || r.ty == 3 else decide (r.prof < profiles))

/-- R48 at a record: an EVENT's own entries, and the length of the segment they attach to; entries that END leaves with no segment
fail there (log 77). -/
def eventsOk (c : Scan) (r : Rec) : Bool :=
  if r.ty = 9 then
    let l := entriesOf r
    decide (1 ≤ l.length) && decide (l.length ≤ 3) && l.all entryOk && nonFalling (c.entries ++ l)
      && decide (c.entries.length + l.length ≤ 48)
  else if isMotion r.ty then
    match c.pos with
    | none => true
    | some p => c.entries.all (fun e => decide ((e.off : Int) * 65536 ≤ recLen p r))
  else if r.ty = 0x0F then c.entries == [] else true

/-- Types a portable run may hold (R49). -/
def portableType (ty : Nat) : Bool := ty == 1 || ty == 2 || ty == 3 || ty == 4 || ty == 9

/-- Whether a portable run is open past a record: it ends at the first safe-end after its JUMP (R49). -/
def runOpen (c : Scan) (r : Rec) : Bool := bit r.flags 1 && !(c.inRun && bit r.flags 0)

/-- R49 at record i of n; a run that the last record leaves open fails there (R403). -/
def portableOk (n i : Nat) (c : Scan) (r : Rec) : Bool :=
  (if c.inRun then bit r.flags 1 && portableType r.ty
   else !bit r.flags 1 || (r.ty == 1 && i != 0 && bit c.prevFlags 0))
  && !(i + 1 == n && runOpen c r)

/-- The first failing check of record i of n, 0 if none (R403, step 7). The segment before a FENCE or WAIT is the last motion
segment: EVENT, FENCE and WAIT records between do not count (log 77). -/
def recordCause (hb profiles n i : Nat) (strict : Bool) (c : Scan) (r : Rec) : Nat :=
  if !typeOk r.ty then 0x0006
  else if strict && !reservedOk r then 0x0003
  else if !speedOk r.ty r.speed || (r.ty == 1 && decide (1000000 < field r.raw 20 4))
      || (r.ty == 5 && decide (10000000 < field r.raw 20 4)) then 0x0007
  else if !contentOk hb i c r then 0x0008
  else if !profRefOk profiles r then 0x0009
  else if !eventsOk c r then 0x000A
  else if !portableOk n i c r then 0x000B
  else if (r.ty == 6 || r.ty == 8) && !bit c.segFlags 0 then 0x000C
  else if (r.ty == 0x0F) != (i + 1 == n) then 0x000D
  else 0

/-- What the scan carries past a record. -/
def scanNext (c : Scan) (r : Rec) : Scan :=
  { pos := if isMotion r.ty then some (recEnd (c.pos.getD {}) r) else c.pos,
    entries := if r.ty = 9 then c.entries ++ entriesOf r else if isMotion r.ty then [] else c.entries,
    inRun := runOpen c r, prevFlags := r.flags, segFlags := if isMotion r.ty then r.flags else c.segFlags }

/-- The first failing record from record i on: its cause and index (R403, step 7). -/
def recordsCause (base hb profiles n : Nat) (strict : Bool) (s : State) : Nat → Nat → Scan → Option (Nat × Nat)
  | 0, _, _ => none
  | k + 1, i, c =>
    let r := recAt base i s
    let x := recordCause hb profiles n i strict c r
    if x ≠ 0 then some (x, i) else recordsCause base hb profiles n strict s k (i + 1) (scanNext c r)

/-- The harbour berth number of berth b (R15). -/
def harbourBerth (b : Nat) (s : State) : Nat := 24 * s.hm.seatNo + b

/-- The state of slot k of berth b: 0 Empty, 1 Loading, 2 Validating, 3 Ready, 4 Refused, 5 In force, 6 Damaged. -/
def slotState (b k : Nat) (s : State) : Nat := getN (qi b) (5 + k) s

/-- The layer of slot k of berth b. -/
def slotLayer (b k : Nat) (s : State) : Nat := getN (qi b) (9 + k) s

/-- Whether another Ready slot of the berth holds a layer (R53). -/
def duplicateLayer (b k layer : Nat) (s : State) : Bool :=
  (List.range 4).any (fun j => j != k && slotState b j s == 3 && slotLayer b j s == layer)

/-- The checks of R403 on slot k of berth b closed with a length: the first failing cause and its place, none if all pass. -/
def validate (b k closeLen : Nat) (s : State) : Option (Nat × Nat) :=
  let base := slotBase b k s
  let h := header base
  let strict := h 0x04 1 s == 0
  let n := h 0x10 4 s
  let profs := h 0x14 2 s
  if closeLen < 64 ∨ slotSize s < closeLen then some (0x0004, nowhere)
  else if crc32c (dramRead base 0x3C s) ≠ h 0x3C 4 s then some (0x0001, nowhere)
  else if h 0x00 4 s ≠ 0x54524D46 ∨ h 0x05 1 s ≠ 1 ∨ h 0x06 2 s ≠ 64
      ∨ (strict ∧ (h 0x16 2 s ≠ 0 ∨ h 0x34 4 s ≠ 0 ∨ h 0x0F 1 s / 2 ≠ 0)) then some (0x0003, nowhere)
  else if n < 2 ∨ 16777216 < n ∨ 16777216 < h 0x1C 4 s ∨ h 0x18 4 s % 32 ≠ 0 ∨ h 0x20 4 s % 32 ≠ 0
      ∨ h 0x18 4 s < 64 + 32 * n ∨ h 0x20 4 s < h 0x18 4 s + 4 * profs
      ∨ h 0x24 4 s < h 0x20 4 s + 8 * h 0x1C 4 s ∨ h 0x24 4 s ≠ closeLen then some (0x0004, nowhere)
  else if h 0x0C 2 s ≠ harbourBerth b s ∨ h 0x08 4 s = 0 then some (0x0005, nowhere)
  else if crc32c (dramRead (base + 64) (closeLen - 64) s) ≠ h 0x38 4 s then some (0x0002, nowhere)
  else match recordsCause base (harbourBerth b s) profs n strict s n 0 {} with
    | some x => some x
    | none =>
      match (List.range profs).find? (fun p => !profOk base strict s 4096 (profStart base p s) none) with
      | some p => some (0x0009, 2 ^ 31 + p)
      | none => if duplicateLayer b k (h 0x08 4 s) s then some (0x0012, nowhere) else none

/-- The planned power between two profile points at an arc in ubu, rounded half up (R51). -/
def interpPower (o0 w0 o1 w1 : Nat) (a : Int) : Nat :=
  (w0 + roundHalfUp (((w1 : Int) - w0) * (a - o0 * 65536)) ((o1 - o0) * 65536)).toNat

/-- The power of a profile from point p on at an arc, `k` points at most (R51). -/
def profPower (base : Nat) (a : Int) (s : State) : Nat → Nat → Nat
  | 0, _ => 0
  | k + 1, p =>
    let (o0, w0) := profPoint base p s
    let (o1, w1) := profPoint base (p + 1) s
    if bit w0 31 then bits w0 20 0
    else if a < o1 * 65536 then interpPower o0 (bits w0 20 0) o1 (bits w1 20 0) a
    else profPower base a s k (p + 1)

/-- The planned power of a gate-on record at an arc from its start (R51). -/
def plannedPower (base : Nat) (r : Rec) (a : Int) (s : State) : Nat :=
  if !isOn r.ty then 0
  else if r.prof = 0xFFFF then bits (field r.raw (if r.ty = 3 then 28 else 20) 4) 20 0
  else profPower base a s 4096 (profStart base r.prof s)

/-- The slot in force of berth b. -/
def slotInForce (b : Nat) (s : State) : Option Nat :=
  (List.range 4).find? (fun k => slotState b k s == 5 || slotState b k s == 6)

/-- The address of the manifest berth b executes: its own, or the source's while it executes an annexed run (R119). -/
def mfBase (b : Nat) (s : State) : Nat :=
  let o := match (berth b s).annexNow with
    | some a => a.src
    | none => b
  slotBase o ((slotInForce o s).getD 0) s

/-- The records of the manifest berth b executes; an annexed run ends with its last record (R119). -/
def mfCount (b : Nat) (s : State) : Nat := match (berth b s).annexNow with
  | some a => a.last + 1
  | none => match slotInForce b s with
    | none => 0
    | some _ => min (segCount (mfBase b s) s) 16777216

/-- Record i of the manifest berth b executes. -/
def mfRec (b i : Nat) (s : State) : Rec := recAt (mfBase b s) i s

/-- Whether record i of berth b's own manifest was given to another berth (R120). -/
def mfSkip (b : Nat) (s : State) (i : Nat) : Bool :=
  (berth b s).annexNow == none && (berth b s).givenAway.any (fun r => decide (r.1 ≤ i ∧ i ≤ r.2))

/-- The motion segments of the first n records berth b executes. -/
def segsTo (b n : Nat) (s : State) : List Seg :=
  segsFrom (mfBase b s) (berth b s).origin (mfSkip b s) (getN (bi b 2) 8 s) s n 0 (mfRec b 0 s).endp (mfRec b 0 s).endp 0

/-- All motion segments berth b executes. -/
def segs (b : Nat) (s : State) : List Seg := segsTo b (mfCount b s) s

/-- The segment of a list that holds an arc from record 0 (ubu): the last that starts at or before it. -/
def segAt (l : List Seg) (g : Int) : Option Seg := (l.filter (fun x => decide (x.g0 ≤ g))).getLast?

end Sys2Proof.Machine
end

