-- ==== Sys2Proof/Machine/Breakwater.lean ====
section
/-!
DEFINITION. Sys2Proof/Machine/Breakwater.lean: the geometry of the breakwater (R86, R191-R193): polygons, their enlargement, and
the intervals a planned path spends inside. Places on a path are in 2^-48 ubu while they are compared.
-/
namespace Sys2Proof.Machine

/-- The edges of a polygon. -/
def edgesOf (p : Polygon) : List ((Int × Int) × (Int × Int)) := p.pts.zip (p.pts.drop 1 ++ p.pts.take 1)

/-- The cross product of two vectors. -/
def cross (a b : Int × Int) : Int := a.1 * b.2 - a.2 * b.1

/-- The dot product of two vectors. -/
def dotp (a b : Int × Int) : Int := a.1 * b.1 + a.2 * b.2

/-- The difference of two points. -/
def vsub (a b : Int × Int) : Int × Int := (a.1 - b.1, a.2 - b.2)

/-- The sign of the turn a, b, c. -/
def turn (a b c : Int × Int) : Int := (cross (vsub b a) (vsub c a)).sign

/-- Whether c lies on the segment a b, given that it lies on its line. -/
def between (a b c : Int × Int) : Bool :=
  decide (min a.1 b.1 ≤ c.1 ∧ c.1 ≤ max a.1 b.1 ∧ min a.2 b.2 ≤ c.2 ∧ c.2 ≤ max a.2 b.2)

/-- Whether two closed segments meet. -/
def segsMeet (e f : (Int × Int) × (Int × Int)) : Bool :=
  let a := turn e.1 e.2 f.1
  let b := turn e.1 e.2 f.2
  let c := turn f.1 f.2 e.1
  let d := turn f.1 f.2 e.2
  (decide (a * b < 0) && decide (c * d < 0))
    || (a == 0 && between e.1 e.2 f.1) || (b == 0 && between e.1 e.2 f.2)
    || (c == 0 && between f.1 f.2 e.1) || (d == 0 && between f.1 f.2 e.2)

/-- A polygon is simple (R191): 3 to 32 vertices, no edge of zero length, no two non-adjacent edges meet. -/
def simplePolygon (p : Polygon) : Bool :=
  let es := edgesOf p
  let n := es.length
  decide (3 ≤ n) && decide (n ≤ 32) && es.all (fun e => e.1 != e.2)
    && (List.range n).all (fun i => (List.range n).all (fun j =>
      decide (j ≤ i + 1) || (i == 0 && j + 1 == n)
        || !segsMeet (es.getD i ((0, 0), (0, 0))) (es.getD j ((0, 0), (0, 0)))))

/-- Whether the point (x / k, y / k) lies inside a polygon or on its boundary (R191). -/
def inPolygon (p : Polygon) (x y : Int) (k : Nat) : Bool :=
  let z : Int := k
  let es := (edgesOf p).map (fun e => ((e.1.1 * z, e.1.2 * z), (e.2.1 * z, e.2.2 * z)))
  es.any (fun e => turn e.1 e.2 (x, y) == 0 && between e.1 e.2 (x, y))
    || (es.filter (fun e => (decide (e.1.2 ≤ y) != decide (e.2.2 ≤ y))
        && (decide (0 < cross (vsub e.2 e.1) (vsub (x, y) e.1)) == decide (e.1.2 < e.2.2)))).length % 2 == 1

/-- Whether the point (x, y) lies within `d` of the edge e. -/
def nearEdge (e : (Int × Int) × (Int × Int)) (d : Nat) (x y : Int) : Bool :=
  let u := vsub e.2 e.1
  let w := vsub (x, y) e.1
  let t := dotp w u
  if t < 0 then decide (dotp w w ≤ d * d)
  else if dotp u u < t then decide (dotp (vsub (x, y) e.2) (vsub (x, y) e.2) ≤ d * d)
  else decide (cross u w * cross u w ≤ d * d * dotp u u)

/-- An edge in ubu. -/
def fineEdge (e : (Int × Int) × (Int × Int)) : (Int × Int) × (Int × Int) :=
  ((e.1.1 * 65536, e.1.2 * 65536), (e.2.1 * 65536, e.2.2 * 65536))

/-- Whether a point of a path, taken to 1 ubu, lies in the polygon enlarged by `d` bu (R191, R193): deeper than the rounding. -/
def inEnlarged (p : Polygon) (d : Nat) (x y : Int) : Bool :=
  inPolygon p x y 65536 || (edgesOf p).any (fun e => nearEdge (fineEdge e) (d * 65536 - 2) x y)

/-- The unit places on a chord are compared in, per ubu. -/
def fine : Nat := 2 ^ 48

/-- floor of (x + sqrt y) * k / z for z > 0, and of (x - sqrt y) * k / z. -/
def rootUp (x : Int) (y : Nat) (k z : Nat) : Int := (x * k + (isqrt (y * k * k) : Nat)) / z
/-- floor of (x - sqrt y) * k / z, rounded downwards. -/
def rootDown (x : Int) (y : Nat) (k z : Nat) : Int :=
  (x * k - ((isqrt (y * k * k) + (if isqrt (y * k * k) * isqrt (y * k * k) = y * k * k then 0 else 1) : Nat) : Int)) / z

/-- The places of a chord of length `len` (ubu) with start w (from the centre) and direction v inside a disc of radius d. -/
def discSpan (w v : Int × Int) (len d : Nat) : List (Int × Int) :=
  let q := dotp v v
  let m := dotp w v
  let disc := m * m - q * (dotp w w - d * d)
  if q ≤ 0 ∨ disc < 0 then []
  else [(rootDown (-m) disc.toNat (len * fine) q.toNat, rootUp (-m) disc.toNat (len * fine) q.toNat)]

/-- The places with lo ≤ c0 + c1 t ≤ hi, t the place by the length of the chord: numerators over c1. -/
def linSpan (c0 c1 lo hi : Int) (len : Nat) : List (Int × Int) :=
  if c1 = 0 then (if lo ≤ c0 ∧ c0 ≤ hi then [(0, (len * fine : Nat))] else [])
  else if 0 < c1 then [((lo - c0) * (len * fine : Nat) / c1, (hi - c0) * (len * fine : Nat) / c1)]
  else [((c0 - hi) * (len * fine : Nat) / (-c1), (c0 - lo) * (len * fine : Nat) / (-c1))]

/-- The places within the slab of half width d about the line of u. -/
def slabSpan (c0 c1 : Int) (u2 len d : Nat) : List (Int × Int) :=
  if c1 = 0 then (if c0 * c0 ≤ (d * d * u2 : Nat) then [(0, (len * fine : Nat))] else [])
  else
    let k := if c1 < 0 then c0 else -c0
    [(rootDown k (d * d * u2) (len * fine) c1.natAbs, rootUp k (d * d * u2) (len * fine) c1.natAbs)]

/-- The common places of two spans. -/
def meetSpan (a b : List (Int × Int)) : List (Int × Int) :=
  match a, b with
  | [x], [y] => if max x.1 y.1 ≤ min x.2 y.2 then [(max x.1 y.1, min x.2 y.2)] else []
  | _, _ => []

/-- The places of the chord p q within d of an edge: two discs and the slab between them. -/
def edgeSpans (p q : Int × Int) (len d : Nat) (e : (Int × Int) × (Int × Int)) : List (Int × Int) :=
  let v := vsub q p
  let u := vsub e.2 e.1
  let w := vsub p e.1
  discSpan w v len d ++ discSpan (vsub p e.2) v len d
    ++ meetSpan (slabSpan (cross u w) (cross u v) (dotp u u).toNat len d)
        (linSpan (dotp w u) (dotp v u) 0 (dotp u u) len)

/-- Unites spans ordered by their start, where one begins before or where the one before it ends (R86). -/
def uniteSpans : List (Int × Int) → List (Int × Int)
  | [] => []
  | x :: l => match uniteSpans l with
    | [] => [x]
    | y :: r => if y.1 ≤ x.2 then absorbSpans (x.1, max x.2 y.2) r else x :: y :: r
where
  /-- A span takes in those that it reaches. -/
  absorbSpans (x : Int × Int) : List (Int × Int) → List (Int × Int)
    | [] => [x]
    | y :: r => if y.1 ≤ x.2 then absorbSpans (x.1, max x.2 y.2) r else x :: y :: r

/-- Orders spans by their start and unites them. -/
def tidySpans (l : List (Int × Int)) : List (Int × Int) :=
  uniteSpans (l.foldl (fun acc x => (acc.filter (fun y => decide (y.1 ≤ x.1))) ++ [x] ++ acc.filter (fun y => decide (x.1 < y.1))) [])

/-- Adds the gaps of a chord whose middle lies inside the polygon. -/
def fillGaps (pg : Polygon) (p q : Int × Int) (len : Nat) : Int → List (Int × Int) → List (Int × Int)
  | at', [] => if at' ≤ (len * fine : Nat) ∧ gapInside at' (len * fine : Nat) then [(at', (len * fine : Nat))] else []
  | at', x :: l =>
    (if at' < x.1 ∧ gapInside at' x.1 then [(at', x.1)] else []) ++ x :: fillGaps pg p q len (x.2 + 1) l
where
  /-- Whether the middle of a gap lies inside. -/
  gapInside (a b : Int) : Bool :=
    let m := a + b
    let k := 2 * len * fine
    inPolygon pg (p.1 * k + (q.1 - p.1) * m) (p.2 * k + (q.2 - p.2) * m) k

/-- The places of the chord p q, of length len ubu, inside a polygon enlarged by d. -/
def chordSpans (pg : Polygon) (p q : Int × Int) (len d : Nat) : List (Int × Int) :=
  let l := (edgesOf pg).flatMap (edgeSpans p q len d)
  let top : Int := (len * fine : Nat)
  let l := l.filterMap (fun x => if max x.1 0 ≤ min x.2 top then some (max x.1 0, min x.2 top) else none)
  tidySpans (fillGaps pg p q len 0 (tidySpans l))

/-- The chords of a segment: start place, length, ends (R192). -/
def chordsOf (g : Seg) : List (Int × Int × (Int × Int) × (Int × Int)) :=
  let ends := fun (a b : Int) =>
    let p := pointAt g a
    let q := pointAt g b
    (a, b - a, (p.x, p.y), (q.x, q.y))
  if g.r.ty = 3 then
    let rr := max (arcRadii g.p0 g.r).1 (arcRadii g.p0 g.r).2
    let n := (arcSweep g.p0 g.r * ((isqrt (rr.toNat / 65536) : Nat) + 1) / (5 * one48)).toNat + 1
    (List.range n).map (fun (k : Nat) => ends (g.len * k / n) (g.len * (k + 1) / n))
  else if g.r.ty = 4 then
    let n := splineParts g.p0 g.r
    ((List.range n).foldl (fun (acc : Int × List _) k =>
      let l := partLen g.p0 g.r n k
      (acc.1 + l, acc.2 ++ [ends acc.1 (acc.1 + l)])) (0, [])).2
  else [ends 0 g.len]

/-- The stretches of a segment inside one enlarged polygon, as half-open arcs in whole bu (R86, R192). -/
def segIntervals1 (pg : Polygon) (d : Nat) (g : Seg) : List (Int × Int) :=
  let d := if g.r.ty = 3 ∨ g.r.ty = 4 then d + 8 else d
  (chordsOf g).flatMap (fun c =>
    (chordSpans pg c.2.2.1 c.2.2.2 c.2.1.toNat d).map (fun x =>
      ((c.1 * fine + x.1) / (fine * 65536 : Nat), (c.1 * fine + x.2) / (fine * 65536 : Nat) + 1)))

/-- The breakwater intervals of a segment over a set, in whole bu, united. -/
def segIntervals (pgs : List Polygon) (d : Nat) (g : Seg) : List (Int × Int) :=
  tidySpans (pgs.flatMap (fun pg => segIntervals1 pg d g))

/-- The polygons the intervals of record i of berth b are taken on: those in force when it was fetched (R196). -/
def polygonsOf (b i : Nat) (s : State) : List Polygon :=
  if (berth b s).annexNow.isSome then s.bw.force
  else ((((s.bw.eras.getD b []).find? (fun e => decide (i ≤ e.1))).map (·.2))).getD s.bw.force

/-- The polygons the test of R193 uses: old and new while an exposure caught by a commit runs on (R196). -/
def testPolygons (s : State) : List Polygon := if s.bw.oldBerths = 0 then s.bw.force else s.bw.old ++ s.bw.force

/-- The lateral limit of a berth (R86). -/
def lateralLimit (b : Nat) (s : State) : Nat := getN (bi b 2) 7 s

/-- Whether a planned point, in ubu, lies in an enlarged polygon for berth b (R193). -/
def masked (b : Nat) (p : Int × Int) (s : State) : Bool := (testPolygons s).any (fun pg => inEnlarged pg (lateralLimit b s) p.1 p.2)

/-- The polygons of a set's bytes, `n` to read from an offset. -/
def readPolygons (l : List Byte) : Nat → Nat → List Polygon
  | 0, _ => []
  | n + 1, o =>
    let k := field l o 1
    { id := field l (o + 4) 4,
      pts := (List.range k).map (fun i => (fieldI l (o + 8 + 8 * i) 4, fieldI l (o + 12 + 8 * i) 4)) }
      :: readPolygons l n (o + 8 + 8 * k)

/-- The polygons of a breakwater set (R194). -/
def setPolygons (l : List Byte) : List Polygon := readPolygons l (field l 6 1) 0x20

/-- A breakwater set's form: magic, versions, lengths, reserved fields, simple polygons (R191, R194). -/
def setFormOk (l : List Byte) : Bool :=
  let pgs := setPolygons l
  let bytes := (pgs.map (fun p => 8 + 8 * p.pts.length)).foldl (· + ·) 0
  decide (160 ≤ l.length) && field l 0 4 == 0x42575354 && field l 5 1 == 1 && decide (field l 6 1 ≤ 64)
    && field l 7 1 == 0 && field l 0x1C 4 == 0 && decide (1 ≤ field l 8 8)
    && field l 0x18 4 == bytes && l.length == 160 + bytes && pgs.all simplePolygon
    && (List.range pgs.length).all (fun i =>
        let o := 0x20 + ((pgs.take i).map (fun p => 8 + 8 * p.pts.length)).foldl (· + ·) 0
        field l (o + 1) 3 == 0)

/-- Whether a key's hash is in a programmed and unrevoked slot (R195). -/
def keyKnown (k : List Byte) (s : State) : Bool :=
  (List.range 4).any (fun i => bit (getN 0x5101 5 s) i && !bit (getN 0x5101 5 s) (i + 4)
    && getB 0x5101 (i + 1) s == sha256 k)

/-- Whether a set's key and signature are those of R195. -/
def setSigned (l : List Byte) (s : State) : Bool :=
  let n := l.length
  keyKnown (slice l (n - 128) 64) s && verify (slice l (n - 128) 64) (slice l (n - 64) 64) (l.take (n - 64))

/-- The chip's unique identifier (R194). -/
def chipId (s : State) : Nat := getN 0x0100 4 s

/-- The check code of a written set: 1 valid, else the reason of 0x5100:02 (R195). -/
def setCheck (l : List Byte) (s : State) : Nat :=
  if !setFormOk l then 3
  else if !setSigned l s then 2
  else if field l 0x10 8 ≠ 0 ∧ field l 0x10 8 ≠ chipId s then 5
  else if field l 8 8 ≤ getN 0x5100 3 s then 4
  else 1

end Sys2Proof.Machine
end

