-- ==== Sys2Proof/Machine/Planner.lean ====
section
/-!
DEFINITION. Sys2Proof/Machine/Planner.lean: the planned path in time (R70, R90), the actual spot (R75, R76) and the schedule of
events (R78, R86, R48). Speeds are in nm/s, arcs in ubu, times in 2^-16 ns.
-/
namespace Sys2Proof.Machine

/-- A motion segment as the plan sees it: where it starts, how long it is, its declared speed, whether the path rests before
and after it, and for how long (ns). -/
structure Leg where
  g0 : Int := 0
  len : Nat := 0
  v : Nat := 0
  restBefore : Bool := false
  restAfter : Bool := false
  dwell : Nat := 0
  settle : Nat := 0
  deriving DecidableEq, Repr

/-- The record after record i that is no EVENT, `k` to try. -/
def nextRec (b : Nat) (s : State) : Nat → Nat → Option (Nat × Rec)
  | 0, _ => none
  | k + 1, i =>
    if mfCount b s ≤ i then none
    else if (mfRec b i s).ty = 9 ∨ mfSkip b s i then nextRec b s k (i + 1) else some (i, mfRec b i s)

/-- The record that follows segment record i (EVENT records apart). -/
def follower (b i : Nat) (s : State) : Option (Nat × Rec) := nextRec b s (mfCount b s) (i + 1)

/-- The path comes to rest for good after record i: a FENCE, a WAIT, END or a HANDOVER to be taken follows (R70, R103). -/
def stopsAfter (b i : Nat) (s : State) : Bool :=
  match follower b i s with
  | none => true
  | some (_, r) => r.ty == 6 || r.ty == 8 || r.ty == 0x0F || (r.ty == 7 && field r.raw 30 1 == 1)

/-- The leg of a segment from an arc inside it on. -/
def legOf (b : Nat) (s : State) (from' : Int) (g : Seg) : Leg :=
  let inside := decide (g.g0 < from')
  let nextSafe := match follower b g.ri s with
    | some (_, r) => r.ty == 5
    | none => true
  { g0 := max g.g0 from', len := (g.g0 + g.len - max g.g0 from').toNat, v := g.r.speed * 1000,
    restBefore := g.r.ty == 5 && !inside, dwell := if g.r.ty = 5 ∧ !inside then field g.r.raw 20 4 else 0,
    settle := if g.r.ty = 1 then field g.r.raw 20 4 else 0,
    restAfter := (g.r.ty == 1 && field g.r.raw 20 4 != 0) || stopsAfter b g.ri s || nextSafe }

/-- The segments up to the first after which the path stops. -/
def upToStop (b : Nat) (s : State) : List Seg → List Seg
  | [] => []
  | g :: l => if stopsAfter b g.ri s then [g] else g :: upToStop b s l

/-- Twice the acceleration (m/s^2) times a length (ubu), in (nm/s)^2. -/
def twoAL (a len : Nat) : Nat := a * len * 244140625 / 1024

/-- The greatest square of the speed at which each leg may be entered, and 0 after the last (R70). -/
def entrySq (a : Nat) : Option Leg → List Leg → List Nat
  | _, [] => [0]
  | prev, l :: rest =>
    let es := entrySq a (some l) rest
    let cap := match prev with
      | none => 0
      | some p => if p.restAfter || l.restBefore then 0 else min p.v l.v * min p.v l.v
    min cap (es.headD 0 + twoAL a l.len) :: es

/-- The duration of a speed change at an acceleration. -/
def rampT (a dv : Nat) : Nat := if a = 0 then 0 else dv * 65536 / a

/-- The length of a speed change between two squared speeds, in ubu. -/
def rampLen (a u2 w2 : Nat) : Nat := if a = 0 then 0 else (w2 - u2) * 1024 / (a * 244140625)

/-- The duration of a length at a speed. -/
def cruiseT (len v : Nat) : Nat := if v = 0 then 0 else len * 10 ^ 12 / (128 * v)

/-- The phases of a leg entered at t with squared speed u2 and left with w2 (R70), and the time after them. -/
def legPhases (a : Nat) (l : Leg) (u2 w2 : Nat) (t : Time) : List Phase × Time :=
  let t1 := t + l.dwell * nsT
  let p2 := min (l.v * l.v) ((u2 + w2 + twoAL a l.len) / 2)
  let p2 := max p2 (max u2 w2)
  let d1 := rampLen a u2 p2
  let d3 := rampLen a w2 p2
  let d2 := l.len - d1 - d3
  let t2 := t1 + rampT a (isqrt p2 - isqrt u2)
  let t3 := t2 + cruiseT d2 (isqrt p2)
  let t4 := t3 + rampT a (isqrt p2 - isqrt w2)
  let t5 := t4 + l.settle * nsT
  let ph : Time → Time → Int → Nat → Int → List Phase := fun x y g v c =>
    if x < y then [{ t0 := x, dur := y - x, g0 := g, v0 := v, acc := c }] else []
  (ph t t1 l.g0 0 0 ++ ph t1 t2 l.g0 (isqrt u2) a ++ ph t2 t3 (l.g0 + d1) (isqrt p2) 0
    ++ ph t3 t4 (l.g0 + d1 + d2) (isqrt p2) (-(a : Int)) ++ ph t4 t5 (l.g0 + l.len) 0 0, t5)

/-- The phases of legs entered at t with squared speed u2; `es` holds the entry speeds after each. -/
def legsPhases (a : Nat) : List Leg → List Nat → Nat → Time → List Phase
  | [], _, _, _ => []
  | l :: rest, es, u2, t =>
    let w2 := min ((es.drop 1).headD 0) (u2 + twoAL a l.len)
    let (ph, t') := legPhases a l u2 w2 t
    if rest = [] then ph ++ [{ t0 := t', g0 := l.g0 + l.len }] else ph ++ legsPhases a rest (es.drop 1) w2 t'

/-- The path acceleration limit of a berth (m/s^2). -/
def accLimit (b : Nat) (s : State) : Nat := getN (bi b 2) 6 s

/-- The plan of the manifest's path from record i, arc `from'` (ubu from record 0) and speed v on, starting at t. -/
def planPath (b i : Nat) (from' : Int) (v : Nat) (t : Time) (s : State) : List Phase :=
  let l := (upToStop b s ((segs b s).filter (fun g => decide (i ≤ g.ri)))).map (legOf b s from')
  legsPhases (accLimit b s) l (entrySq (accLimit b s) none l) (v * v) t

/-- The plan of a straight gate-off move from p to q from rest to rest (R90). -/
def planMove (b : Nat) (p q : Pt) (t : Time) (s : State) : List Phase :=
  let l : Leg := { len := (dist p q).toNat, v := getN (bi b 2) 8 s * 1000, restAfter := true }
  (legsPhases (accLimit b s) [l] [0, 0] 0 t).map (fun ph => { ph with kind := .move p q })

/-- When the plan ends. -/
def planEnd (l : List Phase) (t : Time) : Time := match l.getLast? with
  | none => t
  | some ph => ph.t0 + ph.dur

/-- The arc of a phase at a time inside it. -/
def phaseArc (ph : Phase) (t : Time) : Int :=
  let dt : Int := (min (t - ph.t0) ph.dur : Nat)
  ph.g0 + ph.v0 * dt * 128 / 10 ^ 12 + ph.acc * dt * dt / (1024 * 10 ^ 12)

/-- The speed of a phase at a time inside it. -/
def phaseSpeed (ph : Phase) (t : Time) : Nat :=
  ((ph.v0 : Int) + ph.acc * (min (t - ph.t0) ph.dur : Nat) / 65536).toNat

/-- The phase in force at a time: the last that has begun. -/
def phaseAt (l : List Phase) (t : Time) : Option Phase :=
  match (l.filter (fun ph => decide (ph.t0 ≤ t))).getLast? with
  | some ph => some ph
  | none => l.head?

/-- The planned arc from record 0 at a time, if the berth is on its path or its run-up. -/
def plannedArc (b : Nat) (t : Time) (s : State) : Option Int :=
  match phaseAt (berth b s).plan t with
  | none => none
  | some ph => match ph.kind with
    | .move _ _ => none
    | _ => some (phaseArc ph t)

/-- The point of a run-up at an arc: on the tangent of the path behind its anchor. -/
def runUpPoint (b : Nat) (anchor g : Int) (s : State) : Pt :=
  match segAt (segs b s) anchor with
  | none => {}
  | some sg =>
    let p := pointAt sg (anchor - sg.g0)
    let (tx, ty) := tangentAt sg (anchor - sg.g0)
    { p with x := p.x + roundHalfAway (tx * (g - anchor)) (2 ^ 64), y := p.y + roundHalfAway (ty * (g - anchor)) (2 ^ 64) }

/-- The point of the path at an arc from record 0. -/
def pathPoint (b : Nat) (g : Int) (s : State) : Option Pt :=
  (segAt (segs b s) g).map (fun sg => pointAt sg (min (g - sg.g0) sg.len))

/-- The point of the path at an arc from record 0, in ubu. -/
def pathFine (b : Nat) (g : Int) (s : State) : Option (Int × Int) :=
  (segAt (segs b s) g).map (fun sg => finePoint sg (min (g - sg.g0) sg.len))

/-- The point of a phase at a time. -/
def phasePoint (b : Nat) (ph : Phase) (t : Time) (s : State) : Option Pt :=
  match ph.kind with
  | .path => pathPoint b (phaseArc ph t) s
  | .runUp a => if phaseArc ph t < a then some (runUpPoint b a (phaseArc ph t) s) else pathPoint b (phaseArc ph t) s
  | .move p q => some (pointAt { r := { ty := 1, endp := q }, p0 := p, len := dist p q } (phaseArc ph t))

/-- The planned point at a time: on the plan, else the standing position (R404). -/
def plannedPoint (b : Nat) (t : Time) (s : State) : Option Pt :=
  match phaseAt (berth b s).plan t with
  | some ph => phasePoint b ph t s
  | none => (berth b s).standing

/-- The unit tangent of the planned path at a time, 2^-48; zero while the berth stands. -/
def plannedTangent (b : Nat) (t : Time) (s : State) : Int × Int :=
  match phaseAt (berth b s).plan t with
  | none => (0, 0)
  | some ph => match ph.kind with
    | .move p q => tangentAt { r := { ty := 1, endp := q }, p0 := p, len := dist p q } 0
    | .runUp a => match segAt (segs b s) a with
      | none => (0, 0)
      | some sg => tangentAt sg (a - sg.g0)
    | .path => match segAt (segs b s) (phaseArc ph t) with
      | none => (0, 0)
      | some sg => tangentAt sg (min (phaseArc ph t - sg.g0) sg.len)

/-- The time in a phase at which its arc reaches g: the least of the halvings between x and y, `k` to go. -/
def bisectT (f : Time → Bool) : Nat → Time → Time → Time
  | 0, _, y => y
  | k + 1, x, y => if y ≤ x + 1 then (if f x then x else y)
    else if f ((x + y) / 2) then bisectT f k x ((x + y) / 2) else bisectT f k ((x + y) / 2) y

/-- The planned time at which a plan reaches an arc, if it does. -/
def planTime (l : List Phase) (g : Int) : Option Time :=
  match l.find? (fun ph => (match ph.kind with
      | .move _ _ => false
      | _ => true) && decide (g ≤ phaseArc ph (ph.t0 + ph.dur))) with
  | none => none
  | some ph => some (if g ≤ ph.g0 then ph.t0 else bisectT (fun t => decide (g ≤ phaseArc ph t)) 64 ph.t0 (ph.t0 + ph.dur))

/-- The planned speed on a plan at an arc, in nm/s. -/
def planSpeedAt (l : List Phase) (g : Int) : Nat :=
  match (l.filter (fun ph => decide (ph.g0 ≤ g))).getLast? with
  | none => 0
  | some ph => isqrt (((ph.v0 : Int) * ph.v0 + ph.acc * (g - ph.g0) * 244140625 / 1024).toNat)

/-- The quadratic, line or constant through up to three samples, at a time (R76), for a field of the sample. -/
def predict (f : Sample → Int) (l : List Sample) (t : Time) : Int :=
  let x := fun (k : Nat) => ((l.getD k {}).t : Int)
  let y := fun (k : Nat) => f (l.getD k {})
  let t : Int := t
  let line := fun (i j : Nat) => if x i = x j then y i else y i + divAway ((y j - y i) * (t - x i)) (x j - x i)
  match l.length with
  | 0 => 0
  | 1 => y 0
  | 2 => line 0 1
  | _ =>
    let d0 := (x 0 - x 1) * (x 0 - x 2)
    let d1 := (x 1 - x 0) * (x 1 - x 2)
    let d2 := (x 2 - x 0) * (x 2 - x 1)
    if d0 = 0 ∨ d1 = 0 ∨ d2 = 0 then y 0
    else divAway (y 0 * (t - x 1) * (t - x 2) * d1 * d2 + y 1 * (t - x 0) * (t - x 2) * d0 * d2
        + y 2 * (t - x 0) * (t - x 1) * d0 * d1) (d0 * d1 * d2)

/-- The predicted along-path error in ubu (samples hold it in 2^-16 bu). -/
def predE (b : Nat) (t : Time) (s : State) : Int := predict (fun x => x.e) (berth b s).samples t

/-- The predicted actual arc length s_a(t) from record 0 (R76). -/
def actualArc (b : Nat) (t : Time) (s : State) : Option Int := (plannedArc b t s).map (fun g => g + predE b t s)

/-- The predicted actual spot position at a time (R75, R76). -/
def actualPoint (b : Nat) (t : Time) (s : State) : Option Pt :=
  (plannedPoint b t s).map (fun p =>
    let (tx, ty) := plannedTangent b t s
    let e := predE b t s
    let d := predict (fun x => x.d) (berth b s).samples t
    { p with x := p.x + roundHalfAway (tx * e - ty * d) (2 ^ 64), y := p.y + roundHalfAway (ty * e + tx * d) (2 ^ 64) })

/-- The motion segment that holds an arc, and the arc inside it in whole bu: (record, arc); (0, 0) off the path. -/
def place (b : Nat) (g : Int) (s : State) : Nat × Int :=
  match segAt (segs b s) g with
  | none => (match (segs b s).head? with
    | none => (0, 0)
    | some sg => (sg.ri, roundHalfAway (g - sg.g0) 65536))
  | some sg => (sg.ri, roundHalfAway (g - sg.g0) 65536)

/-- The cross-fade start and length of a HANDOVER record, in bu (R45). -/
def crossFade (r : Rec) : Int × Int := (fieldI r.raw 20 4, fieldI r.raw 24 4)

/-- Whether a record is a HANDOVER the berth takes (R45, role 1). -/
def isTaking (r : Rec) : Bool := r.ty == 7 && field r.raw 30 1 == 1

/-- The arcs of a gate-on segment between which its gate may open, in ubu: all of it, or a HANDOVER's part (R106). -/
def openPart (g : Seg) : Int × Int :=
  let c := crossFade g.r
  if g.r.ty ≠ 7 then (0, g.len)
  else if isTaking g.r then (c.1 * 65536, g.len) else (0, min g.len ((c.1 + c.2) * 65536))

/-- The gate-on runs of segments in order (R78): maximal chains of gate-on records, EVENT records between them apart; a
HANDOVER ends a run on the giving berth and begins one on the taking berth (R106). -/
def runsOf (b : Nat) (s : State) : List Seg → List (List Seg)
  | [] => []
  | g :: l =>
    if !isOn g.r.ty then runsOf b s l
    else
      let joins := match follower b g.ri s with
        | some (_, r) => isOn r.ty && !isTaking r && (openPart g).2 == g.len
        | none => false
      match joins, runsOf b s l with
      | true, r :: rs => (g :: r) :: rs
      | _, rs => [g] :: rs

/-- The breakwater intervals of a segment that reach into the part of it whose gate may open (R86). -/
def clippedIntervals (b : Nat) (g : Seg) (s : State) : List (Int × Int) :=
  let p := openPart g
  (segIntervals (polygonsOf b g.ri s) (lateralLimit b s) g).filter (fun x => decide (p.1 < x.2 * 65536 ∧ x.1 * 65536 < p.2))

/-- An event of a segment at an arc in bu. -/
def eventAt (g : Seg) (arc : Int) (k : EvKind) : Event := { ri := g.ri, arc := arc, g := g.g0 + arc * 65536, kind := k }

/-- The gate edges of a run's segments (R86): `on` says whether the schedule is on before the segment, `start` that the run
begins here. -/
def runEdges (b : Nat) (s : State) : Bool → Bool → List Seg → List Event
  | _, _, [] => []
  | on, start, g :: l =>
    let ivs := clippedIntervals b g s
    let (lo, hi) := openPart g
    let at0 := ivs.any (fun x => decide (x.1 * 65536 ≤ lo))
    let opening := if start ∧ !at0 then [eventAt g (lo / 65536) (.gate true false)]
      else if !start ∧ !on ∧ !at0 then [eventAt g (lo / 65536) (.gate true true)] else []
    let inner := ivs.flatMap (fun x =>
      (if (lo < x.1 * 65536 ∨ on) ∧ !(start ∧ decide (x.1 * 65536 ≤ lo)) then [eventAt g (max x.1 (lo / 65536)) (.gate false true)] else [])
        ++ (if x.2 * 65536 ≤ hi ∧ !(l = [] ∧ x.2 * 65536 = hi) then [eventAt g x.2 (.gate true true)] else []))
    let onEnd : Bool := match ivs.getLast? with
      | none => true
      | some x => decide (x.2 * 65536 ≤ hi) && (!l.isEmpty || decide (x.2 * 65536 < hi))
    let closing : List Event := if l.isEmpty && onEnd then
        [{ ri := g.ri, arc := hi / 65536, g := g.g0 + hi, kind := .gate false false }] else []
    opening ++ inner ++ closing ++ runEdges b s onEnd false l

/-- The gate schedule: edges in order (R78, R86). -/
def gateEvents (b : Nat) (s : State) : List Event :=
  (runsOf b s (segs b s)).flatMap (fun r => runEdges b s false true r)

/-- The entries of EVENT records, each at the place of the segment it attaches to (R48). -/
def entryEvents (b : Nat) (s : State) : List Seg → Nat → List Event
  | [], _ => []
  | g :: l, i =>
    ((List.range (g.ri - i)).flatMap (fun k =>
      let r := mfRec b (i + k) s
      if r.ty = 9 ∧ !mfSkip b s (i + k) then (entriesOf r).map (fun e =>
        ({ ri := g.ri, arc := (e.off : Int), g := g.g0 + e.off * 65536, kind := .entry e.action e.param e.value } : Event))
      else [])) ++ entryEvents b s l (g.ri + 1)

/-- The records that begin only after a rest of the path: those at which it stops for good, and those after a settle time (R47,
R70, R103). -/
def restRecords (b : Nat) (s : State) : List Nat :=
  (segs b s).filterMap (fun g =>
    if stopsAfter b g.ri s ∨ (g.r.ty = 1 ∧ field g.r.raw 20 4 ≠ 0) then (follower b g.ri s).map (·.1) else none)

/-- Merges two lists of events ordered by place; at equal places the first list goes first (R78), unless its record begins only
after a rest `rests` that the other's record comes before (R47, R70). -/
def mergeEvents (rests : List Nat) : List Event → List Event → List Event
  | [], l => l
  | l, [] => l
  | a :: l, c :: m =>
    if a.g < c.g ∨ (a.g = c.g ∧ !rests.any (fun j => decide (c.ri < j ∧ j ≤ a.ri))) then a :: mergeEvents rests l (c :: m)
    else c :: mergeEvents rests (a :: l) m

/-- Every event of berth b's manifest in the order it fires (R48, R78, R86). -/
def schedule (b : Nat) (s : State) : List Event :=
  mergeEvents (restRecords b s) (gateEvents b s) (entryEvents b s (segs b s) 0)

/-- The advance of an event (R78), in time units: a vernier tap is 1,024. -/
def advance (b : Nat) (k : EvKind) (s : State) : Nat :=
  match k with
  | .gate true _ => getN (bi b 2) 1 s * 1024
  | .gate false _ | .wakeOff => getN (bi b 2) 2 s * 1024
  | _ => 0

/-- A fired instant placed on the nearest of the 64 vernier taps (R77). -/
def toTap (t : Time) : Time := (t + 512) / 1024 * 1024

/-- When the record of an event at its start begins, if that is after a rest at the place it starts from (R70). -/
def settledAt (b : Nat) (e : Event) (s : State) : Time :=
  if e.arc = 0 ∧ (restRecords b s).contains e.ri then
    ((((berth b s).plan.filter (fun ph => decide (ph.kind = .path ∧ ph.g0 = e.g ∧ ph.v0 = 0 ∧ ph.acc = 0 ∧ ph.dur ≠ 0))).getLast?).map
      (fun ph => ph.t0 + ph.dur)).getD 0
  else 0

/-- The crossing instant of an arc to 1 ns, where the predicted spot reaches it before `t1` (R76). -/
def crossing (b : Nat) (g : Int) (t0 t1 : Time) (s : State) : Option Time :=
  let reached := fun (t : Time) => match actualArc b t s with
    | none => false
    | some a => decide (g ≤ a)
  if reached t1 then some (if reached t0 then t0 else bisectT reached 64 t0 t1) else none

/-- The crossing instant of an event, not before its record begins (R45, R70, R76). -/
def eventCrossing (b : Nat) (e : Event) (t0 t1 : Time) (s : State) : Option Time :=
  match crossing b e.g t0 t1 s with
  | none => none
  | some c => if max c (settledAt b e s) ≤ t1 then some (max c (settledAt b e s)) else none

end Sys2Proof.Machine
end

