-- ==== Sys2Proof/Machine/Recorder.lean ====
section
/-!
DEFINITION. Sys2Proof/Machine/Recorder.lean: record streams, their segments and the Decgedy block code (R200-R218).
-/
namespace Sys2Proof.Machine

/-- Event stream of berth b. -/
def eventStream (b : Nat) : Nat := b

/-- Sample stream of berth b. -/
def sampleStream (b : Nat) : Nat := 0x20 + b

/-- Image stream of context c. -/
def imageStream (c : Nat) : Nat := 0x40 + c

/-- The streams of R200. -/
def streamList : List Nat := List.range 24 ++ (List.range 24).map sampleStream ++ (List.range 26).map imageStream ++ [0x60, 0x61]

/-- Event, chart and harbour streams are byte streams (R203). -/
def isByteStream (st : Nat) : Bool := decide (st < 0x20) || st == 0x60 || st == 0x61

/-- The base of the record area in DRAM (R307). -/
def recordBase (s : State) : Nat :=
  (768 + 96 * layoutMB s 0 + layoutMB s 1 + layoutMB s 2 + layoutMB s 3) * 2 ^ 20

/-- An element's class: the bit length of its mapped residual (R208). -/
def zOf (x prev : Nat) : Nat :=
  let r := signed 16 (unsigned 16 ((x : Int) - prev))
  if 0 ≤ r then (2 * r).toNat else (-2 * r - 1).toNat

/-- The canonical code word of a class: its value and length (R209). -/
def codeWord (lengths : List Nat) (c : Nat) : Nat × Nat :=
  let n := lengths.getD c 0
  let before := (List.range lengths.length).filter (fun k => decide (lengths.getD k 0 < n) || (lengths.getD k 0 == n && decide (k < c)))
  (before.foldl (fun a k => a + 2 ^ (n - lengths.getD k 0)) 0, n)

/-- The bits of a code word, most significant first. -/
def codeBits (v n : Nat) : List Bool := (List.range n).map (fun i => v.testBit (n - 1 - i))

/-- The low n bits of a number, least significant first. -/
def rawBits (v n : Nat) : List Bool := (List.range n).map (fun i => v.testBit i)

/-- Bits packed into bytes from bit 0 upwards, `k` bytes. -/
def packBits : Nat → List Bool → List Byte
  | 0, _ => []
  | k + 1, l => BitVec.ofNat 8 ((l.take 8).foldr (fun b a => 2 * a + b2n b) 0) :: packBits k (l.drop 8)

/-- The residual pairs (element, element before) of a block. -/
def withPrev (prev : Nat) : List Nat → List (Nat × Nat)
  | [] => []
  | x :: l => (x, prev) :: withPrev x l

/-- The coded payload of a lossless block (R208). -/
def losslessBits (lengths : List Nat) (prev : Nat) (x : List Nat) : List Bool :=
  (withPrev prev x).flatMap (fun p =>
    let z := zOf p.1 p.2
    let c := bitLen z
    let w := codeWord lengths c
    codeBits w.1 w.2 ++ rawBits z (c - 1))

/-- The class counts of a block, added to counts. -/
def countClasses (prev : Nat) (x : List Nat) (counts : List Nat) : List Nat :=
  (withPrev prev x).foldl (fun l p => l.set (bitLen (zOf p.1 p.2)) (l.getD (bitLen (zOf p.1 p.2)) 0 + 1)) counts

/-- A coin of package-merge: its weight, its lowest class, and how often it holds each class. -/
abbrev Coin := Nat × Nat × List Nat

/-- Packages of a level: neighbours paired. -/
def pairCoins : List Coin → List Coin
  | a :: b :: l => (a.1 + b.1, min a.2.1 b.2.1, (a.2.2.zip b.2.2).map (fun p => p.1 + p.2)) :: pairCoins l
  | _ => []

/-- The levels of package-merge, `k` to go (R210, log 18). -/
def mergeCoins (items : List Coin) : Nat → List Coin → List Coin
  | 0, l => l
  | k + 1, l => mergeCoins items k (sortBy (fun c => c.1 * 32 + c.2.1) (items ++ pairCoins l))

/-- Code lengths limited to 15 bits for class weights, ties towards the lower class (R210). -/
def packageMerge (w : List Nat) : List Nat :=
  let items : List Coin := (List.range 17).map (fun c => (w.getD c 0, c, (List.replicate 17 0).set c 1))
  ((mergeCoins items 15 []).take 32).foldl (fun acc c => (acc.zip c.2.2).map (fun p => p.1 + p.2)) (List.replicate 17 0)

/-- The history after a block: an epoch of 256 blocks rebuilds the dynamic table (R210, R211). -/
def histNext (h : History) (dynamic : Bool) (ch : Nat) (x : List Nat) (coded : Bool) (prev : Nat) : History :=
  let cur := h.counts.headD (List.replicate 17 0)
  let cur := if coded then countClasses prev x cur else cur
  let h := { h with last := h.last.put ch (x.getLast?.getD prev) }
  if h.fill = 255 then
    let done := (cur :: h.counts.drop 1).take 16
    let sum := (List.range 17).map (fun c => 1 + (done.map (fun l => l.getD c 0)).foldl (· + ·) 0)
    { h with counts := List.replicate 17 0 :: done, fill := 0, lengths := if dynamic then packageMerge sum else h.lengths }
  else { h with counts := cur :: h.counts.drop 1, fill := h.fill + 1 }

/-- The near-lossless codes of a block at a shift: codes and reconstruction (R206). -/
def nearCodes (w q : Nat) : Nat → List Nat → List Int × List Nat
  | _, [] => ([], [])
  | vh, v :: l =>
    let c := clamp (roundHalfAway ((v : Int) - vh) (2 ^ q)) (-(2 ^ (w - 1) : Nat)) ((2 ^ (w - 1) : Nat) - 1)
    let n := (clamp ((vh : Int) + c * (2 ^ q : Nat)) 0 0xFFFF).toNat
    let r := nearCodes w q n l
    (c :: r.1, n :: r.2)

/-- The means of the pairs of a block (R206, mode 5). -/
def pairMeans : List Nat → List Nat
  | a :: b :: l => (a + b + 1) / 2 :: pairMeans l
  | _ => []

/-- The reconstruction error of a block at a shift. -/
def nearErr (mode w q : Nat) (x v : List Nat) : Nat :=
  let r := v.headD 0 :: (nearCodes w q (v.headD 0) (v.drop 1)).2
  let r := if mode = 5 then r.flatMap (fun y => [y, y]) else r
  maxN ((x.zip r).map (fun p => ((p.1 : Int) - p.2).natAbs))

/-- A near-lossless block: its bytes and its largest error (R206). -/
def nearBlock (mode : Nat) (x : List Nat) : List Byte × Nat :=
  let w := if mode = 3 then 7 else 3
  let v := if mode = 5 then pairMeans x else x
  let size := if mode = 3 then 64 else if mode = 4 then 32 else 16
  let best := ((List.range 16).foldl (fun (acc : Option (Nat × Nat)) q =>
    let e := nearErr mode w q x v
    match acc with
    | none => some (q, e)
    | some a => if e < a.2 then some (q, e) else some a) none).getD (0, 0)
  let codes := (nearCodes w best.1 (v.headD 0) (v.drop 1)).1
  (packBits size (rawBits (v.headD 0) 16 ++ rawBits best.1 4 ++ rawBits (min 15 (bitLen best.2)) 4
    ++ codes.flatMap (fun c => rawBits (unsigned w c) w)), best.2)

/-- A coded block: its bytes, its largest error, the history after it (R206-R211). -/
def codeBlock (mode ch prev0 : Nat) (h : History) (x : List Nat) : List Byte × Nat × History :=
  let prev := h.last.getD ch prev0
  if 3 ≤ mode then
    let r := nearBlock mode x
    (r.1, r.2, histNext h false ch x false prev)
  else
    let bitsl := losslessBits h.lengths prev x
    let n := (bitsl.length + 7) / 8
    if x.all (fun v => v == x.headD 0) then (toLe 2 (2 + 2 * 256) ++ toLe 2 (x.headD 0), 0, histNext h (mode == 2) ch x false prev)
    else if n < 128 then (toLe 2 n ++ packBits n bitsl, 0, histNext h (mode == 2) ch x true prev)
    else (toLe 2 (128 + 256) ++ x.flatMap (toLe 2), 0, histNext h (mode == 2) ch x false prev)

/-- The largest size a block of a mode can take (R214). -/
def blockMost (mode : Nat) : Nat := if mode = 3 then 64 else if mode = 4 then 32 else if mode = 5 then 16 else 130

/-- Writes bytes to a ring of the record area, from a running count on (R212). -/
def ringWrite (base size at' : Nat) (l : List Byte) (s : State) : State :=
  let base := recordBase s + base
  (l.foldl (fun (acc : State × Nat) v =>
    ({ acc.1 with dram := writeByte (base + (if size = 0 then 0 else acc.2 % size)) v acc.1.dram }, acc.2 + 1)) (s, at')).1

/-- The segment a stream codes, its oldest. -/
def headSeg (st : Nat) (s : State) : Option Segment := (stream st s).segs.head?

/-- The segment that takes a stream's input. -/
def inSeg (st : Nat) (s : State) : Option Segment := ((stream st s).segs.getLast?).filter (fun g => !g.ended)

/-- Changes the segment a stream codes. -/
def modHead (st : Nat) (f : Segment → Segment) (s : State) : State :=
  modStream st (fun x => { x with segs := (x.segs.head?.map f).toList ++ x.segs.drop 1 }) s

/-- Changes the last segment of a stream. -/
def modLast (st : Nat) (f : Segment → Segment) (s : State) : State :=
  modStream st (fun x => { x with segs := x.segs.dropLast ++ (x.segs.getLast?.map f).toList }) s

/-- The free output space of a stream for the segment it codes (R212). -/
def outFree (st : Nat) (s : State) : Nat :=
  ((headSeg st s).getD {}).outSize + getN (ssi st 0) 6 s - getN (ssi st 1) 3 s

/-- The segment header of R202. -/
def segHeader (st : Nat) (g : Segment) (count valid : Nat) (seat : Nat) : List Byte :=
  let h := toLe 4 0x44424353 ++ toLe 1 st ++ toLe 1 g.mode ++ toLe 1 g.flags ++ toLe 1 seat ++ toLe 4 g.layer ++ toLe 4 count
    ++ toLe 4 (nsOf g.start % 1000000000) ++ toLe 6 (nsOf g.start / 1000000000)
    ++ toLe 1 (if g.mode < 3 then 0 else min 15 (bitLen g.worst)) ++ toLe 1 valid
  h ++ toLe 4 (crc32c h)

/-- The modes a stream may have (R200). -/
def modeAllowed (st m : Nat) : Bool := m == 1 || m == 2 || (!isByteStream st && decide (3 ≤ m) && decide (m ≤ 5))

/-- The bytes a segment has staged. -/
def Segment.held (g : Segment) (bytes : Bool) : Nat :=
  if bytes then g.staging.length else 2 * (g.staging.length + (g.planar.map List.length).foldl (· + ·) 0)

/-- The bytes staged in a stream. -/
def stagedBytes (st : Nat) (s : State) : Nat := ((stream st s).segs.map (fun g => g.held (isByteStream st))).foldl (· + ·) 0

/-- The size of a stream's staging ring: as its newest segment found it. -/
def stageSize (st : Nat) (s : State) : Nat := (((stream st s).segs.getLast?).getD {}).stageSize

/-- The elements of a whole block in the staging: 128 bytes or 64 elements. -/
def blockElems (st : Nat) : Nat := if isByteStream st then 128 else 64

/-- Bytes enter a stream's staging ring in DRAM (R212). -/
def ringStage (st : Nat) (l : List Byte) (s : State) : State :=
  let g := (((stream st s).segs.getLast?).getD {})
  modStream st (fun x => { x with staged := x.staged + l.length }) (ringWrite g.stageBase g.stageSize (stream st s).staged l s)

/-- What of the elements at the front of a segment was input and not padding. -/
def realElems (g : Segment) (n : Nat) : Nat :=
  if g.ended ∧ g.part ≠ 0 ∧ g.staging.length ≤ 64 * ((List.range 8).filter (fun i => bit g.mask i)).length then g.part else n

/-- Codes the first `n` staged elements of a stream as one block, padded by repeating its last element (R202, R203). -/
def codeFront (st n : Nat) (s : State) : State :=
  let g := (headSeg st s).getD {}
  let raw := g.staging.take n
  let full := raw ++ List.replicate (blockElems st - raw.length) (raw.getLast?.getD 0)
  let ch := if isByteStream st then 0 else (full.headD 0) / 65536
  let words := if isByteStream st then (List.range 64).map (fun i => full.getD (2 * i) 0 + 256 * full.getD (2 * i + 1) 0)
    else full.map (· % 65536)
  let r := codeBlock g.mode ch (if 0x20 ≤ st ∧ st < 0x38 then 0x8000 else 0) g.history words
  let took := if isByteStream st then raw.length else 2 * realElems g raw.length
  let s := ringWrite g.outBase g.outSize (getN (ssi st 1) 3 s) r.1 s
  let s := addN (ssi st 1) 3 64 r.1.length (addN (ssi st 1) 2 64 took s)
  let s := setN (ssi st 1) 5 (max (getN (ssi st 1) 5 s) (min 0xFFFF r.2.1)) s
  modHead st (fun g => { g with staging := g.staging.drop n, history := r.2.2, blocks := g.blocks + 1, worst := max g.worst r.2.1, input := g.input + took }) s

/-- A stream stops for output (R214). -/
def streamStop (st : Nat) (s : State) : State :=
  let s := modHead st (fun g => { g with flags := setBit g.flags 2 true }) s
  let s := addN 0x5800 2 32 1 s
  setNotice 7 st (ssi st 1) 1 2 s

/-- The staging of the chart stream takes what it has room for of the buffer it is fed from (R201, R212). -/
def refill (st : Nat) (s : State) : State :=
  match headSeg st s with
  | none => s
  | some g =>
    let n := g.stageSize - stagedBytes st s
    if g.feed = [] ∨ n = 0 then s
    else ringStage st ((g.feed.take n).map (BitVec.ofNat 8)) (modHead st (fun g => { g with staging := g.staging ++ g.feed.take n, feed := g.feed.drop n }) s)

/-- The compressor has taken a whole chart buffer: it is Released (R187). -/
def bufferTaken (k : Option Nat) (s : State) : State :=
  match k with
  | none => s
  | some k => { s with chart := { s.chart with buffers := s.chart.buffers.map (fun e =>
      (e.1, if e.1 = k ∧ e.2.state = 3 then { e.2 with state := 4 } else e.2)) } }

/-- The first header of the segment a stream codes is written, with no block count (R202). -/
def startSegment (st : Nat) (s : State) : State :=
  let at' := getN (ssi st 1) 3 s
  let s := modHead st (fun g => { g with started := true, headAt := at' }) s
  let g := (headSeg st s).getD {}
  let s := ringWrite g.outBase g.outSize at' (segHeader st g 0xFFFFFFFF 0 s.hm.seatNo) s
  setN (ssi st 1) 5 0 (setN (ssi st 1) 1 1 (addN (ssi st 1) 3 64 32 s))

/-- The valid elements of a segment's last block (R202). -/
def validElems (st : Nat) (g : Segment) : Nat :=
  if isByteStream st then (if g.input % 128 = 0 then 128 else g.input % 128) else if g.part = 0 then 64 else g.part

/-- A segment that is coded to its end is closed: its header is rewritten, and the next starts (R201, R202). -/
def finishSegment (st : Nat) (s : State) : State :=
  let g := (headSeg st s).getD {}
  let s := ringWrite g.outBase g.outSize g.headAt (segHeader st g g.blocks (validElems st g) s.hm.seatNo) s
  let s := bufferTaken g.buffer (setN (ssi st 1) 1 0 (modStream st (fun x => { x with segs := x.segs.drop 1 }) s))
  if (stream st s).segs = [] then s else refill st (startSegment st s)

/-- The next block of a stream is coded, a partial one where its segment has ended, or the stream stops where its output is short; a
segment with nothing left is closed (R202, R214). -/
def codeNext (st : Nat) (s : State) : State :=
  match headSeg st s with
  | none => s
  | some g =>
    if blockElems st ≤ g.staging.length ∨ (g.ended ∧ g.staging ≠ []) then
      (if outFree st s < blockMost g.mode then streamStop st s else refill st (codeFront st (blockElems st) s))
    else if g.ended ∧ g.feed = [] then finishSegment st s
    else s

/-- Codes what ended segments hold until they are closed or the stream stops, in `k` steps at most. -/
def drainSegs (st : Nat) : Nat → State → State
  | 0, s => s
  | k + 1, s =>
    if getN (ssi st 1) 1 s = 1 ∧ (headSeg st s).any (fun g => g.ended) then drainSegs st k (codeNext st s) else s

/-- The blocks of collected sample sets, one per enabled channel in channel order (R204). -/
def planarBlocks (sets : List (List Nat)) : List (List Nat) :=
  (List.range ((sets.headD []).length)).map (fun c => sets.map (fun v => v.getD c 0))

/-- The blocks of a segment's sample sets go to its staging, padded by their last element where there are fewer than 64 (R202, R204). -/
def planarFlush (g : Segment) : Segment :=
  let blocks := ((List.range 8).filter (fun i => bit g.mask i)).zip (planarBlocks g.planar)
  let elems := blocks.flatMap (fun p =>
    (p.2 ++ List.replicate (64 - p.2.length) (p.2.getLast?.getD 0)).map (fun e => e % 65536 + 65536 * p.1))
  if g.planar = [] then g else { g with planar := [], staging := g.staging ++ elems }

/-- The segment that takes a stream's input ends; what it holds is coded as far as the output allows, the rest as space comes (R201, R202,
R214). -/
def endSegment (st : Nat) (s : State) : State :=
  if (inSeg st s).isNone then s
  else drainSegs st 1000000 (modLast st (fun g => planarFlush { g with ended := true, part := g.planar.length }) s)

/-- Opens a stream's segment for a layer at an instant, with the settings now in its objects (R200-R202, R211, R214); its header is written
when those before it are closed. -/
def openSegment (st layer : Nat) (t : Time) (s : State) : State :=
  let s := endSegment st s
  let m := getN (ssi st 0) 1 s
  if !modeAllowed st m ∨ getN (ssi st 0) 3 s = 0 then s
  else
    let g : Segment := { mode := m, layer := layer, start := t, outBase := getN (ssi st 0) 2 s, outSize := getN (ssi st 0) 3 s, stageBase := getN (ssi st 0) 4 s, stageSize := getN (ssi st 0) 5 s, mask := getN (ssi st 0) 9 s, decim := getN (ssi st 0) 8 s, resume := getN (ssi st 0) 7 s }
    let first := (stream st s).segs = []
    let s := modStream st (fun x => { x with segs := x.segs ++ [g], lastSet := none }) s
    if first then startSegment st s else s

/-- The chart stream takes a buffer that has closed: its segment is fed with the buffer's bytes (R187, R189, R201). -/
def feedSegment (k : Nat) (l : List Byte) (s : State) : State :=
  if (inSeg 0x60 s).isNone then s
  else refill 0x60 (modLast 0x60 (fun g => { g with ended := true, feed := l.map (fun v => v.toNat), buffer := some k }) s)

/-- An entry of an event or harbour stream (R203). -/
def entryBytes (kind hb : Nat) (t : Time) (payload : List Byte) : List Nat :=
  let units := 1 + (payload.length + 15) / 16
  let l := toLe 1 kind ++ toLe 1 units ++ toLe 2 hb ++ toLe 4 (nsOf t % 1000000000) ++ toLe 6 (nsOf t / 1000000000)
    ++ toLe 2 0 ++ slice payload 0 (16 * (units - 1))
  l.map (fun b => b.toNat)

/-- Whether a stream takes input and has room for n bytes of it. -/
def hasRoom (st n : Nat) (s : State) : Bool :=
  (inSeg st s).isSome && decide (stagedBytes st s + n ≤ stageSize st s)

/-- Input of a stream is dropped: `n` elements or bytes, which would have taken `need` bytes (R215). -/
def dropInput (st n need : Nat) (s : State) : State :=
  addN (ssi st 1) 4 32 n (modLast st (fun g => { g with flags := setBit g.flags 1 true }) (modStream st (fun x => { x with lost := x.lost + n, need := need, lastSet := none }) s))

/-- Appends to a byte stream's staging, or drops and counts what does not fit (R215). -/
def stageBytes (st : Nat) (l : List Nat) (s : State) : State :=
  if (inSeg st s).isNone then s
  else if hasRoom st l.length s then ringStage st (l.map (BitVec.ofNat 8)) (modLast st (fun g => { g with staging := g.staging ++ l }) s)
  else dropInput st l.length 0 s

/-- The kind 0x08 entry of a stream's loss goes into this stream (R215). -/
def gapTarget (st : Nat) : Nat :=
  if 0x20 ≤ st ∧ st < 0x38 then eventStream (st - 0x20) else if 0x40 ≤ st ∧ st < 0x58 then eventStream (st - 0x40)
  else if st = 0x58 ∨ st = 0x59 then 0x61 else st

/-- The harbour berth of a stream's entries. -/
def entryBerth (st : Nat) (s : State) : Nat := if st < 0x18 then 24 * s.hm.seatNo + st else 0xFFFF

/-- The kind 0x08 entry of a loss of a stream (R203, R215). -/
def gapBytes (st n : Nat) (s : State) : List Nat :=
  entryBytes 0x08 (entryBerth (gapTarget st) s) s.now (toLe 1 st ++ toLe 4 n)

/-- The kind 0x09 entry of an anchor of berth b (R203, R204). -/
def anchorBytes (b : Nat) (a : Anchor) (s : State) : List Nat :=
  entryBytes 0x09 (entryBerth b s) a.t (toLe 1 (sampleStream b) ++ toLe 3 0 ++ toLe 4 a.index ++ toLe 4 (a.frame % 2 ^ 32))

/-- Writes pending anchors of berth b into its event stream while it has room, what was lost before each ahead of it (R204, R215). -/
def writeAnchors (b : Nat) : List Anchor → State → State
  | [], s => modStream (sampleStream b) (fun x => { x with anchors := [] }) s
  | a :: l, s =>
    let keep := fun (r : List Anchor) (s : State) => modStream (sampleStream b) (fun x => { x with anchors := r }) s
    if !hasRoom (eventStream b) 32 s then keep (a :: l) s
    else
      let s := if a.lost = 0 then s else stageBytes (eventStream b) (gapBytes (sampleStream b) a.lost s) s
      if !hasRoom (eventStream b) 32 s then keep ({ a with lost := 0 } :: l) s
      else writeAnchors b l (stageBytes (eventStream b) (anchorBytes b a s) s)

/-- Writes the pending anchors of berth b (R204). -/
def writeAnchor (b : Nat) (s : State) : State :=
  if (stream (sampleStream b) s).anchors = [] then s else writeAnchors b (stream (sampleStream b) s).anchors s

/-- Whether a stream that dropped input has room again (R215). -/
def roomAgain (st : Nat) (s : State) : Bool :=
  (inSeg st s).isNone || decide (stagedBytes st s + (stream st s).need ≤ stageSize st s)

/-- Writes the gap entry of a stream's loss once the stream has room, and so has the one it goes into; pending anchors go first (R204,
R215). -/
def gapEntry (st : Nat) (s : State) : State :=
  let d := gapTarget st
  let n := (stream st s).lost
  if n = 0 ∨ !roomAgain st s then s
  else
    let s := if d < 24 then writeAnchor d s else s
    if !hasRoom d 32 s then s else modStream st (fun x => { x with lost := 0 }) (stageBytes d (gapBytes st n s) s)

/-- An entry of berth b's event stream at a harbour time, after any pending anchor or gap (R203, R204, R215). -/
def berthEntry (b kind : Nat) (t : Time) (payload : List Byte) (s : State) : State :=
  stageBytes (eventStream b) (entryBytes kind (entryBerth b s) t payload) (gapEntry (eventStream b) (writeAnchor b s))

/-- An entry of the harbour stream. -/
def harbourEntry (kind : Nat) (t : Time) (payload : List Byte) (s : State) : State :=
  stageBytes 0x61 (entryBytes kind 0xFFFF t payload) (gapEntry 0x61 s)

/-- The channels of a mask among the values of a sample set. -/
def maskVals (m : Nat) (v : List Nat) : List Nat := ((List.range 8).filter (fun i => bit m i)).map (fun i => v.getD i 0)

/-- A sample set of berth b for the loop frame (R204, R215): one that does not follow the set of the frame before begins a run, with an
anchor that takes along what was lost before it. -/
def sampleSet (b : Nat) (vals : List Nat) (s : State) : State :=
  let st := sampleStream b
  match inSeg st s with
  | none => s
  | some g =>
    let v := maskVals g.mask vals
    if !hasRoom st (2 * v.length) s then dropInput st v.length (2 * v.length) s
    else
      let a : Anchor := { index := g.sets, frame := s.frame, t := s.now, lost := (stream st s).lost }
      let s := if (stream st s).lastSet.any (fun f => f + 1 == s.frame) then s
        else modStream st (fun x => { x with anchors := x.anchors ++ [a], lost := 0 }) s
      let s := modLast st (fun g =>
        let g := { g with planar := g.planar ++ [v], sets := g.sets + 1 }
        if g.planar.length < 64 then g else planarFlush g) s
      writeAnchor b (modStream st (fun x => { x with lastSet := some s.frame }) (ringStage st (v.flatMap (toLe 2)) s))

/-- Berth b leaves its run of sample sets: it entered Idle (R204). -/
def sampleEnd (b : Nat) (s : State) : State := modStream (sampleStream b) (fun x => { x with lastSet := none }) s

/-- The 8 x 8 blocks of a frame in raster order, each in serpentine order (R205); pixels outside the frame repeat its edge. -/
def frameBlocks (w h : Nat) (px : List Nat) : List Nat :=
  (List.range ((h + 7) / 8)).flatMap (fun by' => (List.range ((w + 7) / 8)).flatMap (fun bx =>
    (List.range 8).flatMap (fun y => (List.range 8).map (fun x =>
      let x := if y % 2 = 0 then x else 7 - x
      px.getD (min (8 * by' + y) (h - 1) * w + min (8 * bx + x) (w - 1)) 0))))

/-- A whole frame of context c enters its image stream if the decimation takes it (R205, R215). -/
def imageFrame (c tag num w h : Nat) (px : List Nat) (s : State) : State :=
  let st := imageStream c
  match inSeg st s with
  | none => s
  | some g =>
    let s := modLast st (fun g => { g with frames := g.frames + 1 }) s
    if g.decim = 0 ∨ (g.frames + 1) % g.decim ≠ 0 then s
    else
      let l := (frameBlocks w h px).map (· % 65536)
      if !hasRoom st (2 * l.length) s then dropInput st l.length (2 * l.length) s
      else
        let pay := toLe 1 c ++ toLe 1 tag ++ toLe 4 num ++ toLe 4 (g.blocks + g.staging.length / 64)
        let s := gapEntry st s
        let s := if c < 24 then berthEntry c 0x07 s.now pay s else harbourEntry 0x07 s.now pay s
        ringStage st (l.flatMap (toLe 2)) (modLast st (fun g => { g with staging := g.staging ++ l }) s)

/-- Whether the staging ring of stream a holds a larger fraction of its size than that of stream b (R213). -/
def fuller (a b : Nat) (s : State) : Bool :=
  decide (stagedBytes b s * stageSize a s < stagedBytes a s * stageSize b s)

/-- Whether a stream that runs has a whole block staged, or a segment to bring to its end. -/
def codable (st : Nat) (s : State) : Bool :=
  getN (ssi st 1) 1 s == 1 && (headSeg st s).any (fun g => decide (blockElems st ≤ g.staging.length) || g.ended)

/-- The stream served next: the one with the fullest staging ring, the lowest of several (R213). -/
def served (s : State) : Option Nat :=
  (streamList.filter (fun st => codable st s)).foldl (fun acc st => match acc with
    | none => some st
    | some k => if fuller st k s then some st else some k) none

/-- Takes the words of a job's block: serpentine for element 1 (R217). -/
def jobWords (s : State) : List Nat :=
  let a := getN 0x5801 1 s + s.rcd.jobPos
  let l := (List.range 64).map (fun i => ofLe (dramRead (a + 2 * i) 2 s))
  if getN 0x5801 6 s = 1 then frameBlocks 8 8 l else l

/-- One block of the running host job, or its stop where the destination is short (R217). -/
def jobBlock (s : State) : State :=
  let m := getN 0x5801 5 s
  if s.rcd.jobRoom < blockMost m then setN 0x5801 8 3 s
  else
    let r := codeBlock m 0 0 s.rcd.jobHist (jobWords s)
    let s := dramWrite s.rcd.jobDst r.1 s
    let s := { s with rcd := { s.rcd with jobPos := s.rcd.jobPos + 128, jobDst := s.rcd.jobDst + r.1.length, jobRoom := s.rcd.jobRoom - r.1.length, jobHist := r.2.2, jobWorst := max s.rcd.jobWorst r.2.1 } }
    let s := addN 0x5801 0x0B 32 r.1.length (setN 0x5801 9 s.rcd.jobPos s)
    let s := setN 0x5801 0x0C s.rcd.jobWorst s
    if getN 0x5801 2 s ≤ s.rcd.jobPos then setN 0x5801 8 2 s else s

/-- The compressor codes one block: of the fullest staging ring, or of the host job while no ring is more than half full
(R213, R217). -/
def blockCoded (s : State) : State :=
  let busy := streamList.any (fun st => decide (stageSize st s < 2 * stagedBytes st s))
  if getN 0x5801 8 s = 1 ∧ !busy then jobBlock s
  else match served s with
    | none => s
    | some st => codeNext st s

/-- BLOCK_CODED (R213, R214). -/
def execBlockCoded (s : State) : Host.Outcome State Fault Refusal := gated .blockCoded blockCoded s

/-- STREAM_RESUME: free space has reached the resume threshold, and what ended segments held back is coded (R214). -/
def streamResume (st : Nat) (s : State) : State :=
  if getN (ssi st 1) 1 s = 2 ∧ ((headSeg st s).getD {}).resume ≤ outFree st s then drainSegs st 1000000 (setN (ssi st 1) 1 1 s) else s

/-- STREAM_RESUME. -/
def execStreamResume (st : Nat) (s : State) : Host.Outcome State Fault Refusal :=
  gated (.streamResume st) (streamResume st) s

/-- GAP_ENTRY (R215). -/
def execGapEntry (st : Nat) (s : State) : Host.Outcome State Fault Refusal := gated (.gapEntry st) (gapEntry st) s

/-- SAMPLE_ANCHOR (R204). -/
def execSampleAnchor (b : Nat) (s : State) : Host.Outcome State Fault Refusal := gated (.sampleAnchor b) (writeAnchor b) s

/-- A write of a stream's read pointer (R212). -/
def readPointer (st v : Nat) (s : State) : State :=
  if getN (ssi st 1) 3 s < v then withResult 4 s else setN (ssi st 0) 6 v s

/-- READ_POINTER. -/
def execReadPointer (st v : Nat) (s : State) : Host.Outcome State Fault Refusal :=
  gated (.readPointer st v) (readPointer st v) s

/-- The state blob of a history (R218). -/
def stateBlob (mode : Nat) (h : History) : List Byte :=
  let l := toLe 4 0x44425354 ++ toLe 1 mode ++ toLe 1 h.fill ++ toLe 2 (h.last.getD 0 0)
    ++ ((List.range 17).flatMap (fun e => (List.range 17).flatMap (fun c => toLe 2 ((h.counts.getD e []).getD c 0))))
    ++ ((List.range 17).flatMap (fun c => toLe 1 (h.lengths.getD c 0)))
  let l := slice l 0 0xFFC
  l ++ toLe 4 (crc32c l)

/-- Whether a state blob may restore a mode (R218). -/
def blobOk (mode : Nat) (l : List Byte) : Bool :=
  field l 0 4 == 0x44425354 && field l 4 1 == mode && field l 0xFFC 4 == crc32c (slice l 0 0xFFC)

/-- The history a state blob holds (R218). -/
def blobHistory (l : List Byte) : History :=
  { last := [(0, field l 6 2)], fill := field l 5 1, counts := (List.range 17).map (fun e => (List.range 17).map (fun c => field l (8 + 34 * e + 2 * c) 2)), lengths := (List.range 17).map (fun c => field l (0x24A + c) 1) }

/-- Job command 1: start (R217, R218). -/
def jobStart (s : State) : State :=
  let restore := getN 0x5801 0x0D s == 1
  if getN 0x5801 8 s = 1 ∨ getN 0x5801 2 s % 128 ≠ 0 ∨ (restore ∧ !blobOk (getN 0x5801 5 s) (getB 0x5801 0x0A s)) then
    withResult 4 s
  else
    let s := { s with rcd := { s.rcd with jobPos := 0, jobDst := getN 0x5801 3 s, jobRoom := getN 0x5801 4 s, jobWorst := 0, jobHist := if restore then blobHistory (getB 0x5801 0x0A s) else {} } }
    let s := setN 0x5801 9 0 (setN 0x5801 0x0B 0 (setN 0x5801 0x0C 0 s))
    setN 0x5801 8 (if getN 0x5801 2 s = 0 then 2 else 1) s

/-- JOB_START. -/
def execJobStart (s : State) : Host.Outcome State Fault Refusal := gated .jobStart jobStart s

/-- Job command 2: resume into a fresh destination (R217). -/
def jobResume (s : State) : State :=
  if getN 0x5801 8 s = 3 then
    setN 0x5801 8 1 { s with rcd := { s.rcd with jobDst := getN 0x5801 3 s, jobRoom := getN 0x5801 4 s } }
  else withResult 4 s

/-- JOB_RESUME. -/
def execJobResume (s : State) : Host.Outcome State Fault Refusal := gated .jobResume jobResume s

/-- Job command 3: abort (R217). -/
def jobAbort (s : State) : State :=
  if getN 0x5801 8 s = 1 ∨ getN 0x5801 8 s = 3 then setN 0x5801 8 4 s else withResult 4 s

/-- JOB_ABORT. -/
def execJobAbort (s : State) : Host.Outcome State Fault Refusal := gated .jobAbort jobAbort s

/-- Job command 4: the history goes into the state blob (R217, R218). -/
def jobSaveState (s : State) : State := setB 0x5801 0x0A (stateBlob (getN 0x5801 5 s) s.rcd.jobHist) s

/-- JOB_SAVE_STATE. -/
def execJobSaveState (s : State) : Host.Outcome State Fault Refusal := gated .jobSaveState jobSaveState s

/-- After a reset that keeps DRAM, every segment left open is closed with its truncated flag; what was staged is lost (R216). -/
def closeTruncated (st : Nat) (s : State) : State :=
  match headSeg st s with
  | none => s
  | some g =>
    let h := { g with flags := setBit g.flags 0 true }
    let s := if g.started then ringWrite g.outBase g.outSize g.headAt (segHeader st h g.blocks (blockElems st) s.hm.seatNo) s else s
    modStream st (fun _ => {}) s

end Sys2Proof.Machine
end

