-- ==== Sys2Proof/Machine/Stops.lean ====
section
/-!
DEFINITION. Sys2Proof/Machine/Stops.lean: the states of a berth, its GATE and LEN outputs, and the two ways to stop (R31-R40, R67-R69,
R82, R83, R89, R90, R109, R270), shared by every command and every covered fault.
-/
namespace Sys2Proof.Machine

/-- The state of a berth: 0 Idle, 1 Armed, 2 Exposing, 3 Holding, 4 Paused, 5 Faulted (R67). -/
def bState (b : Nat) (s : State) : Nat := getN (bi b 0) 1 s

/-- A latched bollard with a role and the berth in its mask forces the berth's outputs (R333). -/
def bollardForced (b : Nat) (s : State) : Bool :=
  (List.range 16).any (fun i => bit (getN 0x0402 0x15 s) i && getN 0x0402 (i + 1) s != 0 && bit (getN 0x0403 (i + 1) s) b)

/-- Whether LEN is active in the present state (R82, R333, R378). -/
def lenWanted (b : Nat) (s : State) : Bool :=
  !bollardForced b s && !(berth b s).calibrating &&
    (if getN (bi b 2) 3 s = 1 then bState b s == 1 || bState b s == 2
     else bState b s == 2 && (berth b s).manifestLen)

/-- Drives LENn to what the state wants, at the active level in force (R82). -/
def updateLen (b : Nat) (t : Time) (s : State) : State :=
  let w := lenWanted b s
  let pin := w == (getN (bi b 2) 4 s == 1)
  if w = (berth b s).len ∧ pin = (berth b s).lenPin then s
  else
    let s' := modBerth b (fun x => { x with len := w, lenPin := pin }) s
    if pin = (berth b s).lenPin then s' else emit (.len b pin t) s'

/-- Whether a calibration run is under way (R378). -/
def calRunning (s : State) : Bool := getN 0x0603 3 s == 1 || getN 0x0603 3 s == 2

/-- Ends the runs of a calibration: its berths leave it (R378). -/
def calEnd (s : State) : State :=
  eachBerth s.cal.mask (fun b s => updateLen b s.now (modBerth b (fun x => { x with calibrating := false }) s)) s

/-- The calibration's notice of code 0x0260 or 0x0261 (R366). -/
def calNotice (code : Nat) (detail : List Byte) (s : State) : State := notice 0 0 code detail s

/-- The calibration aborts (R379). -/
def calAbort (s : State) : State :=
  let s := setN 0x0603 4 5 (setN 0x0603 3 6 (calEnd s))
  calNotice 0x0261 (toLe 1 5 ++ toLe 1 0xFF ++ toLe 10 0) { s with cal := { s.cal with berths := [] } }

/-- An event on berth b that stops a calibration of it (R379). -/
def calStop (b : Nat) (s : State) : State := if calRunning s && bit s.cal.mask b then calAbort s else s

/-- Drives GATEn; the modulator's errors clear when it goes low (R85). -/
def setGate (b : Nat) (v : Bool) (t : Time) (s : State) : State :=
  if v = (berth b s).gate then s
  else emit (.gate b v t) (modBerth b (fun x => if v then { x with gate := v } else { x with gate := v, e1 := 0, e2 := 0 }) s)

/-- Puts a berth into a state, with its LEN. -/
def enterState (b n : Nat) (t : Time) (s : State) : State :=
  let s := setN (bi b 0) 1 n s
  let s := if n = 0 then sampleEnd b s else s
  updateLen b t s

/-- Writes the resume point (R33). -/
def setResume (b ri : Nat) (arc : Int) (power : Nat) (t : Time) (kind re : Nat) (reArc : Int) (s : State) : State :=
  let i := bi b 1
  setN i 8 kind (setI i 7 reArc (setN i 6 re (setTime i 5 t (setN i 4 power (setI i 3 arc (setN i 2 ri s))))))

/-- The berth-stop notice and record (R366) and the pause entry of the event stream (R203). -/
def noteStop (b cause before : Nat) (t : Time) (s : State) : State :=
  let i := bi b 1
  let s := noticeLogAt 1 b cause
    (toLe 4 (getN i 2 s) ++ toLeI 4 (getI i 3 s) ++ toLe 1 (getN i 8 s) ++ toLe 1 before ++ toLe 2 0) t s
  berthEntry b 0x04 t (toLe 1 (getN i 8 s) ++ toLe 2 cause ++ toLe 4 (getN i 2 s) ++ toLeI 4 (getI i 3 s) ++ toLe 4 (getN i 4 s)) s

/-- Ends the gate-on run being exposed, if there is one: its entry in the event stream (R80, R203). -/
def endRun (b last : Nat) (t : Time) (s : State) : State :=
  let r := (berth b s).run
  if !r.opened then s
  else
  let s := berthEntry b 0x03 t (toLe 4 r.first ++ toLe 4 last ++ toLe 2 r.merged ++ toLe 2 r.dropped
    ++ toLe 1 (b2n (r.merged != 0 || r.dropped != 0))) s
  modBerth b (fun x => { x with run := {} }) s

/-- Whether an event closes the gate. -/
def isGateOff (e : Event) : Bool := match e.kind with
  | .gate false _ => true
  | _ => false

/-- When the gate of a berth that stops at t goes low: at a scheduled gate edge that comes before t, or at t (R33, R78). -/
def lowAt (b : Nat) (t : Time) (s : State) : Time :=
  let u := ((berth b s).finals.filter (fun f => isGateOff f.ev)).foldl (fun u f => min u f.group) t
  match ((schedule b s).drop (berth b s).evDone).find? isGateOff with
  | none => u
  | some e =>
    let adv := advance b e.kind s
    match eventCrossing b e s.now (t + adv) s with
    | none => u
    | some c => min u (max s.now (toTap (c - adv)))

/-- When the gate of a berth that stops at t is low: at t, or at an edge scheduled before it (R33). -/
def gateLow (b : Nat) (t : Time) (s : State) : Time := if (berth b s).gate then lowAt b t s else t

/-- This chip's berth with a harbour berth number, if it is one. -/
def localBerth (hb : Nat) (s : State) : Option Nat :=
  if 24 * s.hm.seatNo ≤ hb ∧ hb < 24 * s.hm.seatNo + 24 then some (hb - 24 * s.hm.seatNo) else none

/-- The actual arc of a berth inside a record at a time, in ubu. -/
def arcIn (b ri : Nat) (t : Time) (s : State) : Int :=
  match (segs b s).find? (fun g => g.ri == ri) with
  | none => 0
  | some g => (actualArc b t s).getD 0 - g.g0

/-- The giving and the taking harbour berth of berth b's handover. -/
def pairNumbers (b : Nat) (s : State) : Nat × Nat :=
  let h := (berth b s).handover
  let hb := 24 * s.hm.seatNo + b
  if h.taking then (h.partner, hb) else (hb, h.partner)

/-- The handover window of a pair closes (R104, R111): the giving berth counts it. -/
def closeWindow (b : Nat) (s : State) : State :=
  let h := (berth b s).handover
  let n := pairNumbers b s
  let s := modBerth b (fun x => { x with handover := {} }) s
  if h.taking then s else harbourEntry 0x12 s.now (toLe 2 n.1 ++ toLe 2 n.2 ++ toLe 1 0) (addN 0x1805 4 32 1 s)

/-- Whether giving berth b has passed the cross-fade end of its window at a time (R104). -/
def windowPassed (b : Nat) (t : Time) (s : State) : Bool :=
  let h := (berth b s).handover
  let c := crossFade (mfRec b h.ri s)
  h.phase == 2 && !h.taking && decide ((c.1 + c.2) * 65536 < arcIn b h.ri t s)

/-- Ends every activity of an exposure whose gate is low from t on: no event, wait, wake hold, power or reservation remains (R33, R83,
R113); a window the giving spot has passed is closed first (R111). -/
def quiet (b : Nat) (t : Time) (s : State) : State :=
  let s := if windowPassed b t s then closeWindow b s else s
  let s := setGate b false t (endRun b (getN (bi b 0) 2 s) t s)
  let s := setN (bi b 3) 2 0 (setN (bi b 0) 7 0 s)
  modBerth b (fun x => { x with finals := [], gateSched := false, stopAt := none, resuming := false, overlap := none, waitingAt := none, wake := none, reopen := none, reserved := none, requested := none, waitSince := none, handover := {}, refusedAt := none, words := x.words.map (fun _ => 0), power := x.power.map (fun _ => 0), codes := x.codes.map (fun _ => 0) }) s

/-- Enters a pause state or Faulted with a cause and its strength, and reports it (R89, R366). -/
def stopped (b n cause strength : Nat) (t : Time) (s : State) : State :=
  let before := bState b s
  let s := quiet b t s
  let s := modBerth b (fun x => { x with strength := strength }) (setN (bi b 0) 6 cause s)
  let s := if n = 3 ∧ cause = 0x0005 ∧ getN 0x1806 1 s = 1 then { s with hm := { s.hm with trigger := s.hm.trigger ++ [b] } } else s
  noteStop b cause before t (enterState b n t s)

/-- The arcs at which the planned speed of the path is zero (R70): the start of every SAFE segment, the end of a JUMP with a settle
time, and where the path stops for good. -/
def restArcs (b : Nat) (s : State) : List Int :=
  (segs b s).flatMap (fun g =>
    (if g.r.ty = 5 then [g.g0] else [])
      ++ (if (g.r.ty = 1 ∧ field g.r.raw 20 4 ≠ 0) ∨ stopsAfter b g.ri s then [g.g0 + g.len] else []))

/-- The arc at which the motion of a phase next rests, from an arc of it on (R70, R90). -/
def restArc (b : Nat) (ph : Phase) (g : Int) (s : State) : Option Int :=
  match ph.kind with
  | .move p q => some (dist p q)
  | _ => (restArcs b s).find? (fun z => decide (g ≤ z))

/-- Decelerates the spot along its plan from t at the path acceleration limit, more where it would pass a point of rest
(R89); with no motion the berth stands. -/
def decelerate (b : Nat) (t : Time) (s : State) : State :=
  match phaseAt (berth b s).plan t with
  | none => modBerth b (fun x => { x with halting := false }) s
  | some ph =>
    let v := phaseSpeed ph t
    let g := phaseArc ph t
    let e := max 0 (predE b t s)
    let d := rampLen (accLimit b s) 0 (v * v)
    let room : Int := match restArc b ph g s with
      | none => (d : Nat)
      | some z => max 0 (z - g - e)
    let a := if room < d then v * v * 1024 / (244140625 * room.toNat + 1) + 1 else accLimit b s
    let stop := g + min (d : Int) room
    let l := [({ t0 := t, dur := rampT a v, g0 := g, v0 := v, acc := -(a : Int), kind := ph.kind } : Phase),
      { t0 := t + rampT a v, g0 := stop, kind := ph.kind }]
    let past := ((berth b s).plan.filter (fun p => decide (p.t0 < t))).map (fun p => { p with dur := min p.dur (t - p.t0) })
    modBerth b (fun x => { x with plan := past ++ (if v = 0 then [{ t0 := t, g0 := g, kind := ph.kind }] else l), halting := true }) s

/-- The record that begins at the end of a segment flagged safe-end (R31). -/
def recAfter (b i : Nat) (s : State) : Nat :=
  match follower b i s with
  | some (j, r) => if r.ty = 5 then j else i + 1
  | none => i + 1

/-- The safe points of segments in order: the record that starts there and its arc (R31). -/
def safePoints (b : Nat) (s : State) : List (Nat × Int) :=
  (segs b s).flatMap (fun g =>
    (if g.r.ty = 5 then [(g.ri, g.g0)] else []) ++ (if bit g.r.flags 0 then [(recAfter b g.ri s, g.g0 + g.len)] else []))

/-- The next safe point at or after an arc. -/
def nextSafe (b : Nat) (g : Int) (s : State) : Option (Nat × Int) :=
  (safePoints b s).find? (fun p => decide (g ≤ p.2))

/-- The record of the safe point at which a berth stands with its gate off, if it does (R35). -/
def standsAtSafe (b : Nat) (t : Time) (s : State) : Option Nat :=
  match (berth b s).waitingAt with
  | some (ri, _) => some ri
  | none =>
    if (berth b s).requested.isSome then some (berth b s).goFrom
    else if (berth b s).gate then none
    else match phaseAt (berth b s).plan t with
      | none => none
      | some ph =>
        if ph.v0 = 0 ∧ ph.acc = 0 ∧ ph.kind = .path ∧ ph.t0 ≤ t then
          match nextSafe b ph.g0 s with
          | some (ri, g) => if g = ph.g0 then some ri else none
          | none => none
        else none

/-- The planned path time from t to the next safe point, if it lies within the horizon (R32, R93). -/
def timeToSafe (b : Nat) (t : Time) (s : State) : Option (Nat × (Nat × Int)) :=
  match nextSafe b ((plannedArc b t s).getD 0) s with
  | none => none
  | some p => match planTime (berth b s).plan p.2 with
    | none => none
    | some u => if u - t ≤ getN 0x1800 8 s * nsT then some ((u - t) / nsT, p) else none

/-- The arc at which the exposed run that holds an arc begins: the first mark segment after the last jump (R34). -/
def runStart (b : Nat) (g : Int) (s : State) : Int :=
  ((segs b s).filter (fun x => decide (x.g0 ≤ g))).foldl (fun (acc : Option Int) x =>
    if x.r.ty = 1 then none else match acc with
      | some a => some a
      | none => if isOn x.r.ty then some x.g0 else none) none |>.getD g

/-- The re-entry start of a resume point at an arc (R34). -/
def reEntry (b : Nat) (g : Int) (s : State) : Nat × Int :=
  place b (max (g - getN 0x1800 9 s * 65536) (min g (runStart b g s))) s

/-- The planned power at an arc from record 0 (R51). -/
def powerAt (b : Nat) (g : Int) (s : State) : Nat :=
  match segAt (segs b s) g with
  | none => 0
  | some sg => plannedPower (mfBase b s) sg.r (g - sg.g0) s

/-- Records the resume point of a pause now whose gate goes low at t (R33). -/
def recordNow (b : Nat) (t : Time) (s : State) : State :=
  let g := max 0 ((actualArc b t s).getD 0)
  let p := place b g s
  let r := reEntry b g s
  setResume b p.1 p.2 (powerAt b g s) t 2 r.1 r.2 s

/-- The instant the gate goes low after a request: within 1 us of it, a free value (R33, log 3); at once where a bollard has
forced it low (R333). -/
def lowInstant (b : Nat) (t : Time) (s : State) : Time := if bollardForced b s then t else t + freeVal s % 1001 * nsT

/-- The pause of an Exposing berth at once, within the time t for its gate to go low (R33, R35, R40, R89, R90, R270): the state it
enters is `n` where it is moving (Paused or Faulted). -/
def pauseExposing (b cause strength : Nat) (t : Time) (s : State) : State :=
  let fault := strength == 3
  let u := gateLow b t s
  match standsAtSafe b t s with
  | some ri =>
    let s := setResume b ri 0 0 t 1 0 0 s
    stopped b (if fault then 5 else 3) cause strength t (decelerate b t s)
  | none =>
    let x := berth b s
    match x.wake with
    | some w =>
      let r := reEntry b w.g s
      let s := setResume b w.ri w.arc (powerAt b w.g s) w.t 2 r.1 r.2 s
      stopped b (if fault then 5 else 4) cause strength u (decelerate b t s)
    | none =>
      if x.resuming then
        let n := if fault then 5 else if getN (bi b 1) 8 s = 2 then 4 else 3
        stopped b n cause strength u (decelerate b t s)
      else stopped b (if fault then 5 else 4) cause strength u (decelerate b t (recordNow b u s))

/-- A pause at safe point of an Exposing berth (R31, R32). -/
def pauseToSafe (b cause : Nat) (t : Time) (s : State) : State :=
  if (standsAtSafe b t s).isSome ∨ (berth b s).wake.isSome ∨ (berth b s).resuming then pauseExposing b cause 1 t s
  else if (berth b s).stopAt.isSome then s
  else match timeToSafe b t s with
    | some (_, p) => modBerth b (fun x => { x with stopAt := some { cause := cause, ri := p.1, g := p.2 } }) s
    | none => pauseExposing b cause 2 (lowInstant b t s) (drawn s)

/-- A stop request reaches a berth, its partner in a handover apart: strength 1 pause at safe point, 2 pause now, 3 Faulted
(R31-R35, R40, R67, R68). -/
def stopOne (b strength cause : Nat) (t : Time) (s : State) : State :=
  match bState b s with
  | 0 => if strength = 3 then stopped b 5 cause 3 t (setResume b 0 0 0 0 0 0 0 s) else s
  | 1 =>
    let s := setResume b 0 0 0 t (if strength = 1 then 1 else 3) 0 0 s
    stopped b (if strength = 1 then 3 else if strength = 2 then 4 else 5) cause strength t s
  | 2 =>
    if strength = 1 then pauseToSafe b cause t s
    else if (standsAtSafe b t s).isSome then pauseExposing b cause strength t s
    else pauseExposing b cause strength (lowInstant b t s) (drawn s)
  | 5 => s
  | _ =>
    if strength = 3 then stopped b 5 cause 3 t s
    else if (berth b s).strength < strength ∨ (cause = 0x000F ∧ getN (bi b 0) 6 s = 0x0010) then
      modBerth b (fun x => { x with strength := max x.strength strength }) (setN (bi b 0) 6 cause s)
    else s

/-- The arc of the giving spot of berth b's pair in the HANDOVER record, in ubu: its own, that of a berth of this chip, or that of
the giving berth's latest record, carried on to the present frame at the declared speed (R94, R105). -/
def giverArc (b : Nat) (t : Time) (s : State) : Int :=
  let h := (berth b s).handover
  if !h.taking then arcIn b h.ri t s
  else match localBerth h.partner s with
    | some g => arcIn g (berth g s).handover.ri t s
    | none => match s.hm.others.find h.partner with
      | some r => r.arc * 65536 + ((mfRec b h.ri s).speed : Int) * 1000 * frameT * 128 / 10 ^ 12
      | none => arcIn b h.ri t s

/-- Where a berth's pair stands in its window: 0 past the cross-fade, 1 well before it, 2 near or inside it (R109). -/
def pairPlace (b : Nat) (t : Time) (s : State) : Nat :=
  let r := mfRec b (berth b s).handover.ri s
  let c := crossFade r
  let a := giverArc b t s
  let v := r.speed * 1000
  if (c.1 + c.2) * 65536 < a then 0
  else if a < c.1 * 65536 ∧ 5000 * nsT ≤ cruiseT (c.1 * 65536 - a).toNat v then 1
  else 2

/-- A handover is refused at a time, with its code (R111). -/
def handoverRefused (code giver taker : Nat) (t : Time) (s : State) : State :=
  let s := setN 0x1805 6 (code + 256 * giver) s
  let old := getI 0x1805 5 s
  let s := addN 0x1805 5 32 1 s
  harbourEntry 0x12 t (toLe 2 giver ++ toLe 2 taker ++ toLe 1 code)
    (noticeAt 3 0 0x0100 (changeDetail 0x1805 5 (getI 0x1805 5 s) old) t s)

/-- The giving berth's gate-off is placed at c0 of HANDOVER record ri, then it pauses (R109, rows 1 and 2). -/
def giverToC0 (b ri cause : Nat) (s : State) : State :=
  modBerth b (fun y => { y with handover := { y.handover with phase := 3, ri := ri, stopAtC0 := some cause } }) s

/-- The taking berth pauses with its gate low and nothing of the HANDOVER record exposed (R109, rows 1 and 2). -/
def takerAtC0 (b cause : Nat) (t : Time) (s : State) : State :=
  let ri := (berth b s).handover.ri
  let c := (crossFade (mfRec b ri s)).1
  let g0 := ((segs b s).find? (fun g => g.ri == ri)).elim 0 (fun g => g.g0)
  let r := reEntry b (g0 + c * 65536) s
  let s := setResume b ri c (plannedPower (mfBase b s) (mfRec b ri s) (c * 65536) s) t 2 r.1 r.2 s
  stopped b 4 cause 2 t (decelerate b t s)

/-- One berth of a pair stops by the table of R109, the pair standing at `place`. -/
def stopHalf (b place cause : Nat) (t : Time) (s : State) : State :=
  let h := (berth b s).handover
  match place with
  | 0 => s
  | 1 => if h.taking then takerAtC0 b cause t s else giverToC0 b h.ri cause s
  | _ => stopOne b 2 cause t s

/-- Two berths that paused where they were take the later of their gate-offs as the time of both resume points (R37, R109). -/
def sameTime (b p : Nat) (s : State) : State :=
  let t := max (getN (bi b 1) 5 s) (getN (bi p 1) 5 s)
  if bState b s = 4 ∧ bState p s = 4 then setN (bi p 1) 5 t (setN (bi b 1) 5 t s) else s

/-- A berth in its handover window stops with its partner, which stops on its own seat where that is another (R37, R94, R109); a stop
of the strength Faulted overrides the table for the berth concerned. -/
def stopPair (b strength cause other : Nat) (t : Time) (s : State) : State :=
  let place := pairPlace b t s
  let p := (localBerth (berth b s).handover.partner s).filter (· != b)
  let s := if strength = 3 then stopOne b 3 cause t s else stopHalf b place cause t s
  match p with
  | none => s
  | some p => sameTime b p (stopHalf p place other t s)

/-- Whether berth b is in a handover window that a stop still concerns (R109). -/
def inWindow (b : Nat) (t : Time) (s : State) : Bool :=
  (berth b s).handover.phase == 2 && bState b s == 2 && pairPlace b t s != 0

/-- A stop request reaches a berth; a partner in its handover window stops with it (R35, R37, R109). -/
def stopBerth (b strength cause : Nat) (t : Time) (s : State) : State :=
  if inWindow b t s then
    let n := pairNumbers b s
    stopPair b strength cause 0x0014 t (handoverRefused 6 n.1 n.2 t s)
  else stopOne b strength cause t s

/-- A covered fault is recorded: the last fault, motion hold, the record of code 0x0213 (R254, R338), and whether it stopped a
berth since a mains Warning began (R329). -/
def coveredFault (cause mask : Nat) (t : Time) (s : State) : State :=
  let s := setTime 0x0406 2 t (setN 0x0406 1 cause (setN 0x7080 1 1 s))
  let s := if mask ≠ 0 ∧ cause ≠ 0x0010 then { s with mains := { s.mains with faultSince := true } } else s
  logAdd 5 0 0x0213 (toLe 2 cause ++ toLe 2 0 ++ toLe 4 mask) t s

/-- Whether a berth is Armed or Exposing. -/
def busy (b : Nat) (s : State) : Bool := bState b s == 1 || bState b s == 2

/-- The berths a covered fault has stopped, or bound to stop at a cross-fade start: those of its mask that were Armed or Exposing, and
the handover partners that it took along (R38, R338, R401). -/
def stoppedBy (mask : Nat) (s s' : State) : Nat :=
  maskOf (fun b => busy b s && (bit mask b || !busy b s' || (berth b s').handover.stopAtC0 != (berth b s).handover.stopAtC0))

/-- A covered fault stops the berths of a mask; its record names the berths it stops (R38, R39, R338, R401). -/
def faultStop (mask strength cause : Nat) (t : Time) (s : State) : State :=
  let s' := eachBerth mask (fun b => stopBerth b strength cause t) s
  coveredFault cause (stoppedBy mask s s') t s'

/-- All berths of the chip. -/
def allBerths : Nat := 0xFFFFFF

/-- PAUSE_AT_SAFE_POINT: berth command 1 (R31, R32). -/
def execPauseAtSafePoint (b : Nat) (s : State) : Host.Outcome State Fault Refusal :=
  gated (.pauseAtSafePoint b) (fun s => stopBerth b 1 0x0001 s.now s) s

/-- PAUSE_NOW: berth command 2 (R33). -/
def execPauseNow (b off : Nat) (s : State) : Host.Outcome State Fault Refusal :=
  gated (.pauseNow b off) (fun s => stopBerth b 2 0x0002 (timeAt off s) s) s

/-- The kind of the object of a key (R10). -/
def kindOf (k : Nat) : Option Kind := (findRow (k / 256) (k % 256)).map (fun r => r.kind)

/-- Keeps the objects in force whose index and kind satisfy `p`; the others take their defaults (R350). -/
def keepObjects (p : Nat → Kind → Bool) (s : State) : State :=
  { s with obj := s.obj.filter (fun e => match kindOf e.1 with | none => false | some k => p (e.1 / 256) k) }

/-- Whether an index is one of berth b's own objects. -/
def ofBerth (b i : Nat) : Bool := decide (bi b 0 ≤ i ∧ i < bi b 0 + 0x40)

/-- Whether a shadow belongs to berth b: those of its objects and of its loops' RWC objects, its shadow group (R56). -/
def shadowOf (b k : Nat) : Bool :=
  ofBerth b (k / 256) || (decide (li (8 * b) 0 ≤ k / 256 ∧ k / 256 < li (8 * b) 0 + 0x80) && (findRow (k / 256) (k % 256)).any (fun r => r.acc == .rwc))

/-- A berth reset returns the berth's V objects to their defaults, and discards its shadow writes and their seal (R10, R350). -/
def resetObjects (b : Nat) (s : State) : State :=
  let s := keepObjects (fun i k => !(ofBerth b i && k == .v)) s
  setN 0x8002 (0x10 + b) 0 { s with shadow := s.shadow.filter (fun e => !shadowOf b e.1) }

/-- Berth command 4 (R69, R350, R379): the outputs go inactive within 1 us, the berth is Idle with no resume point and no cause, and
its V objects are at their defaults; the partner of a handover window stops (R109). -/
def berthReset (b : Nat) (t : Time) (s : State) : State :=
  let n := pairNumbers b s
  let s := match inWindow b t s, localBerth (berth b s).handover.partner s with
    | true, some p => stopHalf p (pairPlace b t s) 0x0014 t (handoverRefused 6 n.1 n.2 t s)
    | true, none => handoverRefused 6 n.1 n.2 t s
    | false, _ => s
  let l := if (berth b s).gate then lowInstant b t s else t
  let u := gateLow b l s
  let s := if (berth b s).gate then drawn s else s
  let s := quiet b u (decelerate b l s)
  let s := resetObjects b (setResume b 0 0 0 0 0 0 0 (setN (bi b 0) 6 0 s))
  enterState b 0 u (modBerth b (fun x => { x with strength := 0, manifestLen := false, startFrame := none }) s)

/-- The spot has come to rest: its place becomes the standing position (R89, R404). -/
def comeToRest (b : Nat) (s : State) : State :=
  let x := berth b s
  let p := match x.plan.getLast? with
    | none => x.standing
    | some ph => phasePoint b ph (ph.t0 + ph.dur) s
  modBerth b (fun x => { x with standing := p, plan := [], halting := false }) s

/-- DECELERATION_COMPLETE (R89, R404). -/
def execDecelerationComplete (b : Nat) (s : State) : Host.Outcome State Fault Refusal :=
  gated (.decelerationComplete b) (fun s => if (berth b s).halting then comeToRest b s else s) s

/-- BERTH_RESET: berth command 4, which also aborts a calibration of the berth (R69, R379). -/
def execBerthReset (b off : Nat) (s : State) : Host.Outcome State Fault Refusal :=
  gated (.berthReset b off) (fun s => berthReset b (timeAt off s) (calStop b s)) s

end Sys2Proof.Machine
end

