-- ==== Sys2Proof/Machine/Loops.lean ====
section
/-!
DEFINITION. Sys2Proof/Machine/Loops.lean: the loop engine (R124-R147, R405): scheduling, the loop law, bank swaps, bumpless transfers,
holds, checks and trips, and the commands of a loop's own objects.
-/
namespace Sys2Proof.Machine

/-- Saturates to Q1.31 (R130). -/
def sat31 (i : Int) : Int := clamp i (-2147483648) 2147483647

/-- Saturates to Q17.31 in 48 bits (R130). -/
def sat48 (i : Int) : Int := clamp i (-(2 ^ 47)) (2 ^ 47 - 1)

/-- A sum of Q8.24 by Q1.31 products, rounded half away from zero and saturated to Q1.31 (R130). -/
def q24 (acc : Int) : Int := sat31 (roundHalfAway acc (2 ^ 24))

/-- Coefficient k of the bank in force of loop n (R134). -/
def coef (n k : Nat) (s : State) : Int := getI (li n (2 + getN (li n 5) 2 s)) k s

/-- Whether an element of loop n is enabled: 0 biquad 1, 1 biquad 2, 2 feed-forward. -/
def element (n i : Nat) (s : State) : Bool := bit (getN (li n 0) 3 s) i

/-- A biquad on one input: its output and its states (R129). The five coefficients are b0, b1, b2, a1, a2. -/
def biquad (c : Nat → Int) (q : Biquad) (x : Int) : Int × Biquad :=
  let w := q24 (c 0 * x + c 1 * q.x1 + c 2 * q.x2 - c 3 * q.w1 - c 4 * q.w2)
  (w, { x1 := x, x2 := q.x1, w1 := w, w2 := q.w1 })

/-- Counts in a loop's counter and in the engine's. -/
def countLoop (n k all : Nat) (s : State) : State :=
  let s := addN (li n 6) k 32 1 s
  if all = 0 then s else addN 0x3002 all 32 1 s

/-- Sets a flag of Ln+0x5:03. -/
def loopFlag (n i : Nat) (v : Bool) (s : State) : State := setN (li n 5) 3 (setBit (getN (li n 5) 3 s) i v) s

/-- The integrator's contribution kh z, before its limits (R129). -/
def contribution (kh z : Int) : Int := roundHalfAway (kh * z) (2 ^ 24)

/-- A bank swap to bank c (R137). -/
def bankSwap (n c : Nat) (s : State) : State :=
  if getN (li n 5) 2 s = c then s
  else
    let kh := getI (li n 5) 0x0B s
    let s := countLoop n 3 0 (setN (li n 5) 2 c s)
    let ki := coef n 2 s
    let s := if ki = 0 then s else
      setI (li n 5) 0x0B ki (modLoop n (fun l => { l with z := sat48 (divAway (l.z * kh) ki) }) s)
    let kh := getI (li n 5) 0x0B s
    let i := contribution kh (loop n s).z
    let j := clamp i (coef n 0x12 s) (coef n 0x13 s)
    if i = j then s
    else
      let s := modLoop n (fun l => { l with z := sat48 (divAway (j * 2 ^ 24) kh) }) s
      let old := getI (li n 6) 4 s
      noticeObj 2 n (li n 6) 4 old (countLoop n 4 2 (loopFlag n 5 true s))

/-- Whether loop n samples in frame f (R125). -/
def samplesIn (n f : Nat) (s : State) : Bool :=
  let d := getN (li n 0) 1 s
  d != 0 && f % d == getN (li n 0) 2 s % d

/-- At the TICK of frame f: arms the selects that wait for a loop-cycle boundary, each for itself (R136). -/
def armSelects (f n : Nat) (s : State) : State :=
  let host := (s.shadow.find (key (li n 1) 4)).isSome
  if f % 16 = 0 ∧ (host ∨ (loop n s).selManifest.isSome) then
    modLoop n (fun l => { l with hostArmed := l.hostArmed || host, manifestArmed := l.manifestArmed || l.selManifest.isSome }) s
  else s

/-- The pending RWF writes of a loop but its select and mode take effect (R142, step 1). -/
def latchWrites (n : Nat) (s : State) : State :=
  takeShadow (li n 1) 5 (takeShadow (li n 1) 3 (takeShadow (li n 1) 2 s))

/-- A pending bank select takes effect, the manifest's before the host's where both do at one sample instant (R136, R137). -/
def latchSelect (n : Nat) (s : State) : State :=
  let l := loop n s
  let now := getN 0x3001 1 s != 1
  let host := (s.shadow.find (key (li n 1) 4)).isSome && (now || l.hostArmed)
  let take := fun (s : State) => if host then modLoop n (fun l => { l with hostArmed := false }) (takeShadow (li n 1) 4 s) else s
  match if now || l.manifestArmed then l.selManifest else none with
  | some c => bankSwap n c (setN (li n 1) 4 c (modLoop n (fun l => { l with selManifest := none, manifestArmed := false }) (take s)))
  | none => if host then bankSwap n (getN (li n 1) 4 (take s)) (take s) else s

/-- The requested mode becomes the pending transfer, the manifest's before the host's (R140, R141). -/
def latchMode (n : Nat) (s : State) : State :=
  let l := loop n s
  let host := s.shadow.find (key (li n 1) 1)
  match l.modeManifest, host with
  | none, none => s
  | some m, _ =>
    let s := setN (li n 1) 1 m (takeShadow (li n 1) 1 s)
    loopFlag n 7 true (modLoop n (fun l => { l with modeManifest := none, transfer := some m }) s)
  | none, some _ =>
    let s := takeShadow (li n 1) 1 s
    loopFlag n 7 true (modLoop n (fun l => { l with transfer := some (getN (li n 1) 1 s) }) s)

/-- The output in force of loop n. -/
def loopOut (n : Nat) (s : State) : Int := getI (li n 5) 4 s

/-- A refused transfer (R139): its code, the sticky flag, the counts and the notice that names both outputs. -/
def transferRefused (n code : Nat) (uNew uOld : Int) (s : State) : State :=
  let s := countLoop n 5 3 (loopFlag n 6 true (setN (li n 5) 0x0A code s))
  notice 2 n 0x0100 (changeDetail (li n 5) 0x0A uNew uOld) s

/-- An unscheduled loop is in Manual and its output is its manual value (R128); a request for Closed is refused with code 3 (R139, R140),
naming the last tracking output. -/
def unscheduled (n : Nat) (s : State) : State :=
  let s := setN (li n 5) 1 0 (latchMode n (latchWrites n s))
  let s := setI (li n 5) 4 (getI (li n 1) 2 s) s
  match (loop n s).transfer with
  | none => s
  | some m =>
    let s := loopFlag n 7 false (modLoop n (fun l => { l with transfer := none }) s)
    if m = 1 then transferRefused n 3 (getI (li n 5) 0x0C s) (loopOut n s) s else s

/-- What loops k5 to k7 take at a sample instant: the gate, whether a feature has come since the last, and the measurement from it; of
k5, the planned power of that instant's power sample (R126, R143, R144, R405). -/
def takeInputs (n : Nat) (s : State) : State :=
  let b := berth (n / 8) s
  let src := getN (li n 0) 4 s
  modLoop n (fun l => { l with
    gateAt := b.gate, freshAt := l.fresh, fresh := false
    taken := if n % 8 = 5 then b.planned else l.features.getD (if n % 8 = 6 then src - 1 else src) 0 }) s

/-- What a loop takes in at the TICK that starts its sampling frame (R126, R142, R143). -/
def loopLatch (f n : Nat) (s : State) : State :=
  let s := armSelects f n s
  if getN (li n 0) 1 s = 0 then unscheduled n s
  else if samplesIn n f s then
    let s := modLoop n (fun l => { l with due := true }) (latchMode n (latchSelect n (latchWrites n s)))
    if n % 8 < 5 then s else takeInputs n s
  else s

/-- The signals a berth's planned path gives its loops about a sample instant (R127, R405): mirror and focus set-points at the instant,
one frame before and after; planned speed in Q1.31 of 8 m/s; whether k6 is held for a handover. -/
structure LoopIn where
  sp : List Int := []
  before : List Int := []
  after : List Int := []
  back : Nat → List Int := fun _ => []
  speed : Int := 0
  holdK6 : Bool := false

/-- The last good measurement of a head, 0 where none has come (R237). -/
def headValue (b k : Nat) (s : State) : Int :=
  match (link b s).fbGood with
  | none => 0
  | some f => match k with
    | 0 => f.ix
    | 1 => f.iy
    | 2 => f.mx
    | 3 => f.my
    | 4 => f.focus
    | 5 => f.power
    | _ => f.melt

/-- The sum of the melt-pool photodiode over the sample period of berth b's k6 goes on by one frame, a missing sample as the last good
one (R127, R237). -/
def photoStep (b : Nat) (s : State) : State :=
  modLoop (8 * b + 6) (fun l => { l with photoSum := l.photoSum + headValue b 6 s, photoCount := l.photoCount + 1 }) s

/-- The measurement y of loop n (R127). -/
def measure (n : Nat) (s : State) : Int :=
  let k := n % 8
  if k < 6 then headValue (n / 8) k s
  else if k = 6 ∧ getN (li n 0) 4 s = 0 then
    roundHalfAway (loop n s).photoSum (max 1 (loop n s).photoCount)
  else (loop n s).taken

/-- The set-point r of loop n (R127); `outs` are the outputs before this frame's samples. -/
def setPoint (n : Nat) (inp : LoopIn) (outs : Nat → Int) (s : State) : Int :=
  match n % 8 with
  | 0 => outs (n + 2)
  | 1 => outs (n + 2)
  | 2 => inp.sp.getD 0 0
  | 3 => inp.sp.getD 1 0
  | 4 => sat31 (inp.sp.getD 2 0 + outs (n + 3))
  | 5 => sat31 ((loop n s).taken * 2 ^ 11 + (if getN (li (n + 1) 5) 1 s = 1 then outs (n + 1) else 0))
  | _ => getI (li n 1) 5 s

/-- The feed-forward signal f of loop n (R405). -/
def feedForward (n : Nat) (inp : LoopIn) (r : Int) (s : State) : Int :=
  let d := getN (li n 0) 1 s
  let at' := fun (l : List Int) (k : Nat) => l.getD k 0
  sat31 (match n % 8 with
    | 0 => at' inp.after 0 - 2 * at' inp.sp 0 + at' inp.before 0
    | 1 => at' inp.after 1 - 2 * at' inp.sp 1 + at' inp.before 1
    | 2 => at' inp.sp 0 - at' (inp.back d) 0
    | 3 => at' inp.sp 1 - at' (inp.back d) 1
    | 4 => at' inp.sp 2 - at' (inp.back d) 2
    | 5 => r - (loop n s).rPrev
    | 6 => inp.speed
    | _ => 0)

/-- The result of the loop law: contribution, v, u before and after the limits, whether the integrator is at a limit. -/
structure Law where
  i : Int := 0
  v : Int := 0
  uPre : Int := 0
  u : Int := 0
  atI : Bool := false
  deriving DecidableEq, Repr

/-- The loop law at a sample (R129, R130): `run` lets the integrator run. Every sum of products is rounded once, into what is stored:
z in Q17.31, the contribution, v and u before the limits. The state after keeps z, kh and biquad 2. -/
def loopLaw (n : Nat) (run : Bool) (e dd f : Int) (s : State) : Law × State :=
  let ki := coef n 2 s
  let s := if run ∧ ki ≠ 0 then
    modLoop n (fun l => { l with z := sat48 (roundHalfAway ((l.z + e) * 2 ^ 24 + coef n 4 s * (l.u - l.uPre)) (2 ^ 24)) }) s else s
  let s := if ki ≠ 0 then setI (li n 5) 0x0B ki s else s
  let kh := getI (li n 5) 0x0B s
  let i0 := contribution kh (loop n s).z
  let i := clamp i0 (coef n 0x12 s) (coef n 0x13 s)
  let s := if i = i0 ∨ !run then s else modLoop n (fun l => { l with z := sat48 (divAway (i * 2 ^ 24) kh) }) s
  let v := q24 (coef n 1 s * e + coef n 3 s * dd + i * 2 ^ 24)
  let w := biquad (fun k => coef n (0x0B + k) s) (loop n s).bq2 v
  let s := if element n 1 s then modLoop n (fun l => { l with bq2 := w.2 }) s else s
  let uPre := q24 ((if element n 1 s then w.1 else v) * 2 ^ 24 + (if element n 2 s then coef n 5 s * f else 0))
  ({ i := i, v := v, uPre := uPre, u := clamp uPre (coef n 0x10 s) (coef n 0x11 s), atI := i != i0 }, s)

/-- The refusal code of a transfer from Manual to Closed, 0 if it is accepted, with the presets v and z; uOld is the Manual output of the
sample (R139). -/
def transferCheck (n : Nat) (e dd f : Int) (uNew uOld : Int) (s : State) : Nat × Int × Int :=
  let fv := if element n 2 s then coef n 5 s * f else 0
  let num := if element n 1 s then coef n 0x0B s + coef n 0x0C s + coef n 0x0D s else 1
  let den := if element n 1 s then 2 ^ 24 + coef n 0x0E s + coef n 0x0F s else 1
  let kh := getI (li n 5) 0x0B s
  let v := sat31 (divAway ((uOld * 2 ^ 24 - fv) * den) (num * 2 ^ 24))
  let z := divAway (v * 2 ^ 24 - coef n 1 s * e - coef n 3 s * dd) kh
  let i := contribution kh z
  if getN (li n 0) 1 s = 0 then (3, v, z)
  else if getN (li n 5) 9 s ≠ 0 then (4, v, z)
  else if getI (li n 0) 5 s < (uNew - uOld).natAbs then (1, v, z)
  else if num = 0 ∨ den = 0 ∨ kh = 0 ∨ i < coef n 0x12 s ∨ coef n 0x13 s < i then (2, v, z)
  else (0, v, z)

/-- The transfer from Manual to Closed at a sample whose Closed output would be uNew and whose Manual output is uOld, the output of the
sample either way (R138, R139). -/
def transfer (n : Nat) (e dd f : Int) (uNew uOld : Int) (s : State) : State :=
  let c := transferCheck n e dd f uNew uOld s
  let s := setI (li n 5) 4 uOld s
  if c.1 ≠ 0 then transferRefused n c.1 uNew uOld s
  else
    let w := if element n 1 s then
        sat31 (divAway (c.2.1 * (coef n 0x0B s + coef n 0x0C s + coef n 0x0D s)) (2 ^ 24 + coef n 0x0E s + coef n 0x0F s)) else c.2.1
    modLoop n (fun l => { l with z := sat48 c.2.2, u := uOld, uPre := uOld, bq2 := { x1 := c.2.1, x2 := c.2.1, w1 := w, w2 := w } })
      (setN (li n 5) 1 1 s)

/-- A step of the Manual output towards the manual value (R138). -/
def manualStep (n : Nat) (s : State) : Int :=
  let u := loopOut n s
  let m := getI (li n 1) 2 s
  let w := getI (li n 1) 3 s
  if w ≤ 0 then m else u + clamp (m - u) (-w) w

/-- A loop trips (R146): cause, counts, notice, its reaction, and the pause now of its berth at the end of
the sampling frame (R126). -/
def loopTrip (n cause : Nat) (s : State) : State :=
  let old := getI (li n 5) 9 s
  let s := countLoop n 6 1 (loopFlag n 4 true (setN (li n 5) 9 cause s))
  let s := noticeObj 2 n (li n 5) 9 old s
  let s := if getN (li n 0) 6 s = 2 then setN (li n 5) 1 0 s else s
  faultStop (2 ^ (n / 8)) 2 0x000C (s.now + frameT) s

/-- The model check's prediction and run at a sample (R145). -/
def modelStep (n : Nat) (y : Int) (suspended : Bool) (s : State) : Int × State :=
  let l := loop n s
  if !bit (getN (li n 4) 1 s) 2 then (0, modLoop n (fun l => { l with modelInit := true, modelRun := 0 }) s)
  else if suspended then (0, modLoop n (fun l => { l with modelInit := true }) s)
  else if l.modelInit then (0, modLoop n (fun l => { l with model := y, modelInit := false, modelRun := 0 }) s)
  else
    let m := q24 (getI (li n 4) 5 s * l.model + getI (li n 4) 6 s * l.history.getD (getN (li n 4) 7 s) 0)
    let r := sat31 (y - m)
    (r, modLoop n (fun l => { l with model := m, modelRun := if getI (li n 4) 8 s < r.natAbs then l.modelRun + 1 else 0 }) s)

/-- The first check that fails at a sample, 0 if none (R144, R145). -/
def failedCheck (n : Nat) (y yPrev : Int) (suspended stale : Bool) (s : State) : Nat :=
  let en := getN (li n 4) 1 s
  let l := loop n s
  if bit en 0 ∧ (y < getI (li n 4) 2 s ∨ getI (li n 4) 3 s < y) then 1
  else if bit en 1 ∧ !suspended ∧ getI (li n 4) 4 s < (y - yPrev).natAbs then 2
  else if bit en 2 ∧ !suspended ∧ getN (li n 4) 9 s ≤ l.modelRun then 3
  else if bit en 3 ∧ stale ∧ getN (li n 0) 7 s < l.staleRun then 4
  else 0

/-- The computing part of a sample that is not held under R143 (R138, R139, R142); `still`: a trip with reaction 1 holds the output, and
z with it, as the tracking of Manual does (R146, log 45). -/
def loopCompute (n : Nat) (still : Bool) (e dd f : Int) (s : State) : State :=
  let want := (loop n s).transfer
  let toClosed := want = some 1 ∧ getN (li n 5) 1 s = 0
  let s := if want.isSome then loopFlag n 7 false (modLoop n (fun l => { l with transfer := none }) s) else s
  let s := if want = some 0 then setN (li n 5) 1 0 s else s
  let closed := getN (li n 5) 1 s == 1
  let (w, s) := loopLaw n (closed && !still) e dd f s
  let s := modLoop n (fun l => { l with u := w.u, uPre := w.uPre }) s
  let s := setI (li n 5) 0x0C w.u (setI (li n 5) 7 w.i s)
  let manual := if still then loopOut n s else manualStep n s
  if toClosed then transfer n e dd f w.u manual s
  else if closed && !still then
    setI (li n 5) 4 w.u (loopFlag n 0 (w.u != w.uPre) (loopFlag n 1 w.atI s))
  else setI (li n 5) 4 manual s

/-- A sample of loop n at the end of its sampling frame (R126, R129, R138-R146). -/
def loopSample (n : Nat) (inp : LoopIn) (outs : Nat → Int) (s : State) : State :=
  let k := n % 8
  let l := loop n s
  let y := measure n s
  let usesFeature := k == 7 || (k == 6 && getN (li n 0) 4 s != 0)
  let heldGate := decide (5 ≤ k) && !l.gateAt
  let heldPair := k == 6 && inp.holdK6
  let stale := usesFeature && !l.freshAt && !heldGate && !heldPair
  let still := getN (li n 5) 9 s != 0 && getN (li n 0) 6 s == 1
  let suspended := heldGate || heldPair || stale
  let q := biquad (fun i => coef n (6 + i) s) l.bq1 y
  let yf := if element n 0 s then q.1 else y
  let s := if element n 0 s then modLoop n (fun l => { l with bq1 := q.2 }) s else s
  let r := setPoint n inp outs s
  let f := feedForward n inp r s
  let e := sat31 (r - yf)
  let dd := sat31 (l.yfPrev - yf)
  let s := addN (li n 6) 1 64 1 s
  let s := setI (li n 5) 6 e (setI (li n 5) 5 y s)
  let s := loopFlag n 3 stale (loopFlag n 2 suspended s)
  let s := if suspended then (loopLaw n false e dd f s).2 else loopCompute n still e dd f s
  let s := if stale then addN (li n 6) 2 32 1 s else s
  let (res, s) := modelStep n y suspended s
  let s := setI (li n 5) 8 res s
  let u := loopOut n s
  let s := modLoop n (fun l => { l with yfPrev := yf, yBefore := l.yPrev, yPrev := y, rPrev := r, due := false, photoSum := 0, photoCount := 0, wasHeld := suspended, history := (u :: l.history).take 16, staleRun := if stale then l.staleRun + 1 else if heldGate || heldPair then l.staleRun else 0 }) s
  let c := failedCheck n y l.yPrev suspended stale s
  if c ≠ 0 ∧ getN (li n 5) 9 s = 0 then loopTrip n c s else s

/-- The cost of a loop's sample by its elements (R131). -/
def loopCost (el : Nat) : Nat := 26 + 8 * b2n (bit el 0) + 8 * b2n (bit el 1) + 6 * b2n (bit el 2)

/-- The load of slot-table entry i for a choice of divider, phase and elements of each loop (R132). -/
def entryLoad (cfg : Nat → Nat × Nat × Nat) (i : Nat) : Nat :=
  400 + ((List.range 192).map (fun n =>
    let c := cfg n
    if c.1 ≠ 0 ∧ i % c.1 = c.2.1 % c.1 then loopCost c.2.2 else 0)).foldl (· + ·) 0

/-- The load in 0.01 % and the worst entry. -/
def engineLoad (cfg : Nat → Nat × Nat × Nat) : Nat × Nat :=
  (List.range 80).foldl (fun (acc : Nat × Nat) i => if acc.1 < entryLoad cfg i then (entryLoad cfg i, i) else acc) (0, 0)

/-- The configuration in force of a loop. -/
def cfgForce (s : State) (n : Nat) : Nat × Nat × Nat := (getN (li n 0) 1 s, getN (li n 0) 2 s, getN (li n 0) 3 s)

/-- The configuration a loop's shadow would bring. -/
def cfgShadow (s : State) (n : Nat) : Nat × Nat × Nat :=
  ((shadowI (li n 0) 1 s).toNat, (shadowI (li n 0) 2 s).toNat, (shadowI (li n 0) 3 s).toNat)

/-- Reports the load of the shadow (R132). -/
def reportShadowLoad (s : State) : State :=
  let l := engineLoad (cfgShadow s)
  setN 0x3000 3 l.2 (setN 0x3000 2 l.1 s)

/-- Reports the load in force (R132). -/
def reportLoad (s : State) : State := setN 0x3000 1 (engineLoad (cfgForce s)).1 s

/-- Writes a loop's bank select into its shadow: the select is pending (R134, R135). -/
def bankSelect (n v : Nat) (s : State) : State :=
  if 1 < v then withResult 3 s else setShadow (li n 1) 4 (.int v) (modLoop n (fun l => { l with hostArmed := false }) s)

/-- BANK_SELECT. -/
def execBankSelect (n v : Nat) (s : State) : Host.Outcome State Fault Refusal := gated (.bankSelect n v) (bankSelect n v) s

/-- Writes a loop's mode into its shadow; an unscheduled loop refuses Closed (R128, R138, R139). -/
def loopMode (n v : Nat) (s : State) : State :=
  if 1 < v then withResult 3 s
  else if v = 1 ∧ getN (li n 0) 1 s = 0 then transferRefused n 3 (getI (li n 5) 0x0C s) (loopOut n s) (withResult 4 s)
  else loopFlag n 7 true (setShadow (li n 1) 1 (.int v) s)

/-- LOOP_MODE. -/
def execLoopMode (n v : Nat) (s : State) : Host.Outcome State Fault Refusal := gated (.loopMode n v) (loopMode n v) s

/-- Whether the check that tripped loop n passes at its latest sample (R147). -/
def tripPasses (n : Nat) (s : State) : Bool :=
  let l := loop n s
  let y := l.yPrev
  match getN (li n 5) 9 s with
  | 1 => decide (getI (li n 4) 2 s ≤ y ∧ y ≤ getI (li n 4) 3 s)
  | 2 => decide (((y - l.yBefore).natAbs : Int) ≤ getI (li n 4) 4 s)
  | 3 => decide (l.modelRun < getN (li n 4) 9 s)
  | 4 => decide (l.staleRun ≤ getN (li n 0) 7 s)
  | _ => true

/-- A write of 1 to a loop's trip clear (R147). -/
def tripClear (n : Nat) (s : State) : State :=
  if tripPasses n s then
    loopFlag n 4 false (setN (li n 5) 9 0 (modLoop n (fun l => { l with modelInit := true }) s))
  else withResult 4 s

/-- TRIP_CLEAR. -/
def execTripClear (n : Nat) (s : State) : Host.Outcome State Fault Refusal := gated (.tripClear n) (tripClear n) s

/-- The flag of a latched trip follows its cause, which outlives the resets that keep W objects (R146). -/
def reportTrips (s : State) : State := each (List.range 192) (fun n s => loopFlag n 4 (getN (li n 5) 9 s != 0) s) s

/-- Whether any loop of a berth has a latched trip. -/
def tripped (b : Nat) (s : State) : Bool := (List.range 8).any (fun k => getN (li (8 * b + k) 5) 9 s != 0)

/-- A manifest's bank select of loop k of berth b (R135). -/
def manifestBank (b k v : Nat) (s : State) : State := modLoop (8 * b + k) (fun l => { l with selManifest := some v, manifestArmed := false }) s

/-- A manifest's power mode request of berth b (R140). -/
def manifestMode (b v : Nat) (s : State) : State := modLoop (8 * b + 6) (fun l => { l with modeManifest := some v }) s

end Sys2Proof.Machine
end

