-- ==== Sys2Proof/Machine/Chart.lean ====
section
/-!
DEFINITION. Sys2Proof/Machine/Chart.lean: the layer chart (R176-R190): its buffers, the placing of features, export, and the
commands of the chart compositor. A buffer's bytes are held as its touched cells (log 23).
-/
namespace Sys2Proof.Machine

/-- The value of an object in a committed set of a camera context. -/
def setVal (vals : Tab Val) (i k : Nat) : Int := asInt ((vals.find (key i k)).getD (objDefault i k))

/-- The bytes of an object in a committed set. -/
def setBytes (vals : Tab Val) (i k : Nat) : List Byte := asBytes ((vals.find (key i k)).getD (objDefault i k))

/-- Chart buffer k. -/
def buffer (k : Nat) (s : State) : Buffer := s.chart.buffers.getD k {}

/-- Changes a chart buffer. -/
def modBuffer (k : Nat) (f : Buffer → Buffer) (s : State) : State :=
  { s with chart := { s.chart with buffers := s.chart.buffers.put k (f (buffer k s)) } }

/-- The numbers of the chart buffers in force. -/
def bufferList (s : State) : List Nat := List.range (getN 0x5000 0x0A s)

/-- The buffer in a state (R187). -/
def bufferIn (st : Nat) (s : State) : Option Nat := (List.range 4).find? (fun k => (buffer k s).state == st)

/-- The buffer whose layer a trigger time lies in, if it is Closing (R187). -/
def closingAt (t : Time) (s : State) : Option Nat :=
  (List.range 4).find? (fun k => (buffer k s).state == 2 && decide ((buffer k s).commit ≤ t ∧ t < (buffer k s).ended))

/-- The Closing buffer that closes next (R187). -/
def nextClosing (s : State) : Option Nat := leastBy (fun k => (buffer k s).closing) ((List.range 4).filter (fun k => (buffer k s).state == 2))

/-- The Free or Released buffer of the first n that a commit takes (R187). -/
def freeBuffer (n : Nat) (s : State) : Option Nat := (List.range n).find? (fun k => (buffer k s).state == 0 || (buffer k s).state == 4)

/-- The oldest Closed buffer (R187). -/
def oldestClosed (s : State) : Option Nat := leastBy (fun k => (buffer k s).age) ((bufferList s).filter (fun k => (buffer k s).state == 3))

/-- Bytes of a cell with n channels (R180). -/
def cellBytes (n : Nat) : Nat := (4 + 2 * n + 3) / 4 * 4

/-- The 64-byte header of a buffer (R185). -/
def bufferHeader (b : Buffer) : List Byte :=
  toLe 4 0x43485254 ++ toLe 4 b.layer ++ toLe 4 (nsOf b.commit % 1000000000) ++ toLe 6 (nsOf b.commit / 1000000000)
    ++ toLe 1 b.seat ++ toLe 1 b.channels ++ toLeI 4 b.originX ++ toLeI 4 b.originY ++ toLe 4 b.cell ++ toLe 4 b.cols
    ++ toLe 4 b.rows ++ (b.sources.map (fun x => toLe 1 x)).flatten ++ (b.rules.map (fun x => toLe 1 x)).flatten
    ++ toLe 1 b.mode ++ toLe 1 b.policy ++ toLe 2 (cellBytes b.channels) ++ toLe 4 0

/-- The cells of tile t of a buffer. -/
def tileCells (b : Buffer) (t : Nat) : List (Nat × Cell) := b.cells.filter (fun e => e.1 / 4096 == t)

/-- The tiles of a buffer. -/
def tileCount (b : Buffer) : Nat := b.cols / 64 * (b.rows / 64)

/-- A directory entry (R185). -/
def dirEntry (b : Buffer) (t : Nat) : List Byte :=
  let l := tileCells b t
  toLe 4 (l.filter (fun e => e.2.hits != 0)).length
    ++ toLe 2 (b2n (!l.isEmpty) + 2 * b2n (l.any (fun e => bit e.2.flags 3))) ++ toLe 2 0

/-- The bytes of a cell (R180). -/
def Cell.bytes (c : Cell) (n : Nat) : List Byte :=
  slice (toLe 2 c.hits ++ toLe 1 c.flags ++ toLe 1 c.last ++ ((List.range n).map (fun i => toLe 2 (c.vals.getD i 0))).flatten)
    0 (cellBytes n)

/-- Where the tile data of a buffer begins (R185). -/
def tileData (b : Buffer) : Nat := (64 + 8 * tileCount b + 4095) / 4096 * 4096

/-- The bytes of tile t (R185, R189). -/
def tileBytes (b : Buffer) (t : Nat) : List Byte :=
  (List.range 4096).flatMap (fun k => (b.cells.getD (4096 * t + k) {}).bytes b.channels)

/-- The touched tiles of a buffer in index order. -/
def touchedTiles (b : Buffer) : List Nat := (List.range (tileCount b)).filter (fun t => !(tileCells b t).isEmpty)

/-- The size of a buffer's share of the chart area (R309). -/
def chartShare (s : State) : Nat := layoutMB s 2 * mbB / max 1 (getN 0x5000 0x0A s) / 4096 * 4096

/-- Bytes of a buffer enter the chart area through client 1, at an offset of the buffer (R185, R186, R309). -/
def storeChart (k off : Nat) (l : List Byte) (s : State) : State := dramFresh ((buffer k s).base + off) l s

/-- The settings a buffer is taken with at a commit of layer l, those in force after it; buffer k begins at its share of the chart area (R186,
R187, R309). -/
def takenBuffer (k l : Nat) (t : Time) (s : State) : Buffer :=
  let ch := List.range 8
  { state := 1, layer := l, commit := t, originX := getI 0x5000 2 s, originY := getI 0x5000 3 s, cell := getN 0x5000 4 s, cols := getN 0x5000 5 s, rows := getN 0x5000 6 s, channels := getN 0x5000 7 s, mode := getN 0x5000 8 s, policy := getN 0x5000 9 s, sources := ch.map (fun i => getN 0x5001 (i + 1) s), rules := ch.map (fun i => getN 0x5002 (i + 1) s), age := s.chart.counter, seat := s.hm.seatNo, base := regionBase 5 s + k * chartShare s }

/-- The chart at a commit of layer l at time t: the buffer in use is Closing, and the next is taken, its header written and its directory
cleared (R186, R187). -/
def chartCommit (l : Nat) (t : Time) (s : State) : State :=
  let s := match bufferIn 1 s with
    | none => s
    | some k => modBuffer k (fun b => { b with state := 2, ended := t, closing := t + msT (getN 0x5000 0x0C s) }) s
  let s := { s with chart := { s.chart with dropNoted := false, counter := s.chart.counter + 1 } }
  let pick := match freeBuffer (getN 0x5000 0x0A s) s with
    | some k => some k
    | none => if getN 0x5000 0x0B s = 0 then oldestClosed s else none
  if getN 0x5000 1 s = 0 then setN 0x5003 1 0 s
  else match pick with
    | none => setN 0x5003 1 0 s
    | some k =>
      let b := takenBuffer k l t s
      setN 0x5003 1 l (storeChart k 0 (bufferHeader b ++ List.replicate (8 * tileCount b) 0#8) (modBuffer k (fun _ => b) s))

/-- The buffer of the export layer (R189). -/
def exportBuffer (s : State) : Option Nat :=
  (List.range 4).find? (fun k => (buffer k s).state != 0 && (buffer k s).layer == getN 0x5004 1 s)

/-- 0x5004:02 as it reads. -/
def exportState (s : State) : Nat := match exportBuffer s with
  | none => 0
  | some k => (buffer k s).state

/-- 0x5004:03 as it reads. -/
def exportHeader (s : State) : List Byte := match exportBuffer s with
  | none => []
  | some k => bufferHeader (buffer k s) ++ (List.range (tileCount (buffer k s))).flatMap (dirEntry (buffer k s))

/-- 0x5004:05 as it reads. -/
def exportTile (s : State) : List Byte := match exportBuffer s with
  | none => []
  | some k => tileBytes (buffer k s) (getN 0x5004 4 s)

/-- A feature arrives at the compositor's queue (R184). -/
def queueFeature (f : Feature) (s : State) : State :=
  if s.chart.queue.length < 1024 then { s with chart := { s.chart with queue := s.chart.queue ++ [f] } }
  else
    let old := getI 0x5003 5 s
    let s := addN 0x5003 5 32 1 s
    if s.chart.dropNoted then s
    else noticeObj 4 28 0x5003 5 old { s with chart := { s.chart with dropNoted := true } }

/-- Where a feature is placed (R177). -/
def placeFeature (mode : Nat) (f : Feature) : Int × Int :=
  if mode = 0 ∨ bit f.flags 3 then (f.px, f.py)
  else
    let c := f.ctx
    let dx : Int := (f.cx : Int) - 8 * setVal f.vals (ci c 0) 2
    let dy : Int := (f.cy : Int) - 8 * setVal f.vals (ci c 0) 3
    let dy := if setVal f.vals (ci c 3) 4 = 1 then -dy else dy
    let a := centideg48 (setVal f.vals (ci c 3) 3)
    let k := setVal f.vals (ci c 3) 7
    (f.px + roundHalfAway ((dx * cos48 a - dy * sin48 a) * k) (2 ^ 52),
     f.py + roundHalfAway ((dx * sin48 a + dy * cos48 a) * k) (2 ^ 52))

/-- The value a channel takes from a source (R181), before it saturates. -/
def channelValue (src hb : Nat) (b : Buffer) (f : Feature) : Nat :=
  let empty := bit f.flags 3
  match src with
  | 1 => if empty then 0 else f.area
  | 2 => f.peak
  | 3 => f.mean
  | 4 => if empty then 0 else f.width
  | 5 => if empty then 0 else f.len
  | 6 => f.tag
  | 7 => f.planned / 32
  | 8 => hb
  | 9 => (f.trig - b.commit) / (1000000 * nsT)
  | 10 => f.speed
  | _ => 0

/-- What a channel stores after a value v, its old value being s and the hit count n (R182); with whether it saturated. -/
def combine (rule n s v : Nat) : Nat × Bool :=
  match rule with
  | 0 => (v, false)
  | 1 => (if 1 < n then s else v, false)
  | 2 => (if n = 1 then v else max s v, false)
  | 3 => (if n = 1 then v else min s v, false)
  | 4 => (if n = 1 then v else (roundHalfAway ((s : Int) * n + v - s) n).toNat, false)
  | _ => (min 65535 (s + v), decide (65535 < s + v))

/-- A cell after a feature (R180-R183). -/
def cellAfter (hb : Nat) (b : Buffer) (f : Feature) (c : Cell) : Cell :=
  let n := min 65535 (c.hits + 1)
  let chans := (List.range b.channels).map (fun i =>
    let v := channelValue (b.sources.getD i 0) hb b f
    let r := combine (b.rules.getD i 0) n (c.vals.getD i 0) (min v 65535)
    (r.1, r.2 || decide (65535 < v)))
  let fl := c.flags
  let fl := if bit f.flags 2 then setBit fl 0 true else fl
  let fl := if c.hits ≠ 0 ∧ c.last ≠ hb then setBit fl 1 true else fl
  let fl := if bit f.flags 3 then setBit fl 2 true else fl
  let fl := if c.hits = 65535 ∨ chans.any (fun x => x.2) then setBit fl 3 true else fl
  { hits := n, flags := fl, last := hb, vals := chans.map (fun x => x.1) }

/-- What a feature changes of buffer k in DRAM: the cell, its tile whole where it is the first of it, and the tile's directory entry (R185,
R186). -/
def storeCell (k at' : Nat) (first : Bool) (s : State) : State :=
  let b := buffer k s
  let t := at' / 4096
  let data := tileData b + t * 4096 * cellBytes b.channels
  let s := if first then storeChart k data (tileBytes b t) s
    else storeChart k (data + at' % 4096 * cellBytes b.channels) ((b.cells.getD at' {}).bytes b.channels) s
  storeChart k (64 + 8 * t) (dirEntry b t) s

/-- A feature is charted in buffer k (R177-R183). -/
def chartInto (k : Nat) (f : Feature) (s : State) : State :=
  let b := buffer k s
  if b.policy = 1 ∧ bit f.flags 2 then s
  else
    let p := placeFeature b.mode f
    let cx := (p.1 - b.originX) / b.cell
    let cy := (p.2 - b.originY) / b.cell
    if cx < 0 ∨ b.cols ≤ cx ∨ cy < 0 ∨ b.rows ≤ cy then addN 0x5003 3 32 1 s
    else
      let x := cx.toNat
      let y := cy.toNat
      let at' := (y / 64 * (b.cols / 64) + x / 64) * 4096 + y % 64 * 64 + x % 64
      let hb := 24 * s.hm.seatNo + f.ctx
      let b' := { b with cells := b.cells.put at' (cellAfter hb b f (b.cells.getD at' {})) }
      addN 0x5003 2 64 1 (storeCell k at' (tileCells b (at' / 4096)).isEmpty (modBuffer k (fun _ => b') s))

/-- The compositor applies the feature at the front of its queue (R176, R183, R187). -/
def featureCharted (s : State) : State :=
  match s.chart.queue with
  | [] => s
  | f :: l =>
    let s := { s with chart := { s.chart with queue := l } }
    if f.trig < s.commit.instant then match closingAt f.trig s with
      | some k => chartInto k f s
      | none => addN 0x5003 4 32 1 s
    else match bufferIn 1 s with
      | some k => chartInto k f s
      | none => s

/-- FEATURE_CHARTED (R183). -/
def execFeatureCharted (s : State) : Host.Outcome State Fault Refusal := gated .featureCharted featureCharted s

/-- The bytes the chart stream takes of a Closed buffer (R201). -/
def chartBytes (b : Buffer) : List Byte :=
  bufferHeader b ++ (List.range (tileCount b)).flatMap (dirEntry b) ++
    (touchedTiles b).flatMap (fun t => toLe 4 t ++ toLe 4 (4096 * cellBytes b.channels) ++ toLe 8 0 ++ tileBytes b t)

/-- The Closing buffer whose delay has run becomes Closed; an enabled chart stream takes it (R187, R189, R201). -/
def bufferClosed (s : State) : State :=
  match nextClosing s with
  | none => s
  | some k =>
    let s := modBuffer k (fun b => { b with state := 3, age := s.chart.counter }) s
    let s := { s with chart := { s.chart with counter := s.chart.counter + 1 } }
    feedSegment k (chartBytes (buffer k s)) (openSegment 0x60 (buffer k s).layer s.now s)

/-- BUFFER_CLOSED (R187). -/
def execBufferClosed (s : State) : Host.Outcome State Fault Refusal := gated .bufferClosed bufferClosed s

/-- A write to 0x5004:06 releases the Closed buffer of a layer (R187). -/
def release (l : Nat) (s : State) : State :=
  match (List.range 4).find? (fun k => (buffer k s).state == 3 && (buffer k s).layer == l) with
  | some k => modBuffer k (fun b => { b with state := 4 }) s
  | none => withResult 4 s

/-- RELEASE (R187). -/
def execRelease (l : Nat) (s : State) : Host.Outcome State Fault Refusal := gated (.release l) (release l) s

/-- A write to 0x5004:01 names the layer to be read (R189). -/
def exportLayer (l : Nat) (s : State) : State :=
  if (List.range 4).any (fun k => (buffer k s).state != 0 && (buffer k s).layer == l) then setN 0x5004 1 l s
  else withResult 4 s

/-- EXPORT_LAYER (R189). -/
def execExportLayer (l : Nat) (s : State) : Host.Outcome State Fault Refusal := gated (.exportLayer l) (exportLayer l) s

end Sys2Proof.Machine
end

