-- ==== Sys2Proof/Machine/Wire.lean ====
section
/-!
DEFINITION. Sys2Proof/Machine/Wire.lean: the frames of head links and quay links as bytes: header, CRC, types, lengths and payloads
(R93, R221, R232-R234, R244, R245), and the marks a transmitter sends besides (R222, R235, R244). Every multi-byte field is little-endian
and the byte at the lowest offset is sent first (R221).
-/
namespace Sys2Proof.Machine

/-- A frame from its header to its CRC: type, sequence, payload length, payload, CRC-32C over header and payload (R232). -/
def frameBytes (ty seq : Nat) (payload : List Byte) : List Byte :=
  let l := toLe 1 ty ++ toLe 1 seq ++ toLe 2 payload.length ++ payload
  l ++ toLe 4 (crc32c l)

/-- The payload of a frame. -/
def payloadOf (w : List Byte) : List Byte := (w.drop 4).take (w.length - 8)

/-- The length a payload of a type has (R233, R245). -/
def lengthOk (ty : Nat) (p : List Byte) : Bool :=
  match ty with
  | 0x81 => p.length == 36
  | 0x82 => p.length == 16
  | 0x83 => [8, 10, 12].contains (field p 1 1) && p.length == 8 + 32 * field p 1 1
  | 0x84 => p.length == 8
  | 0x85 => p.length == 16
  | 0x86 => decide (8 ≤ p.length) && (p.length == 8 + field p 2 2 || p.length == 8)
  | 0x11 => decide (1 ≤ field p 1 1 ∧ field p 1 1 ≤ 24) && p.length == 8 + 32 * field p 1 1
  | 0x12 => p.length == 20
  | 0x13 => p.length == 32
  | 0x14 => decide (4 ≤ p.length ∧ p.length ≤ 1016) && p.length % 4 == 0
  | _ => false

/-- Whether bytes are a whole frame of a type: no error character, a length in the limits and as its type has it, a CRC that matches
(R232). -/
def frameGood (ty : Nat) (w : List Byte) (bad : Bool) : Bool :=
  !bad && decide (8 ≤ w.length ∧ w.length ≤ 1024) && field w 0 1 == ty && field w 2 2 + 8 == w.length && lengthOk ty (payloadOf w)
    && field w (w.length - 4) 4 == crc32c (w.take (w.length - 4))

/-- The bytes of a stream on four lanes: byte k on lane k mod 4; a frame starts in a new column (R244). -/
def stripe (l : List Byte) : List (List Byte) :=
  (List.range 4).map (fun i => ((List.range ((l.length + 3 - i) / 4)).filterMap (fun k => l[4 * k + i]?)))

/-- The stream that four physical lanes bring, in the lane order of the link (R225, R244). -/
def unstripe (reversed : Bool) (l : List (List Byte)) : List Byte :=
  let l := if reversed then l.reverse else l
  (List.range ((l.map (·.length)).foldl (· + ·) 0)).map (fun k => (l.getD (k % 4) []).getD (k / 4) 0#8)

/-- COMMAND (R234). -/
def commandPayload (c : Command) : List Byte :=
  toLe 4 c.frame ++ toLeI 4 c.x ++ toLeI 4 c.y ++ toLeI 4 c.focus
    ++ (List.range 25).flatMap (fun j => toLe 2 (c.codes.getD j 0)) ++ toLe 1 c.flags ++ toLe 1 c.ack

/-- TRIGGER (R234). -/
def triggerPayload (frame off ident exposure gain width height depth tag control : Nat) : List Byte :=
  toLe 4 frame ++ toLe 2 off ++ toLe 2 ident ++ toLe 4 exposure ++ toLe 2 gain ++ toLe 2 width ++ toLe 2 height ++ toLe 1 depth
    ++ toLe 1 tag ++ toLe 4 control

/-- ECHO (R234). -/
def echoPayload (token : Nat) : List Byte := toLe 2 token ++ toLe 2 0

/-- CONFIG WRITE with its data, CONFIG READ with none (R234). -/
def configPayload (addr len : Nat) (data : List Byte) : List Byte := toLe 2 addr ++ toLe 2 len ++ data

/-- FEEDBACK (R234). -/
def feedbackOf (p : List Byte) : FeedbackFrame :=
  { frame := field p 0 4, mx := fieldI p 4 4, my := fieldI p 8 4, ix := fieldI p 12 4, iy := fieldI p 16 4, focus := fieldI p 20 4, power := fieldI p 24 4, melt := fieldI p 28 4, status := field p 32 1, missing := field p 33 1 }

/-- STATUS (R234). -/
def statusOf (p : List Byte) : StatusFrame :=
  { temps := [fieldI p 0 2, fieldI p 2 2, fieldI p 4 2, fieldI p 6 2], faults := field p 8 2, frame := field p 12 4 }

/-- Values packed at a depth, least significant bit first. -/
def unpackBits (depth n : Nat) (l : List Byte) : List Nat :=
  let w := ofLe l
  (List.range n).map (fun i => w / 2 ^ (depth * i) % 2 ^ depth)

/-- TILE: its 256 pixels unpacked (R234). -/
def tileOf (p : List Byte) : TileFrame :=
  { seq := field p 0 1, depth := field p 1 1, ident := field p 2 2, index := field p 4 2, pixels := unpackBits (field p 1 1) 256 (p.drop 8) }

/-- ECHO REPLY: token and turnaround (R234). -/
def echoOf (p : List Byte) : Nat × Nat := (field p 0 2, field p 4 4)

/-- CAPS (R234). -/
def capsOf (p : List Byte) : CapsFrame :=
  { major := field p 0 1, minor := field p 1 1, headType := field p 2 2, serial := field p 4 4, replyOffset := field p 8 2, channels := field p 10 1, camera := field p 11 1, largest := field p 12 2 }

/-- CONFIG REPLY, with the sequence of its frame (R234, R240). -/
def configReplyOf (w : List Byte) : ConfigReply :=
  let p := payloadOf w
  { seq := field w 1 1, addr := field p 0 2, result := field p 4 1, data := p.drop 8 }

/-- A spot state record (R93). -/
def spotBytes (r : SpotRecord) : List Byte :=
  toLe 1 r.hb
    ++ toLe 1 (r.state % 8 + 8 * b2n r.gate + 16 * b2n r.gateAhead + 32 * b2n r.window + 64 * b2n r.budgetWait)
    ++ toLe 1 r.priority ++ toLe 1 (r.phase % 4 + 4 * (r.group % 16) + 64 * b2n r.reserved + 128 * b2n r.requested)
    ++ toLeI 4 r.x ++ toLeI 4 r.y ++ toLeI 2 r.vx ++ toLeI 2 r.vy ++ toLe 4 r.draw ++ toLe 4 r.reservation ++ toLe 4 r.toSafe ++ toLeI 4 r.arc

/-- A spot state record as received (R93). -/
def spotRecordOf (p : List Byte) : SpotRecord :=
  let a := field p 1 1
  let b := field p 3 1
  { hb := field p 0 1, state := a % 8, gate := bit a 3, gateAhead := bit a 4, window := bit a 5, budgetWait := bit a 6, priority := field p 2 1, phase := b % 4, group := bits b 5 2, reserved := bit b 6, requested := bit b 7, x := fieldI p 4 4, y := fieldI p 8 4, vx := fieldI p 12 2, vy := fieldI p 14 2, draw := field p 16 4, reservation := field p 20 4, toSafe := field p 24 4, arc := fieldI p 28 4 }

/-- SPOT (R245). -/
def spotPayload (f : SpotFrame) : List Byte :=
  toLe 1 f.seat ++ toLe 1 f.records.length ++ toLe 1 f.command ++ toLe 1 f.hops ++ toLe 4 f.frame ++ f.records.flatMap spotBytes

/-- SPOT as received (R245). -/
def spotFrameOf (p : List Byte) : SpotFrame :=
  { seat := field p 0 1, command := field p 2 1, hops := field p 3 1, frame := field p 4 4, records := (List.range (field p 1 1)).map (fun i => spotRecordOf (slice p (8 + 32 * i) 32)) }

/-- SEAT (R245). -/
def seatPayload (f : SeatFrame) : List Byte :=
  toLe 1 f.seat ++ toLe 1 (b2n f.ready + 2 * b2n f.decision + 4 * b2n f.quiet + 8 * b2n f.tideLocked) ++ toLe 2 0 ++ toLe 4 f.layer
    ++ toLe 4 f.commitFrame ++ toLe 4 f.tide ++ toLe 4 0

/-- SEAT as received (R245). -/
def seatOf (p : List Byte) : SeatFrame :=
  let a := field p 1 1
  { seat := field p 0 1, ready := bit a 0, decision := bit a 1, quiet := bit a 2, tideLocked := bit a 3, layer := field p 4 4, commitFrame := field p 8 4, tide := field p 12 4 }

/-- A second in 2^-16 ns. -/
def secT : Int := 1000000000 * 65536

/-- QTIME (R245). -/
def qtimePayload (f : QtimeFrame) : List Byte :=
  let ns := fun (t : Int) => toLe 4 (t % secT / 65536).toNat ++ toLe 2 (t % 65536).toNat
  toLe 4 f.frame ++ ns f.launch ++ toLe 2 0 ++ ns f.arrival ++ toLe 1 f.hops ++ toLe 1 0 ++ toLeI 4 f.offset
    ++ toLe 6 (f.launch / secT).toNat ++ toLe 2 0

/-- QTIME as received: the arrival, whose seconds are not carried, is the one nearest to the launch (R245, R249). -/
def qtimeOf (p : List Byte) : QtimeFrame :=
  let t : Int := (field p 24 6 : Nat) * secT + (field p 4 4 * 65536 + field p 8 2 : Nat)
  let a : Int := (field p 24 6 : Nat) * secT + (field p 12 4 * 65536 + field p 16 2 : Nat)
  let a := if secT < 2 * (a - t) then a - secT else if 2 * (a - t) < -secT then a + secT else a
  { frame := field p 0 4, launch := t, arrival := a, hops := field p 18 1, offset := fieldI p 20 4 }

/-- DATA (R245). -/
def dataPayload (ack : Nat) (l : List Byte) : List Byte := toLe 2 ack ++ toLe 2 0 ++ l

/-- DATA as received, with the sequence of its frame (R240, R245). -/
def dataOf (w : List Byte) : DataFrame := { seq := field w 1 1, ack := field (payloadOf w) 0 2, bytes := (payloadOf w).drop 4 }

/-- A frame leaves on a link, on four lanes where it is a quay link (R232, R244). -/
def launchFrame (l ty seq : Nat) (payload : List Byte) (s : State) : State :=
  let w := frameBytes ty seq payload
  let chars := 2 + (if l < 24 then w.length else (w.length + 3) / 4)
  let s := modLink l (fun x => { x with chars := x.chars + chars }) s
  if l < 24 then emit (.frame l w) s else emit (.lanes (l - 24) (stripe w)) s

/-- The next frame of a link leaves, with the next sequence of its link (R232). -/
def sendFrame (l ty : Nat) (payload : List Byte) (s : State) : State :=
  let q := (link l s).txSeq
  launchFrame l ty q payload (modLink l (fun x => { x with txSeq := (q + 1) % 256 }) s)

/-- The characters of a loop frame on a lane, in 1/640 ns each: 1.6 ns at 6.25 Gbaud, 1 ns at 10 Gbaud (R235, R244). -/
def charT (l : Nat) : Nat := if l < 24 then 1024 else 640

/-- Harbour time in 1/640 ns. -/
def fineT (t : Time) : Nat := nsOf t * 640

/-- The character boundary and the phase of a TICK that is to mark an instant in 1/640 ns: the last boundary at or before it, and what is
left in 1/64 of a character (R235, R244); rounded up to a whole character, which six bits do not hold, it is free (log 81). -/
def tickPlace (l : Nat) (z : Nat) (s : State) : Nat × Nat :=
  let rem := (z + charT l - (link l s).charPhase % charT l) % charT l
  let p := (roundHalfUp (rem * 64 : Nat) (charT l)).toNat
  (z - rem, if p = 64 then freeVal s % 64 else p)

/-- A TICK of loop frame F for an instant (R219, R235, R244): its launch is kept, in 2^-16 ns. -/
def sendTick (l F z : Nat) (s : State) : State :=
  let p := tickPlace l z s
  let s := modLink l (fun x => { x with tickAt := roundHalfAway (p.1 * 65536 : Nat) 640, tickFrame := F, chars := x.chars + 2 }) s
  drawn (emit (.tick l p.1 (p.2 + 64 * (F % 4))) s)

/-- The PRBS7 generator after n steps of 8 bits: x^7 + x^6 + 1 (R220). -/
def prbsAfter : Nat → Nat → Nat
  | 0, x => x
  | n + 1, x => prbsAfter n ((x * 2 + (bits x 6 6 + bits x 5 5) % 2) % 128)

/-- The rest of a frame's characters: SLACK pairs, one in 2,048 characters at least, and IDLEs, each with the next PRBS7 byte (R220, R222). -/
def fillFrame (l F : Nat) (s : State) : State :=
  let x := link l s
  let slacks := if l < 24 then 1 else 2
  let total := (if l < 24 then 1562 + F % 2 else 2500) + x.spare
  let room := total - x.chars - 2 * slacks
  let s := (List.range slacks).foldl (fun s _ => emit (.slack l) s) s
  modLink l (fun x => { x with chars := 0, spare := room % 2, prbs := prbsAfter (8 * (room / 2) % 127) x.prbs }) s

/-- A received frame of a head link: discarded and counted where R232 says so, else its payload is used. -/
def crcError (l : Nat) (s : State) : State := addN (lki l) (if l < 24 then 0x17 else 0x11) 32 1 s

/-- Whether a link takes frames: from Identify to Up (R223). -/
def hears (l : Nat) (s : State) : Bool := let n := getN (lki l) 2 s; decide (5 ≤ n) && n != 8

/-- The stream of a frame as it came over a link (R244). -/
def streamOf (l : Nat) (w : WireFrame) (s : State) : List Byte :=
  if l < 24 then w.bytes else unstripe (getN (lki l) 4 s == 1) w.lanes

/-- A frame of a type comes over a link: a bad one is discarded and counted (R232), a good one has the effect `f` on its bytes. -/
def hearFrame (l ty : Nat) (w : WireFrame) (f : List Byte → State → State) (s : State) : State :=
  if !hears l s then s else if frameGood ty (streamOf l w s) w.bad then f (streamOf l w s) s else crcError l s

end Sys2Proof.Machine
end

