-- ==== Sys2Proof/Machine/Vision.lean ====
section
/-!
DEFINITION. Sys2Proof/Machine/Vision.lean: camera contexts, triggers, shadows and tags, correction, statistics and melt-pool features,
the sharing of the pipeline (R148-R168), and the commands of the camera contexts.
-/
namespace Sys2Proof.Machine

/-- Whether a context is enabled. -/
def ctxOn (c : Nat) (s : State) : Bool := getN (ci c 0) 1 s == 1

/-- Whether a key is one of the objects of context c that its shadow set can hold. -/
def inCtx (c k : Nat) : Bool := decide (ci c 0 * 256 ≤ k) && decide (k < ci c 5 * 256)

/-- The values of a context's objects in force. -/
def ctxSnapshot (c : Nat) (s : State) : Tab Val := s.obj.filter (fun e => inCtx c e.1)

/-- The committed set of frame n (R157). -/
def setFor (c n : Nat) (s : State) : CommittedSet :=
  ((ctx c s).sets.filter (fun x => decide (x.first ≤ n))).getLast?.getD {}

/-- Changes frame n of a context. -/
def modFrame (c n : Nat) (f : Frame → Frame) (s : State) : State :=
  modCtx c (fun x => { x with frames := x.frames.map (fun y => if y.num = n then f y else y) }) s

/-- Takes frame n of a context away. -/
def dropFrame (c n : Nat) (s : State) : State := modCtx c (fun x => { x with frames := x.frames.filter (fun y => y.num != n) }) s

/-- The pixels of a context received and not yet processed (R167). -/
def backlog (c : Nat) (s : State) : Nat := getN (ci c 5) 7 s

/-- The sum of all backlogs (R167). -/
def pendingWork (s : State) : Nat := ((List.range 26).map (fun c => backlog c s)).foldl (· + ·) 0

/-- The window of a set: width and height. -/
def windowOf (c : Nat) (vals : Tab Val) : Nat × Nat := ((setVal vals (ci c 0) 2).toNat, (setVal vals (ci c 0) 3).toNat)

/-- Received tiles (melt-pool) or lines (layer) of a frame. -/
def received (f : Frame) : Nat := f.tiles.length

/-- The received and unprocessed pixels of a frame (R167). -/
def framePixels (f : Frame) : Nat := (f.tiles.map (fun e => e.2.length)).foldl (· + ·) 0 - 256 * f.processed

/-- Sets the backlog of a context and the pending work to what its frames hold. -/
def countBacklog (c : Nat) (s : State) : State :=
  let s := setN (ci c 5) 7 ((((ctx c s).frames.map framePixels).foldl (· + ·) 0) % 2 ^ 32) s
  setN 0x4000 1 (pendingWork s % 2 ^ 32) s

/-- The shadow of a context commits at the trigger of frame n if it holds a write (R156, R157). -/
def commitCtx (c n : Nat) (s : State) : State :=
  if shadowHas (inCtx c) s then
    let s := takeShadows (inCtx c) s
    let tag := (getN (ci c 5) 2 s + 1) % 256
    let set : CommittedSet := { tag := tag, first := n + getN (ci c 0) 9 s, vals := ctxSnapshot c s }
    let s := modCtx c (fun x => { x with sets := x.sets.drop (x.sets.length - 7) ++ [set] }) s
    setN (ci c 5) 2 tag s
  else s

/-- How long a strobe window of a width in ns runs: whole scan cycles of the matrix (R170, R171). -/
def strobeLength (w : Nat) (s : State) : Nat :=
  let cycle := 4 * getN 0x4800 2 s
  if getN 0x4800 3 s = 1 ∧ cycle ≠ 0 then (w + cycle - 1) / cycle * cycle else w

/-- The strobe windows of a frame open (R170). -/
def openStrobe (c : Nat) (vals : Tab Val) (t : Time) (s : State) : State :=
  let m := (setVal vals (ci c 4) 2).toNat
  let w := (setVal vals (ci c 4) 4).toNat
  if m = 0 ∨ w = 0 then s
  else
    let a := t + (setVal vals (ci c 4) 3).toNat * nsT
    let x : Strobe := { ctx := c, mask := m, start := a, stop := a + strobeLength w s * nsT, level := (setVal vals (ci c 4) 5).toNat }
    { s with vision := { s.vision with strobes := s.vision.strobes.filter (fun y => decide (s.now ≤ y.stop)) ++ [x] } }

/-- Whether the spot of berth c is inside a re-entry overlap at a time (R91). -/
def inOverlap (b : Nat) (t : Time) (s : State) : Bool :=
  match (berth b s).overlap, actualArc b t s with
  | some (a, z), some g => decide (a ≤ g ∧ g < z)
  | _, _ => false

/-- The active level of a layer context's trigger pin (R155). -/
def trigLevel (c : Nat) (s : State) : Bool := getN (ci c 0) 0x0F s == 1

/-- A trigger of context c at a time (R153-R157, R170, R176): `why` has [0] manifest and [1] periodic of R162. A melt-pool trigger goes
out as a TRIGGER frame (R233, R234). -/
def cameraTrigger (c why : Nat) (t : Time) (s : State) : State :=
  let x := ctx c s
  let early : Bool := match x.lastTrig with
    | none => false
    | some u => decide (t < u + getN (ci c 0) 7 s * nsT)
  if !ctxOn c s then s
  else if early || (decide (c < 24) && getN (hi c) 2 s != 7) then addN (ci c 5) 6 32 1 s
  else
    let n := if x.firstTrigger then 0 else (getN (ci c 5) 1 s + 1) % 2 ^ 32
    let s := commitCtx c n (setN (ci c 5) 1 n s)
    let cs := setFor c n s
    let (w, h) := windowOf c cs.vals
    let expo := (setVal cs.vals (ci c 1) 1).toNat
    let g := max 0 ((actualArc c t s).getD 0)
    let p := place c g s
    let v := if c < 24 then plannedTangent c t s else (0, 0)
    let moving := match phaseAt (berth c s).plan t with
      | none => false
      | some ph => phaseSpeed ph t != 0
    let v := if moving then v else (0, 0)
    let ov := decide (c < 24) && inOverlap c t s
    let f : Frame := { num := n, tag := cs.tag, trig := t, flags := setBit why 2 ov, ri := p.1, arc := p.2, vx := v.1, vy := v.2, mid := t + expo * nsT / 2, power := if c < 24 then powerAt c g s else 0, expected := if c < 24 then w / 16 * (h / 16) else h }
    let s := modCtx c (fun x => { x with frames := x.frames ++ [f], lastTrig := some t, firstTrigger := false }) s
    let s := openStrobe c cs.vals t s
    if c < 24 then
      sendFrame c 2 (triggerPayload ((s.frame + (t - s.now) / frameT) % 2 ^ 32) ((t - s.now) % frameT / nsT) (n % 65536) (getN (ci c 1) 1 s) (getN (ci c 1) 2 s) (getN (ci c 0) 2 s) (getN (ci c 0) 3 s) (getN (ci c 0) 4 s) (getN (ci c 5) 2 s) (getN (ci c 1) 3 s)) s
    else emit (.pulse (c - 24) t expo (trigLevel c s)) (modCtx c (fun x => { x with pulseEnd := t + expo * nsT }) s)

/-- HOST_TRIGGER: a write of 1 to a layer context's host trigger (R153). -/
def hostTrigger (c off : Nat) (s : State) : State :=
  if ctxOn c s ∧ getN (ci c 0) 5 s = 0 then cameraTrigger c 0 (timeAt off s) s else withResult 4 s

/-- HOST_TRIGGER. -/
def execHostTrigger (c off : Nat) (s : State) : Host.Outcome State Fault Refusal := gated (.hostTrigger c off) (hostTrigger c off) s

/-- The granules (1 MB) context c needs in the frame area (R310). -/
def granulesFor (c : Nat) (s : State) : Nat :=
  (getN (ci c 0) 0x0A s * getN (ci c 0) 2 s * getN (ci c 0) 3 s * 2 + 2 ^ 20 - 1) / 2 ^ 20

/-- Whether granules a .. a + n - 1 are free. -/
def granulesFree (a n : Nat) (s : State) : Bool := s.vision.granules.all (fun e => decide (e.2.1 + e.2.2 ≤ a ∨ a + n ≤ e.2.1))

/-- First fit in the frame area (R310). -/
def firstFit (n : Nat) (s : State) : Option Nat :=
  (List.range (layoutMB s 1 + 1)).find? (fun a => decide (a + n ≤ layoutMB s 1) && granulesFree a n s)

/-- Whether the head of a melt-pool context declares its window and depth (R234). -/
def headAllows (c : Nat) (s : State) : Bool :=
  let l := link c s
  let d := getN (ci c 0) 4 s
  !l.capsOk || (decide (getN (ci c 0) 2 s ≤ l.capSides) && decide (getN (ci c 0) 3 s ≤ l.capSides) && bit l.capCamera 0
    && (d == 8 || (d == 10 && bit l.capCamera 1) || (d == 12 && bit l.capCamera 2)))

/-- A frame a calibrating berth triggered has ended, with its centroid or without (R378); a frame lost counts as one without. -/
def calFrame (c : Nat) (v : Nat × Nat × Bool) (s : State) : State :=
  let x := s.cal.berths.getD c {}
  if c < 24 ∧ (berth c s).calibrating ∧ 0 < x.awaited then
    { s with cal := { s.cal with berths := s.cal.berths.put c { x with awaited := x.awaited - 1, sums := x.sums ++ [v] } } }
  else s

/-- Dark marks invert the pixels of a calibrating berth before the threshold (0x0602:07). -/
def calInvert (c : Nat) (px : List Nat) (s : State) : List Nat :=
  if c < 24 ∧ (berth c s).calibrating ∧ getN 0x0602 7 s = 1 then px.map (fun p => 65535 - p) else px

/-- A frame is dropped: cause 1 queue full, 2 overload (R168). -/
def droppedFrame (c n cause : Nat) (s : State) : State :=
  let s := addN 0x4000 5 32 1 (addN (ci c 5) 4 32 1 (dropFrame c n s))
  calFrame c (0, 0, true) (countBacklog c (notice 4 c 0x0100 (changeDetail (ci c 5) 4 n cause) s))

/-- The newest frame of a context of which pixels have come and none is processed (R167). -/
def newestUnbegun (c : Nat) (s : State) : Option Frame :=
  ((ctx c s).frames.filter (fun f => f.processed == 0 && received f != 0)).getLast?

/-- The context whose frame an overload drops next (R167). -/
def overloadVictim (s : State) : Option Nat :=
  leastBy (fun c => ((2 ^ 40 - backlog c s) * 16 + getN (ci c 0) 8 s) * 32 + (31 - c))
    ((List.range 26).filter (fun c => (newestUnbegun c s).isSome))

/-- Drops frames until the pending work is no greater than the threshold, then ends the declaration; `k` frames at most (R167). -/
def overloadDrops : Nat → State → State
  | 0, s => s
  | k + 1, s =>
    if pendingWork s ≤ getN 0x4000 2 s then setN 0x4000 4 0 { s with vision := { s.vision with overSince := none } }
    else match overloadVictim s with
      | none => s
      | some c => match newestUnbegun c s with
        | none => s
        | some f => overloadDrops k (droppedFrame c f.num 2 s)

/-- Watches the pending work: when it came above the threshold, and what a declared overload drops (R167). -/
def watchOverload (s : State) : State :=
  if getN 0x4000 4 s = 1 then overloadDrops 1000 s
  else if pendingWork s ≤ getN 0x4000 2 s then { s with vision := { s.vision with overSince := none } }
  else { s with vision := { s.vision with overSince := some (s.vision.overSince.getD s.now) } }

/-- The pixels that wait have changed: the backlog, the pending work and what an overload asks for follow (R167). -/
def recount (c : Nat) (s : State) : State := watchOverload (countBacklog c s)

/-- A frame is corrupt: it is discarded whole and counted (R152). -/
def corruptFrame (c n : Nat) (s : State) : State :=
  calFrame c (0, 0, true) (recount c (addN (ci c 5) 5 32 1 (dropFrame c n s)))

/-- The pending work has exceeded the threshold for the dwell: overload is declared (R167). -/
def overload (s : State) : State :=
  if pendingWork s ≤ getN 0x4000 2 s then s else overloadDrops 1000 (setN 0x4000 4 1 s)

/-- OVERLOAD. -/
def execOverload (s : State) : Host.Outcome State Fault Refusal := gated .overload overload s

/-- A write of a context's enable (R153, R155, R156, R310). -/
def contextEnable (c : Nat) (v : Bool) (s : State) : State :=
  if v = ctxOn c s then s
  else if !v then
    let s := { s with vision := { s.vision with granules := s.vision.granules.del c } }
    let s := if s.now < (ctx c s).pulseEnd then emit (.pin (c - 24) (!trigLevel c s)) s else s
    let s := modCtx c (fun x => { x with frames := [], inFrame := false, pulseEnd := 0 }) s
    recount c (takeShadows (inCtx c) (setN (ci c 0) 1 0 s))
  else if c < 24 ∧ !headAllows c s then withResult 4 s
  else match firstFit (granulesFor c s) s with
    | none => withResult 4 s
    | some a =>
      let s := { s with vision := { s.vision with granules := s.vision.granules.put c (a, granulesFor c s) } }
      let s := setN (ci c 0) 1 1 (setN (ci c 5) 1 0 (setN (ci c 5) 2 0 s))
      let s := if 24 ≤ c ∧ !(ctx c s).everEnabled then emit (.pin (c - 24) (!trigLevel c s)) s else s
      modCtx c (fun _ => { sets := [{ tag := 0, first := 0, vals := ctxSnapshot c s }], everEnabled := true }) s

/-- CONTEXT_ENABLE. -/
def execContextEnable (c : Nat) (v : Bool) (s : State) : Host.Outcome State Fault Refusal := gated (.contextEnable c v) (contextEnable c v) s

/-- The frames of a context held in its queue: those with pixels (R166). -/
def queued (c : Nat) (s : State) : Nat := ((ctx c s).frames.filter (fun f => received f != 0)).length

/-- The first pixels of frame n reach a context whose queue may be full (R166); earlier frames still missing tiles are corrupt
(R149). -/
def startFrame (c n : Nat) (s : State) : State :=
  let late := ((ctx c s).frames.takeWhile (fun f => f.num != n)).filter (fun f => f.arriving)
  let s := if c < 24 then late.foldl (fun s f => corruptFrame c f.num s) s else s
  if getN (ci c 0) 0x0A s ≤ queued c s then watchOverload (droppedFrame c n 1 s) else s

/-- Where frame n of a context lies in the frame area (R310): its queue holds as many frames as it is deep, at 16 bits per pixel, each at
the place of its number modulo the depth (log 82). -/
def framePlace (c n : Nat) (s : State) : Option Nat :=
  (s.vision.granules.find c).map (fun g =>
    let d := windowOf c (setFor c n s).vals
    regionBase 4 s + g.1 * mbB + n % max 1 (getN (ci c 0) 0x0A s) * (d.1 * d.2 * 2))

/-- A row of pixels of frame n enters the frame queue in DRAM through client 2, from a place of the window on (R166, R310). -/
def storeRow (c n x y : Nat) (px : List Nat) (s : State) : State :=
  match framePlace c n s with
  | none => s
  | some a =>
    let d := windowOf c (setFor c n s).vals
    if x + px.length ≤ d.1 ∧ y < d.2 then dramFresh (a + 2 * (y * d.1 + x)) (px.flatMap (toLe 2)) s else s

/-- A tile enters the frame queue in DRAM: sixteen rows of sixteen pixels (R149, R166). -/
def storeTile (c n i : Nat) (px : List Nat) (s : State) : State :=
  let w := (windowOf c (setFor c n s).vals).1 / 16
  each (List.range 16) (fun r s => storeRow c n (i % max 1 w * 16) (i / max 1 w * 16 + r) ((px.drop (16 * r)).take 16) s) s

/-- A tile that came in sequence joins its frame (R149). -/
def placeTile (c : Nat) (f : TileFrame) (s : State) : State :=
  match (ctx c s).frames.find? (fun x => x.num % 65536 == f.ident && x.arriving) with
  | none => s
  | some x =>
    let s := if received x = 0 then startFrame c x.num s else s
    let s := modFrame c x.num (fun y =>
      let t := if f.index < y.expected then y.tiles.put f.index f.pixels else y.tiles
      { y with tiles := t, arriving := decide (t.length < y.expected), bad := y.bad || f.depth != (setVal (setFor c x.num s).vals (ci c 0) 4).toNat }) s
    recount c (if f.index < x.expected then storeTile c x.num f.index f.pixels s else s)

/-- The head is asked to send its tiles again from the first one missing, once in four loop frames (R239). -/
def askTiles (h : Nat) (s : State) : State :=
  let l := link h s
  if l.retry.isNone || decide (l.retryFrame + 4 < s.frame) then
    modLink h (fun l => { l with retry := some l.tileNext, retryFrame := s.frame }) s
  else s

/-- A good TILE frame (R149, R239). -/
def tile (h : Nat) (f : TileFrame) (s : State) : State :=
  let l := link h s
  if f.seq ≠ l.tileNext then askTiles h s
  else
    let s := if l.retry = some f.seq then addN (hi h) 0x1B 32 1 s else s
    let s := modLink h (fun l => { l with tileNext := (l.tileNext + 1) % 256, retry := none }) s
    placeTile h f s

/-- TILE: a bad one is discarded and asked for again (R232, R239). -/
def execTile (h : Nat) (w : WireFrame) (s : State) : Host.Outcome State Fault Refusal :=
  gated (.tile h w) (fun s =>
    if hears h s ∧ !frameGood 0x83 (streamOf h w s) w.bad then askTiles h (crcError h s)
    else hearFrame h 0x83 w (fun l => tile h (tileOf (payloadOf l))) s) s

/-- The oldest frame of a context still arriving is corrupt: 1 ms after its trigger (R149), or the frame time-out (R151). -/
def frameTimeout (c : Nat) (s : State) : State :=
  match (ctx c s).frames.find? (fun f => f.arriving) with
  | none => s
  | some f =>
    let s := if (ctx c s).frameBase = f.num then modCtx c (fun x => { x with inFrame := false }) s else s
    corruptFrame c f.num s

/-- TILE_FRAME_TIMEOUT: of a melt-pool context (R149). -/
def execTileFrameTimeout (c : Nat) (s : State) : Host.Outcome State Fault Refusal :=
  gated (.tileFrameTimeout c) (fun s => if c < 24 then frameTimeout c s else s) s

/-- FRAME_TIMEOUT: of a layer context (R151). -/
def execFrameTimeout (c : Nat) (s : State) : Host.Outcome State Fault Refusal :=
  gated (.frameTimeout c) (fun s => if 24 ≤ c then frameTimeout c s else s) s

/-- A raw pixel of a whole frame. -/
def rawPixel (c w : Nat) (f : Frame) (x y : Nat) : Nat :=
  if c < 24 then (f.tiles.getD (y / 16 * (w / 16) + x / 16) []).getD (y % 16 * 16 + x % 16) 0 else (f.tiles.getD y []).getD x 0

/-- A pixel after normalising and black level (R159). -/
def levelled (c w : Nat) (vals : Tab Val) (f : Frame) (x y : Nat) : Nat :=
  let p := rawPixel c w f x y * 2 ^ (16 - (setVal vals (ci c 0) 4).toNat)
  if bit (setVal vals (ci c 2) 2).toNat 0 then p - (setVal vals (ci c 2) 1).toNat else p

/-- The defective pixels of a set (R159). -/
def defects (c : Nat) (vals : Tab Val) : List (Nat × Nat) :=
  let l := setBytes vals (ci c 2) 4
  (List.range (setVal vals (ci c 2) 3).toNat).map (fun i => (field l (4 * i) 2, field l (4 * i + 2) 2))

/-- A pixel after the defect step (R159). -/
def mended (c w h : Nat) (vals : Tab Val) (bad : List (Nat × Nat)) (f : Frame) (x y : Nat) : Nat :=
  if bit (setVal vals (ci c 2) 2).toNat 1 ∧ bad.contains (x, y) then
    let near : List (Int × Int) := [((x : Int) - 1, y), ((x : Int) + 1, y), (x, (y : Int) - 1), (x, (y : Int) + 1)]
    let inside := near.filter (fun q => decide (0 ≤ q.1 ∧ q.1 < (w : Int) ∧ 0 ≤ q.2 ∧ q.2 < (h : Int)))
    let good := (inside.map (fun q => (q.1.toNat, q.2.toNat))).filter (fun q => !bad.contains q)
    if good = [] then levelled c w vals f x y
    else (roundHalfUp ((good.map (fun q => levelled c w vals f q.1 q.2)).foldl (· + ·) 0 : Nat) good.length).toNat
  else levelled c w vals f x y

/-- The gain of the shading grid at a pixel, times 256 per pixel of the window (R159). -/
def shading (c w h : Nat) (vals : Tab Val) (x y : Nat) : Nat :=
  let l := setBytes vals (ci c 2) 5
  let node := fun i j => field l (2 * (17 * min j 16 + min i 16)) 2
  let i := 16 * x / w
  let j := 16 * y / h
  let u := 16 * x % w
  let v := 16 * y % h
  (node i j * (w - u) + node (i + 1) j * u) * (h - v) + (node i (j + 1) * (w - u) + node (i + 1) (j + 1) * u) * v

/-- A corrected pixel (R159). -/
def corrected (c w h : Nat) (vals : Tab Val) (bad : List (Nat × Nat)) (f : Frame) (x y : Nat) : Nat :=
  let p := mended c w h vals bad f x y
  if bit (setVal vals (ci c 2) 2).toNat 2 then
    min 0xFFFF (roundHalfUp (p * shading c w h vals x y : Nat) (4096 * w * h)).toNat
  else p

/-- The corrected pixels of a whole frame in raster order. -/
def pixels (c : Nat) (vals : Tab Val) (f : Frame) : List Nat :=
  let (w, h) := windowOf c vals
  (List.range h).flatMap (fun y => (List.range w).map (fun x => corrected c w h vals (defects c vals) f x y))

/-- A region object: x0, y0, width, height; width 0 is the whole window (R160). -/
def region (r w h : Nat) : Nat × Nat × Nat × Nat :=
  if bits r 47 32 = 0 then (0, 0, w, h) else (bits r 15 0, bits r 31 16, bits r 47 32, bits r 63 48)

/-- The pixels of a region with their places. -/
def regionPixels (r w h : Nat) (px : List Nat) : List (Nat × Nat × Nat) :=
  let (x0, y0, rw, rh) := region r w h
  (List.range rh).flatMap (fun j => (List.range rw).filterMap (fun i =>
    if x0 + i < w ∧ y0 + j < h then some (x0 + i, y0 + j, px.getD ((y0 + j) * w + x0 + i) 0) else none))

/-- The header of a result object (R160). -/
def resultHeader (f : Frame) : List Byte :=
  toLe 4 f.num ++ toLe 1 f.tag ++ toLe 1 (b2n (bit f.flags 2)) ++ toLe 2 0 ++ toLe 4 (nsOf f.trig % 1000000000)
    ++ toLe 4 (nsOf f.trig / 1000000000 % 2 ^ 32)

/-- The histogram object (R160). -/
def histogram (c : Nat) (vals : Tab Val) (f : Frame) (px : List Nat) : List Byte :=
  let (w, h) := windowOf c vals
  let l := (regionPixels (setVal vals (ci c 4) 1).toNat w h px).map (fun q => q.2.2 / 256)
  resultHeader f ++ (List.range 256).flatMap (fun k => toLe 4 (l.filter (· == k)).length)

/-- The zone means object (R160). -/
def zoneMeans (c : Nat) (vals : Tab Val) (f : Frame) (px : List Nat) : List Byte :=
  let (w, h) := windowOf c vals
  resultHeader f ++ (List.range 64).flatMap (fun k =>
    let zw := w / 8
    let zh := h / 8
    let sum := ((List.range zh).flatMap (fun y => (List.range zw).map (fun x =>
      px.getD ((k / 8 * zh + y) * w + k % 8 * zw + x) 0))).foldl (· + ·) 0
    toLe 2 (roundHalfUp (sum : Nat) (zw * zh)).toNat)

/-- The direction t of R161 in camera axes, 2^-48. -/
def cameraAxis (c : Nat) (vals : Tab Val) (f : Frame) : Int × Int :=
  if f.vx = 0 ∧ f.vy = 0 then (one48, 0)
  else
    let a := centideg48 (setVal vals (ci c 3) 3)
    let x := mul48 f.vx (cos48 a) + mul48 f.vy (sin48 a)
    let y := mul48 f.vy (cos48 a) - mul48 f.vx (sin48 a)
    (x, if setVal vals (ci c 3) 4 = 1 then -y else y)

/-- The extent of the centres of pixels along an axis, plus 1 px, in 1/16 px (R161). -/
def extent (l : List (Nat × Nat × Nat)) (t : Int × Int) : Nat :=
  let v := l.map (fun q => (2 * (q.1 : Int) + 1) * t.1 + (2 * (q.2.1 : Int) + 1) * t.2)
  let hi := v.foldl max (v.headD 0)
  let lo := v.foldl min (v.headD 0)
  min 65535 ((roundHalfUp ((hi - lo) * 16) (2 ^ 49)).toNat + 16)

/-- The features of a whole frame (R161); where no pixel is above the threshold the mean is a free value (log 3). -/
def featuresOf (c : Nat) (vals : Tab Val) (f : Frame) (px : List Nat) (s : State) : Feature :=
  let (w, h) := windowOf c vals
  let l := regionPixels (setVal vals (ci c 3) 2).toNat w h px
  let t := (setVal vals (ci c 3) 1).toNat
  let a := l.filter (fun q => decide (t < q.2.2))
  let wt := (a.map (fun q => q.2.2 - t)).foldl (· + ·) 0
  let sx := (a.map (fun q => (q.2.2 - t) * (16 * q.1 + 8))).foldl (· + ·) 0
  let sy := (a.map (fun q => (q.2.2 - t) * (16 * q.2.1 + 8))).foldl (· + ·) 0
  let ax := cameraAxis c vals f
  let base : Feature := { ctx := c, tag := f.tag, flags := f.flags, frame := f.num, trig := f.trig, ri := f.ri, arc := f.arc, peak := maxN (l.map (fun q => q.2.2)), px := f.px, py := f.py, planned := f.power, speed := f.speed, vals := vals }
  if a = [] then { base with flags := setBit f.flags 3 true, cx := 0xFFFF, cy := 0xFFFF, mean := freeVal s % 65536 }
  else { base with area := a.length, cx := (roundHalfUp (sx : Nat) wt).toNat, cy := (roundHalfUp (sy : Nat) wt).toNat, len := extent a ax, width := extent a (-ax.2, ax.1), mean := (roundHalfUp ((a.map (fun q => q.2.2)).foldl (· + ·) 0 : Nat) a.length).toNat }

/-- The 48 bytes of a feature record (R162). -/
def Feature.bytes (f : Feature) : List Byte :=
  toLe 1 f.ctx ++ toLe 1 f.tag ++ toLe 2 f.flags ++ toLe 4 f.frame ++ toLe 4 (nsOf f.trig % 1000000000)
    ++ toLe 6 (nsOf f.trig / 1000000000) ++ toLe 2 0 ++ toLe 4 f.ri ++ toLeI 4 f.arc ++ toLe 4 f.area ++ toLe 2 f.cx ++ toLe 2 f.cy
    ++ toLe 2 f.len ++ toLe 2 f.width ++ toLe 2 f.peak ++ toLe 2 f.mean ++ toLe 4 0

/-- Latches the actual position of frame f at its exposure midpoint (R176). -/
def latchFrame (c : Nat) (f : Frame) (s : State) : Frame :=
  if f.latched then f
  else match actualPoint c f.mid s with
    | none => { f with latched := true }
    | some p => { f with latched := true, px := p.x, py := p.y }

/-- The loop measurements a feature record gives with the set its frame was taken with (R157, R163): of k6 peak and area, of k7 width and
length. -/
def loopMeasures (x : Feature) : List Int × List Int :=
  let part := fun (v : Nat) (k : Nat) => clamp (roundHalfAway (v * 2 ^ 31 : Nat) (max 1 (setVal x.vals (ci x.ctx 3) k).toNat)) 0 2147483647
  ([((x.peak * 2 ^ 15 : Nat) : Int), part x.area 5], [part x.width 6, part x.len 6])

/-- A feature record reaches loops k6 and k7, the event stream and the chart (R162, R163, R176). -/
def deliverFeature (c : Nat) (x : Feature) (s : State) : State :=
  let s := setB (ci c 6) 3 x.bytes s
  let m := loopMeasures x
  let s := modLoop (8 * c + 7) (fun l => { l with fresh := true, features := m.2 }) (modLoop (8 * c + 6) (fun l => { l with fresh := true, features := m.1 }) s)
  queueFeature x (berthEntry c 0x01 x.trig x.bytes s)

/-- A whole frame has been processed: its statistics, its features and its image record (R160-R163, R205). -/
def completeFrame (c : Nat) (f : Frame) (s : State) : State :=
  let vals := (setFor c f.num s).vals
  let px := pixels c vals f
  let (w, h) := windowOf c vals
  let s := setB (ci c 6) 1 (histogram c vals f px) (setB (ci c 6) 2 (zoneMeans c vals f px) s)
  let s := imageFrame c f.tag f.num w h px (addN (ci c 5) 3 32 1 s)
  let s := if c < 24 then
      let x := featuresOf c vals (latchFrame c f s) (calInvert c px s) s
      calFrame c (x.cx, x.cy, bit x.flags 3) (deliverFeature c x (if bit x.flags 3 then drawn s else s))
    else s
  countBacklog c (dropFrame c f.num s)

/-- The tiles of a frame, and how many are ready (R165). -/
def tilesOf (c : Nat) (f : Frame) (s : State) : Nat × Nat :=
  let w := (windowOf c (setFor c f.num s).vals).1
  if c < 24 then (f.expected, received f) else (f.expected / 16 * (w / 16), received f / 16 * (w / 16))

/-- The frame of which a context has a tile ready. -/
def readyFrame (c : Nat) (s : State) : Option Frame := (ctx c s).frames.find? (fun f => decide (f.processed < (tilesOf c f s).2))

/-- The context whose tile the pipeline processes next, and the tiles of it processed in this round: the one being visited up to its
weight, then the next that has a tile ready, in ascending order, then from the lowest in the next round (R165). -/
def nextTurn (s : State) : Option (Nat × Nat) :=
  let k := s.vision.turn
  let ready := (List.range 26).filter (fun c => (readyFrame c s).isSome)
  if ready.contains k ∧ s.vision.turnDone < getN (ci k 0) 8 s then some (k, s.vision.turnDone)
  else match ready.find? (fun c => decide (k < c)) with
    | some c => some (c, 0)
    | none => ready.head?.map (fun c => (c, 0))

/-- The pipeline processes the next ready tile of a context, at its turn (R165). -/
def tileProcessed (c : Nat) (s : State) : State :=
  match nextTurn s, readyFrame c s with
  | some (k, n), some f =>
    if k ≠ c then s
    else
    let s := { s with vision := { s.vision with turn := c, turnDone := n + 1 } }
    let s := modFrame c f.num (fun f => { f with processed := f.processed + 1 }) s
    let s := countBacklog c s
    let s := if !f.arriving ∧ f.processed + 1 = (tilesOf c f s).1 then
        (if f.bad then corruptFrame c f.num s else completeFrame c { f with processed := f.processed + 1 } s)
      else s
    watchOverload s
  | _, _ => s

/-- TILE_PROCESSED (R165). -/
def execTileProcessed (c : Nat) (s : State) : Host.Outcome State Fault Refusal := gated (.tileProcessed c) (tileProcessed c) s

/-- The data type of a pixel depth (R150). -/
def rawType (d : Nat) : Nat := if d = 8 then 0x2A else if d = 10 then 0x2B else 0x2C

/-- The frame a CSI-2 port is receiving: from its Frame Start on (R151). -/
def csiFrame (c : Nat) (s : State) : Option Frame :=
  if (ctx c s).inFrame then (ctx c s).frames.find? (fun f => f.num == (ctx c s).frameBase && f.arriving) else none

/-- A Frame Start begins the oldest frame triggered and not yet started; with none it is a corrupt frame of its own (R151, R166). -/
def frameStartPacket (c : Nat) (s : State) : State :=
  match (ctx c s).frames.find? (fun f => f.arriving && !f.started) with
  | none => modCtx c (fun x => { x with inFrame := false }) (addN (ci c 5) 5 32 1 s)
  | some f =>
    let s := modCtx c (fun x => { x with inFrame := true, frameBase := f.num }) s
    let s := modFrame c f.num (fun f => { f with started := true }) s
    if getN (ci c 0) 0x0A s ≤ queued c s then watchOverload (droppedFrame c f.num 1 s) else s

/-- A Frame End: the frame is whole if its lines are as many as its window's and none is bad (R151). -/
def frameEndPacket (c : Nat) (s : State) : State :=
  let cur := csiFrame c s
  let s := modCtx c (fun x => { x with inFrame := false }) s
  match cur with
  | none => s
  | some f =>
    if f.bad ∨ received f ≠ f.expected then corruptFrame c f.num s
    else
      let s := modFrame c f.num (fun f => { f with arriving := false }) s
      if f.processed = (tilesOf c f s).1 then watchOverload (completeFrame c f s) else s

/-- A line of a frame whose committed set wants its data type (R150, R151, R157, R166). -/
def linePacket (c : Nat) (f : Frame) (p : CsiPacket) (s : State) : State :=
  let w := (windowOf c (setFor c f.num s).vals).1
  let bad := !p.crcOk || p.pixels.length != w || decide (f.expected ≤ received f)
  let s := storeRow c f.num 0 (received f) p.pixels s
  recount c (modFrame c f.num (fun f => { f with bad := f.bad || bad, tiles := f.tiles.put (received f) p.pixels }) s)

/-- The pixel depth a CSI-2 port takes: that of the frame's committed set, between frames that in force (R157). -/
def csiDepth (c : Nat) (s : State) : Nat :=
  match csiFrame c s with
  | some f => (setVal (setFor c f.num s).vals (ci c 0) 4).toNat
  | none => getN (ci c 0) 4 s

/-- A packet of a CSI-2 port (R150, R151). -/
def csiPacket (port : Nat) (p : CsiPacket) (s : State) : State :=
  let c := 24 + port
  let count := fun (s : State) => addN (ci c 5) 5 32 1 s
  if !ctxOn c s then s
  else if !p.headerOk then
    match csiFrame c s with
    | none => s
    | some f => modFrame c f.num (fun f => { f with bad := true }) s
  else if p.vc ≠ getN (ci c 0) 0x0B s then count s
  else if p.dtype = 0 then frameStartPacket c s
  else if p.dtype = 1 then frameEndPacket c s
  else if p.dtype < 0x10 then s
  else if p.dtype ≠ rawType (csiDepth c s) then count s
  else match csiFrame c s with
    | none => s
    | some f => linePacket c f p s

/-- CSI_PACKET. -/
def execCsiPacket (port : Nat) (p : CsiPacket) (s : State) : Host.Outcome State Fault Refusal :=
  gated (.csiPacket port p) (csiPacket port p) s

end Sys2Proof.Machine
end

