-- ==== Sys2Proof/Machine/Beacon.lean ====
section
/-!
DEFINITION. Sys2Proof/Machine/Beacon.lean: lamp channels, the matrix, the projector sequence, lamp boards and diagnosis (R169-R175),
with their commands. A pin is a function of time at 1 ns; the edges of a loop frame go out as the frame ends.
-/
namespace Sys2Proof.Machine

/-- A lamp board's record. -/
def board (d : Nat) (s : State) : Board := s.vision.boards.getD d {}

/-- Changes a lamp board's record. -/
def modBoard (d : Nat) (f : Board → Board) (s : State) : State :=
  { s with vision := { s.vision with boards := s.vision.boards.put d (f (board d s)) } }

/-- The beacon period (R169). -/
def beaconPeriod (s : State) : Time := getN 0x4800 2 s * nsT

/-- The strobe windows open at a time on channel c (R170). -/
def openWindows (c : Nat) (t : Time) (s : State) : List Strobe :=
  s.vision.strobes.filter (fun x => bit x.mask c && decide (x.start ≤ t ∧ t < x.stop))

/-- Whether a calibration run keeps channel c lit (R378). -/
def calLit (c : Nat) (s : State) : Bool := calRunning s && bit (getN 0x0602 8 s) c

/-- The level of a channel before compensation (R169, R170). -/
def rawLevel (c : Nat) (t : Time) (s : State) : Nat :=
  if calLit c s then getN 0x4802 (c + 1) s else match getN 0x4801 (c + 1) s with
  | 1 => getN 0x4802 (c + 1) s
  | 2 => maxN ((openWindows c t s).map (fun x => x.level))
  | _ => 0

/-- From when the PWM of channel c runs at a time: from the enable of the beacon where it is continuous, restarted at the start of a
window, of several at its level the latest (R169-R171, log 24); none where it is off. -/
def pwmFrom (c : Nat) (t : Time) (s : State) : Option Time :=
  if calLit c s then some s.vision.beaconFrom else match getN 0x4801 (c + 1) s with
  | 1 => some s.vision.beaconFrom
  | 2 =>
    let l := openWindows c t s
    leastBy (fun u => t - u) ((l.filter (fun x => x.level == maxN (l.map (fun x => x.level)))).map (fun x => x.start))
  | _ => none

/-- The temperature factor of channel c, in units of 1 / 2,560,000,000 (R173); 1 where its board has given no temperature. -/
def tempFactor (c : Nat) (s : State) : Int :=
  match (board (c / 4) s).good with
  | none => 2560000000
  | some t => 2560000000 + getI 0x4805 (c + 1) s * (10 * t - 256 * getI 0x4804 2 s)

/-- The first instant at or after the start of the present frame at which a beacon period begins (R169). -/
def nextPeriod (s : State) : Time :=
  let p := beaconPeriod s
  s.now + (p - (s.now - s.vision.beaconFrom) % p) % p

/-- Whether a period has begun outside every strobe window of channel c in the present frame up to a time: a new factor is then in force
(R173). -/
def factorTaken (c : Nat) (t : Time) (s : State) : Bool :=
  (List.range 3).any (fun k =>
    let u := nextPeriod s + k * beaconPeriod s
    decide (u ≤ t) && (openWindows c u s).isEmpty)

/-- The factor in force of channel c at a time of the present frame (R173). -/
def factorOf (c : Nat) (t : Time) (s : State) : Int :=
  if factorTaken c t s then max 0 (tempFactor c s) else (s.vision.factors.getD c 2560000000 : Nat)

/-- Whether channel c is kept off by its board (R174). -/
def boardDark (c : Nat) (s : State) : Bool := (board (c / 4) s).hot || (board (c / 4) s).dark

/-- A duty: a level in 1/65,536 times a factor. -/
def scaled (l : Int) (d : Nat) (k : Int) : Nat := (roundHalfAway (l * k) (d * 2560000000)).toNat

/-- The duties of a lamp pair and whether both were scaled down (R173). -/
def pairDuties (i : Nat) (t : Time) (s : State) : Nat × Nat × Bool :=
  let l := rawLevel (2 * i) t s
  let m := getN 0x4804 (0x10 + i) s
  let a := scaled (l * (65536 - m) : Nat) 65536 (factorOf (2 * i) t s)
  let b := scaled (l * m : Nat) 65536 (factorOf (2 * i + 1) t s)
  let top := max a b
  if 65535 < top then (a * 65535 / top, b * 65535 / top, true) else (a, b, false)

/-- Whether channel c is half of an enabled pair (R173). -/
def paired (c : Nat) (s : State) : Bool := bit (getN 0x4804 1 s) (c / 2)

/-- The duty of channel c (R169, R173, R174). -/
def dutyOf (c : Nat) (t : Time) (s : State) : Nat :=
  if getN 0x4800 1 s = 0 ∨ boardDark c s then 0
  else if paired c s then
    let p := pairDuties (c / 2) t s
    if c % 2 = 0 then p.1 else p.2.1
  else min 65535 (scaled (rawLevel c t s) 1 (factorOf c t s))

/-- Whether a PWM of level L in periods of p ns that began at a time is on: L p / 65,536 from the start of each (R169). -/
def pwmOn (level p : Nat) (start t : Time) : Bool := decide ((t - start) % (p * nsT) < level * p / 65536 * nsT)

/-- Whether a diagnostic pulse may light channel c at a time: outside its windows, and outside the exposures that strobe it (R175). -/
def pulseClear (c : Nat) (t : Time) (s : State) : Bool :=
  (openWindows c t s).isEmpty && (List.range 26).all (fun k => (ctx k s).frames.all (fun f =>
    !bit (setVal (setFor k f.num s).vals (ci k 4) 2).toNat c || decide (t < f.trig ∨ 2 * f.mid ≤ t + f.trig)))

/-- Whether a stretched pulse lights channel c at a time (R175). -/
def stretched (c : Nat) (t : Time) (s : State) : Bool := match s.vision.stretch.find c with
  | none => false
  | some u => decide (u ≤ t ∧ t < u + getN 0x4806 8 s * nsT) && pulseClear c t s

/-- Whether channel c is on at a time (R169, R170, R173, R174). -/
def channelOn (c : Nat) (t : Time) (s : State) : Bool :=
  getN 0x4800 1 s == 1 && !boardDark c s && (stretched c t s || (match pwmFrom (if paired c s then c - c % 2 else c) t s with
    | none => false
    | some u => pwmOn (dutyOf c t s) (getN 0x4800 2 s) u t))

/-- Whether pin c is on in matrix mode (R171): BCN0-BCN3 select a row after its blanking, BCN4-BCN15 drive the columns for their
segment's share of what is left of the period. -/
def matrixOn (c : Nat) (t : Time) (s : State) : Bool :=
  match pwmFrom 0 t s with
  | none => false
  | some u =>
    let p := getN 0x4800 2 s
    let blank := getN 0x4800 4 s * nsT
    let row := (t - u) / (p * nsT) % 4
    let at' := (t - u) % (p * nsT)
    let column := getN 0x4803 (1 + 12 * row + (c - 4)) s * (p - getN 0x4800 4 s) / 65536
    getN 0x4800 1 s == 1 && !boardDark c s && decide (blank ≤ at')
      && (if c < 4 then c == row else decide (at' < blank + column * nsT))

/-- The level of projector source j at a time, and when its entry began (R172). -/
def projectorLevel (j : Nat) (t : Time) (s : State) : Nat × Time :=
  match (s.vision.shown.filter (fun e => decide (e.1 ≤ t))).getLast? with
  | none => (0, 0)
  | some e => (e.2.getD j 0, e.1)

/-- Whether projector source j is on at a time: its entry's level as PWM, begun with the entry (R172, log 24). -/
def projectorOn (j : Nat) (t : Time) (s : State) : Bool :=
  let x := projectorLevel j t s
  getN 0x4800 1 s == 1 && bit (getN 0x4808 1 s) j && pwmOn x.1 (getN 0x4800 2 s) x.2 t

/-- Whether an output of the beacon is on at a time: BCN0-BCN15, PRJ0, PRJ1. -/
def outputOn (k : Nat) (t : Time) (s : State) : Bool :=
  if 16 ≤ k then projectorOn (k - 16) t s else if getN 0x4800 3 s = 1 then matrixOn k t s else channelOn k t s

/-- Whether the board of channel c may be asked for its string voltage: the board is there, and matrix segments are not tested (R174,
R175). -/
def testable (c : Nat) (s : State) : Bool :=
  decide (c < 16) && getN 0x4800 3 s != 1 && getN 0x4801 (c + 1) s != 0 && decide (c / 4 < getN 0x4806 1 s)

/-- A pulse of channel c of a length has ended: one that is long enough tests the channel once a period, by a read of its string voltage
(R174, R175). -/
def pulseEnded (c : Nat) (long : Bool) (s : State) : State :=
  if !long ∨ !testable c s ∨ bit s.vision.tested c then s
  else emit (.lampRead (getN 0x4806 (2 + c / 4) s) (0x10 + 2 * (c % 4))) { s with vision := { s.vision with tested := setBit s.vision.tested c true, stretch := s.vision.stretch.del c } }

/-- The level of an output that is on or off, at its channel's polarity; PRJ0 and PRJ1 have none (R169). -/
def lampLevel (k : Nat) (on : Bool) (s : State) : Bool := if 16 ≤ k then on else on == bit (getN 0x4800 5 s) k

/-- The polarities of the channels, and of PSYNC as bit 16. -/
def polarities (s : State) : Nat := getN 0x4800 5 s % 2 ^ 16 + 2 ^ 16 * b2n (getN 0x4808 5 s == 1)

/-- The outputs are driven once the beacon has been enabled (log 24), and follow a change of a polarity (R169, R172, R386). -/
def driveOutputs (s : State) : State :=
  let old := s.vision.lit
  let new := polarities s
  if old = some new ∨ (old = none ∧ getN 0x4800 1 s = 0) then s
  else
    let moved := fun (k : Nat) => old.all (fun q => bit q k != bit new k)
    let s := each ((List.range 18).filter (fun k => if 16 ≤ k then old.isNone else moved k))
      (fun k s => emit (.lamp k (lampLevel k (s.vision.pins.find k).isSome s) s.now) s) s
    let s := if moved 16 then emit (.pin 2 (!bit new 16)) s else s
    { s with vision := { s.vision with lit := some new } }

/-- The beacon stops: every output that is on goes to its inactive level (R344, R386). -/
def outputsOff (s : State) : State :=
  let s := each (s.vision.pins.map (fun e => e.1)) (fun k s => emit (.lamp k (lampLevel k false s) s.now) s) s
  { s with vision := { s.vision with pins := [] } }

/-- The outputs of the beacon, of the layer cameras' triggers and of the axes go to high impedance (R155, R251, R361, R386). -/
def floatOutputs (s : State) : State :=
  let s := each (List.range 18) (fun k => emit (.highZ 1 k)) s
  let s := each [0, 1, 2] (fun k => emit (.highZ 2 k)) s
  let s := each [0, 1, 2, 3] (fun m => emit (.highZ 3 m)) s
  { s with vision := { s.vision with pins := [], lit := none } }

/-- An output of the beacon is on or off from a time: an edge goes out at the channel's polarity (R169). -/
def setOutput (k : Nat) (t : Time) (on : Bool) (s : State) : State :=
  let level := lampLevel k on s
  match s.vision.pins.find k with
  | none => if on then emit (.lamp k level t) { s with vision := { s.vision with pins := s.vision.pins.put k t } } else s
  | some u =>
    if on then s
    else pulseEnded k (decide (u + getN 0x4806 8 s * nsT ≤ t)) (emit (.lamp k level t) { s with vision := { s.vision with pins := s.vision.pins.del k } })

/-- An output over the frame that ends, nanosecond by nanosecond; all are off while the beacon is disabled (R169). -/
def runOutput (k : Nat) (s : State) : State :=
  if getN 0x4800 1 s = 0 then setOutput k s.now false s
  else each (List.range 2500) (fun i s => setOutput k (s.now + i * nsT) (outputOn k (s.now + i * nsT) s) s) s

/-- Whether a pulse of the diagnostic width that begins at a time fits channel c, as far as is known (R175). -/
def pulseFits (c : Nat) (t : Time) (s : State) : Bool :=
  pulseClear c t s && s.vision.strobes.all (fun x => !bit x.mask c || decide (x.stop ≤ t ∨ t + getN 0x4806 8 s * nsT ≤ x.start))

/-- The stretched pulse of channel c (R175): one is placed in the second half of a diagnostic period that has brought no pulse long enough
(log 25), and taken back where a window or an exposure has come upon it. -/
def placeStretch (c : Nat) (s : State) : State :=
  if !testable c s ∨ bit s.vision.tested c then s
  else match s.vision.stretch.find c with
    | some u => if u + getN 0x4806 8 s * nsT < s.now ∨ !pulseClear c (s.now + frameT - nsT) s then { s with vision := { s.vision with stretch := s.vision.stretch.del c } } else s
    | none =>
      if s.vision.diagAt + msT (getN 0x4806 7 s) / 2 ≤ s.now ∧ pulseFits c (s.now + frameT) s then
        { s with vision := { s.vision with stretch := s.vision.stretch.put c (s.now + frameT) } }
      else s

/-- The beacon over the frame that ends: its outputs, the factors taken, the pairs scaled down, the pulses of diagnosis. -/
def beaconTick (s : State) : State :=
  let last := s.now + frameT - nsT
  let on := getN 0x4800 1 s == 1
  let s := each (List.range 18) runOutput (driveOutputs s)
  let s := if on then each (List.range 16) placeStretch s else s
  let sat := if !on then 0 else (List.range 8).foldl (fun m i => if paired (2 * i) s && (pairDuties i last s).2.2 then m + 2 ^ i else m) 0
  let fs := (List.range 16).map (fun c => (factorOf c last s).toNat)
  let l := s.vision.shown
  let keep := (l.filter (fun e => decide (e.1 ≤ last))).getLast?.toList ++ l.filter (fun e => !decide (e.1 ≤ last))
  let s := { s with vision := { s.vision with factors := fs, shown := keep } }
  if sat = getN 0x4807 7 s then s else setN 0x4807 7 sat s

/-- Sets a bit of the board faults (R174). -/
def boardFault (i : Nat) (v : Bool) (s : State) : State :=
  if bit (getN 0x4807 6 s) i = v then s else setNotice 4 27 0x4807 6 (setBit (getN 0x4807 6 s) i v) s

/-- A read of board d's temperature in 1/256 °C, or no answer (R174). -/
def boardRead (d : Nat) (r : Option Int) (s : State) : State :=
  match r with
  | some t =>
    let s := modBoard d (fun x => { x with good := some t, misses := 0, lostAt := none, dark := false }) s
    let s := boardFault (4 + d) false (setI 0x4807 (1 + d) (roundHalfAway (10 * t) 256) s)
    let lim := getI 0x4806 6 s
    if lim * 256 ≤ 10 * t then boardFault d true (modBoard d (fun x => { x with hot := true }) s)
    else if 10 * t < (lim - 50) * 256 then boardFault d false (modBoard d (fun x => { x with hot := false }) s)
    else s
  | none =>
    let s := modBoard d (fun x => { x with misses := x.misses + 1 }) s
    if (board d s).misses = 3 then
      boardFault (4 + d) true (modBoard d (fun x => { x with lostAt := some s.now }) s)
    else s

/-- LAMP_TEMPERATURE_READ: register 0x00 of every board is read (R174). -/
def lampTemperatureRead (temps : List (Option Int)) (s : State) : State :=
  each (List.range (getN 0x4806 1 s)) (fun d s => boardRead d (temps.getD d none) (emit (.lampRead (getN 0x4806 (2 + d) s) 0) s)) s

/-- LAMP_TEMPERATURE_READ. -/
def execLampTemperatureRead (temps : List (Option Int)) (s : State) : Host.Outcome State Fault Refusal :=
  gated (.lampTemperatureRead temps) (lampTemperatureRead temps) s

/-- A board has not answered for 1 s: its channels are off until it does (R174). -/
def lampBoardTimeout (d : Nat) (s : State) : State :=
  match (board d s).lostAt with
  | none => s
  | some _ => noticeObj 4 27 0x4807 6 (getI 0x4807 6 s) (modBoard d (fun x => { x with dark := true }) s)

/-- LAMP_BOARD_TIMEOUT. -/
def execLampBoardTimeout (d : Nat) (s : State) : Host.Outcome State Fault Refusal := gated (.lampBoardTimeout d) (lampBoardTimeout d) s

/-- Sets the diagnosis of channel c (R175). -/
def setDiagnosis (c v : Nat) (s : State) : State :=
  let old := getN 0x4807 5 s
  let w := old - bits old (2 * c + 1) (2 * c) * 4 ^ c + v * 4 ^ c
  if w = old then s
  else if v = 1 ∨ v = 2 then setNotice 4 27 0x4807 5 w s else setN 0x4807 5 w s

/-- The test of channel c: the string voltage its board gave, or none: no pulse that was long enough, or no answer (R175). -/
def diagnose (c : Nat) (v : Option Nat) (s : State) : State :=
  if getN 0x4801 (c + 1) s = 0 then s
  else match v with
    | none =>
      let k := s.vision.untested.getD c 0 + 1
      let s := { s with vision := { s.vision with untested := s.vision.untested.put c k } }
      if 2 ≤ k then setDiagnosis c 3 s else s
    | some mv =>
      let s := { s with vision := { s.vision with untested := s.vision.untested.del c } }
      let hi := getN 0x4806 9 s
      let lo := getN 0x4806 0x0A s
      setDiagnosis c (if hi ≠ 0 ∧ hi < mv then 1 else if lo ≠ 0 ∧ mv < lo then 2 else 0) s

/-- CHANNEL_DIAGNOSIS: a diagnostic period ends with the voltages read in it; matrix segments are not tested (R175). -/
def channelDiagnosis (volts : List (Option Nat)) (s : State) : State :=
  let tested := s.vision.tested
  let s := { s with vision := { s.vision with tested := 0, stretch := [], diagAt := s.now } }
  if getN 0x4800 1 s = 0 ∨ getN 0x4800 3 s = 1 then s
  else each (List.range 16) (fun c s => diagnose c (if bit tested c then volts.getD c none else none) s) s

/-- CHANNEL_DIAGNOSIS. -/
def execChannelDiagnosis (volts : List (Option Nat)) (s : State) : Host.Outcome State Fault Refusal :=
  gated (.channelDiagnosis volts) (channelDiagnosis volts) s

/-- Entry k of the projector sequence starts at t (R172). -/
def projectorBegin (k : Nat) (t : Time) (s : State) : State :=
  let fl := field (getB 0x4808 8 s) (8 * k + 6) 1
  let l := [0, 1].map (fun j => field (getB 0x4808 8 s) (8 * k + 2 * j) 2)
  let s := setN 0x4808 7 k (setN 0x4808 6 2 { s with vision := { s.vision with entryStart := t, shown := s.vision.shown ++ [(t, l)] } })
  let s := if bit fl 0 then emit (.pulse 2 t (getN 0x4808 4 s) (getN 0x4808 5 s == 1)) s else s
  each [0, 1] (fun j s => if bit fl (1 + j) ∧ getN (ci (24 + j) 0) 5 s = 2 then cameraTrigger (24 + j) 0 t s else s) s

/-- The sequence stops at a time: the projectors go off (R172). -/
def stopSequence (t : Time) (s : State) : State :=
  setN 0x4808 6 0 { s with vision := { s.vision with shown := s.vision.shown ++ [(t, [])] } }

/-- A sequence starts where the beacon is enabled and none runs (R172). -/
def projectorStart (t : Time) (s : State) : State :=
  if getN 0x4800 1 s = 1 ∧ getN 0x4808 6 s ≠ 2 then projectorBegin 0 t s else s

/-- A write of 1 to 0x4808:03: it starts a sequence of source 0 and arms one of source 1 or 2 (R172, log 25). -/
def sequenceStart (s : State) : State :=
  if getN 0x4800 1 s = 0 ∨ getN 0x4808 6 s = 2 then withResult 4 s
  else if getN 0x4808 2 s = 0 then projectorBegin 0 s.now s else setN 0x4808 6 1 s

/-- SEQUENCE_START. -/
def execSequenceStart (s : State) : Host.Outcome State Fault Refusal := gated .sequenceStart sequenceStart s

/-- PROJECTOR_START_TIME: harbour time has reached 0x4808:09 (R172, source 2). -/
def execProjectorStartTime (s : State) : Host.Outcome State Fault Refusal :=
  gated .projectorStartTime (fun s => if getN 0x4808 2 s = 2 then projectorStart s.now s else s) s

/-- The present entry's duration has run (R172). -/
def projectorEntry (s : State) : State :=
  if getN 0x4808 6 s ≠ 2 then s
  else
    let k := getN 0x4808 7 s
    let fl := field (getB 0x4808 8 s) (8 * k + 6) 1
    let t := s.vision.entryStart + field (getB 0x4808 8 s) (8 * k + 4) 2 * 1000 * nsT
    if bit fl 3 then (if bit fl 4 then projectorBegin 0 t s else stopSequence t s)
    else if k = 255 then stopSequence t s else projectorBegin (k + 1) t s

/-- PROJECTOR_ENTRY. -/
def execProjectorEntry (s : State) : Host.Outcome State Fault Refusal := gated .projectorEntry projectorEntry s

/-- SEQUENCE_STOP: a write of 1 to 0x4808:0A (R172). -/
def execSequenceStop (s : State) : Host.Outcome State Fault Refusal := gated .sequenceStop (fun s => stopSequence s.now s) s

end Sys2Proof.Machine
end

