-- ==== Sys2Proof/Machine/Motion.lean ====
section
/-!
DEFINITION. Sys2Proof/Machine/Motion.lean: the stepper axes (R251-R258), the counters and their compare units (R259-R264) and the
wake line (R265-R267).
-/
namespace Sys2Proof.Machine

/-- Index Mm+off of axis m. -/
def mi (m off : Nat) : Nat := 0x7000 + 0x20 * m + off

/-- Index Ei+off of counter i. -/
def ei (i off : Nat) : Nat := 0x7200 + 0x10 * i + off

/-- The state of an axis: 0 Disabled, 1 Standstill, 2 Moving, 3 Homing, 4 Stalled, 5 Homing failed. -/
def axisState (m : Nat) (s : State) : Nat := getN (mi m 1) 8 s

/-- Sets a flag of Mm+0x01:09. -/
def axisFlag (m i : Nat) (v : Bool) (s : State) : State := setN (mi m 1) 9 (setBit (getN (mi m 1) 9 s) i v) s

/-- Sets a flag of Ei+0x1:05. -/
def ctrFlag (i f : Nat) (v : Bool) (s : State) : State := setN (ei i 1) 5 (setBit (getN (ei i 1) 5 s) f v) s

/-- Whether a flag of Ei+0x1:05 is set. -/
def ctrHas (i f : Nat) (s : State) : Bool := bit (getN (ei i 1) 5 s) f

/-- The top speed of a profile, in 2^-16 microsteps/s (R253). -/
def topSpeed (x : Axis) : Nat :=
  min x.vmax (isqrt (2 * (x.goal - x.start).natAbs * x.accel * x.decel * 2 ^ 32 / max 1 (x.accel + x.decel)))

/-- The path of a profile `k` µs after its start: microsteps from the start, and the speed in microsteps/s (R253, R254). -/
def profileAt (x : Axis) (k : Nat) : Nat × Nat :=
  let n := (x.goal - x.start).natAbs
  let v := if x.stopping then x.vmax else topSpeed x
  let ta := if x.stopping then 0 else v * 10 ^ 6 / (65536 * max 1 x.accel)
  let td := v * 10 ^ 6 / (65536 * max 1 x.decel)
  let da := v * v / (2 ^ 33 * max 1 x.accel)
  let dd := v * v / (2 ^ 33 * max 1 x.decel)
  let tc := if x.stopping ∨ v = 0 then 0 else (n - da - dd) * 65536 * 10 ^ 6 / v
  if k < ta then (min n (x.accel * k * k / (2 * 10 ^ 12)), x.accel * k / 10 ^ 6)
  else if k < ta + tc then (min n (da + v * (k - ta) / (65536 * 10 ^ 6)), v / 65536)
  else
    let r := ta + tc + td - k
    (n - x.decel * r * r / (2 * 10 ^ 12), x.decel * r / 10 ^ 6)

/-- The position and the signed commanded speed of an axis at a time: the profile advances every 1 µs (R253). -/
def axisAt (m : Nat) (t : Time) (s : State) : Int × Int :=
  let x := axis m s
  if (axisState m s = 2 ∨ axisState m s = 3) ∧ !x.frozen ∧ x.hold ≠ 3 then
    let p := profileAt x ((t - x.t0) / (1000 * nsT))
    if x.goal < x.start then (x.start - p.1, -(p.2 : Int)) else (x.start + p.1, p.2)
  else (getI (mi m 1) 6 s, 0)

/-- Shows the position and speed of an axis at a time. -/
def axisShow (m : Nat) (t : Time) (s : State) : State :=
  let p := axisAt m t s
  setI (mi m 1) 7 p.2 (setI (mi m 1) 6 p.1 s)

/-- The current an axis drives its phases with at a time, in mA (R252, R257, R258): run, homing, or between run and standstill. -/
def axisCurrent (m : Nat) (t : Time) (s : State) : Nat :=
  let run := getN (mi m 0) 5 s
  match axisState m s, (axis m s).hold with
  | 3, _ => run * getN (mi m 2) 0x0E s / 10000
  | 1, 1 =>
    let low := run * getN (mi m 2) 6 s / 10000
    let ramp := getN (mi m 2) 7 s * 1000000 * nsT
    let e := t - (axis m s).rampAt
    if ramp ≤ e then low else ((run : Int) + ((low : Int) - run) * e / ramp).toNat
  | _, _ => run

/-- Whether the bridges of an axis are driven: not disabled, freewheeling or braked, nor in Anchorage (R251, R258, R361). -/
def axisDriven (m : Nat) (s : State) : Bool := axisState m s != 0 && (axis m s).hold != 2 && !s.pilot.anchorage

/-- The PWM period of an axis (R251). -/
def pwmPeriod (m : Nat) (s : State) : Time := 1000000000 * nsT / max 1 (getN (mi m 0) 2 s)

/-- A PI regulator at the start of a PWM period: its integral term and the duty, in Q1.31 (R252, log 84). `e` is the error in mA. -/
def regulator (m : Nat) (e sum : Int) (s : State) : Int × Int :=
  let q := fun (k : Int) => roundHalfAway (k * e * 2 ^ 31) (max 1 (getN (mi m 0) 4 s) * 2 ^ 24)
  let z := clamp (sum + q (getI (mi m 0) 7 s)) (-(2 ^ 31)) (2 ^ 31)
  (z, clamp (q (getI (mi m 0) 6 s) + z) (-(2 ^ 31)) (2 ^ 31))

/-- A mean of a current or voltage input over a PWM period: no command brings it, so it is free within its full scale (R251, log 84). -/
def measuredMean (full k : Nat) (s : State) : Int := clamp (signed 32 (Config.freeValue (s.free + k))) (-(full : Int)) full

/-- The back-EMF of a phase in nV: v - R i - L di/dt (R255). -/
def backEmf (m : Nat) (v i before : Int) (s : State) : Int :=
  v * 1000000 - getN (mi m 0) 8 s * i * 1000 - getN (mi m 0) 9 s * (i - before) * getN (mi m 0) 2 s

/-- The load angle in 0.01 degree: 90 degrees less the angle between the vectors of current and back-EMF (R255); free where either is
zero (log 84). -/
def loadAngle (i e : Int × Int) (free : Nat) : Int :=
  if i = (0, 0) ∨ e = (0, 0) then signed 16 free
  else
    let d : Int := (wrap48 (direction48 e.1 e.2 - direction48 i.1 i.2)).natAbs
    9000 - roundHalfAway (d * 18000) pi48.natAbs

/-- The start of a PWM period at a time: set-points from the microstep position, the regulators, and in a move the load angle (R252, R255). -/
def pwmStart (m : Nat) (t : Time) (s : State) : State :=
  let x := axis m s
  let cur := axisCurrent m t s
  let angle := (axisAt m t s).1 * 2 * pi48 / 4096
  let sets := (roundHalfAway (cur * cos48 angle) (2 ^ 48), roundHalfAway (cur * sin48 angle) (2 ^ 48))
  let i := (measuredMean (getN (mi m 0) 4 s) 0 s, measuredMean (getN (mi m 0) 4 s) 1 s)
  let v := (measuredMean (getN (mi m 0) 0x0A s) 2 s, measuredMean (getN (mi m 0) 0x0A s) 3 s)
  let a := regulator m (sets.1 - i.1) x.sums.1 s
  let b := regulator m (sets.2 - i.2) x.sums.2 s
  let moving := axisState m s = 2 ∨ axisState m s = 3
  let angleNow := loadAngle i (backEmf m v.1 i.1 x.amps.1 s, backEmf m v.2 i.2 x.amps.2 s) (Config.freeValue (s.free + 4))
  let s : State := { s with free := s.free + 5 }
  let s := if moving then setI (mi m 2) 4 angleNow s else s
  let s := modAxis m (fun x => { x with pwmAt := t, sets := sets, amps := i, sums := (a.1, b.1), duties := (a.2, b.2) }) s
  emit (.bridges m a.2 b.2 t) s

/-- The PWM period of an axis that begins in the frame just ended, if one does (R252). -/
def pwmTick (m : Nat) (s : State) : State :=
  let x := axis m s
  let p := max 1 (pwmPeriod m s)
  if !axisDriven m s ∨ s.now < x.pwmNext then s
  else
    let t := x.pwmNext + (s.now - x.pwmNext) / p * p
    pwmStart m t (modAxis m (fun x => { x with pwmNext := t + p }) s)

/-- The level of half-bridge k of an axis at a time, none where both switches are off (R251, R258): centre-aligned in its period, with the
dead time at every change. Half-bridges 0 and 1 are those of phase A, 2 and 3 those of phase B; of a duty D they take (1 + D) / 2 and
(1 - D) / 2 (log 84). -/
def halfBridge (m k : Nat) (t : Time) (s : State) : Option Bool :=
  let x := axis m s
  if axisState m s = 0 ∨ s.pilot.anchorage then none
  else if x.hold = 2 then (if x.pins = 0 then none else some false)
  else
    let p := pwmPeriod m s
    let d := if k < 2 then x.duties.1 else x.duties.2
    let on := (p * (2 ^ 31 + (if k % 2 = 0 then d else -d)) / 2 ^ 32).toNat
    let dead := getN (mi m 0) 3 s * nsT
    let up := (p - on) / 2
    let u := (t - x.pwmAt) % max 1 p
    if on = 0 then some false
    else if on = p then some true
    else if u < up then some false
    else if u < up + dead then none
    else if u < up + on then some true
    else if u < up + on + dead then none
    else some false

/-- Starts a profile from the present position to a goal (R253). -/
def startProfile (m : Nat) (goal : Int) (vmax : Nat) (s : State) : State :=
  modAxis m (fun x => { x with start := getI (mi m 1) 6 s, goal := goal, t0 := s.now, stopping := false, frozen := false, accel := getN (mi m 1) 3 s, decel := getN (mi m 1) 4 s, vmax := vmax * 65536, hold := 0 }) s

/-- The axis stands at a position at the run current (R258). -/
def axisStand (m : Nat) (pos : Int) (s : State) : State :=
  let s := setI (mi m 1) 7 0 (setI (mi m 1) 6 pos (setN (mi m 1) 8 1 s))
  axisFlag m 1 false (axisFlag m 2 false (axisFlag m 3 false (modAxis m (fun x => { x with start := pos, goal := pos, stopping := false, frozen := false, homing := 0, hold := 0, standAt := s.now }) s)))

/-- Freezes an axis at its present position, at the run current (R254, R256). -/
def axisFreeze (m : Nat) (s : State) : State :=
  let p := (axisAt m s.now s).1
  setI (mi m 1) 7 0 (setI (mi m 1) 6 p (modAxis m (fun x => { x with start := p, goal := p, frozen := true, stopping := false }) s))

/-- Whether a latched hard-stop bollard has the axis in its mask (R332). -/
def axisBarred (m : Nat) (s : State) : Bool :=
  (List.range 16).any (fun i => bit (getN 0x0402 0x15 s) i && getN 0x0402 (i + 1) s == 2 && bit (getN 0x0404 (i + 1) s) m)

/-- Motion hold bars new targets and homing (R254). -/
def motionHeld (s : State) : Bool := getN 0x7080 1 s == 1

/-- Refuses a target (R253). -/
def targetRefused (m : Nat) (s : State) : State := withResult 4 (axisFlag m 5 true s)

/-- A write of a target (R253, R254, R258, R332): a freewheeling or braked axis energises first. -/
def target (m : Nat) (pos : Int) (s : State) : State :=
  if axisState m s ≠ 1 ∨ motionHeld s ∨ axisBarred m s then targetRefused m s
  else
    let idle := (axis m s).hold == 2
    let s := startProfile m pos (getN (mi m 1) 2 s) (setN (mi m 1) 8 2 s)
    let s := axisFlag m 1 false (axisFlag m 2 false (axisFlag m 3 false s))
    if idle then modAxis m (fun x => { x with hold := 3, energiseAt := s.now }) s else s

/-- TARGET. -/
def execTarget (m : Nat) (pos : Int) (s : State) : Host.Outcome State Fault Refusal := gated (.target m pos) (target m pos) s

/-- STROKE_END: the profile has reached its goal at zero speed (R253, R258). -/
def execStrokeEnd (m : Nat) (s : State) : Host.Outcome State Fault Refusal :=
  gated (.strokeEnd m) (fun s => if axisState m s = 2 then axisStand m (axis m s).goal s else s) s

/-- Stop command 1: the axis decelerates at its limit (R254). -/
def stopDecelerate (m : Nat) (s : State) : State :=
  if axisState m s = 2 ∨ axisState m s = 3 then
    let p := axisAt m s.now s
    let d := getN (mi m 1) 4 s
    let n : Int := (p.2.natAbs * p.2.natAbs / (2 * max 1 d) : Nat)
    modAxis m (fun x => { x with start := p.1, goal := if p.2 < 0 then p.1 - n else p.1 + n, t0 := s.now, stopping := true, decel := d, vmax := p.2.natAbs * 65536, homing := 0, hold := 0 }) (setN (mi m 1) 8 2 (setI (mi m 1) 6 p.1 s))
  else s

/-- STOP_DECELERATE. -/
def execStopDecelerate (m : Nat) (s : State) : Host.Outcome State Fault Refusal := gated (.stopDecelerate m) (stopDecelerate m) s

/-- Stop command 2: the profile freezes at once and the axis holds at the run current (R254). -/
def stopFreeze (m : Nat) (s : State) : State :=
  if axisState m s = 2 ∨ axisState m s = 3 then axisStand m (axisAt m s.now s).1 s else s

/-- STOP_FREEZE. -/
def execStopFreeze (m : Nat) (s : State) : Host.Outcome State Fault Refusal := gated (.stopFreeze m) (stopFreeze m) s

/-- MOTION_HOLD_CLEAR (R254). -/
def execMotionHoldClear (s : State) : Host.Outcome State Fault Refusal := gated .motionHoldClear (setN 0x7080 1 0) s

/-- The wake counter. -/
def wakeCounter (s : State) : Nat := getN 0x7300 1 s

/-- Progress of the blade along its stroke, in counts (R265, R267). -/
def wakeProgress (s : State) : Int :=
  if getI 0x7300 3 s < 0 then -getI (ei (wakeCounter s) 1) 1 s else getI (ei (wakeCounter s) 1) 1 s

/-- The cause that holds the wake at present: 0 none, 1 index fault, 2 reversal, 3 unreferenced (R267). -/
def wakeCause (s : State) : Nat :=
  let i := wakeCounter s
  if ctrHas i 3 s then 1
  else if !ctrHas i 0 s then 3
  else if getI 0x7300 8 s < s.wake.furthest - wakeProgress s then 2
  else 0

/-- Holds the wake, or ends the hold of a reversal, as the wake counter now stands (R267). -/
def wakeCheck (s : State) : State :=
  let st := getN 0x7300 0x0A s
  let c := wakeCause s
  let p := wakeProgress s
  let s' := { s with wake := { s.wake with furthest := max s.wake.furthest p } }
  if st = 1 ∧ c ≠ 0 then setNotice 9 12 0x7300 0x0B c (setN 0x7300 0x0A 2 s')
  else if st = 2 ∧ getN 0x7300 0x0B s = 2 ∧ s.wake.furthest < p then
    if c = 0 then setN 0x7300 0x0B 0 (setN 0x7300 0x0A 1 s') else setN 0x7300 0x0B c s'
  else s'

/-- A wake step at count c: the new line reaches the berths at the next loop-frame boundary; it never falls (R266). -/
def wakeStep (c : Int) (s : State) : State :=
  if getN 0x7300 0x0A s ≠ 1 then s
  else
    let w := getI 0x7300 4 s + c * getI 0x7300 3 s - getI 0x7300 5 s
    { s with wake := { s.wake with pendingW := some (match s.wake.pendingW with | none => w | some v => max v w) } }

/-- A wake step's line comes into force at a loop-frame boundary; past the wake end the gate opens for the layer (R266). -/
def wakeLatch (s : State) : State :=
  match s.wake.pendingW with
  | none => s
  | some w =>
    let w := clamp (max w (getI 0x7300 9 s)) (-2147483648) 2147483647
    let s := setI 0x7300 9 w { s with wake := { s.wake with pendingW := none } }
    if getI 0x7300 7 s ≤ w ∧ getN 0x7300 0x0A s ≠ 0 then setN 0x7300 0x0B 0 (setN 0x7300 0x0A 3 s) else s

/-- A wake layer begins at its commit instant (R266). -/
def wakeBegin (wakeLayer : Bool) (s : State) : State :=
  let s := setN 0x7300 0x0B 0 (setN 0x7300 0x0A (b2n wakeLayer) (setI 0x7300 9 (-2147483648) s))
  let s := { s with wake := { pendingW := none, furthest := wakeProgress s } }
  if wakeLayer then wakeCheck (wakeStep (getI (ei (wakeCounter s) 1) 1 s) s) else s

/-- The counter becomes referenced: the frozen compare units go free, the next limit raises a notice again (R259, R261, R262). -/
def setReferenced (i : Nat) (s : State) : State :=
  ctrFlag i 4 false (ctrFlag i 0 true (modCtr i (fun x => { x with limitNoted := false }) s))

/-- Whether the opening counter meets the opening position in the opening sense (R60). -/
def openingMet (s : State) : Bool :=
  let c := getI (ei (getN 0x8000 3 s) 1) 1 s
  if getN 0x8000 5 s = 0 then decide (getI 0x8000 4 s ≤ c) else decide (c ≤ getI 0x8000 4 s)

/-- The opening counter has stopped meeting the position: the next crossing opens the lock window (R60). -/
def openingWatch (i : Nat) (s : State) : State :=
  if i = getN 0x8000 3 s ∧ !openingMet s then { s with commit := { s.commit with met := false } } else s

/-- What a change of a counter brings: the wake's own checks (R267), and the crossing that opens a lock window (R60). -/
def afterCounter (i : Nat) (s : State) : State :=
  let s := openingWatch i s
  if i = wakeCounter s ∧ getN 0x7300 0x0A s ≠ 0 then wakeCheck s else s

/-- The actions of a hit of unit u of counter i at an instant (R264, step 2). -/
def compareActions (i u : Nat) (c : Int) (t : Time) (s : State) : State :=
  let a := getN (ei i (2 + u)) 5 s
  let lc := fun (k : Nat) (s : State) => if bit a k ∧ getN (ci (24 + k) 0) 5 s = 1 then cameraTrigger (24 + k) 0 t s else s
  let s := lc 1 (lc 0 s)
  let s := if bit a 2 ∧ getN 0x4808 2 s = 1 then projectorStart t s else s
  let s := if bit a 3 then
      let n := getI (ei i (2 + u)) 6 s
      noticeAt 9 (4 + i) 0x0100 (changeDetail (ei i (2 + u)) 6 n (n - 1)) t s
    else s
  if bit a 4 ∧ i = wakeCounter s then wakeStep c s else s

/-- Tests compare unit u of counter i after a change of its count (R264). -/
def compareUnit (i : Nat) (t : Time) (u : Nat) (s : State) : State :=
  let o := ei i (2 + u)
  let c := getI (ei i 1) 1 s
  let v := getI o 2 s
  let sp := getI o 3 s
  if getN o 1 s = 0 ∨ sp = 0 ∨ !ctrHas i 0 s ∨ ctrHas i 4 s then s
  else if (0 < sp ∧ v ≤ c) ∨ (sp < 0 ∧ c ≤ v) then
    let k := (c - v).natAbs / sp.natAbs + 1
    let s := setI o 9 c (setTime o 8 t s)
    let s := addN o 6 32 1 s
    let s := setI o 2 (clamp (v + k * sp) (-2147483648) 2147483647) (addN o 7 32 (k - 1) s)
    let left := getN o 4 s
    let s := if left = 0 then s else setN o 4 (left - 1) s
    let s := if left = 1 then setN o 1 0 s else s
    compareActions i u c t s
  else s

/-- The compare units of counter i after a change of its count. -/
def compareAll (i : Nat) (t : Time) (s : State) : State := each [0, 1, 2, 3] (compareUnit i t) s

/-- A count within the soft limits of counter i, which it never leaves (R261). -/
def inLimits (i : Nat) (c : Int) (s : State) : Int := clamp c (getI (ei i 0) 4 s) (getI (ei i 0) 5 s)

/-- The first limit event since the counter was referenced raises a notice (R261). -/
def limitNote (i : Nat) (t : Time) (old : Int) (s : State) : State :=
  if (ctr i s).limitNoted then s
  else
    noticeAt 9 (4 + i) 0x0100 (changeDetail (ei i 1) 5 (getI (ei i 1) 5 s) old) t (modCtr i (fun x => { x with limitNoted := true }) s)

/-- A quadrature edge would pass a soft limit: the count stays (R261). -/
def edgeBeyond (i : Nat) (d : Int) (t : Time) (s : State) : State :=
  let old := getI (ei i 1) 5 s
  let s := setI (ei i 1) 1 (inLimits i (getI (ei i 1) 1 s) s) s
  let s := ctrFlag i 0 false (ctrFlag i (if d < 0 then 1 else 2) true (addN (ei i 1) 0x0A 32 1 s))
  afterCounter i (limitNote i t old s)

/-- The speed and direction after an edge of sign d at an instant (R263). -/
def edgeSpeed (i : Nat) (d : Int) (t : Time) (s : State) : State :=
  let x := ctr i s
  let period : Nat := match x.lastEdge with
    | none => 0
    | some u => nsOf t - nsOf u
  let same := x.lastDir == d
  let speed := if same ∧ 0 < period then 16000000000 / period else 0
  let s := modCtr i (fun x => { x with lastEdge := some t, lastDir := d, period := if same then some period else none }) s
  setI (ei i 1) 4 d (setN (ei i 1) 3 (min speed 2147483647) s)

/-- The sign of a step from one state of A and B to the next: 1 where A leads B (log 26). -/
def quadStep (a b a' b' : Bool) : Int :=
  if a = a' then (if b' = a then 1 else -1) else (if a' = b then -1 else 1)

/-- An edge of A or B of counter i (R259, R261, R263, R264). -/
def encoderEdge (i : Nat) (a b : Bool) (off : Nat) (s : State) : State :=
  let x := ctr i s
  let t := timeAt off s
  let s := modCtr i (fun x => { x with a := a, b := b }) s
  if getN (ei i 0) 1 s = 0 ∨ (x.a = a ∧ x.b = b) then s
  else if x.a ≠ a ∧ x.b ≠ b then afterCounter i (ctrFlag i 0 false (addN (ei i 1) 9 32 1 s))
  else
    let d := quadStep x.a x.b a b * (if getN (ei i 0) 2 s = 1 then -1 else 1)
    let c := getI (ei i 1) 1 s
    let s := edgeSpeed i d t s
    if c + d < getI (ei i 0) 4 s ∨ getI (ei i 0) 5 s < c + d then edgeBeyond i d t s
    else
      let s := ctrFlag i 1 false (ctrFlag i 2 false (setI (ei i 1) 1 (c + d) s))
      afterCounter i (compareAll i t s)

/-- ENCODER_EDGE. -/
def execEncoderEdge (i : Nat) (a bb : Bool) (off : Nat) (s : State) : Host.Outcome State Fault Refusal :=
  gated (.encoderEdge i a bb off) (encoderEdge i a bb off) s

/-- The index position nearest to a count (R262); of two equally near the upper (log 27). -/
def nearestIndex (i : Nat) (c : Int) (s : State) : Int :=
  let p := getN (ei i 0) 7 s
  let e := getI (ei i 0) 6 s
  inLimits i (if p = 0 then e else e + roundHalfUp (c - e) p * p) s

/-- A rising edge of Z with the levels of A and B (R262). -/
def indexPulse (i : Nat) (a b : Bool) (off : Nat) (s : State) : State :=
  let g := getN (ei i 0) 9 s
  let gate := bit g 2 || (a == bit g 0 && b == bit g 1)
  if getN (ei i 0) 1 s = 0 ∨ !gate then s
  else
    let c := getI (ei i 1) 1 s
    let p := nearestIndex i c s
    let d := c - p
    let logIt := fun (s : State) => logAdd 9 (4 + i) 0x0100 (changeDetail (ei i 1) 1 (getI (ei i 1) 1 s) c) (timeAt off s) s
    let s := setTime (ei i 1) 8 (timeAt off s) (setI (ei i 1) 7 d s)
    if ctrHas i 5 s ∨ !ctrHas i 0 s then
      afterCounter i (logIt (ctrFlag i 5 false (setReferenced i (setI (ei i 1) 1 p s))))
    else if d.natAbs ≤ getN (ei i 0) 8 s then
      let s := addN (ei i 1) 0x0B 32 1 (setI (ei i 1) 1 p s)
      afterCounter i (if d = 0 then s else logIt s)
    else
      let old := getI (ei i 1) 5 s
      let s := addN (ei i 1) 0x0C 32 1 (ctrFlag i 4 true (ctrFlag i 3 true s))
      afterCounter i (noticeAt 9 (4 + i) 0x0100 (changeDetail (ei i 1) 5 (getI (ei i 1) 5 s) old) (timeAt off s) s)

/-- INDEX_PULSE. -/
def execIndexPulse (i : Nat) (a bb : Bool) (off : Nat) (s : State) : Host.Outcome State Fault Refusal :=
  gated (.indexPulse i a bb off) (indexPulse i a bb off) s

/-- A write of the count set, held within the soft limits (R259, R261, log 27). -/
def countSet (i : Nat) (v : Int) (s : State) : State := afterCounter i (setReferenced i (setI (ei i 1) 1 (inLimits i v s) s))

/-- COUNT_SET. -/
def execCountSet (i : Nat) (v : Int) (s : State) : Host.Outcome State Fault Refusal := gated (.countSet i v) (countSet i v) s

/-- A write of 1 to the reference arm: it clears the index fault (R262). -/
def referenceArm (i : Nat) (s : State) : State := ctrFlag i 5 true (ctrFlag i 3 false s)

/-- REFERENCE_ARM. -/
def execReferenceArm (i : Nat) (s : State) : Host.Outcome State Fault Refusal := gated (.referenceArm i) (referenceArm i) s

/-- The binary number of an n-bit Gray word. -/
def grayDecode (w : Nat) : Nat → Nat
  | 0 => w
  | k + 1 => w ^^^ (grayDecode w k >>> 1)

/-- A bad SSI frame: three in a row clear the reference (R260). -/
def ssiBad (i : Nat) (s : State) : State :=
  let n := (ctr i s).badRun + 1
  let s := ctrFlag i 6 true (addN (ei i 1) 0x0D 32 1 (modCtr i (fun x => { x with badRun := n }) s))
  if n < 3 then s else afterCounter i (ctrFlag i 0 false s)

/-- The speed and direction of an SSI counter after a good frame with count c (R263). -/
def ssiSpeed (i : Nat) (c : Int) (t : Time) (s : State) : State :=
  let x := ctr i s
  match x.lastGood with
  | none => modCtr i (fun x => { x with lastGood := some (t, c) }) s
  | some (u, c0) =>
    if c = c0 then s
    else
      let d := (c - c0).sign
      let same := x.lastDir == d
      let dt := nsOf t - nsOf u
      let v := if same ∧ 0 < dt then 16000000000 * (c - c0).natAbs / dt else 0
      let s := modCtr i (fun x => { x with lastGood := some (t, c), lastEdge := some t, lastDir := d }) s
      setI (ei i 1) 4 d (setN (ei i 1) 3 (min v 2147483647) s)

/-- A frame of SSI counter i: the data line at the first clock edge and after the monoflop time, and the word (R260, R261). -/
def ssiFrame (i word : Nat) (startLow endHigh : Bool) (off : Nat) (s : State) : State :=
  let t := timeAt off s
  if getN (ei i 0) 1 s = 0 then s
  else if !startLow ∨ !endHigh then ssiBad i s
  else
    let n := getN (ei i 0) 0x0C s
    let w := word % 2 ^ n
    let b : Int := (if getN (ei i 0) 0x0D s = 1 then grayDecode w n else w : Nat)
    let c0 := (if getN (ei i 0) 2 s = 1 then -b else b) + getI (ei i 0) 0x0F s
    let c := clamp c0 (getI (ei i 0) 4 s) (getI (ei i 0) 5 s)
    let old := getI (ei i 1) 5 s
    let s := modCtr i (fun x => { x with badRun := 0 }) (ctrFlag i 6 false s)
    let s := if ctrHas i 0 s then s else setReferenced i s
    let s := ctrFlag i 2 (decide (c < c0)) (ctrFlag i 1 (decide (c0 < c)) s)
    let s := ssiSpeed i c t (setI (ei i 1) 1 c s)
    let s := if c0 = c then s else limitNote i t old s
    afterCounter i (compareAll i t (ctrFlag i 4 false s))

/-- SSI_FRAME. -/
def execSsiFrame (i word : Nat) (startLow endHigh : Bool) (off : Nat) (s : State) : Host.Outcome State Fault Refusal :=
  gated (.ssiFrame i word startLow endHigh off) (ssiFrame i word startLow endHigh off) s

/-- No edge for the standstill time-out: speed and direction read 0 (R263). -/
def counterStandstill (i : Nat) (s : State) : State :=
  setI (ei i 1) 4 0 (setN (ei i 1) 3 0 (modCtr i (fun x => { x with lastEdge := none, lastDir := 0, period := none }) s))

/-- COUNTER_STANDSTILL. -/
def execCounterStandstill (i : Nat) (s : State) : Host.Outcome State Fault Refusal :=
  gated (.counterStandstill i) (counterStandstill i) s

/-- The speed of a counter while it waits for an edge: no more than the time since the last edge allows (R263). -/
def ctrSpeed (i : Nat) (s : State) : Nat :=
  let v := getN (ei i 1) 3 s
  match (ctr i s).lastEdge with
  | none => v
  | some u => if 6 ≤ i ∨ nsOf s.now ≤ nsOf u then v else min v (16000000000 / (nsOf s.now - nsOf u))

/-- Writing 1 to the enable of a disabled counter clears its referenced flag (R259). -/
def ctrEnable (i v : Nat) (s : State) : State :=
  let was := getN (ei i 0) 1 s
  let s := setN (ei i 0) 1 v s
  if v = 1 ∧ was = 0 then afterCounter i (ctrFlag i 0 false s) else s

/-- WAKE_RELEASE: a write of 1 to 0x7300:0C (R267). -/
def wakeRelease (s : State) : State :=
  if getN 0x7300 0x0A s ≠ 2 then s
  else if wakeCause s = 0 then setN 0x7300 0x0B 0 (setN 0x7300 0x0A 1 s)
  else withResult 4 s

/-- WAKE_RELEASE. -/
def execWakeRelease (s : State) : Host.Outcome State Fault Refusal := gated .wakeRelease wakeRelease s

/-- A stall in homing: the axis takes the home position and backs off (R257, step 3). -/
def homed (m : Nat) (s : State) : State :=
  let k := getN (mi m 2) 0x13 s
  let p := getI (mi m 2) 0x11 s
  let s := setI (mi m 1) 6 p (axisFreeze m s)
  let s := if k < 8 then countSet k (getI (mi m 2) 0x14 s) s else s
  let b : Int := getN (mi m 2) 0x12 s
  let s := startProfile m (if getN (mi m 2) 0x0C s = 1 then p - b else p + b) (getN (mi m 2) 0x0D s) s
  modAxis m (fun x => { x with homing := 2 }) s

/-- STALL: the load angle was at its threshold for the stall count (R255-R257). In homing it counts after the blanking distance. -/
def stall (m : Nat) (s : State) : State :=
  match axisState m s with
  | 3 =>
    let x := axis m s
    if x.homing = 1 ∧ getN (mi m 2) 0x0F s ≤ ((axisAt m s.now s).1 - x.homeStart).natAbs then homed m s else s
  | 2 =>
    if ((axisAt m s.now s).2.natAbs) < getN (mi m 2) 3 s then s
    else
      let s := axisFlag m 4 true (axisFlag m 0 false (setN (mi m 1) 8 4 (axisFreeze m s)))
      let n := getI (mi m 2) 0x15 s
      noticeObj 9 m (mi m 2) 0x15 n (addN (mi m 2) 0x15 32 1 s)
  | _ => s

/-- STALL. -/
def execStall (m : Nat) (s : State) : Host.Outcome State Fault Refusal := gated (.stall m) (stall m) s

/-- A write of 1 to the stall clear (R256). -/
def stallClear (m : Nat) (s : State) : State :=
  if axisState m s = 4 then axisStand m (getI (mi m 1) 6 s) s else withResult 4 s

/-- STALL_CLEAR. -/
def execStallClear (m : Nat) (s : State) : Host.Outcome State Fault Refusal := gated (.stallClear m) (stallClear m) s

/-- A write of 1 to the home command (R254, R256, R257): from Standstill, Stalled or Homing failed. -/
def home (m : Nat) (s : State) : State :=
  let st := axisState m s
  if motionHeld s ∨ axisBarred m s ∨ (st ≠ 1 ∧ st ≠ 4 ∧ st ≠ 5) then withResult 4 s
  else
    let p := getI (mi m 1) 6 s
    let far : Int := getN (mi m 2) 0x10 s
    let s := axisFlag m 1 false (axisFlag m 2 false (axisFlag m 3 false (setN (mi m 1) 8 3 s)))
    let s := startProfile m (if getN (mi m 2) 0x0C s = 1 then p + far else p - far) (getN (mi m 2) 0x0D s) s
    modAxis m (fun x => { x with homing := 1, homeStart := p }) s

/-- HOME. -/
def execHome (m : Nat) (s : State) : Host.Outcome State Fault Refusal := gated (.home m) (home m) s

/-- HOMING_TRAVEL_LIMIT: no stall came within the travel limit (R257). -/
def homingTravelLimit (m : Nat) (s : State) : State :=
  if axisState m s = 3 ∧ (axis m s).homing = 1 then
    setNotice 9 m (mi m 1) 8 5 (modAxis m (fun x => { x with homing := 0 }) (axisFreeze m s))
  else s

/-- HOMING_TRAVEL_LIMIT. -/
def execHomingTravelLimit (m : Nat) (s : State) : Host.Outcome State Fault Refusal :=
  gated (.homingTravelLimit m) (homingTravelLimit m) s

/-- BACK_OFF_COMPLETE (R257, step 4). -/
def backOffComplete (m : Nat) (s : State) : State :=
  if axisState m s = 3 ∧ (axis m s).homing = 2 then axisFlag m 0 true (axisStand m (axis m s).goal s) else s

/-- BACK_OFF_COMPLETE. -/
def execBackOffComplete (m : Nat) (s : State) : Host.Outcome State Fault Refusal := gated (.backOffComplete m) (backOffComplete m) s

/-- The current falls to the standstill current (R258). -/
def standstillDelay (m : Nat) (s : State) : State :=
  if axisState m s = 1 ∧ (axis m s).hold = 0 then axisFlag m 1 true (modAxis m (fun x => { x with hold := 1, rampAt := s.now }) s) else s

/-- STANDSTILL_DELAY. -/
def execStandstillDelay (m : Nat) (s : State) : Host.Outcome State Fault Refusal := gated (.standstillDelay m) (standstillDelay m) s

/-- The idle action is applied (R258). -/
def idleAction (m : Nat) (s : State) : State :=
  let a := getN (mi m 2) 8 s
  if axisState m s ≠ 1 ∨ (axis m s).hold ≠ 1 ∨ getN (mi m 2) 9 s = 0 ∨ a = 0 ∨ 2 < a then s
  else axisFlag m 0 false (axisFlag m (if a = 1 then 2 else 3) true (modAxis m (fun x => { x with hold := 2, pins := if a = 1 then 0 else 1 }) s))

/-- IDLE_ACTION. -/
def execIdleAction (m : Nat) (s : State) : Host.Outcome State Fault Refusal := gated (.idleAction m) (idleAction m) s

/-- The energise time has run: the profile starts (R258). -/
def energiseComplete (m : Nat) (s : State) : State :=
  if (axis m s).hold = 3 then modAxis m (fun x => { x with hold := 0, t0 := s.now }) s else s

/-- ENERGISE_COMPLETE. -/
def execEnergiseComplete (m : Nat) (s : State) : Host.Outcome State Fault Refusal := gated (.energiseComplete m) (energiseComplete m) s

/-- A disabled axis is energised: it stands at its position, and its first PWM period begins (R251, R252). -/
def axisStart (m : Nat) (s : State) : State :=
  axisStand m (getI (mi m 1) 6 s) (modAxis m (fun x => { x with pwmNext := s.now, sums := (0, 0), duties := (0, 0) }) s)

/-- A write of an axis's enable: it enters Standstill, or all its pins go to high impedance (R251). -/
def axisEnable (m v : Nat) (s : State) : State :=
  let was := getN (mi m 0) 1 s
  let s := setN (mi m 0) 1 v s
  if v = 1 ∧ was = 0 then axisStart m s
  else if v = 0 ∧ was = 1 then
    let s := axisFreeze m s
    emit (.highZ 3 m) (axisFlag m 0 false (setN (mi m 1) 8 0 (modAxis m (fun x => { x with homing := 0, hold := 0, frozen := false }) s)))
  else s

/-- The position set: in Standstill only (Mm+0x01:0A). -/
def positionSet (m : Nat) (v : Int) (s : State) : State :=
  if axisState m s = 1 then axisFlag m 0 true (setI (mi m 1) 6 v (modAxis m (fun x => { x with start := v, goal := v }) s))
  else withResult 4 s

/-- A write of compare unit u's enable (R264). -/
def unitEnable (i u v : Nat) (s : State) : State :=
  if v = 1 ∧ getI (ei i (2 + u)) 3 s = 0 then withResult 4 s else setN (ei i (2 + u)) 1 v s

/-- A write of a compare unit's spacing (R264). -/
def unitSpacing (i u : Nat) (v : Int) (s : State) : State :=
  if getN (ei i (2 + u)) 1 s = 1 then withResult 4 s
  else if v = 0 then withResult 3 s else setI (ei i (2 + u)) 3 v s

/-- A write of a compare unit's action mask (R264). -/
def unitMask (i u v : Nat) (s : State) : State :=
  if bit v 4 ∧ i ≠ wakeCounter s then withResult 4 s else setN (ei i (2 + u)) 5 v s

/-- Whether a unit of the wake counter steps the wake (R264). -/
def wakeStepsSet (s : State) : Bool := [0, 1, 2, 3].any (fun u => bit (getN (ei (wakeCounter s) (2 + u)) 5 s) 4)

/-- What a read of the motion block forms when it is read: the motion-hold flag of an axis, and the speed of a waiting counter (R254,
R263). -/
def motionValue (i k : Nat) (s : State) : Option Val :=
  if 0x7000 ≤ i ∧ i < 0x7080 ∧ i % 0x20 = 1 ∧ k = 9 then some (.int (setBit (getN i 9 s) 6 (motionHeld s) : Nat))
  else if 0x7200 ≤ i ∧ i < 0x7280 ∧ i % 0x10 = 1 ∧ k = 3 then some (.int (ctrSpeed ((i - 0x7200) / 0x10) s : Nat))
  else none

/-- What a loop frame brings to the motion block: positions, PWM periods, and the wake line. -/
def motionTick (s : State) : State := wakeLatch (each [0, 1, 2, 3] (fun m s => axisShow m s.now (pwmTick m s)) s)

end Sys2Proof.Machine
end

