-- ==== Sys2Proof/Machine/Spots.lean ====
section
/-!
DEFINITION. Sys2Proof/Machine/Spots.lean: spot state records, the separation and plume checks, reservations and the resume paths they
judge (R90, R93-R102, R112-R115).
-/
namespace Sys2Proof.Machine

/-- Mains phase of berth b: 0 none, 1-3 (R112). -/
def phaseOf (b : Nat) (s : State) : Nat := bits (getN 0x1804 (b + 1) s) 1 0

/-- A power word of berth b in mW (R93, R113). -/
def draw (b p : Nat) (s : State) : Nat := p * getN 0x1803 (b + 1) s * 1000 / 2 ^ 20

/-- The wake line berth b uses (R266). -/
def wakeLine (b : Nat) (s : State) : Int := getI 0x7300 9 s - lateralLimit b s

/-- The recoat coordinate of a point (R265). -/
def recoatQ (p : Pt) (s : State) : Int :=
  match getN 0x7300 2 s with
  | 0 => p.x
  | 1 => -p.x
  | 2 => p.y
  | _ => -p.y

/-- Whether berth b is gated by the wake: in a wake layer whose gate is not open, with a manifest of the layer (R266). -/
def wakeGated (b : Nat) (s : State) : Bool :=
  (getN 0x7300 0x0A s == 1 || getN 0x7300 0x0A s == 2) && bit (header (mfBase b s) 0x0F 1 s) 0

/-- The first arc of a segment's open part, at or after an arc, at which q exceeds the berth's wake line (R268). -/
def wakeArcIn (b : Nat) (g : Seg) (from' : Int) (s : State) : Option Int :=
  let beyond := fun (a : Int) => decide (wakeLine b s < recoatQ (pointAt g a) s)
  let p := openPart g
  (chordsOf g).findSome? (fun c =>
    let a0 := max (max c.1 p.1) (from' - g.g0)
    let a1 := min (c.1 + c.2.1) p.2
    if a1 < a0 ∨ !beyond a1 then none
    else if beyond a0 then some (g.g0 + a0)
    else some (g.g0 + bisectT (fun x => beyond x) 64 a0.toNat a1.toNat - 1))

/-- The wake arc of berth b from an arc on, with its segment (R268). -/
def wakeArc (b : Nat) (from' : Int) (s : State) : Option (Seg × Int) :=
  if wakeGated b s then
    ((segs b s).filter (fun g => isOn g.r.ty && decide (from' ≤ g.g0 + (openPart g).2))).findSome? (fun g =>
      (wakeArcIn b g from' s).map (fun a => (g, a)))
  else none

/-- The numbers of the schedule's events that are neither final nor past (R76). -/
def remainingAt (b : Nat) (s : State) : List Nat :=
  (List.range (schedule b s).length).filter (fun i => decide ((berth b s).evDone ≤ i) && !(berth b s).evAhead.contains i)

/-- What remains of the schedule of a berth: the gate-on of a resume, then its events. -/
def remaining (b : Nat) (s : State) : List Event :=
  let l := schedule b s
  (berth b s).reopen.toList ++ (remainingAt b s).filterMap (fun i => l[i]?)

/-- The record before which a spot that has passed k safe points next stops: a FENCE, a WAIT or a HANDOVER to be taken (R47, R103). -/
def stopRecord (b k : Nat) (s : State) : Nat :=
  (((safePoints b s).drop k).findSome? (fun p => match nextRec b s (mfCount b s) p.1 with
    | some (j, r) => if r.ty = 6 ∨ r.ty = 8 ∨ isTaking r then some j else none
    | none => none)).getD (mfCount b s)

/-- The record whose events wait: the one being waited at, the next stop, or the end of a running pause at safe point (R31, R47). -/
def heldRecord (b : Nat) (s : State) : Nat :=
  let n := match (berth b s).waitingAt with
    | some (ri, _) => ri
    | none => stopRecord b (berth b s).stretch s
  ((berth b s).stopAt).elim n (fun st => min n st.ri)

/-- Events up to an arc, then one more. -/
def cutAt (l : List Event) (g : Int) (e : Event) : List Event := l.takeWhile (fun x => decide (x.g < g)) ++ [e]

/-- The pending events of a berth: its schedule up to its next stop (R31, R47), cut at a wake arc (R268) and at the gate-off of a
refused handover (R109). -/
def pendingEvents (b : Nat) (s : State) : List Event :=
  let l := (remaining b s).takeWhile (fun e => decide (e.ri < heldRecord b s))
  let l := match (berth b s).handover.stopAtC0 with
    | none => l
    | some _ =>
      let ri := (berth b s).handover.ri
      let c := (crossFade (mfRec b ri s)).1
      let g := (((segs b s).find? (fun g => g.ri == ri)).elim 0 (fun g => g.g0)) + c * 65536
      cutAt l g { ri := ri, arc := c, g := g, kind := .gate false false }
  match wakeArc b ((actualArc b s.now s).getD 0) s with
  | none => l
  | some (sg, g) => cutAt l g { ri := sg.ri, arc := (g - sg.g0) / 65536, g := g, kind := .wakeOff }

/-- Whether an event opens the gate. -/
def isGateOn (e : Event) : Bool := match e.kind with
  | .gate on _ => on
  | _ => false

/-- The instant of loop frame n. -/
def frameStart (n : Nat) (s : State) : Time := s.now + (n - s.frame) * frameT

/-- Whether a gate-on is planned within the look-ahead (R93, R96, R269). -/
def gateAhead (b : Nat) (s : State) : Bool :=
  let x := berth b s
  let lim := s.now + getN 0x1801 2 s * nsT
  let adv := advance b (.gate true false) s
  let soon := fun (pl : List Phase) (l : List Event) => l.any (fun e => isGateOn e && (match planTime pl e.g with
    | none => false
    | some t => decide (t ≤ lim + adv)))
  if bState b s = 2 then x.wake.isSome || soon x.plan ((remaining b s).takeWhile (fun e => decide (e.ri < heldRecord b s)))
  else if bState b s = 1 then
    match x.startFrame, x.standing with
    | some f, some p =>
      let s := modBerth b (fun x => { x with origin := some (0, p) }) s
      soon (planPath b 0 0 0 (frameStart f s) s) ((schedule b s).takeWhile (fun e => decide (e.ri < stopRecord b 0 s)))
    | _, _ => false
  else false

/-- The unit tangent of the path at an arc, 2^-48; of a run-up, behind its anchor, that of the anchor (R90). -/
def tangentOf (b : Nat) (k : PhaseKind) (g : Int) (s : State) : Int × Int :=
  let z := match k with
    | .runUp a => max a g
    | _ => g
  match segAt (segs b s) z with
  | none => (0, 0)
  | some sg => tangentAt sg (min (z - sg.g0) sg.len)

/-- The planned velocity of a berth at its actual arc, in nm/s times a unit tangent of 2^-48 (R93). -/
def plannedVel (b : Nat) (t : Time) (s : State) : Int × Int :=
  match phaseAt (berth b s).plan t with
  | none => (0, 0)
  | some ph =>
    let at' := phaseArc ph t + predE b t s
    let u := match ph.kind with
      | .move _ _ => plannedTangent b t s
      | k => tangentOf b k at' s
    let v : Int := match ph.kind with
      | .move _ _ => phaseSpeed ph t
      | _ => planSpeedAt (berth b s).plan at'
    (u.1 * v, u.2 * v)

/-- The time to the next safe point of an Exposing berth, or of an Armed one on the path it will begin (R93, R96). -/
def safeTime (b : Nat) (s : State) : Nat :=
  if bState b s = 2 then (timeToSafe b s.now s).elim 0xFFFFFFFF (fun p => p.1)
  else match bState b s, (berth b s).startFrame, (berth b s).standing with
    | 1, some f, some p =>
      let s' := modBerth b (fun x => { x with origin := some (0, p) }) s
      (timeToSafe b s.now (modBerth b (fun x => { x with plan := planPath b 0 0 0 (frameStart f s) s' }) s')).elim 0xFFFFFFFF (fun p => p.1)
    | _, _, _ => 0xFFFFFFFF

/-- The arc of a berth in its HANDOVER record, in ubu. -/
def handoverArc (b : Nat) (s : State) : Int := arcIn b (berth b s).handover.ri s.now s

/-- The spot state record of berth b at the start of the present frame (R93): its velocity is rounded to whole mm/s, half away from
zero, and held to the range of an I16 (log 79). -/
def spotOf (b : Nat) (s : State) : SpotRecord :=
  let x := berth b s
  let p := (actualPoint b s.now s).getD {}
  let v := plannedVel b s.now s
  let mm := fun (z : Int) => clamp (roundHalfAway z (2 ^ 48 * 1000000)) (-32768) 32767
  { hb := 24 * s.hm.seatNo + b, state := bState b s, gate := x.gate, gateAhead := gateAhead b s, window := x.handover.phase == 2, budgetWait := x.waitSince.isSome, priority := if (slotInForce b s).isSome then header (mfBase b s) 0x0E 1 s else 0, phase := phaseOf b s, group := bits (getN 0x1804 (b + 1) s) 5 2, reserved := x.reserved.isSome, requested := x.requested.isSome, x := p.x, y := p.y, vx := mm v.1, vy := mm v.2, draw := draw b (getN (bi b 3) 2 s) s, reservation := x.reserved.getD (x.requested.getD 0), toSafe := safeTime b s, arc := if x.handover.phase = 2 then roundHalfAway (handoverArc b s) 65536 else 0 }

/-- Whether a spot is active (R96). -/
def active (r : SpotRecord) : Bool := (r.state == 1 || r.state == 2) && (r.gate || r.gateAhead) && !r.budgetWait

/-- The relative position of two spots `t` ns on, in 10^-6 bu (R97). -/
def gapAt (i j : SpotRecord) (t : Nat) : Int × Int :=
  ((j.x - i.x) * 1000000 + (j.vx - i.vx) * 128 * t, (j.y - i.y) * 1000000 + (j.vy - i.vy) * 128 * t)

/-- The separation check of a pair: the whole nanoseconds to the breach (R97). -/
def separation (i j : SpotRecord) (s : State) : Option Nat :=
  let m : Int := getI 0x1801 1 s * 1000000
  let look := getN 0x1801 2 s
  let r := gapAt i j 0
  let d := ((j.vx - i.vx) * 128, (j.vy - i.vy) * 128)
  let a := dotp d d
  let b := dotp r d
  let c := dotp r r - m * m
  let q := b * b - a * c
  if !bit (getN 0x1801 8 s) 0 then none
  else if c < 0 then some 0
  else if a = 0 ∨ 0 ≤ b ∨ q ≤ 0 then none
  else if 0 ≤ -b - a * look ∧ q ≤ (-b - a * look) * (-b - a * look) then none
  else
    let k := isqrt q.toNat
    let up : Int := if k * k = q.toNat then k else k + 1
    some ((-b - up) / a).toNat

/-- Whether the subject lies in the source's plume at half-units k of the look-ahead (R98). -/
def inPlume (src sub : SpotRecord) (k : Nat) (s : State) : Bool :=
  let look := getN 0x1801 2 s
  let gx := getI 0x1801 3 s
  let gy := getI 0x1801 4 s
  let r : Int × Int := ((sub.x - src.x) * 2000000 + (sub.vx - src.vx) * 128 * (k * look : Nat),
    (sub.y - src.y) * 2000000 + (sub.vy - src.vy) * 128 * (k * look : Nat))
  let n : Int := (isqrt ((gx * gx + gy * gy).toNat * 2 ^ 64) : Nat)
  let along := dotp r (gx, gy)
  let lateral : Int := (cross r (gx, gy)).natAbs
  let ang := centideg48 (getI 0x1801 6 s)
  decide (0 < along) && decide (along * 2 ^ 32 ≤ getI 0x1801 5 s * 2000000 * n)
    && decide (lateral * 2 ^ 32 * cos48 ang ≤ getI 0x1801 7 s * 2000000 * n * cos48 ang + along * 2 ^ 32 * sin48 ang)

/-- The plume check of a source and a subject: the nanoseconds to the breach (R98). -/
def plume (src sub : SpotRecord) (s : State) : Option Nat :=
  if !bit (getN 0x1801 8 s) 1 ∨ (getI 0x1801 3 s = 0 ∧ getI 0x1801 4 s = 0) then none
  else ([0, 1, 2].find? (fun k => inPlume src sub k s)).map (fun k => k * getN 0x1801 2 s / 2)

/-- Every record of the harbour for the latest frame (R94). -/
def allSpots (s : State) : List SpotRecord := s.hm.own.map (·.2) ++ s.hm.others.map (·.2)

/-- Whether two berths are a handover pair with its window bit set in either record (R99): of a pair with a berth on this chip as it
was when the records were written; which berths of other seats are partners no record says, so for them it is free (log 80). -/
def pairExempt (i j : SpotRecord) (s : State) : Bool :=
  let near := (localBerth i.hb s).isSome || (localBerth j.hb s).isSome
  (i.window || j.window)
    && (if near then s.hm.pairs.contains (i.hb, j.hb) || s.hm.pairs.contains (j.hb, i.hb) else bit (freeVal s) (i.hb + j.hb))

/-- The winner and the loser of a conflict (R100). -/
def judge (i j : SpotRecord) : SpotRecord × SpotRecord :=
  if i.priority < j.priority then (j, i)
  else if j.priority < i.priority then (i, j)
  else if i.hb < j.hb then (i, j) else (j, i)

/-- The word of the highest planned power of a gate-on segment between two arcs of its own (R113). -/
def segPeak (base : Nat) (g : Seg) (a z : Int) (s : State) : Nat :=
  let ends := max (plannedPower base g.r a s) (plannedPower base g.r z s)
  if !isOn g.r.ty ∨ g.r.prof = 0xFFFF then ends
  else points 4096 (profStart base g.r.prof s) ends
where
  /-- The profile's points from p on that lie between the arcs. -/
  points : Nat → Nat → Nat → Nat
    | 0, _, m => m
    | k + 1, p, m =>
      let (o, w) := profPoint base p s
      let m := if a ≤ o * 65536 ∧ (o : Int) * 65536 ≤ z then max m (bits w 20 0) else m
      if bit w 31 then m else points k (p + 1) m

/-- The stretch peak of berth b from an arc to the next safe point beyond it, in mW (R113); a stretch longer than the 4,096 records
that the berth fetches ahead counts at full scale (R54, log 79). -/
def stretchPeak (b : Nat) (from' : Int) (s : State) : Nat :=
  let base := mfBase b s
  let stop := (safePoints b s).find? (fun p => decide (from' < p.2))
  let ri := (place b from' s).1
  let full := match stop with
    | none => decide (ri + 4096 < mfCount b s)
    | some p => decide (ri + 4096 < p.1)
  let z := match stop with
    | none => (segs b s).foldl (fun m g => max m (g.g0 + g.len)) from'
    | some p => p.2
  let l := (segs b s).filter (fun g => decide (from' < g.g0 + g.len ∧ g.g0 < z))
  let pk := maxN (l.map (fun g => segPeak base g (max 0 (from' - g.g0)) (min g.len (z - g.g0)) s))
  let w := if full then fullScale else min fullScale (pk * (10000 + getN 0x1802 4 s) / 10000)
  draw b w s

/-- The sum of the reservations held on a phase: the latest records of the other seats and this chip's berths as they are (R114). -/
def heldOn (ph : Nat) (s : State) : Nat :=
  ((s.hm.others.map (·.2)).filter (fun r => r.phase == ph && r.reserved)).foldl (fun a r => a + r.reservation) 0
    + (berthList.filter (fun b => phaseOf b s == ph)).foldl (fun a b => a + (berth b s).reserved.getD 0) 0

/-- Whether a phase's budget has room for a request (R114). -/
def fits (ph held mW : Nat) (s : State) : Bool :=
  getN 0x1802 ph s != 0 && decide (held + mW ≤ getN 0x1802 ph s * 1000)

/-- At the start of a stretch a berth requests its peak; a berth of no phase requests nothing (R112, R113). -/
def requestStretch (b : Nat) (from' : Int) (s : State) : State :=
  if phaseOf b s = 0 then s
  else
    let mW := stretchPeak b from' s
    modBerth b (fun x => { x with reserved := none, requested := some mW, waitSince := none }) s

/-- Whether berth b waits for a reservation. -/
def requesting (b : Nat) (s : State) : Bool := (berth b s).requested.isSome

/-- The run-up distance v^2 / 2a in ubu. -/
def runUpLen (b v : Nat) (s : State) : Nat := rampLen (accLimit b s) 0 (v * v)

/-- The plan of a resume from Paused (R90, R269): the gate-off jump from p to the run-up point, the run-up to arc g at speed v, the
path beyond; then when the run-up begins. -/
def runUpPlan (b ri : Nat) (g : Int) (v : Nat) (p : Pt) (t : Time) (s : State) : List Phase × Time :=
  let d := runUpLen b v s
  let jump := planMove b p (runUpPoint b g (g - d) s) t s
  let t1 := planEnd jump t
  let t2 := t1 + rampT (accLimit b s) v
  let up : Phase := { t0 := t1, dur := t2 - t1, g0 := g - d, v0 := 0, acc := accLimit b s, kind := .runUp g }
  (jump.dropLast ++ [up] ++ planPath b ri g v t2 s, t1)

/-- The planned speed at an arc of the path as a whole, from rest at its last rest point (R90), in nm/s. -/
def speedAtArc (b : Nat) (g : Int) (s : State) : Nat :=
  let l := (segs b s).filter (fun x => decide (x.g0 + x.len ≤ g) && stopsAfter b x.ri s)
  let (ri, from') := match l.getLast? with
    | none => (0, 0)
    | some x => (x.ri + 1, x.g0 + x.len)
  match (segs b s).find? (fun x => decide (ri ≤ x.ri)) with
  | none => 0
  | some x => planSpeedAt (planPath b x.ri from' 0 0 s) g

/-- The gate-on with which a gate that the schedule holds on at an arc reopens there (R34, R90, R269). -/
def reopenAt (b : Nat) (g : Int) (s : State) : Option Event :=
  let edges := (schedule b s).filter (fun e => match e.kind with
    | .gate _ _ => true
    | _ => false)
  if edges.any (fun e => e.g == g) then none
  else match (edges.filter (fun e => decide (e.g < g))).getLast? with
    | some e => if isGateOn e then
        let p := place b g s
        some { ri := p.1, arc := p.2, g := g, kind := .gate true false } else none
    | none => none

/-- The events numbered from n on without a gap are past: the first not of the list, and what is left of it. -/
def settleDone : Nat → Nat → List Nat → Nat × List Nat
  | 0, n, l => (n, l)
  | k + 1, n, l => if l.contains n then settleDone k (n + 1) (l.filter (· != n)) else (n, l)

/-- The events of the schedule that satisfy `p` are past, the others pending (R76, R90). -/
def setDone (b : Nat) (p : Event → Bool) (s : State) : State :=
  let l := schedule b s
  let d := (List.range l.length).filter (fun i => (l[i]?).any p)
  let n := settleDone d.length 0 d
  modBerth b (fun x => { x with evDone := n.1, evAhead := n.2 }) s

/-- Whether an event lies before a place of the path: at a smaller arc, or at its arc in a record before record ri (R90). -/
def eventBefore (ri : Nat) (g : Int) (e : Event) : Bool := decide (e.g < g ∨ (e.g = g ∧ e.ri < ri))

/-- The LEN value the manifest last set before an arc (R82). -/
def lenBefore (b : Nat) (g : Int) (s : State) : Bool :=
  ((schedule b s).filter (fun e => decide (e.g < g))).foldl (fun v e => match e.kind with
    | .entry 3 _ x => x == 1
    | _ => v) false

end Sys2Proof.Machine
end

