-- ==== Sys2Proof/Machine/Berth.lean ====
section
/-!
DEFINITION. Sys2Proof/Machine/Berth.lean: how a berth's spot leaves a standing position, passes safe points, waits, ends and resumes
(R31, R34-R36, R47, R61, R67-R69, R82, R89-R91, R102, R103, R110, R113, R119, R335, R338, R404).
-/
namespace Sys2Proof.Machine

/-- The arc at which record ri begins, or the end of the path if it begins no motion. -/
def arcOf (b ri : Nat) (s : State) : Int :=
  match (segs b s).find? (fun g => decide (ri ≤ g.ri)) with
  | some g => g.g0
  | none => (segs b s).foldl (fun m g => max m (g.g0 + g.len)) 0

/-- Where the spot stands, or will when its deceleration ends. -/
def restPoint (b : Nat) (s : State) : Option Pt :=
  let x := berth b s
  if x.halting then (match x.plan.getLast? with
    | some ph => phasePoint b ph (ph.t0 + ph.dur) s
    | none => x.standing) else x.standing

/-- When the spot can leave: at once, or at the end of its deceleration. -/
def leaveTime (b : Nat) (t : Time) (s : State) : Time :=
  if (berth b s).halting then max t (planEnd (berth b s).plan t) else t

/-- Puts a berth on a plan that leaves at a point. -/
def onPlan (b : Nat) (l : List Phase) (p : Pt) (s : State) : State :=
  modBerth b (fun x => { x with plan := l, standing := some p, halting := false }) s

/-- The taking berth moves to the run-up point of HANDOVER record ri for a join arc (ubu), and waits there (R103, R110). -/
def toRunUp (b ri : Nat) (r : Rec) (join : Int) (p : Pt) (t : Time) (s : State) : State :=
  let g := arcOf b ri s + join
  let l := planMove b p (runUpPoint b g (g - runUpLen b (r.speed * 1000) s) s) t s
  modBerth b (fun x => { x with handover := { phase := 1, taking := true, ri := ri, partner := field r.raw 28 2, join := join, since := planEnd l t } }) (onPlan b l p s)

/-- Leaves the standing position p at t for record ri (R90): a JUMP or SAFE from there to its own end, any other motion record from
its start, after a gate-off move where the spot stands elsewhere; FENCE and WAIT are waited at, END is at hand. -/
def beginRecord (b ri : Nat) (p : Pt) (t : Time) (s : State) : State :=
  match nextRec b s (mfCount b s) ri with
  | none => onPlan b [] p s
  | some (j, r) =>
    if r.ty = 6 ∨ r.ty = 8 then modBerth b (fun x => { x with waitingAt := some (j, t) }) (onPlan b [] p s)
    else if r.ty = 0x0F then onPlan b [] p s
    else if isTaking r then toRunUp b j r 0 p t s
    else if r.ty = 1 ∨ r.ty = 5 then
      let s := modBerth b (fun x => { x with origin := some (j, p) }) s
      onPlan b (planPath b j (arcOf b j s) 0 t s) p s
    else
      let g := arcOf b j s
      let q := (pathPoint b g s).getD p
      if q.x = p.x ∧ q.y = p.y then onPlan b (planPath b j g 0 t s) p s
      else
        let l := planMove b p q t s
        onPlan b (l.dropLast ++ planPath b j g 0 (planEnd l t) s) p s

/-- The safe points at or before an arc. -/
def safeBefore (b : Nat) (g : Int) (s : State) : Nat := ((safePoints b s).filter (fun p => decide (p.2 ≤ g))).length

/-- A berth goes on from where it waited for its reservation (R113, R114): from rest at the safe point it stands at. -/
def proceed (b : Nat) (t : Time) (s : State) : State :=
  let x := berth b s
  match x.waitingAt with
  | some _ => s
  | none => beginRecord b x.goFrom (x.standing.getD {}) t s

/-- The planned power at the start of a record (R51). -/
def powerOf (b ri : Nat) (s : State) : Nat := plannedPower (mfBase b s) (mfRec b ri s) 0 s

/-- A running pause reaches its safe point: Holding (R31, R89); one placed at the end of a record that is no safe point (`safe` is
false) ends in Paused there (R54). A berth that what fired on the way has stopped is left as it is. -/
def holdAtSafe (b : Nat) (st : SafeStop) (safe : Bool) (t : Time) (s : State) : State :=
  if bState b s ≠ 2 then s
  else if safe then
    stopped b 3 st.cause 1 t (decelerate b t (setResume b st.ri 0 (powerOf b st.ri s) t 1 0 0 s))
  else
    let r := reEntry b st.g s
    stopped b 4 st.cause 2 t (decelerate b t (setResume b st.ri 0 (powerOf b st.ri s) t 2 r.1 r.2 s))

/-- The spot passes its next safe point: a stretch ends and the next begins; it waits there where a FENCE or a WAIT follows, or
until its reservation is granted (R47, R103, R113, log 20). -/
def passSafe (b : Nat) (t : Time) (s : State) : State :=
  let x := berth b s
  match (safePoints b s)[x.stretch]? with
  | none => s
  | some (ri, g) =>
    let p := (pathPoint b g s).getD {}
    let s := modBerth b (fun x => { x with stretch := x.stretch + 1, goFrom := ri, reserved := none }) s
    let s := requestStretch b g s
    let r := (nextRec b s (mfCount b s) ri).getD (ri, {})
    if r.2.ty = 6 ∨ r.2.ty = 8 then modBerth b (fun x => { x with waitingAt := some (r.1, t) }) (onPlan b [] p s)
    else if requesting b s then onPlan b [{ t0 := t, g0 := g }] p s
    else if isTaking r.2 then toRunUp b r.1 r.2 0 p t s
    else s

/-- The instant the actual spot reaches an arc in this frame. -/
def reachedAt (b : Nat) (g : Int) (s : State) : Time := (crossing b g s.now (s.now + frameT) s).getD s.now

/-- A FENCE or WAIT completes: the berth's next motion begins (R47). -/
def waitDone (b : Nat) (t : Time) (s : State) : State :=
  match (berth b s).waitingAt with
  | none => s
  | some (ri, _) =>
    let s := modBerth b (fun x => { x with waitingAt := none }) s
    if requesting b s then modBerth b (fun x => { x with plan := [], goFrom := ri + 1 }) s
    else beginRecord b (ri + 1) ((berth b s).standing.getD {}) t s

/-- Whether berth b waits at a record of a type, and which. -/
def waitsAt (b ty : Nat) (s : State) : Option Rec :=
  if bState b s ≠ 2 then none
  else match (berth b s).waitingAt with
    | none => none
    | some (ri, _) => if (mfRec b ri s).ty = ty then some (mfRec b ri s) else none

/-- Whether every berth of a FENCE's mask waits at a FENCE of its ID: berths of other seats are known only by their frames, whose
records name no FENCE, so for them the command is the witness (R47). -/
def fenceMet (id : Nat) (r : Rec) (s : State) : Bool :=
  (List.range 192).all (fun h => !bit (field r.raw 8 24) h || (match localBerth h s with
    | none => true
    | some b => match waitsAt b 6 s with
      | none => false
      | some q => field q.raw 4 4 == id))

/-- FENCE_COMPLETE: every berth of the mask has reached a FENCE record with this ID (R47). -/
def fenceComplete (id : Nat) (s : State) : State :=
  let at' := berthList.filter (fun b => match waitsAt b 6 s with
    | none => false
    | some r => field r.raw 4 4 == id && fenceMet id r s)
  each at' (fun b s => waitDone b s.now s) s

/-- FENCE_COMPLETE. -/
def execFenceComplete (id : Nat) (s : State) : Host.Outcome State Fault Refusal := gated (.fenceComplete id) (fenceComplete id) s

/-- Whether a WAIT record's count meets its target (R47). -/
def waitMet (r : Rec) (s : State) : Bool :=
  let c := getI (ei (field r.raw 8 1) 1) 1 s
  let z := fieldI r.raw 4 4
  if field r.raw 9 1 = 0 then decide (z ≤ c) else decide (c ≤ z)

/-- WAIT_COMPLETE: at a loop-frame boundary the count meets the target (R47). -/
def waitComplete (b : Nat) (s : State) : State :=
  match waitsAt b 8 s with
  | none => s
  | some r => if waitMet r s then waitDone b s.now s else s

/-- WAIT_COMPLETE. -/
def execWaitComplete (b : Nat) (s : State) : Host.Outcome State Fault Refusal := gated (.waitComplete b) (waitComplete b) s

/-- WAIT_TIMEOUT: a FENCE or WAIT is not complete in its time (R47): Holding with the resume point at that record. -/
def waitTimeout (b : Nat) (s : State) : State :=
  match bState b s, (berth b s).waitingAt with
  | 2, some (ri, _) => stopped b 3 0x000E 1 s.now (setResume b ri 0 0 s.now 1 0 0 s)
  | _, _ => s

/-- WAIT_TIMEOUT. -/
def execWaitTimeout (b : Nat) (s : State) : Host.Outcome State Fault Refusal := gated (.waitTimeout b) (waitTimeout b) s

/-- Every Armed berth due at this frame starts at record 0, from its standing position (R61, R404). -/
def exposeOne (b : Nat) (s : State) : State :=
  match (berth b s).startFrame with
  | none => s
  | some f =>
    if bState b s ≠ 1 ∨ s.frame < f then s
    else
      let p := (berth b s).standing.getD {}
      let s := modBerth b (fun x => { x with startFrame := none, origin := some (0, p), stretch := 0, goFrom := 0, evDone := 0, evAhead := [], plan := [], resuming := false, manifestLen := false, overlap := none, reopen := none }) s
      let s := requestStretch b 0 (enterState b 2 s.now s)
      if requesting b s then s else beginRecord b 0 p s.now s

/-- EXPOSING_START (R61). -/
def execExposingStart (s : State) : Host.Outcome State Fault Refusal := gated .exposingStart (each berthList exposeOne) s

/-- The next annexed run begins, at the source manifest's path from where the spot stands (R119). -/
def startAnnex (b : Nat) (a : Annex) (rest : List Annex) (t : Time) (s : State) : State :=
  let p := (berth b s).standing.getD {}
  let s := modBerth b (fun x => { x with annexNow := some a, annexes := rest, origin := some (a.first, p), stretch := 0, goFrom := a.first, evDone := 0, evAhead := [], overlap := none, reopen := none }) s
  let s := setN 0x1806 (0x10 + b) a.src s
  let g := arcOf b a.first s
  let s := setDone b (fun e => decide (e.ri < a.first)) (modBerth b (fun x => { x with stretch := safeBefore b g s }) s)
  let s := requestStretch b g s
  if requesting b s then s else beginRecord b a.first p t s

/-- Whether a latched bollard has the berth in its mask (R335). -/
def bollardLatched (b : Nat) (s : State) : Bool :=
  (List.range 16).any (fun i => bit (getN 0x0402 0x15 s) i && bit (getN 0x0403 (i + 1) s) b)

/-- The quay links of the topology (R16): 0 QL0, 1 QL1. -/
def quayLinks (s : State) : List Nat :=
  if s.hm.size = 1 then []
  else (if s.hm.seatNo = 0 ∧ !s.hm.ring then [] else [0]) ++ (if s.hm.seatNo + 1 = s.hm.size ∧ !s.hm.ring then [] else [1])

/-- Whether a link is Up. -/
def linkUp (l : Nat) (s : State) : Bool := getN (lki l) 2 s == 7

/-- The object that shows why a resume of berth b is refused under R36, if it is (R36, R88, R147, R248, R297, R325, R335, R338). -/
def resumeBar (b : Nat) (s : State) : Option (Nat × Nat) :=
  let mains := getN 0x0401 8 s
  match slotInForce b s with
  | none => some (qi b, 5)
  | some k =>
    if header (slotBase b k s) 8 4 s ≠ getN 0x8000 9 s then some (0x8000, 9)
    else if slotState b k s = 6 then some (qi b, 0x10)
    else if getN (bi b 4) 9 s ≠ 0 then some (bi b 4, 9)
    else if !linkUp b s ∨ (restPoint b s).isNone then some (hi b, 2)
    else if tripped b s then some (li (8 * b + ((List.range 8).find? (fun k => getN (li (8 * b + k) 5) 9 s != 0)).getD 0) 5, 9)
    else if bollardLatched b s then some (0x0402, 0x15)
    else if mains = 1 ∨ mains = 2 ∨ mains = 3 then some (0x0401, 8)
    else if getN (bi b 0) 6 s = 0x0013 ∧ getN 0x0211 2 s = 2 then some (0x0211, 2)
    else if [0x000B, 0x0011, 0x0012].contains (getN (bi b 0) 6 s) ∧ !(quayLinks s).all (fun k => linkUp (24 + k) s) then
      some (lki (24 + ((quayLinks s).find? (fun k => !linkUp (24 + k) s)).getD 0), 2)
    else none

/-- Refuses a resume of berth b with a notice that names the cause (R36, R102). -/
def resumeRefused (b i k : Nat) (new : Int) (t : Time) (s : State) : State :=
  noticeAt 1 b 0x0100 (changeDetail i k new (getI i k s)) t (withResult 4 s)

/-- The first motion of berth b's plan: its phases of the gate-off move, of the run-up, or of the record with which it leaves (R102). -/
def firstMotion (b : Nat) (s : State) : List Phase :=
  let l := (berth b s).plan.dropWhile (fun ph => ph.v0 == 0 && ph.acc == 0)
  match l with
  | [] => []
  | ph :: _ =>
    let stop := match ph.kind with
      | .path => (segAt (segs b s) ph.g0).map (fun (g : Seg) => g.g0 + g.len)
      | _ => none
    l.takeWhile (fun x => x.kind == ph.kind && (x.v0 != 0 || x.acc != 0) && stop.all (fun z => decide (x.g0 < z)))

/-- The spot of a berth as a resume is judged (R102): at its standing position, with the first motion's direction and top speed. -/
def resumeSpot (b : Nat) (s : State) : SpotRecord :=
  let p := ((berth b s).standing).getD {}
  let l := firstMotion b s
  let ph := l.head?.getD {}
  let top := maxN (l.map (fun x => max x.v0 (phaseSpeed x (x.t0 + x.dur))))
  let (tx, ty) := plannedTangent b ph.t0 s
  let mm := fun (z : Int) => clamp (roundHalfAway (z * top) (2 ^ 48 * 1000000)) (-32768) 32767
  { spotOf b s with x := p.x, y := p.y, vx := mm tx, vy := mm ty }

/-- The harbour berth whose active spot conflicts with a resume, if one does (R102). -/
def resumeConflict (b : Nat) (but : List Nat) (s : State) : Option Nat :=
  let r := resumeSpot b s
  (((allSpots s).filter (fun q => active q && q.hb != r.hb && !but.contains q.hb)).find? (fun q =>
    (separation r q s).isSome || (plume r q s).isSome || (plume q r s).isSome)).map (fun q => q.hb)

/-- Puts a berth on its resume path at t (R90, R110): `join` is the join arc of a taking berth (ubu in the record). The state it
leaves is kept for the judges. -/
def resumePath (b : Nat) (join : Option Int) (t : Time) (s : State) : State :=
  let p := (restPoint b s).getD {}
  let t := leaveTime b t s
  let ri := getN (bi b 1) 2 s
  let s := modBerth b (fun x => { x with standing := some p, halting := false, plan := [], handover := { join := (berth b s).handover.join }, waitingAt := none }) s
  match join with
  | some j =>
    let g := arcOf b ri s + j
    let s := setDone b (eventBefore 0 g) (modBerth b (fun x => { x with stretch := safeBefore b g s, reopen := reopenAt b g s, manifestLen := lenBefore b g s, overlap := none }) s)
    toRunUp b ri (mfRec b ri s) j p t s
  | none =>
    if getN (bi b 1) 8 s = 2 then
      let re := getN (bi b 1) 6 s
      let g := arcOf b re s + getI (bi b 1) 7 s * 65536
      let z := arcOf b ri s + getI (bi b 1) 3 s * 65536
      let l := runUpPlan b re g (speedAtArc b g s) p t s
      setDone b (eventBefore 0 g) (modBerth b (fun x => { x with stretch := safeBefore b g s, reopen := reopenAt b g s, manifestLen := lenBefore b g s, overlap := some (g, z) }) (onPlan b l.1 p s))
    else
      let g := arcOf b ri s
      let s := setDone b (eventBefore ri g) (modBerth b (fun x => { x with stretch := safeBefore b g s, reopen := reopenAt b g s, manifestLen := lenBefore b g s, overlap := none }) s)
      beginRecord b ri p t s

/-- The peak the berth asks for on its resume path (R113). -/
def resumePeak (b : Nat) (s : State) : Nat :=
  let g := if getN (bi b 1) 8 s = 2 then arcOf b (getN (bi b 1) 6 s) s + getI (bi b 1) 7 s * 65536 else arcOf b (getN (bi b 1) 2 s) s
  stretchPeak b g s

/-- A resume is granted: the berth is Exposing on its resume path with its reservation and clearance (R67, R82, R90, R102, R113). -/
def resumeGranted (b : Nat) (mW : Nat) (t : Time) (s : State) : State :=
  let i := bi b 1
  let s := berthEntry b 0x05 t (toLe 4 (getN i 6 s) ++ toLeI 4 (getI i 7 s) ++ toLe 4 (getN i 2 s) ++ toLeI 4 (getI i 3 s)) s
  let s := setN (bi b 0) 6 0 s
  let s := modBerth b (fun x => { x with strength := 0, resuming := true, clearance := true, reserved := if phaseOf b s = 0 then none else some mW, requested := none, waitSince := none, finals := [], gateSched := false }) s
  enterState b 2 t s

/-- What refuses the clearance of berths that resume together, on the state with their resume paths: a conflicting harbour berth
or a phase (R102). -/
def clearanceBar (l : List Nat) (s : State) : Option (Nat × Nat × Nat × Int) :=
  let hbs := l.map (fun b => 24 * s.hm.seatNo + b)
  match l.findSome? (fun b => (resumeConflict b hbs s).map (fun h => (b, h))) with
  | some (b, h) => some (b, 0x1808, 1, h)
  | none =>
    (l.find? (fun b => let ph := phaseOf b s
      ph != 0 && !fits ph (heldOn ph s + ((l.takeWhile (fun c => c != b)).filter (fun c => phaseOf c s == ph)).foldl (fun a c => a + resumePeak c s) 0)
        (resumePeak b s) s)).map (fun b => (b, 0x1802, 8 + phaseOf b s, (phaseOf b s : Int)))

/-- Whether berth b's resume point lies in a HANDOVER record before the end of its cross-fade (R110). -/
def resumesInPair (b : Nat) (s : State) : Option Rec :=
  let r := mfRec b (getN (bi b 1) 2 s) s
  let c := crossFade r
  if r.ty = 7 ∧ getN (bi b 1) 8 s = 2 ∧ getI (bi b 1) 3 s < c.1 + c.2 then some r else none

/-- The join arc of a pair resume from the giving berth's re-entry start (R110). -/
def joinArc (giver : Nat) (s : State) : Int :=
  if getN (bi giver 1) 6 s = getN (bi giver 1) 2 s then max 0 (getI (bi giver 1) 7 s * 65536) else 0

/-- The join arc of a taking berth whose giver is on another seat: the giver's resume arc is c0 where the taker's is (R109, rows 1 and 2),
else it stands in no frame and is free, up to the cross-fade end (log 80). -/
def remoteJoin (b : Nat) (r : Rec) (s : State) : Int :=
  let c := crossFade r
  let a : Int := if getI (bi b 1) 3 s = c.1 then c.1 else ((freeVal s % ((c.1 + c.2).toNat + 1) : Nat) : Int)
  max 0 ((a - getI 0x1800 9 s) * 65536)

/-- A giving berth keeps the join arc of its pair for the launch (R104, R110). -/
def withJoin (b : Nat) (j : Int) (s : State) : State :=
  modBerth b (fun x => { x with handover := { x.handover with join := j } }) s

/-- Resumes berths together: (berth, join arc of a taking berth). -/
def resumeAll (l : List (Nat × Option Int)) (t : Time) (s : State) : State :=
  match l.findSome? (fun x => (resumeBar x.1 s).map (fun o => (x.1, o))) with
  | some (b, i, k) => resumeRefused b i k (getI i k s) t s
  | none =>
    let s' := l.foldl (fun s x => resumePath x.1 x.2 t s) s
    match clearanceBar (l.map (·.1)) s' with
    | some (b, i, k, v) => resumeRefused b i k v t s
    | none => l.foldl (fun s x => resumeGranted x.1 (resumePeak x.1 s) t s) s'

/-- Whether a harbour berth of another seat is in a pause state in its latest record, and not barred from a resume: whether R36 holds
for it stands in no frame, so that is free (R110, log 80). -/
def remotePaused (hb : Nat) (s : State) : Bool :=
  (s.hm.others.find hb).any (fun r => r.state == 3 || r.state == 4) && !bit (freeVal s) 200

/-- A berth whose partner sits on another seat resumes its half of the pair; the partner's seat resumes the other (R94, R110). -/
def resumeHalf (b : Nat) (r : Rec) (t : Time) (s : State) : State :=
  if isTaking r then resumeAll [(b, some (remoteJoin b r s))] t (drawn s)
  else resumeAll [(b, none)] t (withJoin b (joinArc b s) s)

/-- Berth command 3, a harbour resume or an automatic resume reaches a berth (R36, R90, R102, R110). -/
def resume (b : Nat) (t : Time) (s : State) : State :=
  if bState b s ≠ 3 ∧ bState b s ≠ 4 then resumeRefused b (bi b 0) 1 (bState b s) t s
  else match resumesInPair b s with
    | none => resumeAll [(b, none)] t (withJoin b 0 s)
    | some r =>
      let hb := field r.raw 28 2
      match localBerth hb s with
      | none => if remotePaused hb s then resumeHalf b r t (drawn s) else resumeRefused b 0x1805 6 6 t (drawn s)
      | some p =>
        if bState p s ≠ 3 ∧ bState p s ≠ 4 then resumeRefused b (bi p 0) 1 (bState p s) t s
        else if isTaking r then resumeAll [(p, none), (b, some (joinArc p s))] t (withJoin p (joinArc p s) s)
        else resumeAll [(b, none), (p, some (joinArc b s))] t (withJoin b (joinArc b s) s)

/-- RESUME. -/
def execResume (b off : Nat) (s : State) : Host.Outcome State Fault Refusal :=
  gated (.resume b off) (fun s => resume b (timeAt off s) s) s

/-- A wake-held berth resumes when its wake line has passed the wake arc by the margin, or the gate has opened (R269). -/
def wakeResume (b : Nat) (s : State) : State :=
  match (berth b s).wake with
  | none => s
  | some w =>
    if bState b s ≠ 2 ∨ getN (bi b 0) 7 s = 0 then s
    else if getN 0x7300 0x0A s ≠ 3 ∧ wakeLine b s < w.q + getI 0x7300 6 s then s
    else
      let t := leaveTime b s.now s
      let p := (restPoint b s).getD {}
      let l := runUpPlan b w.ri w.g (speedAtArc b w.g s) p t s
      modBerth b (fun x => { x with reopen := reopenAt b w.g s, resuming := true }) (onPlan b l.1 p (setN (bi b 0) 7 0 s))

/-- WAKE_RESUME. -/
def execWakeResume (b : Nat) (s : State) : Host.Outcome State Fault Refusal := gated (.wakeResume b) (wakeResume b) s

end Sys2Proof.Machine
end

