-- ==== Sys2Proof/Machine/Firing.lean ====
section
/-!
DEFINITION. Sys2Proof/Machine/Firing.lean: position-true firing: final events, groups, GATE and LEN, power samples and the modulator, the
actual spot, and the guards of an exposure (R75-R88, R106, R109, R193, R268).
-/
namespace Sys2Proof.Machine

/-- Whether every condition of R83 but the schedule lets the gate be high. -/
def gateAllowed (b : Nat) (s : State) : Bool :=
  bState b s == 2 && (berth b s).len && !bollardForced b s && !(berth b s).halting && getN (bi b 0) 7 s == 0 && !requesting b s

/-- Drives the gate to what the schedule and the conditions of R83 give. -/
def updateGate (b : Nat) (t : Time) (s : State) : State := setGate b ((berth b s).gateSched && gateAllowed b s) t s

/-- The opening instant of the group that an event final at an instant joins, or opens: 50 ns or more after the last group that acted
(R80). -/
def groupAt (b : Nat) (t : Time) (s : State) : Time :=
  let x := berth b s
  let u := (x.lastGroup).elim t (fun v => max t (v + 50 * nsT))
  match x.finals.find? (fun f => decide (u < f.group + 50 * nsT ∧ f.group < u + 50 * nsT)) with
  | some f => f.group
  | none => u

/-- Whether a group triggers the berth's camera: EVENT triggers in modes 0 and 2, periodic in modes 1 and 2; [0] and [1] of R162. -/
def groupTrigger (mode : Nat) (l : List FinalEvent) : Nat :=
  b2n (mode != 1 && l.any (fun f => match f.ev.kind with
    | .entry 1 _ _ => true
    | _ => false)) + 2 * b2n (l.any (fun f => f.ev.kind == .periodic))

/-- The camera trigger of a group is sent once, as soon as an event that calls for it is final, for the group's instant (R80, R153, R236). -/
def triggerFinal (b : Nat) (e : FinalEvent) (s : State) : State :=
  let why := groupTrigger (getN (ci b 0) 5 s) [e]
  if why = 0 ∨ (berth b s).trigAt = some e.group then s
  else cameraTrigger b why e.group (modBerth b (fun x => { x with trigAt := some e.group }) s)

/-- Adds a final event. -/
def addFinal (b : Nat) (t : Time) (e : Event) (s : State) : State :=
  let f : FinalEvent := { t := t, group := groupAt b t s, ev := e }
  triggerFinal b f (modBerth b (fun x => { x with finals := x.finals ++ [f] }) s)

/-- An event is taken out of what remains of the schedule. -/
def consume (b : Nat) (e : Event) (s : State) : State :=
  if (berth b s).reopen = some e then modBerth b (fun x => { x with reopen := none }) s
  else
    let l := schedule b s
    match (remainingAt b s).find? (fun i => l[i]? == some e) with
    | none => s
    | some i =>
      let x := berth b s
      let n := settleDone (x.evAhead.length + 1) x.evDone (x.evAhead ++ [i])
      modBerth b (fun x => { x with evDone := n.1, evAhead := n.2 }) s

/-- The fired instant of a pending event once it is final, all instants before `top` being so (R76, R77); one already past fires at
the next whole nanosecond, on tap 0: that of the boundary at which it is solved (log 78). -/
def finalInstant (b : Nat) (e : Event) (top : Time) (s : State) : Option Time :=
  let adv := advance b e.kind s
  match eventCrossing b e s.now (top + adv) s with
  | none => none
  | some c => if c < s.now + adv ∨ (c = s.now ∧ adv = 0) then some s.now
    else if toTap (c - adv) < top then some (toTap (c - adv)) else none

/-- A pending event that has become final is handed over (R76); one placed beside the schedule is handed over once. -/
def finaliseOne (b : Nat) (top : Time) (s : State) (e : Event) : State :=
  let own := (remaining b s).contains e
  if !own ∧ (berth b s).finals.any (fun f => f.ev == e) then s
  else match finalInstant b e top s with
    | none => s
    | some t => let s := addFinal b t e s; if own then consume b e s else s

/-- The events of an Exposing berth whose instants lie before `top` are final, each by its own solution (R76). -/
def finaliseTo (b : Nat) (top : Time) (s : State) : State :=
  if bState b s = 2 ∧ getN (bi b 0) 7 s = 0 ∧ !(berth b s).halting then (pendingEvents b s).foldl (finaliseOne b top) s else s

/-- The events of an Exposing berth that have become final are handed to the edge generator: 2.5 us ahead (R76). -/
def finaliseBerth (b : Nat) (s : State) : State := finaliseTo b (s.now + frameT) s

/-- The gate edges of a group: on, and whether it may never be dropped (R80, R268). -/
def edgeOf (f : FinalEvent) : Option (Bool × Bool) := match f.ev.kind with
  | .gate on bw => some (on, !on && bw)
  | .wakeOff => some (false, true)
  | _ => none

/-- What a group does to the gate: the scheduled state after it, and the gate edges it drops (R80). -/
def groupGate (before : Bool) (l : List FinalEvent) : Bool × Nat :=
  let es := l.filterMap edgeOf
  let never := es.any (fun e => e.2)
  let after := if never then false else ((es.getLast?).elim before (fun e => e.1))
  (after, if after = before ∧ 2 ≤ l.length then (es.filter (fun e => !e.2)).length else 0)

/-- The LEN value a group sets, if it sets one (R80, R82). -/
def groupLen (l : List FinalEvent) : Option Bool :=
  (l.filterMap (fun f => match f.ev.kind with
    | .entry 3 _ v => some (v == 1)
    | _ => none)).getLast?

/-- The markers, bank selects and power mode of a group's entries, in order (R48, R80, R135, R140). -/
def entryAction (b : Nat) (t : Time) (s : State) (f : FinalEvent) : State :=
  match f.ev.kind with
  | .entry 2 _ v =>
    berthEntry b 0x02 t (toLe 4 f.ev.ri ++ toLeI 4 f.ev.arc ++ toLe 2 v ++ toLe 1 (b2n (inOverlap b t s))) s
  | .entry 4 _ v => manifestMode b v s
  | .entry 5 k v => manifestBank b k v s
  | _ => s

/-- The wake gate-off: the berth holds at the wake line (R268). -/
def wakeHold (b : Nat) (e : Event) (t : Time) (s : State) : State :=
  let q := ((pathPoint b e.g s).map (fun p => recoatQ p s)).getD 0
  let s := setN (bi b 3) 2 0 (addN 0x7301 (b + 1) 32 1 (setN (bi b 0) 7 1 s))
  let s := decelerate b t s
  let stop := ((berth b s).plan.getLast?).elim e.g (fun ph => ph.g0)
  let n := ((remaining b s).filter (fun x => (match x.kind with
    | .entry _ _ _ => true
    | _ => false) && decide (e.g ≤ x.g ∧ x.g ≤ stop))).length
  addN 0x7302 (b + 1) 32 n (modBerth b (fun x => { x with wake := some { ri := e.ri, arc := e.arc, g := e.g, q := q, t := t }, gateSched := false, reopen := none }) s)

/-- The giving berth of a refused handover pauses at c0; its partner's resume point takes the same time (R109). -/
def stopAtC0 (b cause : Nat) (t : Time) (s : State) : State :=
  let h := (berth b s).handover
  let c := (crossFade (mfRec b h.ri s)).1
  let g := arcOf b h.ri s + c * 65536
  let r := reEntry b g s
  let s := setResume b h.ri c (powerAt b g s) t 2 r.1 r.2 s
  let s := stopped b 4 cause 2 t (decelerate b t s)
  match localBerth h.partner s with
  | none => s
  | some p => if bState p s = 4 ∧ (mfRec p (getN (bi p 1) 2 s) s).ty = 7 then setTime (bi p 1) 5 t s else s

/-- The breakwater test of a gate-on group: its planned point inside an enlarged polygon is caught and counted, the first of a
layer with a notice (R193). -/
def caught (s : State) : State :=
  let s' := addN 0x5100 7 32 1 s
  if s.bw.caught then s' else noticeObj 3 2 0x5100 7 (getI 0x5100 7 s) { s' with bw := { s'.bw with caught := true } }

/-- The first gate-on of a group. -/
def groupOn (l : List FinalEvent) : Option Event := (l.find? (fun f => isGateOn f.ev)).map (fun f => f.ev)

/-- Whether an event is a gate edge. -/
def isEdge (e : Event) : Bool := match e.kind with
  | .gate _ _ => true
  | _ => false

/-- Whether a breakwater gate-off ends its run: no breakwater gate-on follows it (R86). -/
def endsInside (b : Nat) (e : Event) (s : State) : Bool :=
  e.kind == .gate false true && (match (((schedule b s).dropWhile (· != e)).drop 1).find? isEdge with
    | some n => n.kind != .gate true true
    | none => true)

/-- The end of a gate-on run in a group, if one ends in it. -/
def groupEnd (b : Nat) (l : List FinalEvent) (s : State) : Option Event :=
  (l.find? (fun f => f.ev.kind == .gate false false || f.ev.kind == .wakeOff || endsInside b f.ev s)).map (fun f => f.ev)

/-- The gate-on run of a berth after a group of `n` events that dropped `dropped` edges (R80): the group counts to the run that was open,
or to the one it opens. -/
def countRun (on : Option Event) (n dropped : Nat) (r : RunStats) : RunStats :=
  let r := if r.opened then r else on.elim r (fun e => { opened := true, first := e.ri })
  if r.opened then { r with merged := r.merged + (n - 1), dropped := r.dropped + dropped } else r

/-- The run a group leaves: a gate-on after the end of a run begins the next. -/
def nextRun (b : Nat) (l : List FinalEvent) (t : Time) (s : State) : State :=
  match groupEnd b l s with
  | none => s
  | some e =>
    let s := endRun b e.ri t s
    match groupOn ((l.dropWhile (fun f => f.ev != e)).drop 1) with
    | none => s
    | some o => modBerth b (fun x => { x with run := { opened := true, first := o.ri } }) s

/-- The gate part of a group (R80, R83, R193). -/
def fireGate (b : Nat) (l : List FinalEvent) (t : Time) (s : State) : State :=
  let before := (berth b s).gateSched
  let (after, dropped) := groupGate before l
  let bad := after && !before && (match groupOn l with
    | none => false
    | some e => (pathFine b e.g s).any (fun p => masked b p s))
  let s := if bad then caught s else s
  let after := after && !bad
  let bw := (l.filter (fun f => f.ev.kind == .gate false true)).length
  let s := addN (bi b 6) 4 32 (if before then bw else 0) (addN (bi b 6) 3 32 dropped (addN (bi b 6) 2 32 (l.length - 1) s))
  let s := if after ∧ !before ∧ !(berth b s).len then addN (bi b 6) 5 32 1 s else s
  let s := modBerth b (fun x => { x with gateSched := after, run := countRun (groupOn l) l.length dropped x.run }) s
  let s := updateGate b t s
  let s := if (berth b s).gate then modBerth b (fun x => { x with resuming := false, wake := none }) s else s
  nextRun b l t s

/-- A group of berth b acts at its opening instant (R80, R81). -/
def fireGroup (b : Nat) (l : List FinalEvent) (t : Time) (s : State) : State :=
  let s := addN (bi b 6) 1 64 1 (modBerth b (fun x => { x with lastGroup := some t }) s)
  let s := match groupLen l with
    | none => s
    | some v => if getN (bi b 2) 3 s = 1 then s else updateLen b t (modBerth b (fun x => { x with manifestLen := v }) s)
  let s := fireGate b l t s
  let s := l.foldl (entryAction b t) s
  let s := match l.find? (fun f => f.ev.kind == .wakeOff) with
    | none => s
    | some f => wakeHold b f.ev t s
  match (berth b s).handover.stopAtC0 with
  | none => s
  | some cause => if l.any (fun f => f.ev.kind == .gate false false && f.ev.ri == (berth b s).handover.ri) then stopAtC0 b cause t s else s

/-- The next group of final events of berth b: its opening instant, its members in order of their instants, what is left (R80). -/
def nextGroup (b : Nat) (s : State) : Option (Time × List FinalEvent × List FinalEvent) :=
  let l := sortBy (fun f => f.t) (berth b s).finals
  match leastBy (fun f => f.group) l with
  | none => none
  | some f => some (f.group, l.filter (fun x => x.group == f.group), l.filter (fun x => x.group != f.group))

/-- EVENT_GROUP (R80): the group's membership is complete once every instant before t0 + 50 ns is final. -/
def eventGroup (b : Nat) (s : State) : State :=
  if bState b s ≠ 2 then s
  else match nextGroup b s with
    | none => s
    | some (t, _, _) =>
      let s := finaliseTo b (t + 50 * nsT) s
      match nextGroup b s with
      | none => s
      | some (t, l, rest) => fireGroup b l t (modBerth b (fun x => { x with finals := rest }) s)

/-- The groups of berth b that open up to a time have acted, `k` at most: a stop at that time comes after them (R31, R80). -/
def firePast (b : Nat) (t : Time) : Nat → State → State
  | 0, s => s
  | k + 1, s =>
    match nextGroup b s with
    | none => s
    | some (u, _, _) => if u ≤ t ∧ bState b s = 2 then firePast b t k (eventGroup b s) else s

/-- What berth b fires up to a time has fired. -/
def fireUpTo (b : Nat) (t : Time) (s : State) : State :=
  let s := finaliseTo b (t + nsT) s
  firePast b t ((berth b s).finals.length + 1) s

/-- EVENT_GROUP. -/
def execEventGroup (b : Nat) (s : State) : Host.Outcome State Fault Refusal := gated (.eventGroup b) (eventGroup b) s

/-- SAFE_POINT_REACHED (R31, R113): what fires up to the safe point has fired when the berth enters Holding. -/
def safePointReached (b : Nat) (s : State) : State :=
  if bState b s ≠ 2 then s
  else
    let hold := fun (st : SafeStop) =>
      let t := reachedAt b st.g s
      holdAtSafe b st ((safePoints b s).any (fun p => p.2 == st.g)) t (fireUpTo b t s)
    match (berth b s).stopAt, (safePoints b s)[(berth b s).stretch]? with
    | some st, some p => if p.2 < st.g then passSafe b (reachedAt b p.2 s) s else hold st
    | some st, none => hold st
    | none, some p => passSafe b (reachedAt b p.2 s) s
    | none, none => s

/-- SAFE_POINT_REACHED. -/
def execSafePointReached (b : Nat) (s : State) : Host.Outcome State Fault Refusal :=
  gated (.safePointReached b) (safePointReached b) s

/-- The actual arc reaches the end of the last motion segment before END: annexed runs follow, else the berth is Idle (R61, R119). -/
def endReached (b : Nat) (s : State) : State :=
  if bState b s ≠ 2 then s
  else
    let t := reachedAt b (arcOf b (mfCount b s) s) s
    let s := fireUpTo b t s
    if bState b s ≠ 2 then s
    else
      let s := if windowPassed b t s then closeWindow b s else s
      let s := comeToRest b (endRun b (getN (bi b 0) 2 s) t s)
      let s := setGate b false t (modBerth b (fun x => { x with gateSched := false, finals := [], reserved := none, requested := none, waitSince := none }) s)
      match (berth b s).annexes with
      | a :: rest => startAnnex b a rest t s
      | [] =>
        let s := setN 0x1806 (0x10 + b) 0xFF (quiet b t s)
        enterState b 0 t (modBerth b (fun x => { x with annexNow := none, manifestLen := false }) s)

/-- END_REACHED. -/
def execEndReached (b : Nat) (s : State) : Host.Outcome State Fault Refusal := gated (.endReached b) (endReached b) s

/-- The weight of a HANDOVER record at an arc (ubu in the record), in 2^-32, on the taking berth (R106): that precision, and the scaled
word rounded half up, are the model's (log 79). -/
def takerWeight (r : Rec) (a : Int) (s : State) : Int :=
  let c := crossFade r
  let u : Int := if c.2 = 0 then (if a < c.1 * 65536 then 0 else 2 ^ 32)
    else clamp ((a - c.1 * 65536) * 65536 / c.2) 0 (2 ^ 32)
  if getN 0x1805 1 s = 0 then u else (3 * u * u * 2 ^ 32 - 2 * u * u * u) / 2 ^ 64

/-- The planned power of berth b at an arc, after the cross-fade weight (R51, R79, R86, R106). -/
def weightedPower (b : Nat) (g : Int) (s : State) : Nat :=
  match segAt (segs b s) g with
  | none => 0
  | some sg =>
    let a := g - sg.g0
    let inside := (clippedIntervals b sg s).any (fun x => decide (x.1 * 65536 ≤ a ∧ a < x.2 * 65536))
    let p := openPart sg
    if !isOn sg.r.ty ∨ inside ∨ sg.len < a ∨ a < p.1 ∨ p.2 < a then 0
    else
      let w := plannedPower (mfBase b s) sg.r a s
      if sg.r.ty ≠ 7 then w
      else
        let k := takerWeight sg.r a s
        (roundHalfUp (w * (if isTaking sg.r then k else 2 ^ 32 - k)) (2 ^ 32)).toNat

/-- The modulator: the converter code of a power word, and its errors (R85). -/
def modulate (b p : Nat) (s : State) : Nat × State :=
  let u : Int := (p - p / 65536 : Nat)
  if getN (bi b 3) 1 s = 0 then ((clamp (roundHalfUp u 16) 0 0xFFFF).toNat, s)
  else
    let x := berth b s
    let v := u + 2 * x.e1 - x.e2
    let c := roundHalfUp v 16
    let e := if c < 0 ∨ 0xFFFF < c then 0 else v - 16 * c
    ((clamp c 0 0xFFFF).toNat, modBerth b (fun x => { x with e2 := x.e1, e1 := e }) s)

/-- The instant of power sample j of the frame whose COMMAND is being formed (R79, log 22). -/
def sampleTime (j : Nat) (s : State) : Time := s.now + frameT + j * 100 * nsT

/-- The plan of berth b rests at a time, at the arc g or before it: the laser has no power there (R45, R79). -/
def restsAt (b : Nat) (t : Time) (g : Int) (s : State) : Bool := match phaseAt (berth b s).plan t with
  | none => false
  | some ph => ph.kind == .path && ph.v0 == 0 && ph.acc == 0 && ph.dur != 0 && decide (ph.g0 ≤ g)

/-- The events of berth b that fire up to a time, in the order in which they do, those not yet final by their present solution (R76,
R80). -/
def dueEvents (b : Nat) (t : Time) (s : State) : List Event :=
  ((sortBy (fun f => f.t) (berth b s).finals).filter (fun f => decide (f.group ≤ t))).map (fun f => f.ev)
    ++ (pendingEvents b s).filter (fun e =>
      let u := t + advance b e.kind s
      (actualArc b u s).any (fun a => decide (e.g ≤ a)) && decide (settledAt b e s ≤ u))

/-- Whether the merged schedule holds the gate high at a time (R80, R83). -/
def gateDue (b : Nat) (l : List Event) (s : State) : Bool :=
  ((l.filterMap (fun e => match e.kind with
    | .gate on _ => some on
    | .wakeOff => some false
    | _ => none)).getLast?).getD (berth b s).gateSched

/-- Whether LEN is active at a time (R82, R83). -/
def lenDue (b : Nat) (l : List Event) (s : State) : Bool :=
  if getN (bi b 2) 3 s = 1 then (berth b s).len
  else
    let v := ((l.filterMap (fun e => match e.kind with
      | .entry 3 _ v => some (v == 1)
      | _ => none)).getLast?).getD (berth b s).manifestLen
    lenWanted b (modBerth b (fun x => { x with manifestLen := v }) s)

/-- The planned power word of a sample before the correction: zero off a run, in an interval and under R83 as its instant is foreseen
(R79, R193, R268). -/
def samplePower (b : Nat) (t : Time) (s : State) : Nat × Bool :=
  match actualArc b (t + getN (bi b 2) 1 s * 1024) s with
  | none => (0, false)
  | some g =>
    let beyond : Bool := match wakeArc b ((actualArc b s.now s).getD 0) s with
      | none => false
      | some (_, z) => decide (z ≤ g)
    let rests := restsAt b (t + getN (bi b 2) 1 s * 1024) g s
    let due := dueEvents b t s
    if bState b s ≠ 2 ∨ (berth b s).halting ∨ !lenDue b due s ∨ bollardForced b s ∨ getN (bi b 0) 7 s = 1 ∨ requesting b s ∨ beyond ∨ rests
      ∨ !gateDue b due s
    then (0, false)
    else
      let w := weightedPower b g s
      if w ≠ 0 ∧ (pathFine b g s).any (fun p => masked b p s) then (0, true) else (w, false)

/-- Sample j of the present frame is taken: its power word is in force, and it counts where the gate is on outside the grid (R73). -/
def sampleTaken (b j : Nat) (s : State) : State :=
  let s := setN (bi b 3) 2 ((berth b s).power.getD j 0) s
  if (berth b s).gate ∧ (plannedPoint b (s.now + j * 100 * nsT) s).any (fun q => !inGrid (fieldMap b s) q) then addN (bi b 6) 6 32 1 s else s

/-- POWER_SAMPLE: sample j of the frame is taken, and that of the next frame is planned for its COMMAND (R73, R79, R193, log 22). -/
def powerSample (b j : Nat) (s : State) : State :=
  let s := sampleTaken b j s
  let r := samplePower b (sampleTime j s) s
  let s := if r.2 then caught s else s
  modBerth b (fun x => { x with words := x.words.take j ++ List.replicate (j - x.words.length) 0 ++ [r.1] }) s

/-- The power word of a planned word: with k5's correction, clamped, and 0 where the planned word is (R84). -/
def correctedWord (corr : Int) (w : Nat) : Nat := if w = 0 then 0 else (clamp ((w : Int) + corr) 0 fullScale).toNat

/-- Power words through the modulator in turn: their converter codes (R85). -/
def modulateAll (b : Nat) : List Nat → State → List Nat × State
  | [], s => ([], s)
  | p :: l, s =>
    let r := modulate b p s
    let q := modulateAll b l r.2
    (r.1 :: q.1, q.2)

/-- The power of the next frame: its planned words with the correction in force for it, and their codes (R84, R85, R126); none where a
sample of the frame was not planned. -/
def formPower (b : Nat) (s : State) : State :=
  let x := berth b s
  let p := if x.words.length = 25 then x.words.map (correctedWord x.corr) else []
  let r := modulateAll b p s
  modBerth b (fun y => { y with words := [], planned := if x.words.length = 25 then x.words.getD 0 0 else 0, power := p, codes := r.1 }) r.2

/-- POWER_SAMPLE. -/
def execPowerSample (b j : Nat) (s : State) : Host.Outcome State Fault Refusal := gated (.powerSample b j) (powerSample b j) s

/-- The lateral guard of an exposure (R86). -/
def lateralGuard (b : Nat) (d : Int) (s : State) : State :=
  if (berth b s).gate ∧ (lateralLimit b s : Int) * 65536 < d.natAbs then faultStop (2 ^ b) 2 0x0009 s.now s else s

/-- The change of the actual arc of berth b over the frame that ended at a time, in ubu (R87). -/
def arcMoved (b : Nat) (t : Time) (s : State) : Option Int :=
  match actualArc b (t - frameT) s, actualArc b t s with
  | some g, some h => some (h - g)
  | _, _ => none

/-- The overspeed guard of an exposure, once per loop frame: at its good sample, or where that is missing (R75, R87, R237, log 45). -/
def overspeed (b : Nat) (s : State) : State :=
  match arcMoved b s.now s with
  | none => s
  | some d => match segAt (segs b s) ((actualArc b s.now s).getD 0) with
    | none => s
    | some g =>
      let limit : Int := (g.r.speed * 1000 * (10000 + getN (bi b 2) 5 s) * 65536 : Nat)
      if (berth b s).gate ∧ limit < d * 3125000 * 10000 then faultStop (2 ^ b) 2 0x0008 s.now s else s

/-- A good feedback sample of berth b at the tick of its frame (R75, R76). The normal of the path is taken to its left, (-ty, tx), so a
deviation to the left is positive (log 78). -/
def feedbackSample (b : Nat) (f : FeedbackFrame) (t : Time) (s : State) : State :=
  let m := fieldMap b s
  match plannedPoint b t s with
  | none => s
  | some p =>
    if !m.held then s
    else
      let (dx, dy) := inverseStep m p.x p.y ((f.mx - mapAt m 0 p.x p.y) * 65536) ((f.my - mapAt m 1 p.x p.y) * 65536)
      let (tx, ty) := plannedTangent b t s
      let e := roundHalfAway (tx * dx + ty * dy) (2 ^ 48)
      let d := roundHalfAway (tx * dy - ty * dx) (2 ^ 48)
      let s := setI (bi b 0) 5 (p.y + roundHalfAway dy 65536) (setI (bi b 0) 4 (p.x + roundHalfAway dx 65536) s)
      let s := modBerth b (fun x => { x with samples := x.samples.drop (x.samples.length - 2) ++ [{ t := t, e := e, d := d }] }) s
      lateralGuard b d (overspeed b (finaliseBerth b s))

/-- The highest reported temperature. -/
def topTemp (l : List Int) : Int := l.foldl max (-32768)

/-- The pause a temperature state asks for reaches berth b while it can stop (R88): 1 warning, 2 limit, 3 time-out. -/
def temperaturePause (b n : Nat) (first : Bool) (s : State) : State :=
  let due := first || (busy b s && (berth b s).handover.stopAtC0.isNone && (n != 1 || (berth b s).stopAt.isNone))
  if !due then s
  else match n with
    | 1 => faultStop (2 ^ b) 1 0x0005 s.now s
    | 2 => faultStop (2 ^ b) 2 0x0006 s.now s
    | 3 => faultStop (2 ^ b) 2 0x0007 s.now s
    | _ => s

/-- A temperature report of the head of berth b (R88). Where the last reports had stopped, a report inside the hysteresis counts as a
warning (log 78). -/
def temperatureReport (b : Nat) (l : List Int) (s : State) : State :=
  let s := each [0, 1, 2, 3] (fun k s => setI (bi b 4) (k + 1) (l.getD k (-32768)) s) s
  let s := modBerth b (fun x => { x with lastStatus := s.now }) s
  let h := topTemp (l.take 4)
  let old := getN (bi b 4) 9 s
  let warn := getI (bi b 4) 5 s
  let n := if getI (bi b 4) 6 s ≤ h then 2
    else if warn ≤ h then 1
    else if h < warn - getI (bi b 4) 7 s then 0
    else if old = 3 then 1 else old
  let s := if n = old then s else setNotice 1 b (bi b 4) 9 n s
  let s := if 1 ≤ n ∧ old ≠ 1 ∧ old ≠ 2 then calStop b s else s
  temperaturePause b n ((n == 2 && old != 2) || (n == 1 && old == 0)) s

/-- TEMPERATURE_REPORT_TIMEOUT (R88). -/
def temperatureTimeout (b : Nat) (s : State) : State :=
  if getN (bi b 4) 9 s = 3 then temperaturePause b 3 false s else temperaturePause b 3 true (setNotice 1 b (bi b 4) 9 3 s)

/-- TEMPERATURE_REPORT_TIMEOUT. -/
def execTemperatureReportTimeout (b : Nat) (s : State) : Host.Outcome State Fault Refusal :=
  gated (.temperatureReportTimeout b) (temperatureTimeout b) s

end Sys2Proof.Machine
end

