-- ==== Sys2Proof/Machine/Harbourmaster.lean ====
section
/-!
DEFINITION. Sys2Proof/Machine/Harbourmaster.lean: what the harbourmaster does with the records of a loop frame (R94-R123, R247):
conflicts, handovers, the power budget, and the reassignment of portable runs.
-/
namespace Sys2Proof.Machine

/-- A declared conflict: kind 0 separation or 1 plume, loser, winner, ns to the breach. -/
structure Conflict where
  kind : Nat := 0
  loser : SpotRecord
  winner : SpotRecord
  breach : Nat := 0
  deriving DecidableEq, Repr

/-- The conflicts of one pair (R97-R100). -/
def pairConflicts (i j : SpotRecord) (s : State) : List Conflict :=
  if pairExempt i j s then []
  else
    let w := judge i j
    let mk := fun (k : Nat) (t : Nat) => ({ kind := k, loser := w.2, winner := w.1, breach := t } : Conflict)
    ((separation i j s).map (mk 0)).toList ++ ((plume i j s).map (mk 1)).toList ++ ((plume j i s).map (mk 1)).toList

/-- Every conflict of the active spots (R96-R100). -/
def conflicts (s : State) : List SpotRecord → List Conflict
  | [] => []
  | i :: l => l.flatMap (fun j => pairConflicts i j s) ++ conflicts s l

/-- Counts and records a conflict (R97, R98, R203). -/
def noteConflict (c : Conflict) (s : State) : State :=
  harbourEntry 0x11 s.now (toLe 1 c.kind ++ toLe 2 c.loser.hb ++ toLe 2 c.winner.hb ++ toLe 4 c.breach)
    (addN 0x1808 (1 + c.kind) 32 1 s)

/-- A berth loses its clearance and stops: at its next safe point if it reaches that 5,000 ns before the breach, else now (R101). -/
def loseClearance (b toSafe breach : Nat) (s : State) : State :=
  let s := modBerth b (fun x => { x with clearance := false }) s
  stopBerth b (if toSafe + 5000 ≤ breach then 1 else 2) 0x0004 s.now s

/-- A pair of which berth b is a member on this chip stops, with the causes of b and of its partner (R37, R108, R109). -/
def pairStops (b code cause other : Nat) (s : State) : State :=
  let n := pairNumbers b s
  if inWindow b s.now s then stopPair b 2 cause other s.now (handoverRefused code n.1 n.2 s.now s) else s

/-- Berth b of this chip takes part in the stop of its partner on another seat, which lost a conflict or stopped (R37, R94, R101). -/
def partnerLost (b : Nat) (s : State) : State := pairStops b 6 0x0014 0x0014 s

/-- The losers of the frame on this chip stop, each judged by its earliest breach, and the partners here of those on other seats
(R100, R101). -/
def stopLosers (l : List Conflict) (s : State) : State :=
  each berthList (fun b s =>
    let mine := l.filter (fun c => localBerth c.loser.hb s == some b)
    let partner := l.any (fun c => (localBerth c.loser.hb s).isNone && (berth b s).handover.partner == c.loser.hb)
    let s := match leastBy (fun c => c.breach) mine with
      | none => s
      | some c => if busy b s then loseClearance b c.loser.toSafe c.breach s else s
    if partner then partnerLost b s else s) s

/-- Separation and plume in one frame (R96-R101). -/
def hmConflicts (s : State) : State :=
  let l := conflicts s ((allSpots s).filter active)
  stopLosers l (l.foldl (fun s c => noteConflict c s) (drawn s))

/-- Issues a harbour command to every own berth (R247). -/
def harbourIssue (s : State) (c : Nat) : State :=
  match c with
  | 1 => each berthList (fun b s => stopBerth b 1 0x0003 s.now s) s
  | 2 => each berthList (fun b s => stopBerth b 2 0x0003 s.now s) s
  | 3 => each berthList (fun b s => if bState b s = 3 ∨ bState b s = 4 then resume b s.now s else s) s
  | _ => s

/-- The harbour commands that reached this seat in the frame before, and its own, by ascending seat (R247). -/
def hmCommands (s : State) : State :=
  let own := (s.hm.carried.map (fun c => (s.hm.seatNo, c))).toList
  let l := sortBy (fun e => e.1) (own ++ s.hm.arrived)
  (l.map (·.2)).foldl harbourIssue
    { s with hm := { s.hm with carried := s.hm.command, command := none, arrived := [] } }

/-- The first HANDOVER berth b still gives: its segment. -/
def nextGiving (b : Nat) (s : State) : Option Seg :=
  let a := (actualArc b s.now s).getD 0
  (segs b s).find? (fun g => g.r.ty == 7 && !isTaking g.r && decide (a ≤ g.g0 + ((crossFade g.r).1 + (crossFade g.r).2) * 65536))

/-- Whether the plan of the giving berth runs at speed v from one arc to another (R104). -/
def steady (b v : Nat) (a z : Int) (s : State) : Bool :=
  (berth b s).plan.all (fun ph => decide (phaseArc ph (ph.t0 + ph.dur) ≤ a ∨ z ≤ ph.g0) || (ph.acc == 0 && ph.v0 == v))

/-- The latest record of a harbour berth. -/
def spotNo (hb : Nat) (s : State) : Option SpotRecord := (allSpots s).find? (fun r => r.hb == hb)

/-- The place and the tangent of berth b's path at an arc. -/
def placeAt (b : Nat) (g : Int) (s : State) : Pt × (Int × Int) := ((pathPoint b g s).getD {}, tangentOf b .path g s)

/-- The distance of a spot from a point, in ubu. -/
def farFrom (r : SpotRecord) (p : Pt) : Nat := (dist { x := r.x, y := r.y } p).toNat

/-- Whether the frame's records of a pair on two seats show that the giving spot needs v / a or less to the join point: the taking spot
waits v^2 / (2a) behind it, so that is twice its own distance, at the speed v (R94, R103, R104, log 21). -/
def recordsDue (giver taker : SpotRecord) (j : Pt × (Int × Int)) : Bool :=
  giver.state == 2 && taker.state == 2 && decide (0 < dotp (giver.vx, giver.vy) j.2)
    && decide (0 ≤ dotp (j.1.x - giver.x, j.1.y - giver.y) j.2)
    && decide (farFrom giver j.1 ≤ 2 * farFrom taker j.1)

/-- The offset from seat 0 of the seat that holds a harbour berth exceeds 0.5 ns (R122): this seat's own, its neighbours' as their QTIME
frames give it; no frame brings that of another seat, and it is free (log 80). -/
def offsetBad (hb : Nat) (s : State) : Bool :=
  let n := hb / 24
  let far := fun (z : Int) => decide (32768 < z.natAbs)
  if n = 0 then false
  else if n = s.hm.seatNo then far (getI 0x1808 6 s)
  else match [0, 1].find? (fun k => getN (lki (24 + k)) 2 s == 7 && getN (lki (24 + k)) 0x0E s == n) with
    | some k => far (link (24 + k) s).neighbourOffset
    | none => bit (freeVal s) (100 + n)

/-- Whether berth p waits at the run-up point of its HANDOVER with the rendezvous margin behind it (R104). -/
def hasWaited (p : Nat) (s : State) : Bool :=
  let h := (berth p s).handover
  h.phase == 1 && decide (h.since + getN 0x1805 3 s * nsT ≤ s.now)

/-- Whether a berth of this chip is Exposing with its clearance and, where it draws on a phase, its reservation (R104). -/
def cleared (b : Nat) (s : State) : Bool :=
  bState b s == 2 && (berth b s).clearance && (phaseOf b s == 0 || (berth b s).reserved.isSome)

/-- Whether a berth of another seat is Exposing and, where it draws on a phase, holds its reservation (R104); it has its clearance, since
one that loses it stops. -/
def clearedThere (r : Option SpotRecord) : Bool := r.any (fun r => r.state == 2 && (r.phase == 0 || r.reserved))

/-- The first failing condition of R104 as its code, the lowest where several fail (log 79), 0 where all hold. -/
def launchCause (waits clear constant before : Bool) : Nat :=
  if !waits then 1 else if !clear then 2 else if !constant then 3 else if !before then 4 else 0

/-- The refusal code of a launch by giving berth b, 0 if every condition of R104 holds; the taking berth is p where it is on this chip. -/
def launchCode (b : Nat) (g : Seg) (p : Option Nat) (join : Int) (s : State) : Nat :=
  let v := g.r.speed * 1000
  let c := crossFade g.r
  let hb := field g.r.raw 28 2
  let waits : Bool := match p with
    | none => (s.hm.rests.find hb).any (fun t => decide (t + getN 0x1805 3 s * nsT ≤ s.now))
    | some p => hasWaited p s && (berth p s).handover.partner == 24 * s.hm.seatNo + b
  let clear : Bool := (berth b s).clearance && (match p with
    | none => clearedThere (s.hm.others.find hb) && !offsetBad (24 * s.hm.seatNo) s && !offsetBad hb s
    | some p => cleared p s)
  launchCause waits clear (steady b v (g.g0 + join) (g.g0 + (c.1 + c.2) * 65536) s) (decide ((actualArc b s.now s).getD 0 ≤ g.g0 + join))

/-- The taking berth is launched: it runs up to the join arc (R104, R105). -/
def launchTaker (p : Nat) (s : State) : State :=
  let h := (berth p s).handover
  let r := mfRec p h.ri s
  let v := r.speed * 1000
  let g := arcOf p h.ri s + h.join
  let d := runUpLen p v s
  let t := s.now + rampT (accLimit p s) v
  let up : Phase := { t0 := s.now, dur := t - s.now, g0 := g - d, v0 := 0, acc := accLimit p s, kind := .runUp g }
  modBerth p (fun x => { x with plan := up :: planPath p h.ri g v t s, handover := { x.handover with phase := 2, since := t, launched := s.frame } }) s

/-- The next HANDOVER that berth p takes from a harbour berth: its record. -/
def nextTaking (p hb : Nat) (s : State) : Option Nat :=
  let a := (actualArc p s.now s).getD 0
  ((segs p s).find? (fun g => isTaking g.r && field g.r.raw 28 2 == hb && decide (a ≤ g.g0 + g.len))).map (fun g => g.ri)

/-- A refused taking berth pauses at its run-up point: now where it waits there, else once it has come there (R109). -/
def takerRefused (p hb : Nat) (s : State) : State :=
  let s := modBerth p (fun x => { x with clearance := false }) s
  let h := (berth p s).handover
  if bState p s ≠ 2 then s
  else if h.phase = 1 ∧ h.partner = hb ∧ h.since ≤ s.now then takerAtC0 p 0x0004 s.now s
  else modBerth p (fun x => { x with refusedAt := (nextTaking p hb s).map (fun i => (i, 0x0004)) }) s

/-- A refused taking berth has come to its run-up point (R109): its resume time is that of the giving berth's gate-off. -/
def arriveRefused (p : Nat) (s : State) : State :=
  let h := (berth p s).handover
  match (berth p s).refusedAt with
  | none => s
  | some (i, cause) =>
    if bState p s ≠ 2 ∨ h.phase ≠ 1 ∨ h.ri ≠ i ∨ s.now < h.since then s
    else
      let s := takerAtC0 p cause s.now s
      match localBerth h.partner s with
      | some g => if bState g s = 4 then setN (bi p 1) 5 (getN (bi g 1) 5 s) s else s
      | none => s

/-- A handover is refused at launch on the giving berth's seat (R104, R109). -/
def launchRefused (b code : Nat) (g : Seg) (p : Option Nat) (s : State) : State :=
  let hb := 24 * s.hm.seatNo + b
  let s := handoverRefused code hb (field g.r.raw 28 2) s.now s
  let s := modBerth b (fun x => { x with clearance := false, handover := { x.handover with partner := field g.r.raw 28 2 } }) s
  let s := giverToC0 b g.ri 0x0004 s
  match p with
  | none => s
  | some p => takerRefused p hb s

/-- Giving berth b enters the window of its pair (R104). -/
def openGiver (b : Nat) (g : Seg) (join : Int) (s : State) : State :=
  modBerth b (fun x => { x with handover := { phase := 2, ri := g.ri, partner := field g.r.raw 28 2, join := join, since := s.now, launched := s.frame } }) s

/-- The launch decision for giving berth b with a partner on this chip: at the boundary at which its predicted time to the join arc first
is v / a or less (R104). -/
def launchHere (b p : Nat) (g : Seg) (s : State) : State :=
  let v := g.r.speed * 1000
  let join := if (berth p s).handover.phase = 1 then (berth p s).handover.join else 0
  match crossing b (g.g0 + join) s.now (s.now + rampT (accLimit p s) v) s with
  | none => s
  | some _ =>
    let code := launchCode b g (some p) join s
    if code ≠ 0 then launchRefused b code g (some p) s else launchTaker p (openGiver b g join s)

/-- The launch decision for giving berth b with its partner on another seat, on the records that both seats have (R94, R104, log 21). -/
def launchAway (b : Nat) (g : Seg) (s : State) : State :=
  let hb := field g.r.raw 28 2
  let join := (berth b s).handover.join
  match spotNo (24 * s.hm.seatNo + b) s, spotNo hb s with
  | some mine, some r =>
    if !recordsDue mine r (placeAt b (g.g0 + join) s) then s
    else
      let code := launchCode b g none join s
      let s := drawn s
      if code ≠ 0 then launchRefused b code g none s else openGiver b g join s
  | _, _ => s

/-- The launch decision for giving berth b (R104, R122). -/
def hmLaunch (b : Nat) (s : State) : State :=
  if bState b s ≠ 2 ∨ (berth b s).handover.phase ≠ 0 then s
  else match nextGiving b s with
    | none => s
    | some g => match localBerth (field g.r.raw 28 2) s with
      | some p => launchHere b p g s
      | none => launchAway b g s

/-- The refusal code of a launch of taking berth p by a giving berth on another seat, whose planned speed no record shows (R94, R104). -/
def launchCodeAway (p : Nat) (giver : SpotRecord) (s : State) : Nat :=
  let clear := cleared p s && clearedThere (some giver) && !offsetBad (24 * s.hm.seatNo) s && !offsetBad giver.hb s
  launchCause (hasWaited p s) clear true true

/-- The launch decision for taking berth p with its partner on another seat (R94, R104, R109, R122). -/
def hmRemoteLaunch (p : Nat) (s : State) : State :=
  let h := (berth p s).handover
  let hb := h.partner
  if bState p s ≠ 2 ∨ h.phase ≠ 1 ∨ (localBerth hb s).isSome then s
  else match spotNo (24 * s.hm.seatNo + p) s, spotNo hb s with
    | some mine, some r =>
      if !recordsDue r mine (placeAt p (arcOf p h.ri s + h.join) s) then s
      else
        let code := launchCodeAway p r s
        let s := drawn s
        if code ≠ 0 then takerRefused p hb (handoverRefused code hb (24 * s.hm.seatNo + p) s.now s) else launchTaker p s
    | _, _ => s

/-- The planned path of a taking berth after its run-up: it follows the giving berth's arc of frame f (R105). -/
def followGiver (p : Nat) (s0 : Int) (s : State) : State :=
  let h := (berth p s).handover
  let v := (mfRec p h.ri s).speed * 1000
  let base := arcOf p h.ri s
  let t := s.now - frameT
  let g := base + s0 * 65536
  let z := base + h.join
  if g < z then
    let u := cruiseT (z - g).toNat v
    modBerth p (fun x => { x with plan := ({ t0 := t, dur := u, g0 := g, v0 := v, kind := .runUp z } : Phase) :: planPath p h.ri z v (t + u) s }) s
  else modBerth p (fun x => { x with plan := planPath p h.ri g v t s }) s

/-- Whether a partner on another seat shows no window in its record of a frame after the launch (R104). -/
def partnerGone (b : Nat) (other : Option SpotRecord) (s : State) : Bool :=
  let h := (berth b s).handover
  (localBerth h.partner s).isNone && decide (h.launched < s.frame - 1) && other.all (fun r => !r.window)

/-- One frame of the window of berth b: its end, the stop of a partner on another seat, following, convergence, and the hold of loop k6
(R105, R107-R109). -/
def hmWindow (b : Nat) (s : State) : State :=
  let h := (berth b s).handover
  if h.phase ≠ 2 ∨ bState b s ≠ 2 then s
  else
    let c := crossFade (mfRec b h.ri s)
    let mine := spotNo (24 * s.hm.seatNo + b) s
    let other := spotNo h.partner s
    let giver := if h.taking then other else mine
    let gone := partnerGone b other s
    let nearEnd := decide ((c.1 + c.2) * 65536 ≤ handoverArc b s + ((mfRec b h.ri s).speed : Int) * 1000 * (2 * frameT : Nat) * 128 / 10 ^ 12)
    let ended : Bool := if h.taking then (match localBerth h.partner s with
        | some p => (berth p s).handover.phase != 2
        | none => gone && nearEnd)
      else windowPassed b s.now s
    if ended then closeWindow b s
    else if gone ∧ !nearEnd then pairStops b 6 (if other.any (fun r => r.state == 2) then 0x0004 else 0x0014) 0x0014 s
    else
      let s := if h.taking ∧ h.since ≤ s.now then followGiver b ((giver.map (fun r => r.arc)).getD 0) s else s
      let a := handoverArc b s
      let s := modBerth b (fun x => { x with handover := { x.handover with k6Held := decide (c.1 * 65536 ≤ a ∧ a < (c.1 + c.2) * 65536) } }) s
      match mine, other with
      | some i, some j =>
        let d := vsub (i.x, i.y) (j.x, j.y)
        let first := !h.taking || (localBerth h.partner s).isNone
        if i.window ∧ j.window ∧ 0 ≤ i.arc ∧ 0 ≤ j.arc ∧ first ∧ getI 0x1805 2 s * getI 0x1805 2 s < dotp d d then
          pairStops b 5 0x0004 0x0004 s else s
      | _, _ => s

/-- A berth whose partner on another seat has left its pause state resumes its half of the pair (R94, R110). -/
def followResume (b : Nat) (s : State) : State :=
  match resumesInPair b s with
  | none => s
  | some r =>
    let hb := field r.raw 28 2
    if (bState b s = 3 ∨ bState b s = 4) ∧ (localBerth hb s).isNone ∧ (spotNo hb s).any (fun q => q.state == 2)
        ∧ (s.hm.before.find hb).any (fun n => n == 3 || n == 4) then resumeHalf b r s.now s
    else s

/-- Handovers in one frame. -/
def hmHandovers (s : State) : State :=
  let s := each berthList hmRemoteLaunch (each berthList hmLaunch (each berthList followResume s))
  each berthList hmWindow (each berthList arriveRefused s)

/-- Seat 0's tide angle of the frame the records describe, and whether its tracker is locked (R94, R115, R323). -/
def tideInUse (s : State) : Nat × Bool :=
  if s.hm.seatNo = 0 then (s.hm.tide, s.hm.tideLocked)
  else match s.hm.seats.find 0 with
    | none => (0, false)
    | some f => (f.tide, f.tideLocked)

/-- The place of a request in the rotation order (R115); a group number at or above the count is taken modulo it (log 79). -/
def rotationKey (s : State) (r : SpotRecord) : Nat :=
  let g := max 1 (getN 0x1802 7 s)
  let th := tideInUse s
  let lead := if th.2 then ((th.1 + 2 ^ 32 - getN 0x1802 8 s % 2 ^ 32) % 2 ^ 32) * g / 2 ^ 32 else 0
  ((r.group % g + g - lead) % g) * 65536 + (255 - r.priority) * 256 + r.hb

/-- The requests granted in order: serving stops at the first that does not fit (R114). -/
def grants (s : State) : List SpotRecord → List Nat → List SpotRecord
  | [], _ => []
  | r :: l, held => if fits r.phase (held.getD r.phase 0) r.reservation s then
      r :: grants s l (held.set r.phase (held.getD r.phase 0 + r.reservation)) else []

/-- A waiting request of own berth b is granted or waits (R114). -/
def serve (granted : List Nat) (b : Nat) (s : State) : State :=
  match (berth b s).requested with
  | none => s
  | some mW =>
    if !(spotNo (24 * s.hm.seatNo + b) s).any (fun r => r.requested) then s
    else if granted.contains (24 * s.hm.seatNo + b) then
      let s := modBerth b (fun x => { x with reserved := some mW, requested := none, waitSince := none }) s
      if bState b s = 2 then proceed b s.now s else s
    else match (berth b s).waitSince with
      | some _ => s
      | none => addN 0x1808 3 32 1 (modBerth b (fun x => { x with waitSince := some s.now }) s)

/-- The draw of a phase in one frame, and its run of overloads, at most eight (R116). -/
def phaseDraw (ph : Nat) (s : State) : State :=
  let d := (((allSpots s).filter (fun r => r.phase == ph)).map (fun r => r.draw)).foldl (· + ·) 0
  let limit := getN 0x1802 ph s * 1000 * (10000 + getN 0x1802 5 s)
  let n := if limit < d * 10000 then min 8 (s.hm.excess.getD (ph - 1) 0 + 1) else 0
  setN 0x1802 (8 + ph) (d % 2 ^ 32) { s with hm := { s.hm with excess := s.hm.excess.set (ph - 1) n } }

/-- The power budget in one frame (R114-R116). -/
def hmBudget (s : State) : State :=
  let s := setN 0x1808 5 (tideInUse s).1 s
  let held := [0, 1, 2, 3].map (fun ph => (((allSpots s).filter (fun r => r.phase == ph && r.reserved)).map (fun r => r.reservation)).foldl (· + ·) 0)
  let asks := sortBy (rotationKey s) ((allSpots s).filter (fun r => r.requested && !r.reserved))
  let l := (grants s asks held).map (fun r => r.hb)
  each [1, 2, 3] phaseDraw (each berthList (serve l) s)

/-- The handover partners of this chip's berths, by harbour berth (R99). -/
def pairsNow (s : State) : List (Nat × Nat) :=
  (berthList.filter (fun b => (berth b s).handover.phase != 0)).map (fun b => (24 * s.hm.seatNo + b, (berth b s).handover.partner))

/-- Writes the records of the present frame, and what goes with them for their evaluation (R93, R94, R99). -/
def hmRecords (s : State) : State :=
  let tide := getN 0x0400 9 s
  { s with hm := { s.hm with own := berthList.map (fun b => (b, spotOf b s)), tide := getN 0x0400 7 s, tideLocked := tide == 2 || tide == 3, pairs := pairsNow s, before := s.hm.others.map (fun e => (e.1, e.2.state)) } }

/-- Since when the spots of other seats rest while they expose with their gate low (R104): from the start of the first such frame. -/
def trackRests (s : State) : State :=
  let still := s.hm.others.filter (fun e => e.2.state == 2 && e.2.vx == 0 && e.2.vy == 0 && !e.2.gate)
  { s with hm := { s.hm with rests := still.map (fun e => (e.1, (s.hm.rests.find e.1).getD (s.now - frameT))) } }

/-- The harbourmaster at a loop-frame boundary, on the records of the frame before (R94). -/
def hmTick (s : State) : State := hmRecords (hmBudget (hmHandovers (hmConflicts (hmCommands (trackRests s)))))

/-- BUDGET_WAIT_TIMEOUT (R114). -/
def budgetWaitTimeout (b : Nat) (s : State) : State :=
  if bState b s = 2 ∧ (berth b s).waitSince.isSome then
    stopped b 3 0x0004 1 s.now (setResume b (berth b s).goFrom 0 (powerOf b (berth b s).goFrom s) s.now 1 0 0 s)
  else s

/-- BUDGET_WAIT_TIMEOUT. -/
def execBudgetWaitTimeout (b : Nat) (s : State) : Host.Outcome State Fault Refusal :=
  gated (.budgetWaitTimeout b) (budgetWaitTimeout b) s

/-- The berth a budget withdrawal of a phase takes: of those that draw, lowest priority, then highest harbour berth (R116). -/
def withdrawalBerth (ph : Nat) (s : State) : Option SpotRecord :=
  leastBy (fun r => r.priority * 256 + (255 - r.hb)) ((allSpots s).filter (fun r => r.phase == ph && r.draw != 0))

/-- A phase's draw has exceeded its limit for eight frames (R116). -/
def budgetWithdrawal (p : Nat) (s : State) : State :=
  if s.hm.excess.getD p 0 < 8 then s
  else
    let s := { s with hm := { s.hm with excess := s.hm.excess.set p 0 } }
    match withdrawalBerth (p + 1) s with
    | none => s
    | some r =>
      let old := getI 0x1808 4 s
      let s := harbourEntry 0x13 s.now (toLe 1 (p + 1) ++ toLe 2 r.hb) (noticeObj 3 0 0x1808 4 old (addN 0x1808 4 32 1 s))
      match localBerth r.hb s with
      | none => s
      | some b => stopBerth b 1 0x0004 s.now (modBerth b (fun x => { x with clearance := false }) s)

/-- BUDGET_WITHDRAWAL. -/
def execBudgetWithdrawal (p : Nat) (s : State) : Host.Outcome State Fault Refusal :=
  gated (.budgetWithdrawal p) (budgetWithdrawal p) s

/-- A write of a berth to 0x1806:02: a Holding berth of an enabled reassignment (R118). -/
def reassignBerth (b : Nat) (s : State) : State :=
  if bState b s ≠ 3 ∨ getN 0x1806 1 s = 0 then withResult 4 s
  else { s with hm := { s.hm with trigger := s.hm.trigger ++ [b] } }

/-- REASSIGN_BERTH. -/
def execReassignBerth (b : Nat) (s : State) : Host.Outcome State Fault Refusal := gated (.reassignBerth b) (reassignBerth b) s

/-- The portable runs of berth b's manifest from record i on, `k` records to go; `prev` says that the record before carries
safe-end, `start` is where an open run begins, which ends at the first safe-end after its JUMP (R49, R118). -/
def portableRuns (b : Nat) (s : State) : Nat → Nat → Bool → Option Nat → List (Nat × Nat)
  | 0, _, _, _ => []
  | k + 1, i, prev, start =>
    let r := mfRec b i s
    let port := bit r.flags 1
    let start := match start with
      | some x => if port then some x else none
      | none => if r.ty = 1 ∧ prev ∧ port then some i else none
    match start with
    | some x => if bit r.flags 0 ∧ x ≠ i then (x, i) :: portableRuns b s k (i + 1) true none else portableRuns b s k (i + 1) false start
    | none => portableRuns b s k (i + 1) (bit r.flags 0) none

/-- The remaining portable runs of a source from its resume record on. -/
def remainingRuns (b : Nat) (s : State) : List (Nat × Nat) :=
  let i := getN (bi b 1) 2 s
  let prev := decide (0 < i) && bit (mfRec b (i - 1) s).flags 0
  (portableRuns b s (mfCount b s - i) i prev none).filter (fun r => !mfSkip b s r.1)

/-- The points by which a segment's extent is judged: ends, the crossings of the axes of an ARC's sweep, the control points of a
SPLINE; of a JUMP its end, since it starts at the end before it or where the spot stands (R59 code 0x09, log 39). -/
def extentPoints (g : Seg) : List Pt :=
  let base := if g.r.ty = 1 then [recEnd g.p0 g.r] else [g.p0, recEnd g.p0 g.r]
  if g.r.ty = 4 then
    base ++ [{ x := fieldI g.r.raw 8 4, y := fieldI g.r.raw 12 4 }, { x := fieldI g.r.raw 16 4, y := fieldI g.r.raw 20 4 }]
  else if g.r.ty = 3 then
    let c := arcCentre g.r
    let a0 := direction48 (g.p0.x - c.x) (g.p0.y - c.y)
    let th := arcSweep g.p0 g.r
    base ++ ([0, 1, 2, 3].filterMap (fun (k : Int) =>
      let d := (if bit g.r.flags 2 then k * pi48 / 2 - a0 else a0 - k * pi48 / 2) % (2 * pi48)
      if d ≤ th then some (pointAt g (g.len * d / max 1 th)) else none))
  else base

/-- Whether the records of a run lie in a map's grid, the way to the end of its JUMP apart (R118). -/
def runInGrid (b : Nat) (run : Nat × Nat) (m : FieldMap) (s : State) : Bool :=
  ((segs b s).filter (fun g => decide (run.1 ≤ g.ri ∧ g.ri ≤ run.2))).all (fun g =>
    (extentPoints g).all (inGrid m))

/-- The annexed records a berth holds, and its annexed runs. -/
def annexLoad (t : Nat) (s : State) : Nat × Nat :=
  let l := (berth t s).annexes ++ (berth t s).annexNow.toList
  ((l.map (fun a => a.last + 1 - a.first)).foldl (· + ·) 0, l.length)

/-- Whether berth t may take a run of berth b (R118). -/
def mayTake (b : Nat) (run : Nat × Nat) (t : Nat) (s : State) : Bool :=
  t != b && bit (getN 0x1807 (b + 1) s) t
    && (match slotInForce t s with
        | none => false
        | some k => header (slotBase t k s) 8 4 s == getN 0x8000 9 s)
    && bState t s != 5 && getN (bi t 4) 9 s == 0 && getN (bi t 5) 6 s == header (mfBase b s) 0x28 4 s
    && runInGrid b run (fieldMap t s) s && decide ((annexLoad t s).2 < 64)

/-- Gives a run to the candidate with the fewest annexed records (R118-R120). -/
def giveRun (b : Nat) (s : State) (run : Nat × Nat) : State :=
  match leastBy (fun t => (annexLoad t s).1) (berthList.filter (fun t => mayTake b run t s)) with
  | none => s
  | some t =>
    let s := modBerth t (fun x => { x with annexes := x.annexes ++ [{ src := b, first := run.1, last := run.2 }] }) s
    let s := modBerth b (fun x => { x with givenAway := x.givenAway ++ [run] }) s
    let s := addN 0x1806 3 32 1 s
    let e := toLe 4 run.1 ++ toLe 4 run.2 ++ toLe 1 b ++ toLe 1 t
    let s := berthEntry t 0x06 s.now e (berthEntry b 0x06 s.now e s)
    notice 3 0 0x0100 (toLe 2 0x1806 ++ toLe 1 3 ++ toLe 1 t ++ toLe 4 run.1 ++ toLe 4 run.2) s

/-- The resume record moves past the runs that were given away (R120). -/
def skipResume (b : Nat) (s : State) : State :=
  let i := getN (bi b 1) 2 s
  if mfSkip b s i then
    let j := ((List.range (mfCount b s - i)).find? (fun k => !mfSkip b s (i + k))).getD 0
    setI (bi b 1) 3 0 (setN (bi b 1) 2 (i + j) s)
  else s

/-- The remaining portable runs of a Holding source are reassigned at the queue commit (R118-R120). -/
def reassignRuns (b : Nat) (s : State) : State :=
  if bState b s ≠ 3 ∨ getN 0x1806 1 s = 0 then s
  else skipResume b ((remainingRuns b s).foldl (giveRun b) s)

/-- REASSIGNMENT: the first loop-frame boundary after a trigger (R118). -/
def execReassignment (s : State) : Host.Outcome State Fault Refusal :=
  gated .reassignment (fun s => each s.hm.trigger reassignRuns { s with hm := { s.hm with trigger := [] } }) s

/-- A write of the harbour pause command: the next SPOT frame carries it (R247). -/
def harbourCommand (c : Nat) (s : State) : State := { s with hm := { s.hm with command := some c } }

/-- HARBOUR_PAUSE_AT_SAFE_POINT. -/
def execHarbourPauseAtSafePoint (s : State) : Host.Outcome State Fault Refusal := gated .harbourPauseAtSafePoint (harbourCommand 1) s

/-- HARBOUR_PAUSE_NOW. -/
def execHarbourPauseNow (s : State) : Host.Outcome State Fault Refusal := gated .harbourPauseNow (harbourCommand 2) s

/-- HARBOUR_RESUME. -/
def execHarbourResume (s : State) : Host.Outcome State Fault Refusal := gated .harbourResume (harbourCommand 3) s

end Sys2Proof.Machine
end

