-- ==== Sys2Proof/Machine/Slots.lean ====
section
/-!
DEFINITION. Sys2Proof/Machine/Slots.lean: loading, closing, validating, repairing and clearing the slots of a berth's queue
(R42, R52-R55, R403).
-/
namespace Sys2Proof.Machine

/-- Puts a slot into a state. -/
def setSlot (b k st : Nat) (s : State) : State := setN (qi b) (5 + k) st s

/-- Puts a slot's layer. -/
def setSlotLayer (b k l : Nat) (s : State) : State := setN (qi b) (9 + k) l s

/-- The slot selected for loading and repair. -/
def slotSelect (b : Nat) (s : State) : Nat := getN (qi b) 1 s

/-- A slot becomes Empty. -/
def emptySlot (b k : Nat) (s : State) : State :=
  setSlotLayer b k 0 (setSlot b k 0 (modBerth b (fun x => { x with closeLens := x.closeLens.del k, slotCauses := x.slotCauses.del k }) s))

/-- Whether memory training has failed, so that slots take no data (R304). -/
def memoryFailed (s : State) : Bool := getN 0x6000 1 s == 3

/-- Whether a load lies within the damaged records of berth b (R55). -/
def inDamage (b off n : Nat) (s : State) : Bool :=
  match (berth b s).damaged with
  | none => false
  | some (i, j) => decide (64 + 32 * i ≤ off ∧ off + n ≤ 64 + 32 * (j + 1))

/-- A write of load data: the bytes enter the selected slot at the window offset (R52, R55, R304). -/
def loadData (b : Nat) (d : List Byte) (s : State) : State :=
  let k := slotSelect b s
  let off := getN (qi b) 2 s
  let st := slotState b k s
  if memoryFailed s ∨ st = 2 ∨ st = 3 ∨ st = 5 then withResult 4 s
  else if slotSize s < off + d.length then withResult 0x0A s
  else if st = 6 ∧ !inDamage b off d.length s then withResult 4 s
  else
    let s := setN (qi b) 2 (off + d.length) (dramFresh (slotBase b k s + off) d s)
    if st = 6 then s else setSlot b k 1 (emptySlot b k s)

/-- LOAD_DATA. -/
def execLoadData (b : Nat) (data : List Byte) (s : State) : Host.Outcome State Fault Refusal :=
  gated (.loadData b data) (loadData b data) s

/-- A write of the close length: validation starts, or the check of a repaired slot (R52, R55). -/
def closeLength (b len : Nat) (s : State) : State :=
  let k := slotSelect b s
  let st := slotState b k s
  if st = 2 ∨ st = 3 ∨ st = 5 then withResult 4 s
  else
    let s := modBerth b (fun x => { x with closeLens := x.closeLens.put k len }) s
    if st = 6 then s else setSlot b k 2 s

/-- CLOSE_LENGTH. -/
def execCloseLength (b len : Nat) (s : State) : Host.Outcome State Fault Refusal := gated (.closeLength b len) (closeLength b len) s

/-- Validation of a slot ends: Ready, or Refused with the first failing check (R52, R53, R403). -/
def validationComplete (b k : Nat) (s : State) : State :=
  if slotState b k s ≠ 2 then s
  else
    let s := setSlotLayer b k (header (slotBase b k s) 8 4 s) s
    match validate b k ((berth b s).closeLens.getD k 0) s with
    | none => setSlot b k 3 s
    | some (c, i) =>
      setN (qi b) 0x0E i (setN (qi b) 0x0D c (setSlot b k 4 (modBerth b (fun x => { x with slotCauses := x.slotCauses.put k c }) s)))

/-- VALIDATION_COMPLETE. -/
def execValidationComplete (b slot : Nat) (s : State) : Host.Outcome State Fault Refusal :=
  gated (.validationComplete b slot) (validationComplete b slot) s

/-- The stop cause of damaged manifest data (R54, R89). -/
def damageCause : Nat := 0x000D

/-- What is left of a running stop once the slot is whole again: nothing of the damage's own, and a pause at safe point that was
brought forward goes back to its safe point (R31, R55). -/
def stopRepaired (b : Nat) (p : SafeStop) (s : State) : Option SafeStop :=
  if p.cause = damageCause then none
  else some ((nextSafe b p.g s).elim p (fun q => { p with ri := q.1, g := q.2 }))

/-- A berth whose slot is whole again resumes by itself (R55); one still on its way to the safe point goes on. -/
def resumeRepaired (b : Nat) (s : State) : State :=
  let r := s.result
  if busy b s then modBerth b (fun x => { x with stopAt := x.stopAt.bind (fun p => stopRepaired b p s) }) s
  else if (bState b s = 3 ∨ bState b s = 4) ∧ getN (bi b 0) 6 s = damageCause then withResult r (resume b s.now s)
  else s

/-- The check of a repaired slot ends (R55). -/
def repairComplete (b k : Nat) (s : State) : State :=
  if slotState b k s ≠ 6 then s
  else match (berth b s).closeLens.find k with
    | none => s
    | some _ =>
      let base := slotBase b k s
      let s := modBerth b (fun x => { x with closeLens := x.closeLens.del k }) s
      if crc32c (dramRead (base + 64) (header base 0x24 4 s - 64) s) ≠ header base 0x38 4 s then s
      else resumeRepaired b (setN (qi b) 0x10 0 (modBerth b (fun x => { x with damaged := none }) (setSlot b k 5 s)))

/-- REPAIR_COMPLETE. -/
def execRepairComplete (b slot : Nat) (s : State) : Host.Outcome State Fault Refusal :=
  gated (.repairComplete b slot) (repairComplete b slot) s

/-- Whether the chip has reported itself ready for a harbour commit (R57, R65). -/
def reportedReady (s : State) : Bool := s.hm.size != 1 && s.commit.opened

/-- A write of the slot clear (R52, R65). -/
def slotClear (b k : Nat) (s : State) : State :=
  let st := slotState b k s
  if st = 2 ∨ st = 5 ∨ st = 6 ∨ reportedReady s then withResult 4 s else emptySlot b k s

/-- SLOT_CLEAR. -/
def execSlotClear (b slot : Nat) (s : State) : Host.Outcome State Fault Refusal := gated (.slotClear b slot) (slotClear b slot) s

/-- A write of 1 to no host copy: the berth with a Damaged slot becomes Faulted (R40, R55). -/
def noHostCopy (b : Nat) (s : State) : State :=
  if (List.range 4).any (fun k => slotState b k s == 6) then stopBerth b 3 0x0080 s.now s else withResult 4 s

/-- NO_HOST_COPY. -/
def execNoHostCopy (b : Nat) (s : State) : Host.Outcome State Fault Refusal := gated (.noHostCopy b) (noHostCopy b) s

/-- The end of the record before record i, where the exposure ends if no safe point remains before that (R54). -/
def endBefore (b i : Nat) (s : State) : Nat × Int :=
  (i, ((segs b s).filter (fun x => decide (x.ri < i))).foldl (fun _ x => x.g0 + x.len) 0)

/-- Where a berth stops before damaged record i: the last safe point from its spot on, else the end of the record before it (R54);
an Armed berth will start from its standing position. -/
def stopBefore (b i : Nat) (s : State) : Nat × Int :=
  let a := (plannedArc b s.now s).getD 0
  let s := if bState b s = 1 then modBerth b (fun x => { x with origin := x.standing.map (fun p => (0, p)) }) s else s
  (((safePoints b s).filter (fun p => decide (a ≤ p.2 ∧ p.1 ≤ i))).getLast?).getD (endBefore b i s)

/-- An Armed or Exposing berth is to stop before damaged record i (R35, R54); a pause at safe point already under way keeps its cause
and ends no later. -/
def stopForDamage (b i : Nat) (s : State) : State :=
  let p := stopBefore b i s
  match (berth b s).stopAt with
  | none => coveredFault damageCause (2 ^ b) s.now
      (modBerth b (fun x => { x with stopAt := some { cause := damageCause, ri := p.1, g := p.2 } }) s)
  | some q =>
    coveredFault damageCause 0 s.now
      (if p.2 < q.g then modBerth b (fun x => { x with stopAt := some { q with ri := p.1, g := p.2 } }) s else s)

/-- Uncorrectable damage to record i of the slot in force of berth b (R54): a berth whose first record is damaged does not start. -/
def damageRecord (b i : Nat) (s : State) : State :=
  match slotInForce b s with
  | none => s
  | some k =>
    let r := match (berth b s).damaged with
      | none => (i, i)
      | some (a, z) => (min a i, max z i)
    let s := setSlot b k 6 (modBerth b (fun x => { x with damaged := some r }) s)
    let s := noticeObj 1 b (qi b) 0x10 0 (setN (qi b) 0x10 (r.1 * 2 ^ 32 + r.2) s)
    if bState b s = 1 ∧ i = 0 then faultStop (2 ^ b) 2 damageCause s.now s
    else if bState b s = 1 ∨ (bState b s = 2 ∧ (place b ((plannedArc b s.now s).getD 0) s).1 < i) then stopForDamage b i s
    else s

end Sys2Proof.Machine
end

