-- ==== Sys2Proof/Machine/Commit.lean ====
section
/-!
DEFINITION. Sys2Proof/Machine/Commit.lean: the shadow groups and their seals, the items of readiness and the lock-gate commit (R56-R66,
R74, R123, R133, R188, R196-R198, R229, R304, R328, R335, R404).
-/
namespace Sys2Proof.Machine

/-- Whether an index belongs to a shadow group: 0 harbour, 1 chart, 2 breakwater, 3 loop engine, 4 + b berth b (R56). -/
def groupHas (g i : Nat) : Bool :=
  match g with
  | 0 => decide (0x1800 ≤ i ∧ i ≤ 0x1807)
  | 1 => decide (0x5000 ≤ i ∧ i ≤ 0x5002)
  | 2 => i == 0x5100
  | 3 => i == 0x3001
  | b + 4 => decide (bi b 0 ≤ i ∧ i < bi b 0 + 0x40) || decide (li (8 * b) 0 ≤ i ∧ i < li (8 * b) 0 + 0x80)

/-- The shadow group of an RWC object, if it has one (R56). -/
def groupOf (i : Nat) : Option Nat := (List.range 28).find? (fun g => groupHas g i)

/-- Whether an object is of class RWC. -/
def isRwc (k : Nat) : Bool := (findRow (k / 256) (k % 256)).any (fun r => r.acc == .rwc)

/-- The subindex of a group's seal (R56). -/
def sealSub (g : Nat) : Nat := if g < 4 then g + 1 else 0x10 + (g - 4)

/-- The layer a group is sealed for, 0 if it is not sealed. -/
def sealOf (g : Nat) (s : State) : Nat := getN 0x8002 (sealSub g) s

/-- The value of an object that will be in force after a commit of layer L (R57). -/
def future (g L i k : Nat) (s : State) : Int := if sealOf g s = L then shadowI i k s else getI i k s

/-- Whether a session is signed: a proven session of the signed class (R295). -/
def sessSigned (n : Nat) (s : State) : Bool := (sess n s).opened && (sess n s).proven

/-- The check of a berth's field map in its shadow: 1 valid, 2 pitch or generation 0, 3 node data short (R74). -/
def mapCheck (b : Nat) (s : State) : Nat :=
  if shadowI (bi b 5) 4 s = 0 ∨ shadowI (bi b 5) 1 s = 0 then 2
  else if (asBytes (shadowV (bi b 5) 5 s)).length ≠ 199692 then 3 else 1

/-- The result of a session that may not write: monitor or closed, or signed and not yet proven (R286, R295). -/
def writeBar (n : Nat) (s : State) : Nat :=
  let q := sess n s
  if !q.opened ∨ q.cls = 0 then 9 else if q.cls = 2 ∧ !q.proven then 7 else 0

/-- The message whose signature an RWP write carries (R296). -/
def rwpMessage (n i k off : Nat) (data : List Byte) (s : State) : List Byte :=
  (sess n s).nodeNonce ++ toLe 4 (sess n s).rwp ++ toLe 2 i ++ toLe 1 k ++ toLe 4 off ++ sha256 data

/-- The check of an RWP write by session n: its result, and the count raised where the signature verifies (R286, R295, R296). -/
def rwpCheck (n i k off : Nat) (data sig : List Byte) (s : State) : Nat × State :=
  if writeBar n s ≠ 0 then (writeBar n s, s)
  else if !sessSigned n s then (7, s)
  else if verify (sess n s).key sig (rwpMessage n i k off data s) then (0, modSess n (fun q => { q with rwp := (q.rwp + 1) % 2 ^ 32 }) s)
  else (8, s)

/-- A write of an RWP object reaches its owner where its check passes (R296). -/
def rwpWrite (n i k off : Nat) (data sig : List Byte) (f : State → State) (s : State) : State :=
  let r := rwpCheck n i k off data sig s
  if r.1 = 0 then f r.2 else withResult r.1 s

/-- A layer or 0 written to a group's seal comes to the owner; the breakwater's seal is an RWP object (R56, R57, R296). -/
def sealWrite (n g l : Nat) (sig : List Byte) (f : State → State) (s : State) : State :=
  if g = 2 then rwpWrite n 0x8002 (sealSub g) 0 (toLe 4 l) sig f s
  else if writeBar n s ≠ 0 then withResult (writeBar n s) s else f s

/-- A group is sealed for a layer (R57). -/
def sealGroup (g l : Nat) (s : State) : State :=
  let s := setN 0x8002 (sealSub g) l s
  if g < 4 then s else setN (bi (g - 4) 5) 7 (mapCheck (g - 4) s) s

/-- SEAL. -/
def execSeal (sess group layer : Nat) (sig : List Byte) (s : State) : Host.Outcome State Fault Refusal :=
  gated (.groupSeal sess group layer sig) (sealWrite sess group layer sig (sealGroup group layer)) s

/-- A group is unsealed (R57, R65). -/
def unsealGroup (g : Nat) (s : State) : State :=
  if reportedReady s then withResult 4 s else setN 0x8002 (sealSub g) 0 s

/-- UNSEAL. -/
def execUnseal (sess group : Nat) (sig : List Byte) (s : State) : Host.Outcome State Fault Refusal :=
  gated (.groupUnseal sess group sig) (sealWrite sess group 0 sig (unsealGroup group)) s

/-- Whether a berth is not excused by the layer plan (R58). -/
def nonExcused (s : State) (b : Nat) : Bool := bit (getN 0x8001 2 s) b

/-- The berths the layer exposes (R58). -/
def exposed (s : State) : List Nat := berthList.filter (nonExcused s)

/-- The slot of berth b in a state that holds layer L. -/
def slotFor (b st L : Nat) (s : State) : Option Nat := (List.range 4).find? (fun k => slotState b k s == st && slotLayer b k s == L)

/-- Whether the chip holds its layer for the mains (R328). -/
def layerHeld (s : State) : Bool :=
  let m := getN 0x0401 8 s
  m == 1 || m == 2 || m == 3

/-- Whether a berth rests in Holding at its END record (R59). -/
def holdsAtEnd (b : Nat) (s : State) : Bool := bState b s == 3 && (mfRec b (getN (bi b 1) 2 s) s).ty == 0x0F

/-- Code 0x03: whether a berth is free for a commit (R59, R328, R335, R378). -/
def berthFree (b : Nat) (s : State) : Bool :=
  (bState b s == 0 || bState b s == 1 || holdsAtEnd b s) && !layerHeld s && !bollardLatched b s && !(berth b s).calibrating

/-- A missing item without its seat (R63). -/
structure Item where
  code : Nat := 0
  subject : Nat := 0
  detail : Nat := 0
  deriving DecidableEq, Repr

/-- No subject (R63). -/
def noSubject : Nat := 0xFFFF

/-- Codes 0x01 and 0x02 for a berth. -/
def slotItem (L b : Nat) (s : State) : List Item :=
  if (slotFor b 3 L s).isSome then []
  else match slotFor b 4 L s with
    | some k => [{ code := 2, subject := b, detail := (berth b s).slotCauses.getD k 0 }]
    | none => [{ code := 1, subject := b }]

/-- The groups the layer plan expects (R58). -/
def expectedGroups (s : State) : List Nat :=
  (List.range 4).filter (fun g => bit (getN 0x8001 3 s) g) ++ (berthList.filter (fun b => bit (getN 0x8001 4 s) b)).map (· + 4)

/-- Whether a berth group is not valid (R74, R125, R133, R229, R304). -/
def berthGroupBad (L b : Nat) (s : State) : Bool :=
  let l := (List.range 8).map (8 * b + ·)
  let sealed := sealOf (4 + b) s == L
  memoryFailed s
    || (sealed && (mapCheck b s != 1 || l.any (fun n =>
        shadowI (li n 0) 1 s != 0 && decide (shadowI (li n 0) 1 s ≤ shadowI (li n 0) 2 s))))
    || (nonExcused s b && ((l.take 6).any (fun n => future (4 + b) L (li n 0) 1 s == 0) || tripped b s
        || !linkUp b s || (link b s).retrainPending))

/-- The size of a chart buffer as it will be (R185). -/
def chartSize (L : Nat) (s : State) : Nat :=
  let tiles := (future 1 L 0x5000 5 s).toNat / 64 * ((future 1 L 0x5000 6 s).toNat / 64)
  (64 + 8 * tiles + 4095) / 4096 * 4096 + tiles * 4096 * cellBytes (future 1 L 0x5000 7 s).toNat

/-- Whether the chart group is not valid: a buffer larger than its share (R309), or a held chart and no buffer to take (R188). -/
def chartGroupBad (L : Nat) (s : State) : Bool :=
  (future 1 L 0x5000 1 s == 1 && decide (layoutMB s 2 * 2 ^ 20 / (future 1 L 0x5000 0x0A s).toNat / 4096 * 4096 < chartSize L s))
  || future 1 L 0x5000 0x0B s == 1 && future 1 L 0x5000 1 s == 1 && (freeBuffer (future 1 L 0x5000 0x0A s).toNat s).isNone

/-- Whether the breakwater group is not valid on its own chip: no stored copy verifies, and no new set is sealed (R197). -/
def breakwaterGroupBad (L : Nat) (s : State) : Bool :=
  getN 0x5100 8 s == 1 && !(sealOf 2 s == L && s.bw.shadow.isSome)

/-- Whether a seat's values differ from seat 0's, which no frame carries: free bits on another seat (R123, R198, log 30). -/
def differsFromSeat0 (j : Nat) (s : State) : Bool := s.hm.seatNo != 0 && bit (freeVal s) j

/-- Code 0x05: the groups whose owner does not accept what will be in force. -/
def invalidGroups (L : Nat) (s : State) : List Nat :=
  (if differsFromSeat0 0 s then [0] else []) ++ (if chartGroupBad L s then [1] else [])
    ++ (if breakwaterGroupBad L s || differsFromSeat0 1 s then [2] else [])
    ++ (berthList.filter (fun b => berthGroupBad L b s)).map (· + 4)

/-- The motion segments of slot k of berth b, from where the berth will stand. -/
def slotSegs (b k : Nat) (s : State) : List Seg :=
  let base := slotBase b k s
  let p := (berth b s).standing.getD (recAt base 0 s).endp
  segsFrom base (some (0, p)) (fun _ => false) (getN (bi b 2) 8 s) s (segCount base s) 0 p p 0

/-- The Ready slot's field-map generation. -/
def slotGen (b k : Nat) (s : State) : Nat := header (slotBase b k s) 0x28 4 s

/-- The HANDOVER segments of slot k of berth b with a partner. -/
def handoversWith (b k p : Nat) (s : State) : List Seg := (slotSegs b k s).filter (fun g => g.r.ty == 7 && field g.r.raw 28 2 == p)

/-- Two HANDOVER segments are partners (R59, code 0x07). -/
def pairMatches (x y : Seg) : Bool :=
  x.p0 == y.p0 && x.r.endp == y.r.endp && x.r.speed == y.r.speed && crossFade x.r == crossFade y.r
    && field x.r.raw 30 1 != field y.r.raw 30 1

/-- The partners slot k of berth b names. -/
def partnersOf (b k : Nat) (s : State) : List Nat :=
  (((slotSegs b k s).filter (fun g => g.r.ty == 7)).map (fun g => field g.r.raw 28 2)).eraseDups

/-- Code 0x07: whether every HANDOVER of berth b with partner p has its partner record; one on another seat of the harbour is free
(log 30), one beyond the harbour has none. -/
def pairedWith (L b k p : Nat) (s : State) : Bool :=
  match localBerth p s with
  | none => decide (p < 24 * s.hm.size) && !bit (freeVal s) (2 + b)
  | some q => nonExcused s q && (match slotFor q 3 L s with
    | none => false
    | some j =>
      let mine := handoversWith b k p s
      let theirs := handoversWith q j (24 * s.hm.seatNo + b) s
      decide (mine.length ≤ theirs.length) && (mine.zip theirs).all (fun x => pairMatches x.1 x.2))

/-- Code 0x06 for the Ready slot k of berth b (R59, R74); the generation of a partner on another seat is free (log 30). -/
def generationItem (L b k : Nat) (s : State) : List Item :=
  let gen := slotGen b k s
  let pairs := (partnersOf b k s).all (fun p => match localBerth p s with
    | none => decide (24 * s.hm.size ≤ p) || !bit (freeVal s) (26 + b)
    | some q => match slotFor q 3 L s with
      | none => true
      | some j => slotGen q j s == gen)
  if gen ≠ 0 ∧ (gen : Int) = future (4 + b) L (bi b 5) 1 s ∧ pairs then [] else [{ code := 6, subject := b, detail := gen }]

/-- Code 0x07 for the Ready slot k of berth b. -/
def pairingItem (L b k : Nat) (s : State) : List Item :=
  match (partnersOf b k s).find? (fun p => !pairedWith L b k p s) with
  | none => []
  | some p => [{ code := 7, subject := b, detail := p }]

/-- Code 0x08 (R132). -/
def loadItem (s : State) : List Item :=
  let l := (engineLoad (cfgShadow s)).1
  if 9000 < l then [{ code := 8, subject := noSubject, detail := l }] else []

/-- Code 0x09 for the Ready slot k of berth b: the first record whose path leaves the extent (R13, R59). -/
def extentItem (L b k : Nat) (s : State) : List Item :=
  let e := fun (j : Nat) => future 0 L 0x1800 j s
  match (slotSegs b k s).find? (fun g => (extentPoints g).any (fun p =>
      decide (p.x < e 4 ∨ e 6 < p.x ∨ p.y < e 5 ∨ e 7 < p.y))) with
  | none => []
  | some g => [{ code := 9, subject := b, detail := g.ri }]

/-- Whether the extent that will be in force is empty (R13). -/
def extentEmpty (L : Nat) (s : State) : Bool :=
  decide (future 0 L 0x1800 6 s ≤ future 0 L 0x1800 4 s ∨ future 0 L 0x1800 7 s ≤ future 0 L 0x1800 5 s)

/-- Code 0x0B. -/
def planItem (L : Nat) (s : State) : List Item :=
  if getN 0x8001 1 s = L ∧ getN 0x8000 9 s < L then [] else [{ code := 0x0B, subject := noSubject, detail := getN 0x8001 1 s }]

/-- Code 0x0C: the quay links of the topology that are not up. -/
def quayItems (s : State) : List Item :=
  ((quayLinks s).filter (fun k => !linkUp (24 + k) s)).map (fun k => { code := 0x0C, subject := k })

/-- The seats that have not reported ready for L: seat 0 alone asks (R65). -/
def seatItems (L : Nat) (s : State) : List Item :=
  if s.hm.seatNo ≠ 0 then []
  else (((List.range s.hm.size).drop 1).filter (fun n => match s.hm.seats.find n with
    | none => true
    | some f => !(f.ready && f.layer == L))).map (fun n => { code := 0x0A, subject := n })

/-- The wake-layer flag of the Ready slot of berth b. -/
def wakeFlag (L b : Nat) (s : State) : Nat :=
  match slotFor b 3 L s with
  | none => 0
  | some k => b2n (bit (header (slotBase b k s) 0x0F 1 s) 0)

/-- The non-excused berths with a Ready slot for L. -/
def readyBerths (L : Nat) (s : State) : List (Nat × Nat) :=
  (exposed s).filterMap (fun b => (slotFor b 3 L s).map (fun k => (b, k)))

/-- Code 0x0D. -/
def wakeItems (L : Nat) (s : State) : List Item :=
  match readyBerths L s with
  | [] => []
  | (b0, _) :: l => (l.filter (fun x => wakeFlag L x.1 s != wakeFlag L b0 s)).map (fun x => { code := 0x0D, subject := x.1, detail := wakeFlag L x.1 s })

/-- Whether this seat committed L and waits for the seats that missed it (R66). -/
def committedAlready (L : Nat) (s : State) : Bool := s.hm.size != 1 && s.commit.missed != [] && getN 0x8000 9 s == L

/-- The items of this seat alone, ordered by code and subject (R59, R63). -/
def ownItems (L : Nat) (s : State) : List Item :=
  let r := readyBerths L s
  let ex := exposed s
  if committedAlready L s then quayItems s
  else
    let slots := ex.flatMap (fun b => slotItem L b s)
    slots.filter (fun i => i.code == 1) ++ slots.filter (fun i => i.code == 2)
      ++ (ex.filter (fun b => !berthFree b s)).map (fun b => { code := 3, subject := b })
      ++ ((expectedGroups s).filter (fun g => sealOf g s != L)).map (fun g => { code := 4, subject := g })
      ++ (invalidGroups L s).map (fun g => { code := 5, subject := g })
      ++ r.flatMap (fun x => generationItem L x.1 x.2 s) ++ r.flatMap (fun x => pairingItem L x.1 x.2 s) ++ loadItem s
      ++ (if extentEmpty L s then [{ code := 9, subject := noSubject }] else r.flatMap (fun x => extentItem L x.1 x.2 s))
      ++ planItem L s ++ quayItems s ++ wakeItems L s

/-- Every unsatisfied item of a commit of L (R59). -/
def missing (L : Nat) (s : State) : List Item := sortBy (fun i => i.code) (ownItems L s ++ seatItems L s)

/-- A missing-item record (R63). -/
def Item.bytes (seat : Nat) (i : Item) : List Byte := toLe 1 i.code ++ toLe 1 seat ++ toLe 2 i.subject ++ toLe 4 i.detail

/-- Puts the missing-item list and its count, 256 records at most (R62, R63). -/
def setMissing (l : List Item) (s : State) : State :=
  let l := l.take 256
  setB 0x8000 0x0C (l.flatMap (Item.bytes s.hm.seatNo)) (setN 0x8000 0x0B l.length s)

/-- The notice of a commit that left items (R62, R366). -/
def noteMissing (L : Nat) (l : List Item) (s : State) : State :=
  let i := l.head?.getD {}
  noticeLog 3 1 0x0230 (toLe 4 L ++ toLe 2 (min 256 l.length) ++ toLe 1 i.code ++ toLe 1 s.hm.seatNo ++ toLe 2 i.subject ++ toLe 2 0)
    (setMissing l s)

/-- The commit of a layer leaves the sequencer with a status. -/
def endCommit (status : Nat) (s : State) : State :=
  setN 0x8000 8 status { s with commit := { s.commit with layer := 0, openedAt := none, opened := false, ready := false, decided := none, told := [] } }

/-- Whether a commit waits for its window or is in it. -/
def commitWaiting (s : State) : Bool := getN 0x8000 8 s == 1 || getN 0x8000 8 s == 2

/-- The lock window opens (R60, R62). -/
def openWindow (s : State) : State := setN 0x8000 8 2 { s with commit := { s.commit with openedAt := some s.now } }

/-- Whether the opening time has come (R60). -/
def openingDue (s : State) : Bool := decide (getN 0x8000 6 s * nsT ≤ s.now)

/-- A write of the commit request (R60, R64, R65). -/
def commitRequest (L : Nat) (s : State) : State :=
  if commitWaiting s ∨ (s.hm.size ≠ 1 ∧ s.hm.seatNo ≠ 0) then withResult 4 s
  else
    let s := setN 0x8000 8 1 { s with commit := { s.commit with layer := L, openedAt := none, met := openingMet s, ready := false, opened := false, decided := none } }
    match getN 0x8000 2 s with
    | 0 => openWindow s
    | 2 => if openingDue s then openWindow s else s
    | _ => s

/-- COMMIT_REQUEST. -/
def execCommitRequest (layer : Nat) (s : State) : Host.Outcome State Fault Refusal :=
  gated (.commitRequest layer) (commitRequest layer) s

/-- LOCK_WINDOW_OPEN: the counter crosses its position, or the opening time has come; in a mains hold the commit waits on (R60, R328). -/
def lockWindowOpen (s : State) : State :=
  if getN 0x8000 8 s ≠ 1 ∨ layerHeld s then s
  else match getN 0x8000 2 s with
    | 1 => if openingMet s ∧ !s.commit.met then openWindow s else s
    | 2 => if openingDue s then openWindow s else s
    | _ => openWindow s

/-- LOCK_WINDOW_OPEN. -/
def execLockWindowOpen (s : State) : Host.Outcome State Fault Refusal := gated .lockWindowOpen lockWindowOpen s

/-- The set-points of berth b's spot at rest: those of its standing position through the map in force, else those the head holds
(R71, R404). -/
def setPoints (b : Nat) (s : State) : Option (List Int) :=
  let m := fieldMap b s
  match (berth b s).standing with
  | some p => if m.held then some [mapAt m 0 p.x p.y, mapAt m 1 p.x p.y, focusAt m p] else none
  | none => if (berth b s).spHeld = [] then none else some (berth b s).spHeld

/-- The standing position that set-points give through the map in force (R404). -/
def findStanding (b : Nat) (sp : Option (List Int)) (s : State) : State :=
  let m := fieldMap b s
  match sp with
  | none => s
  | some l => if m.held then modBerth b (fun x => { x with standing := some (standingAt m (l.getD 0 0) (l.getD 1 0) (l.getD 2 0)), spHeld := l }) s else s

/-- A berth's group comes into force, its map with it (R57, R74, R404). -/
def takeBerthGroup (b : Nat) (s : State) : State :=
  let sp := setPoints b s
  let newMap := shadowHas (fun k => k / 256 == bi b 5) s
  let s := takeShadows (fun k => groupHas (4 + b) (k / 256) && isRwc k) s
  let s := setN (bi b 5) 6 (getN (bi b 5) 1 s) s
  let s := if newMap then findStanding b sp s else s
  updateLen b s.now s

/-- The set sealed for L stands in both protected copies in flash before its group is reported valid (R196). -/
def storeBreakwater (L : Nat) (s : State) : State :=
  match s.bw.shadow with
  | none => s
  | some l => if sealOf 2 s = L ∧ s.flash.breakwater ≠ [l, l] then { s with flash := { s.flash with breakwater := [l, l] } } else s

/-- The records each Exposing berth has fetched keep the intervals of the set in force (R54, R196): those up to 4,096 ahead of the one it
executes (log 40). -/
def keepEras (s : State) : State :=
  each (berthList.filter (fun b => bState b s == 2)) (fun b s =>
    let last := (place b (max 0 ((actualArc b s.now s).getD 0)) s).1 + 4096
    { s with bw := { s.bw with eras := s.bw.eras.put b (s.bw.eras.getD b [] ++ [(last, s.bw.force)]) } }) s

/-- A new breakwater set comes into force; exposures under way keep the old one too (R196, R366). -/
def takeBreakwater (s : State) : State :=
  match s.bw.shadow with
  | none => s
  | some l =>
    let still := s.bw.oldBerths ||| maskOf (fun b => bState b s == 2)
    let s := keepEras s
    let s := { s with bw := { s.bw with shadow := none, force := setPolygons l, old := (if s.bw.oldBerths = 0 then [] else s.bw.old) ++ s.bw.force, oldBerths := still } }
    let d := sha256 l
    let s := setB 0x5100 6 l (setB 0x5100 5 d (setN 0x5100 4 (field l 6 1) (setN 0x5100 3 (field l 8 8) s)))
    noticeLog 3 2 0x0280 (toLe 8 (field l 8 8) ++ d.take 4) (setN 0x5100 8 0 s)

/-- A group sealed for L takes effect and its seal returns to 0 (R57). -/
def takeGroup (L : Nat) (s : State) (g : Nat) : State :=
  if sealOf g s ≠ L then s
  else
    let s := setN 0x8002 (sealSub g) 0 s
    match g with
    | 0 => setN 0x1808 7 L (takeShadows (fun k => groupHas 0 (k / 256) && isRwc k) s)
    | 2 => takeBreakwater s
    | b + 4 => takeBerthGroup b s
    | _ => takeShadows (fun k => groupHas g (k / 256) && isRwc k) s

/-- The Ready slot of a berth becomes In force; its older slots become Empty (R61). -/
def takeSlot (L b k : Nat) (s : State) : State :=
  let s := each (List.range 4) (fun j s =>
    let st := slotState b j s
    if j ≠ k ∧ (st = 5 ∨ st = 6 ∨ (st = 3 ∧ slotLayer b j s < L)) then emptySlot b j s else s) s
  setN (qi b) 0x10 0 (modBerth b (fun x => { x with damaged := none }) (setSlot b k 5 s))

/-- A berth enters Armed for the layer (R61, R119). -/
def armBerth (b k L : Nat) (start : Option Nat) (s : State) : State :=
  let s := takeSlot L b k s
  let s := { s with bw := { s.bw with eras := s.bw.eras.del b } }
  let s := modBerth b (fun x => { x with startFrame := start, strength := 0, clearance := true, refusedAt := none, evAhead := [], givenAway := [], handover := {}, stopAt := none, overlap := none, reopen := none, origin := none, manifestLen := false, resuming := false, evDone := 0, stretch := 0, goFrom := 0, finals := [], gateSched := false }) s
  enterState b 1 s.now (setResume b 0 0 0 0 0 0 0 (setN (bi b 0) 6 0 s))

/-- The first frame of the next loop cycle (R61, R124). -/
def nextCycle (s : State) : Nat := (s.frame / 16 + 1) * 16

/-- The seats of the harbour that the decision has not reached, and so have not committed (R66). -/
def seatsMissed (s : State) : List Nat :=
  (List.range s.hm.size).filter (fun n => n != s.hm.seatNo && !s.commit.told.contains n)

/-- The annexes of berth b are cleared (R119); a run that is being exposed ends first. -/
def clearAnnexes (b : Nat) (s : State) : State :=
  let s := modBerth b (fun x => { x with annexes := [] }) s
  if bState b s = 2 then s else setN 0x1806 (0x10 + b) 0xFF (modBerth b (fun x => { x with annexNow := none }) s)

/-- The commit instant: everything sealed and ready for L comes into force together (R57, R61, R66, R186, R196, R201, R266). -/
def fireCommit (L : Nat) (s : State) : State :=
  let r := readyBerths L s
  let wake := r.any (fun x => wakeFlag L x.1 s == 1)
  let missed := seatsMissed s
  let start := if missed = [] then some (nextCycle s) else none
  let s := each berthList clearAnnexes ((List.range 28).foldl (takeGroup L) (storeBreakwater L s))
  let s := r.foldl (fun s x => armBerth x.1 x.2 L start s) s
  let s := setTime 0x8000 0x0A s.now (setN 0x8000 9 L s)
  let s := { s with commit := { s.commit with instant := s.now, wakeLayer := wake, missed := missed, startFrame := start, decidedLayer := L }, bw := { s.bw with caught := false } }
  let s := chartCommit L s.now s
  let s := each (streamList.filter (· != 0x60)) (fun st s => openSegment st L s.now s) s
  let s := harbourEntry 0x10 s.now (toLe 4 L) s
  reportShadowLoad (reportLoad (wakeBegin wake s))

/-- The seats that missed L have now committed it: the berths that stayed in Armed start with them (R66). -/
def startTogether (s : State) : State :=
  let start := some (nextCycle s)
  let s := each berthList (fun b s => if bState b s = 1 ∧ nonExcused s b then modBerth b (fun x => { x with startFrame := start }) s else s) s
  { s with commit := { s.commit with missed := [], startFrame := start } }

/-- This seat commits L: its own items first, or the start of what it committed before (R61, R66). -/
def commitHere (L : Nat) (s : State) : State :=
  let s := if committedAlready L s then startTogether s else fireCommit L s
  let l := s.commit.missed.map (fun n => ({ code := 0x0A, subject := n } : Item))
  if l = [] ∨ s.hm.seatNo ≠ 0 then setMissing [] (endCommit 3 s) else noteMissing L l (endCommit 3 s)

/-- LOCK_GATE_COMMIT: at a ready boundary in the window on a chip alone, at the commit frame in a harbour (R60, R66, R328). -/
def lockGateCommit (s : State) : State :=
  if layerHeld s then s
  else if s.hm.size = 1 then
    let s := if getN 0x8000 8 s = 2 then storeBreakwater s.commit.layer s else s
    if getN 0x8000 8 s = 2 ∧ s.commit.openedAt.any (fun t => decide (t < s.now)) ∧ missing s.commit.layer s = [] then commitHere s.commit.layer s else s
  else match s.commit.decided with
    | none => s
    | some f => if f ≤ s.frame then commitHere s.commit.decidedLayer s else s

/-- LOCK_GATE_COMMIT. -/
def execLockGateCommit (s : State) : Host.Outcome State Fault Refusal := gated .lockGateCommit lockGateCommit s

/-- LOCK_TIMEOUT: the commit fails unless it is ready (R62). -/
def lockTimeout (s : State) : State :=
  if getN 0x8000 8 s ≠ 2 ∨ s.commit.decided.isSome then s
  else
    let L := s.commit.layer
    let s := storeBreakwater L s
    let l := missing L s
    let s := if s.hm.size = 1 then s else drawn s
    if l = [] then s
    else harbourEntry 0x10 s.now (toLe 4 L ++ toLe 2 (min 256 l.length)) (noteMissing L l (endCommit 4 s))

/-- LOCK_TIMEOUT. -/
def execLockTimeout (s : State) : Host.Outcome State Fault Refusal := gated .lockTimeout lockTimeout s

/-- A write of 1 to the commit abort (R64, R65). -/
def commitAbort (s : State) : State :=
  if (s.hm.size ≠ 1 ∧ s.hm.seatNo ≠ 0) ∨ !commitWaiting s ∨ s.commit.decided.isSome then withResult 4 s else endCommit 5 s

/-- COMMIT_ABORT. -/
def execCommitAbort (s : State) : Host.Outcome State Fault Refusal := gated .commitAbort commitAbort s

/-- The layer this seat evaluates: its own request on seat 0, seat 0's on another seat (R65). -/
def layerAsked (s : State) : Nat :=
  if s.hm.seatNo = 0 then (if getN 0x8000 8 s = 2 then s.commit.layer else 0) else (s.hm.seats.find 0).elim 0 (fun f => f.layer)

/-- The commit sequencer at a loop-frame boundary of a harbour: readiness, and seat 0's decision, which has reached every seat seen at
the boundary after it (R65, R66); a seat that has reported ready and no longer hears seat 0 has not heard how the commit ended. -/
def commitTick (s : State) : State :=
  if s.hm.size = 1 then s
  else
    let L := layerAsked s
    let s := if s.commit.decided.isSome then { s with commit := { s.commit with told := (s.commit.told ++ s.hm.seats.map (·.1)).eraseDups } } else s
    let lost := s.hm.seatNo != 0 && (s.hm.seats.find 0).isNone
    if L = 0 then { s with commit := { s.commit with ready := false, opened := s.commit.opened && (lost || s.commit.decided.isSome) } }
    else
      let s := storeBreakwater L s
      let r : Bool := ownItems L s == [] && !layerHeld s
      let s : State := { drawn s with commit := { s.commit with ready := r, opened := s.commit.opened || r } }
      if s.hm.seatNo = 0 ∧ r = true ∧ s.commit.decided.isNone ∧ seatItems L s = [] then
        { s with commit := { s.commit with decided := some (s.frame + 4), decidedLayer := L, told := [] } }
      else s

end Sys2Proof.Machine
end

