-- ==== Sys2Proof/Machine/Links.lean ====
section
/-!
DEFINITION. Sys2Proof/Machine/Links.lean: the head links and the quay links: bring-up, adaptation, retraining, latency, head
configuration, feedback and status, loss, and what quay frames bring (R219-R250).
-/
namespace Sys2Proof.Machine

/-- The subindex of an object that head links and quay links hold at different places. -/
def lsub (l head quay : Nat) : Nat := if l < 24 then head else quay

/-- State of a link: 0 Down, 1 Detect, 2 Align, 3 Lanes, 4 Equalise, 5 Identify, 6 Measure, 7 Up, 8 Failed (R223). -/
def linkState (l : Nat) (s : State) : Nat := getN (lki l) 2 s

/-- Puts a link into a state and shows which links are Up. -/
def setLinkState (l n : Nat) (s : State) : State :=
  let s := setN (lki l) 2 n s
  if l < 24 then setN 0x3800 1 (setBit (getN 0x3800 1 s) l (n == 7)) s else setN 0x3800 2 (setBit (getN 0x3800 2 s) (l - 24) (n == 7)) s

/-- The link-down notice and record (R366). -/
def linkNote (l reason : Nat) (s : State) : State :=
  noticeLog 8 l 0x0240 (toLe 1 l ++ toLe 1 reason ++ toLe 2 0 ++ toLe 4 (link l s).failed ++ toLe 4 0) s

/-- A quay link's retrain brings the written seat and size into force (R14, R16). -/
def takeSeat (l : Nat) (s : State) : State :=
  if l < 24 then s else { s with hm := { s.hm with seatNo := getN 0x1800 1 s, size := getN 0x1800 2 s } }

/-- Bring-up begins at Detect (R220, R223): where the transmitter's characters lie in harbour time no rule says, and it is free
(log 81). -/
def enterDetect (l : Nat) (s : State) : State :=
  let s := setLinkState l 1 (takeSeat l s)
  let s := setN (lki l) (lsub l 0x11 0x05) 0 (setN (lki l) (lsub l 0x0E 0x0A) 0 s)
  drawn (modLink l (fun x => { x with attemptAt := s.now, capsOk := false, burst := {}, commandFrom := none, fbLast := none, standWait := false, missRun := 0, statusRun := 0, retry := none, lanes := [], retrainPending := false, seatFrame := none, thetas := [], charPhase := freeVal s % charT l, chars := 0, spare := 0, prbs := 127, heard := [], heardBefore := [] }) s)

/-- A link that leaves Up for a retrain or by a loss takes its V objects back to their defaults (R349, R350). -/
def resetLink (l : Nat) (s : State) : State :=
  modLink l (fun x => { x with cfgLen := 0 }) (keepObjects (fun i k => !(i == lki l && k == .v)) s)

/-- A failed stage ends the attempt: Down for the retry interval, or Failed at the attempt limit (R228). -/
def attemptFails (l reason : Nat) (s : State) : State :=
  let s := modLink l (fun x => { x with failed := (x.failed + 1) % 2 ^ 32, downAt := s.now, commandFrom := none, burst := {} }) (setN (lki l) 3 reason s)
  let n := (link l s).failed
  let limit := getN 0x3800 7 s
  if limit ≠ 0 ∧ limit ≤ n then linkNote l reason (modLink l (fun x => { x with noted := true }) (setLinkState l 8 s))
  else
    let s' := modLink l (fun x => { x with noted := true }) (setLinkState l 0 s)
    if (link l s).noted then s' else linkNote l reason s'

/-- An Up link goes Down; bring-up begins at once unless it is disabled (R243, R248). -/
def dropLink (l reason : Nat) (s : State) : State :=
  let s := setN (lki l) 3 reason (modLink l (fun x => { x with noted := false, failed := 0, downAt := s.now }) s)
  let s := linkNote l reason (setLinkState l 0 (resetLink l s))
  if getN (lki l) 1 s = 1 then enterDetect l s else modLink l (fun x => { x with commandFrom := none, burst := {}, heard := [], heardBefore := [] }) s

/-- A head link is lost (R243): a berth that is Armed or Exposing pauses now. -/
def headLost (h reason : Nat) (s : State) : State :=
  if linkState h s ≠ 7 then s
  else
    let m := if bState h s = 1 ∨ bState h s = 2 then 2 ^ h else 0
    dropLink h reason (faultStop m 2 0x000A s.now (calStop h s))

/-- Whether a ring is whole as this seat sees it: every other seat's SEAT frames come over both its links (R245, R248, log 31). -/
def ringWhole (s : State) : Bool :=
  s.hm.ring && [24, 25].all (fun l => getN (lki l) 2 s == 7 &&
    (List.range s.hm.size).all (fun n => n == s.hm.seatNo || (link l s).heard.contains n || (link l s).heardBefore.contains n))

/-- The seats whose records arrive over quay link k (R16, R246): in a ring with a lost link, which is a chain, those heard there (R248). -/
def seatsBeyond (k : Nat) (s : State) : List Nat :=
  let n := s.hm.size
  let me := s.hm.seatNo
  if ringWhole s then
    (List.range (if k = 0 then n / 2 else (n - 1) / 2)).map (fun i => if k = 0 then (me + n - (i + 1)) % n else (me + i + 1) % n)
  else if s.hm.ring then
    (List.range n).filter (fun i => (link (24 + k) s).heard.contains i || (link (24 + k) s).heardBefore.contains i)
  else (List.range n).filter (fun i => if k = 0 then decide (i < me) else decide (me < i))

/-- The berths whose field overlaps a field beyond a lost link: the far fields are in no frame, so which they are is free (R248, log 31). -/
def berthsOverlapping (s : State) : Nat := maskOf (fun b => bit (freeVal s) b && (fieldMap b s).held)

/-- Quay link k is lost (R248): berths pause, the frames of the seats beyond are gone, and a command under way is reported (R247). -/
def quayLost (k reason : Nat) (s : State) : State :=
  if linkState (24 + k) s ≠ 7 then s
  else
    let gone := seatsBeyond k s
    let s := faultStop (berthsOverlapping s) 2 0x000B s.now (drawn s)
    let still := if s.hm.ring then (link (25 - k) s).heard ++ (link (25 - k) s).heardBefore else []
    let s := { s with hm := { s.hm with seats := s.hm.seats.filter (fun e => !gone.contains e.1 || still.contains e.1), others := s.hm.others.filter (fun e => !gone.contains (e.1 / 24)) } }
    let s := match s.hm.carried with
      | none => s
      | some c => notice 3 0 0x0100 (changeDetail 0x1800 0x0A ((gone.foldl (fun m n => setBit m n true) 0 : Nat) : Int) c) s
    dropLink (24 + k) reason s

/-- A link is lost. -/
def linkLost (l reason : Nat) (s : State) : State := if l < 24 then headLost l reason s else quayLost (l - 24) reason s

/-- A write of 1 to a link's enable object (R223, R228). -/
def linkEnable (l : Nat) (s : State) : State :=
  let was := getN (lki l) 1 s
  let s := setN (lki l) 1 1 s
  if linkState l s = 8 ∨ (was = 0 ∧ linkState l s = 0) then enterDetect l (modLink l (fun x => { x with failed := 0 }) s) else s

/-- LINK_ENABLE. -/
def execLinkEnable (l : Nat) (s : State) : Host.Outcome State Fault Refusal := gated (.linkEnable l) (linkEnable l) s

/-- A write of 0 to a link's enable object (R223, R243, R248). -/
def linkDisable (l : Nat) (s : State) : State :=
  let s := setN (lki l) 1 0 s
  if linkState l s = 7 then linkLost l 9 s
  else if linkState l s = 0 ∨ linkState l s = 8 then s
  else modLink l (fun x => { x with commandFrom := none, burst := {} }) (setN (lki l) 3 9 (setLinkState l 0 s))

/-- LINK_DISABLE. -/
def execLinkDisable (l : Nat) (s : State) : Host.Outcome State Fault Refusal := gated (.linkDisable l) (linkDisable l) s

/-- SIGNAL_DETECTED: Detect to Align (R223). -/
def execSignalDetected (l : Nat) (s : State) : Host.Outcome State Fault Refusal :=
  gated (.signalDetected l) (fun s => if linkState l s = 1 then setLinkState l 2 s else s) s

/-- Align ends with each lane's polarity settled (R223, R224). -/
def commaAligned (l inverted : Nat) (s : State) : State :=
  if linkState l s ≠ 2 then s
  else if l < 24 then setLinkState l 4 (setN (lki l) 0x11 (inverted % 2) s)
  else setLinkState l 3 (setN (lki l) 0x05 (inverted % 16) s)

/-- COMMA_ALIGNED. -/
def execCommaAligned (l inverted : Nat) (s : State) : Host.Outcome State Fault Refusal :=
  gated (.commaAligned l inverted) (commaAligned l inverted) s

/-- Four byte fields in one word. -/
def packLanes (l : List Nat) : Nat := (List.range 4).foldl (fun w i => w + (l.getD i 0 % 256) * 2 ^ (8 * i)) 0

/-- The lane order and skew of a quay link are judged (R225). -/
def lanesDeskewed (k : Nat) (order skews : List Nat) (s : State) : State :=
  let l := 24 + k
  if linkState l s ≠ 3 then s
  else if order ≠ [0, 1, 2, 3] ∧ order ≠ [3, 2, 1, 0] then attemptFails l 11 s
  else if 24 < maxN skews - skews.foldl min (maxN skews) then attemptFails l 12 s
  else setLinkState l 4 (setN (lki l) 6 (packLanes skews) (setN (lki l) 4 (b2n (order == [3, 2, 1, 0])) s))

/-- LANES_DESKEWED. -/
def execLanesDeskewed (k : Nat) (order skews : List Nat) (s : State) : Host.Outcome State Fault Refusal :=
  gated (.lanesDeskewed k order skews) (lanesDeskewed k order skews) s

/-- The lanes of a link. -/
def laneCount (l : Nat) : Nat := if l < 24 then 1 else 4

/-- The margins of a link's lanes. -/
def laneMargins (l : Nat) (m : List Nat) : List Nat := (List.range (laneCount l)).map (fun i => m.getD i 0 % 256)

/-- Shows the eye margins. -/
def showMargins (l : Nat) (m : List Nat) (s : State) : State :=
  if l < 24 then setN (lki l) 0x0B (m.getD 0 0 % 256) s else setN (lki l) 0x07 (packLanes m) s

/-- Equalise ends once every lane's margin is ten points above the retrain threshold (R223). How many TRAIN and IDLE have been sent till then
no rule fixes, so the PRBS7 generator stands at a free place (R220, log 81). -/
def equaliseComplete (l : Nat) (m : List Nat) (s : State) : State :=
  if linkState l s ≠ 4 then s
  else
    let s := showMargins l (laneMargins l m) s
    if (laneMargins l m).all (fun x => decide (getN (lki l) (lsub l 0x0C 0x08) s + 10 ≤ x)) then
      drawn (setLinkState l 5 (modLink l (fun x => { x with prbs := 1 + freeVal s % 127 }) s))
    else s

/-- EQUALISE_COMPLETE. -/
def execEqualiseComplete (l : Nat) (margins : List Nat) (s : State) : Host.Outcome State Fault Refusal :=
  gated (.equaliseComplete l margins) (equaliseComplete l margins) s

/-- The 16 bytes of a CAPS payload (R234). -/
def capsBytes (f : CapsFrame) : List Byte :=
  toLe 1 f.major ++ toLe 1 f.minor ++ toLe 2 f.headType ++ toLe 4 f.serial ++ toLe 2 f.replyOffset ++ toLe 1 f.channels
    ++ toLe 1 f.camera ++ toLe 2 f.largest ++ toLe 2 0

/-- A CAPS frame identifies the head (R226): COMMANDs go from the next loop frame on. -/
def caps (h : Nat) (f : CapsFrame) (s : State) : State :=
  if linkState h s ≠ 5 then s
  else
    let s := setB (hi h) 0x12 (capsBytes f) s
    if f.major = 1 ∧ f.replyOffset ≤ 400 then
      setLinkState h 6 (modLink h (fun x => { x with capsOk := true, capSides := f.largest, capCamera := f.camera, commandFrom := some (s.frame + 1), burst := { left := 16 } }) s)
    else attemptFails h 6 (notice 8 h 0x0100 (changeDetail (hi h) 0x12 (f.major + 256 * f.minor) 0) s)

/-- CAPS. -/
def execCaps (h : Nat) (w : WireFrame) (s : State) : Host.Outcome State Fault Refusal :=
  gated (.caps h w) (hearFrame h 0x85 w (fun l => caps h (capsOf (payloadOf l)))) s

/-- 2^-16 ns in a picosecond count. -/
def psT (ps : Int) : Int := roundHalfAway (ps * 65536) 1000

/-- The means of a burst, and Ld in 15.625 ps units: Ld is rounded once, from full precision (R238). -/
def burstMeans (h : Nat) (got : List (Nat × Nat)) (s : State) : Nat × Nat × Nat :=
  let n := max 1 got.length
  let rt : Nat := (got.map (·.1)).foldl (· + ·) 0
  let ta : Nat := (got.map (·.2)).foldl (· + ·) 0
  let ld := divAway ((((rt : Int) - ta) * 15625 - n * getI (hi h) 7 s * 1000)) (2 * 15625 * n : Nat)
  ((roundHalfAway rt n).toNat, (roundHalfAway ta n).toNat, ld.toNat)

/-- Puts the means of a burst in use (R238). -/
def useMeans (h : Nat) (m : Nat × Nat × Nat) (s : State) : State := setN (hi h) 4 m.2.2 (setN (hi h) 6 m.2.1 (setN (hi h) 5 m.1 s))

/-- Whether a burst has ended: every ECHO sent, every one answered or left out. -/
def burstEnded (x : Burst) : Bool := x.left == 0 && x.waiting == []

/-- In Up, the end of a burst forms a new mean from eight replies or more (R238). -/
def burstEnd (h : Nat) (s : State) : State :=
  let x := (link h s).burst
  if linkState h s ≠ 7 ∨ !burstEnded x then s
  else if x.got.length < 8 then modLink h (fun l => { l with burst := {} }) s
  else
    let m := burstMeans h x.got s
    let old := getN (hi h) 4 s
    let s := useMeans h m (modLink h (fun l => { l with burst := {} }) s)
    if 64 < ((m.2.2 : Int) - old).natAbs then noticeObj 8 h (hi h) 0x1C (getI (hi h) 0x1C s) (addN (hi h) 0x1C 32 1 s) else s

/-- The reply to an ECHO arrives (R238). -/
def echoReply (h token trip turn : Nat) (s : State) : State :=
  let x := (link h s).burst
  if !x.waiting.any (fun w => w.1 == token) then s
  else burstEnd h (modLink h (fun l => { l with burst := { x with waiting := x.waiting.filter (fun w => w.1 != token), got := x.got ++ [(trip, turn)] } }) s)

/-- ECHO_REPLY. -/
def execEchoReply (h : Nat) (bytes : List Byte) (bad : Bool) (trip : Nat) (s : State) : Host.Outcome State Fault Refusal :=
  gated (.echoReply h bytes bad trip)
    (hearFrame h 0x84 { bytes := bytes, lanes := [], bad := bad } (fun l => echoReply h (echoOf (payloadOf l)).1 trip (echoOf (payloadOf l)).2)) s

/-- An ECHO without a reply is left out (R238). -/
def echoReplyTimeout (h token : Nat) (s : State) : State :=
  let x := (link h s).burst
  if !x.waiting.any (fun w => w.1 == token) then s
  else burstEnd h (modLink h (fun l => { l with burst := { x with waiting := x.waiting.filter (fun w => w.1 != token) } }) s)

/-- ECHO_REPLY_TIMEOUT. -/
def execEchoReplyTimeout (h token : Nat) (s : State) : Host.Outcome State Fault Refusal :=
  gated (.echoReplyTimeout h token) (echoReplyTimeout h token) s

/-- MEASUREMENT_INTERVAL: a burst of 16 ECHO frames begins (R238). -/
def execMeasurementInterval (h : Nat) (s : State) : Host.Outcome State Fault Refusal :=
  gated (.measurementInterval h) (fun s => if linkState h s = 7 then modLink h (fun l => { l with burst := { left := 16 } }) s else s) s

/-- The spot stands where the head holds it (R242, R404): at Up, or at the first good FEEDBACK after it. -/
def standAtHead (h : Nat) (s : State) : State :=
  match (link h s).fbLast with
  | none => modLink h (fun x => { x with standWait := true }) s
  | some f =>
    let l := [f.mx, f.my, f.focus]
    let s := modLink h (fun x => { x with standWait := false }) s
    findStanding h (some l) (modBerth h (fun x => { x with standing := none, spHeld := l, plan := [], halting := false, headTook := 0 }) s)

/-- A link reaches Up. -/
def linkUpNow (l : Nat) (s : State) : State :=
  let s := modLink l (fun x => { x with failed := 0, noted := false, burst := {}, missRun := 0, statusRun := 0, lanes := [] }) (setLinkState l 7 s)
  if l < 24 then standAtHead l (modBerth l (fun x => { x with lastStatus := s.now, samples := [] }) s)
  else modLink l (fun x => { x with thetas := [] }) s

/-- A measurement attempt shows too wide a spread: four of them end the bring-up (R223). -/
def measureAgain (l : Nat) (s : State) : State :=
  let n := (link l s).burst.attempts + 1
  if 4 ≤ n then attemptFails l 7 s
  else modLink l (fun x => { x with burst := { left := if l < 24 then 16 else 0, attempts := n }, thetas := [] }) s

/-- The spread of a list. -/
def spread (l : List Int) : Nat := (l.foldl max (l.headD 0) - l.foldl min (l.headD 0)).toNat

/-- The measurement of the Measure state ends (R223, R238, R250). -/
def measurementComplete (l : Nat) (s : State) : State :=
  let x := link l s
  if linkState l s ≠ 6 then s
  else if l < 24 then
    if !burstEnded x.burst then s
    else if x.burst.got = [] ∨ 64 < spread (x.burst.got.map (fun g => (g.1 : Int) - g.2)) then measureAgain l s
    else linkUpNow l (useMeans l (burstMeans l x.burst.got s) s)
  else if x.thetas.length < 16 then s
  else if 32768 < spread x.thetas then measureAgain l s
  else linkUpNow l s

/-- MEASUREMENT_COMPLETE. -/
def execMeasurementComplete (l : Nat) (s : State) : Host.Outcome State Fault Refusal :=
  gated (.measurementComplete l) (measurementComplete l) s

/-- TRAINING_TIMEOUT: a bring-up attempt lasts too long (R228). -/
def execTrainingTimeout (l : Nat) (s : State) : Host.Outcome State Fault Refusal :=
  gated (.trainingTimeout l) (fun s => if 1 ≤ linkState l s ∧ linkState l s ≤ 6 then attemptFails l 5 s else s) s

/-- RETRY_INTERVAL: bring-up starts again at Detect (R228). -/
def execRetryInterval (l : Nat) (s : State) : Host.Outcome State Fault Refusal :=
  gated (.retryInterval l) (fun s => if linkState l s = 0 ∧ getN (lki l) 1 s = 1 then enterDetect l s else s) s

/-- Shows the adaptation state, of the worst lane: 0 adapting, 1 frozen, 2 retrain pending. -/
def showAdaptation (l : Nat) (s : State) : State :=
  setN (lki l) (lsub l 0x0E 0x0A) (if (link l s).retrainPending then 2 else if (link l s).lanes.any (fun x => x.frozenAt.isSome) then 1 else 0) s

/-- A retrain becomes pending, with its notice (R230). -/
def retrain (l : Nat) (s : State) : State :=
  if (link l s).retrainPending then s
  else
    let o := lsub l 0x0E 0x0A
    let old := getI (lki l) o s
    noticeObj 8 l (lki l) o old (showAdaptation l (modLink l (fun x => { x with retrainPending := true }) s))

/-- RETRAIN. -/
def execRetrain (l : Nat) (s : State) : Host.Outcome State Fault Refusal := gated (.retrain l) (retrain l) s

/-- Whether a margin lies more than the freeze step below the mean of a lane's margins over the preceding 100 ms (R230). -/
def laneFallen (step m : Nat) (x : Lane) : Bool :=
  x.margins != [] && decide ((m + step) * x.margins.length < x.margins.foldl (· + ·) 0)

/-- A lane after a margin was measured: it freezes on a fall and unfreezes when the margin is back, and its low margins are counted
(R230). -/
def adaptLane (step threshold m : Nat) (t : Time) (x : Lane) : Lane :=
  let x := { x with low := if m < threshold then min 10 (x.low + 1) else 0 }
  if laneFallen step m x then { x with frozenAt := some (x.frozenAt.getD t) }
  else { x with frozenAt := none, noted := false, margins := x.margins.drop (x.margins.length - 99) ++ [m] }

/-- Whether a lane has been frozen for more than 1 s and no notice says so yet (R230). -/
def frozenLong (t : Time) (x : Lane) : Bool := !x.noted && x.frozenAt.any (fun u => decide (u + msT 1000 < t))

/-- The eye margins measured each millisecond, lane by lane (R230). -/
def eyeMargin (l : Nat) (margins : List Nat) (s : State) : State :=
  if linkState l s ≠ 7 then s
  else
    let m := laneMargins l margins
    let s := showMargins l m s
    let lanes := (List.range (laneCount l)).map (fun i =>
      adaptLane (getN (lki l) (lsub l 0x0D 0x09) s) (getN (lki l) (lsub l 0x0C 0x08) s) (m.getD i 0) s.now ((link l s).lanes.getD i {}))
    let s := modLink l (fun x => { x with lanes := lanes.map (fun y => if frozenLong s.now y then { y with noted := true } else y) }) s
    let s := showAdaptation l s
    let s := if lanes.any (frozenLong s.now) then notice 8 l 0x0100 (changeDetail (lki l) (lsub l 0x0E 0x0A) 1 1) s else s
    if lanes.any (fun x => x.low == 10) then retrain l s else s

/-- EYE_MARGIN. -/
def execEyeMargin (l : Nat) (margins : List Nat) (s : State) : Host.Outcome State Fault Refusal :=
  gated (.eyeMargin l margins) (eyeMargin l margins) s

/-- Whether a pending retrain may start (R231). -/
def retrainAllowed (l : Nat) (s : State) : Bool :=
  if l < 24 then bState l s != 1 && bState l s != 2 && bState l s != 5
  else berthList.all (fun b => bState b s != 1 && bState b s != 2) && (link l s).seatFrame.any (fun f => f.quiet)

/-- A pending retrain takes the link Down and through bring-up from Detect (R231). -/
def retrainStart (l : Nat) (s : State) : State :=
  if linkState l s = 7 ∧ (link l s).retrainPending ∧ retrainAllowed l s then
    enterDetect l (setN (lki l) 3 8 (modLink l (fun x => { x with downAt := s.now }) (setLinkState l 0 (resetLink l s))))
  else s

/-- RETRAIN_START. -/
def execRetrainStart (l : Nat) (s : State) : Host.Outcome State Fault Refusal := gated (.retrainStart l) (retrainStart l) s

/-- LOCK_OR_ALIGNMENT_LOST (R243, R248). -/
def execLockOrAlignmentLost (l : Nat) (s : State) : Host.Outcome State Fault Refusal :=
  gated (.lockOrAlignmentLost l) (linkLost l 1) s

/-- FEEDBACK status [0]: a COMMAND was missing or bad at the head; two in succession lose the link (R234, R243). -/
def commandMissed (h : Nat) (v : Bool) (s : State) : State :=
  if !v then modLink h (fun x => { x with statusRun := 0 }) s
  else
    let s := addN (hi h) 0x16 32 1 (modLink h (fun x => { x with statusRun := x.statusRun + 1 }) s)
    if 2 ≤ (link h s).statusRun then headLost h 4 s else s

/-- A good FEEDBACK of the present frame (R75, R76, R127, R234): samples taken at its tick. -/
def feedbackGood (h : Nat) (f : FeedbackFrame) (s : State) : State :=
  let s := modLink h (fun x => { x with fbLast := some f, fbGood := some f, fbFrame := s.frame, missRun := 0 }) s
  let s := if (link h s).standWait ∧ linkState h s = 7 then standAtHead h s else s
  let s := if linkState h s = 7 then feedbackSample h f s.now s else s
  commandMissed h (bit f.status 0) s

/-- A good FEEDBACK frame (R234, R237): one of another frame is too late. -/
def feedback (h : Nat) (f : FeedbackFrame) (s : State) : State :=
  if f.frame ≠ s.frame % 2 ^ 32 then s
  else feedbackGood h f s

/-- FEEDBACK. -/
def execFeedback (h : Nat) (w : WireFrame) (s : State) : Host.Outcome State Fault Refusal :=
  gated (.feedback h w) (hearFrame h 0x81 w (fun l => feedback h (feedbackOf (payloadOf l)))) s

/-- The FEEDBACK of this frame has not come by its deadline (R237, R243): the overspeed guard goes by the prediction (R87, log 45). -/
def feedbackMissing (h : Nat) (s : State) : State :=
  if linkState h s ≠ 7 ∨ ((link h s).fbLast.isSome ∧ (link h s).fbFrame = s.frame) then s
  else
    let s := addN (hi h) 0x15 32 1 (modLink h (fun x => { x with missRun := x.missRun + 1 }) (overspeed h s))
    if getN (hi h) 0x0A s < (link h s).missRun then headLost h 3 s else s

/-- FEEDBACK_MISSING. -/
def execFeedbackMissing (h : Nat) (s : State) : Host.Outcome State Fault Refusal := gated (.feedbackMissing h) (feedbackMissing h) s

/-- A STATUS frame: temperatures, and fault flags whose change is noticed (R88, R234). -/
def status (h : Nat) (f : StatusFrame) (s : State) : State :=
  let old := (link h s).faults
  let s := modLink h (fun x => { x with faults := f.faults }) s
  let s := if old = f.faults then s else notice 8 h 0x0100 (changeDetail (hi h) 0 f.faults old) s
  temperatureReport h f.temps s

/-- STATUS. -/
def execStatus (h : Nat) (w : WireFrame) (s : State) : Host.Outcome State Fault Refusal :=
  gated (.status h w) (hearFrame h 0x82 w (fun l => status h (statusOf (payloadOf l)))) s

/-- A CONFIG WRITE or CONFIG READ goes out, with the sequence of its access (R233, R240). -/
def configFrame (h : Nat) (a : ConfigAccess) (s : State) : State :=
  launchFrame h (if a.write then 4 else 5) a.seq (configPayload a.addr a.len a.data) s

/-- Sends a head configuration access (R233, R240). -/
def configSend (h sess : Nat) (w : Bool) (data : List Byte) (len : Nat) (s : State) : State :=
  if (link h s).cfg.isSome then withResult 0x0B s
  else if linkState h s ≠ 7 then withResult 4 s
  else
    let q := (link h s).txSeq
    let a : ConfigAccess := { sess := sess, write := w, seq := q, sends := 1, addr := getN (hi h) 0x13 s, data := data, len := len }
    configFrame h a (modLink h (fun x => { x with cfg := some a, txSeq := (q + 1) % 256 }) s)

/-- A write of Hh:14 (R240). -/
def configWrite (sess h : Nat) (d : List Byte) (s : State) : State :=
  let s' := configSend h sess true d d.length s
  if s'.result = 0 then modLink h (fun x => { x with cfgLen := d.length }) s' else s'

/-- CONFIG_WRITE. -/
def execConfigWrite (sess h : Nat) (data : List Byte) (s : State) : Host.Outcome State Fault Refusal :=
  gated (.configWrite sess h data) (configWrite sess h data) s

/-- A read of Hh:14: as many bytes as were last written (R240). -/
def configRead (sess h : Nat) (s : State) : State := configSend h sess false [] (link h s).cfgLen s

/-- CONFIG_READ. -/
def execConfigRead (sess h : Nat) (s : State) : Host.Outcome State Fault Refusal := gated (.configRead sess h) (configRead sess h) s

/-- Whether two seats are the ends of quay link k of the first (R16): a ring has three seats or more. -/
def adjacent (k mine other : Nat) (s : State) : Bool :=
  let n := s.hm.size
  let closed := s.hm.ring && decide (3 ≤ n)
  if k = 0 then (if mine = 0 then closed && other + 1 == n else other + 1 == mine)
  else (if mine + 1 = n then closed && other == 0 else other == mine + 1)

/-- Identify on a quay link (R227): no field of SEAT carries the other end's harbour size and topology, so the command gives them (log 31). -/
def identify (k : Nat) (f : SeatFrame) (size topology : Nat) (s : State) : State :=
  let l := 24 + k
  if size ≠ s.hm.size ∨ (topology == 1) ≠ s.hm.ring ∨ f.seat = s.hm.seatNo ∨ !adjacent k s.hm.seatNo f.seat s then attemptFails l 10 s
  else setLinkState l 6 (setN (lki l) 0x0E f.seat (modLink l (fun x => { x with thetas := [], burst := {} }) s))

/-- Seat 0's decision reaches this seat before its commit frame (R66). -/
def heardDecision (f : SeatFrame) (s : State) : State :=
  let ahead := (f.commitFrame + 2 ^ 32 - s.frame % 2 ^ 32) % 2 ^ 32
  if f.seat = 0 ∧ f.decision ∧ s.hm.seatNo ≠ 0 ∧ s.commit.decided.isNone ∧ 1 ≤ ahead ∧ ahead ≤ 4 then
    { s with commit := { s.commit with decided := some (s.frame + ahead), decidedLayer := f.layer, told := [] } }
  else s

/-- A SEAT frame arrives (R245): the neighbour's own, or another seat's on its way round, which goes on. -/
def seat (k : Nat) (f : SeatFrame) (size topology : Nat) (s : State) : State :=
  let l := 24 + k
  let s := modLink l (fun x => { x with heard := x.heard ++ [f.seat], seatFrame := if f.seat = getN (lki l) 0x0E s ∨ linkState l s = 5 then some f else x.seatFrame }) s
  if linkState l s = 5 then identify k f size topology s
  else if f.seat = s.hm.seatNo then s
  else
    let s := heardDecision f { s with hm := { s.hm with seats := s.hm.seats.put f.seat f } }
    if linkUp (25 - k) s ∧ getN (lki (25 - k)) 0x0E s ≠ f.seat then sendFrame (25 - k) 0x12 (seatPayload f) s else s

/-- SEAT. -/
def execSeat (k : Nat) (f : SeatIn) (s : State) : Host.Outcome State Fault Refusal :=
  gated (.seat k f) (hearFrame (24 + k) 0x12 f.frame (fun l => seat k (seatOf (payloadOf l)) f.size f.topology)) s

/-- SEAT_FRAME_MISSING: no SEAT frame in two successive frames (R248). -/
def execSeatFrameMissing (k : Nat) (s : State) : Host.Outcome State Fault Refusal :=
  gated (.seatFrameMissing k) (quayLost k 13) s

/-- RECORD_MISSING (R95, R248). -/
def recordMissing (k : Nat) (s : State) : State :=
  if linkState (24 + k) s = 7 then quayLost k 13 (addN (lki (24 + k)) 0x10 32 1 s) else s

/-- RECORD_MISSING. -/
def execRecordMissing (k : Nat) (s : State) : Host.Outcome State Fault Refusal := gated (.recordMissing k) (recordMissing k) s

/-- A SPOT frame arrives (R94, R245-R247). -/
def spot (k : Nat) (f : SpotFrame) (s : State) : State :=
  let l := 24 + k
  if linkState l s ≠ 7 then s
  else
    let s := if 1 < f.hops ∧ linkUp (25 - k) s then sendFrame (25 - k) 0x11 (spotPayload { f with hops := f.hops - 1 }) s else s
    let s := f.records.foldl (fun s r => { s with hm := { s.hm with others := s.hm.others.put r.hb r } }) s
    if f.command % 4 = 0 then s else { s with hm := { s.hm with arrived := s.hm.arrived ++ [(f.seat, f.command % 4)] } }

/-- SPOT. -/
def execSpot (k : Nat) (w : WireFrame) (s : State) : Host.Outcome State Fault Refusal :=
  gated (.spot k w) (hearFrame (24 + k) 0x11 w (fun l => spot k (spotFrameOf (payloadOf l)))) s

/-- The offset of this seat from its neighbour by the TICKs of one frame (R249): `arrival` is this seat's stamp of its neighbour's TICK. -/
def theta (k : Nat) (f : QtimeFrame) (arrival : Int) (s : State) : Int :=
  ((arrival - f.launch) - (f.arrival - (link (24 + k) s).tickAt) - psT (getI (lki (24 + k)) 0x0C s)) / 2

/-- The quay link towards seat 0: fewer hops, QL0 on a tie (R249). -/
def upstream (s : State) : Option Nat :=
  let up := fun (k : Nat) => linkUp (24 + k) s
  let hops := fun (k : Nat) => (link (24 + k) s).neighbourHops
  if up 0 ∧ up 1 then some (if hops 0 ≤ hops 1 then 0 else 1) else if up 0 then some 0 else if up 1 then some 1 else none

/-- Whether harbour time may be stepped: no berth of the harbour is Armed or Exposing, and no commit waits (R278). -/
def mayStep (s : State) : Bool :=
  berthList.all (fun b => bState b s != 1 && bState b s != 2) && s.hm.seats.all (fun e => e.2.quiet)
    && s.hm.others.all (fun e => e.2.state != 1 && e.2.state != 2) && !commitWaiting s

/-- Changes the time unit. -/
def modPtp (f : Ptp → Ptp) (s : State) : State := { s with ptp := f s.ptp }

/-- The frequency correction after an offset: within +-200 ppm; while time may not be stepped within 20 ppm of its value when that
began, and moved by at most 1 ppm/s, in whole units of 2^-16 ppm (R250, R278, R282). What the servo's law gives is free (log 32). -/
def steer (dt : Nat) (s : State) : State :=
  let cur := getI 0x0804 6 s
  let v := clamp (signed 32 (freeVal s)) (-200 * 65536) (200 * 65536)
  if mayStep s then modPtp (fun p => { p with slewBase := none }) (setI 0x0804 6 v (drawn s))
  else
    let base := s.ptp.slewBase.getD cur
    let r : Int := (s.now * 65536 / msT 1000 : Nat) - ((s.now - dt) * 65536 / msT 1000 : Nat)
    let v := clamp (clamp v (base - 20 * 65536) (base + 20 * 65536)) (cur - r) (cur + r)
    modPtp (fun p => { p with slewBase := some base }) (setI 0x0804 6 v (drawn s))

/-- A seat that is not seat 0 follows its offset to seat 0: it steps once, then steers, and is aligned after 1 s (R250, R283). -/
def followQuay (frame : Nat) (s : State) : State :=
  let off := getI 0x1808 6 s
  let st := getN 0x3800 5 s
  let away := decide (100 * 65536 < off.natAbs) || frame != s.frame % 2 ^ 32
  let s := setN 0x0804 9 3 s
  if st < 2 then
    if away then
      if mayStep s then { setN 0x3800 5 1 s with timeSet := some (nsOf ((s.now + frameT : Int) - off).toNat) } else setN 0x3800 5 1 s
    else setN 0x0804 3 5 (setN 0x3800 5 2 { s with hm := { s.hm with servoInt := s.now } })
  else
    let s := steer frameT s
    if 16384 < off.natAbs then setN 0x3800 5 2 { s with hm := { s.hm with servoInt := s.now } }
    else if s.hm.servoInt + msT 1000 ≤ s.now then setN 0x3800 5 3 s else s

/-- A QTIME frame arrives (R245, R249, R250). -/
def qtime (k : Nat) (f : QtimeFrame) (arrival : Int) (s : State) : State :=
  let l := 24 + k
  let th := theta k f arrival s
  let s := setI (lki l) 0x0D (clamp th (-2 ^ 31) (2 ^ 31 - 1)) s
  let s := modLink l (fun x => { x with tickIn := arrival, neighbourHops := f.hops, neighbourOffset := f.offset, thetas := if linkState l s = 6 then x.thetas.drop (x.thetas.length - 15) ++ [th] else [] }) s
  if s.hm.seatNo = 0 ∨ upstream s ≠ some k then s
  else followQuay f.frame (setI 0x1808 6 (clamp (th + f.offset) (-2 ^ 31) (2 ^ 31 - 1)) (setN 0x3800 6 ((f.hops + 1) % 256) s))

/-- QTIME. -/
def execQtime (k : Nat) (f : QtimeIn) (s : State) : Host.Outcome State Fault Refusal :=
  gated (.qtime k f) (hearFrame (24 + k) 0x13 f.frame (fun l => qtime k (qtimeOf (payloadOf l)) f.arrival)) s

/-- A DATA frame arrives: in sequence it is taken and acknowledged, else it is acknowledged as before (R240, R245). -/
def dataFrame (k : Nat) (f : DataFrame) (s : State) : State :=
  let l := 24 + k
  if linkState l s ≠ 7 then s
  else
    let x := link l s
    let fresh := f.seq == (x.dataAck + 1) % 256
    let s := modLink l (fun y => { y with dataAck := if fresh then f.seq else y.dataAck, dataIn := if fresh then f.bytes else y.dataIn }) s
    launchFrame l 0x14 x.dataSeq (dataPayload (link l s).dataAck []) s

/-- DATA. -/
def execData (k : Nat) (w : WireFrame) (s : State) : Host.Outcome State Fault Refusal :=
  gated (.data k w) (hearFrame (24 + k) 0x14 w (fun l => dataFrame k (dataOf l))) s

end Sys2Proof.Machine
end

