-- ==== Sys2Proof/Machine/Time.lean ====
section
/-!
DEFINITION. Sys2Proof/Machine/Time.lean: harbour time and IEEE 1588: the ordinary clock, its servo, and the transparent clock
(R276-R283). Time stamps and offsets are in 2^-16 ns.
-/
namespace Sys2Proof.Machine

/-- A tenth of a nanosecond times n, in 2^-16 ns. -/
def tenthsT (n : Int) : Int := roundHalfAway (n * 65536) 10

/-- The transmit correction of a port, with its board delay (R280). -/
def txCorrection (port : Nat) (s : State) : Int :=
  (match getN 0x0800 (port + 1) s with
   | 1 => tenthsT 640
   | 2 => tenthsT 256
   | 3 => tenthsT 362
   | _ => 0) + psT (getI 0x0800 (7 + 2 * port) s)

/-- The receive correction of a port, with its board delay (R280). -/
def rxCorrection (port : Nat) (s : State) : Int :=
  (match getN 0x0800 (port + 1) s with
   | 1 => -tenthsT 1184
   | 2 => -tenthsT 474
   | 3 => -tenthsT 579
   | _ => 0) - psT (getI 0x0800 (6 + 2 * port) s)

/-- The instant a received message reached the connector. -/
def rxAt (m : PtpMsg) (s : State) : Int := m.rx + rxCorrection m.port s

/-- Whether the ordinary clock takes a message: it is on, the domain is its own, and the message came by the one transport it
uses (R279). -/
def ptpHears (m : PtpMsg) (s : State) : Bool :=
  getN 0x0803 1 s != 0 && m.domain == getN 0x0803 6 s && m.transport == getN 0x0803 4 s

/-- Whether a message comes from the master in use. -/
def fromMaster (m : PtpMsg) (s : State) : Bool := ptpHears m s && s.ptp.master.any (fun x => x.source == m.source)

/-- An I32 object saturates. -/
def sat32 (i : Int) : Int := clamp i (-2 ^ 31) (2 ^ 31 - 1)

/-- A step of harbour time at the next loop-frame boundary, where that lands on a whole frame (R276-R278). -/
def stepTo (ns : Nat) (s : State) : State := { s with timeSet := some ((ns + 1250) / 2500 * 2500) }

/-- Whether the servo of this chip is steered by PTP (R283). -/
def ptpSteers (s : State) : Bool := s.hm.seatNo == 0

/-- A new offset feeds the servo (R278, R282). -/
def servoOffset (off : Int) (dt : Nat) (s : State) : State :=
  if !ptpSteers s then s
  else
    let s := setN 0x0804 9 (if s.ptp.master.any (fun m => m.ptpScale) then 1 else 2) s
    if (getN 0x0804 8 s : Int) * 65536 < off.natAbs ∧ mayStep s then
      setN 0x0804 3 1 (stepTo (nsOf ((s.now + frameT : Int) - off).toNat) s)
    else
      let st := getN 0x0804 3 s
      steer dt (setN 0x0804 3 (if st = 3 ∧ off.natAbs ≤ 100 * 65536 then 3 else 2) s)

/-- The offset from the master at a Sync sent at t1 (with its correction) and received at t2 (R282). -/
def syncOffset (t1 t2 : Int) (port : Nat) (s : State) : State :=
  let d := if getN 0x0803 5 s = 1 then s.ptp.linkDelay.getD port 0 else s.ptp.pathDelay
  let dt := match s.ptp.lastSync with
    | none => 0
    | some (_, u) => (t2 - u).toNat
  let off := t2 - t1 - d
  let s := modPtp (fun p => { p with lastSync := some (t1, t2), syncWait := none }) s
  servoOffset off dt (setI 0x0804 4 (sat32 off) (setN 0x0803 0x0D 9 s))

/-- A Sync arrives (R279, R282). -/
def sync (m : PtpMsg) (s : State) : State :=
  if !fromMaster m s then s
  else if m.twoStep then modPtp (fun p => { p with syncWait := some m }) s
  else syncOffset (m.origin + m.correction) (rxAt m s) m.port s

/-- SYNC. -/
def execSync (m : PtpMsg) (s : State) : Host.Outcome State Fault Refusal := gated (.sync m) (sync m) s

/-- A Follow_Up completes its Sync (R282). -/
def followUp (m : PtpMsg) (s : State) : State :=
  match s.ptp.syncWait with
  | none => s
  | some y =>
    if fromMaster m s ∧ m.seqId = y.seqId ∧ m.source = y.source then
      syncOffset (m.origin + m.correction + y.correction) (rxAt y s) y.port s
    else s

/-- FOLLOW_UP. -/
def execFollowUp (m : PtpMsg) (s : State) : Host.Outcome State Fault Refusal := gated (.followUp m) (followUp m) s

/-- A Delay_Req is answered by a master under E2E (R279). -/
def delayReq (m : PtpMsg) (s : State) : State :=
  if ptpHears m s ∧ getN 0x0803 0x0D s = 6 ∧ getN 0x0803 5 s = 0 then emit (.ptp 9 m.seqId m.source (rxAt m s)) s else s

/-- DELAY_REQ. -/
def execDelayReq (m : PtpMsg) (s : State) : Host.Outcome State Fault Refusal := gated (.delayReq m) (delayReq m) s

/-- A Delay_Resp completes an E2E path-delay measurement (R282). -/
def delayResp (m : PtpMsg) (s : State) : State :=
  match s.ptp.delaySent, s.ptp.lastSync with
  | some (q, t3), some (t1, t2) =>
    if fromMaster m s ∧ m.seqId = q then
      let d := ((t2 - t1) + (m.origin - m.correction - t3)) / 2
      setI 0x0804 5 (sat32 d) (modPtp (fun p => { p with pathDelay := d, delaySent := none }) s)
    else s
  | _, _ => s

/-- DELAY_RESP. -/
def execDelayResp (m : PtpMsg) (s : State) : Host.Outcome State Fault Refusal := gated (.delayResp m) (delayResp m) s

/-- Whether the node measures peer delays: P2P, as an ordinary or a transparent clock. -/
def peerDelays (s : State) : Bool := getN 0x0803 5 s == 1 && (getN 0x0803 1 s != 0 || getN 0x0803 2 s == 1)

/-- A Pdelay_Req is answered, in two-step mode with a follow-up (R279). -/
def pdelayReq (m : PtpMsg) (s : State) : State :=
  if !peerDelays s then s
  else
    let s' := emit (.ptp 3 m.seqId m.source (rxAt m s)) s
    if getN 0x0803 3 s = 1 then emit (.ptp 0x0A m.seqId m.source (s.now + txCorrection m.port s)) s' else s'

/-- PDELAY_REQ. -/
def execPdelayReq (m : PtpMsg) (s : State) : Host.Outcome State Fault Refusal := gated (.pdelayReq m) (pdelayReq m) s

/-- A Pdelay_Resp with its follow-up: the responder's stamps differ by `origin`, its correction comes on top (R279). -/
def pdelayResp (m : PtpMsg) (s : State) : State :=
  match s.ptp.pdelaySent with
  | none => s
  | some (q, t1) =>
    if !peerDelays s ∨ m.seqId ≠ q then s
    else
      let d := (rxAt m s - (t1 + txCorrection m.port s) - m.origin - m.correction) / 2
      setI 0x0804 5 (sat32 d) (modPtp (fun p => { p with linkDelay := p.linkDelay.put m.port d }) s)

/-- PDELAY_RESP. -/
def execPdelayResp (m : PtpMsg) (s : State) : Host.Outcome State Fault Refusal := gated (.pdelayResp m) (pdelayResp m) s

/-- The data set of a clock as the best master clock algorithm compares it, best first (R279). -/
def dataSet (m : PtpMsg) : List Nat := [m.prio1, m.cls, m.accuracy, m.variance, m.prio2, m.gm, m.steps, m.source]

/-- Lexicographic order of data sets. -/
def lexLt : List Nat → List Nat → Bool
  | a :: x, b :: y => decide (a < b) || (a == b && lexLt x y)
  | [], _ :: _ => true
  | _, [] => false

/-- The data set this node advertises (R279): its identity is its unique identifier. -/
def ownSet (s : State) : List Nat := [getN 0x0803 7 s, 248, 0xFE, 0xFFFF, getN 0x0803 8 s, getN 0x0100 4 s, 0, 0]

/-- The announce interval in 2^-16 ns. -/
def announceT (s : State) : Nat := msT 1000 * 2 ^ (getN 0x0803 0x0A s)

/-- The best of a list of announced masters. -/
def bestOf : List PtpMsg → Option PtpMsg
  | [] => none
  | m :: l => match bestOf l with
    | none => some m
    | some x => if lexLt (dataSet x) (dataSet m) then some x else some m

/-- The masters qualified by two Announce messages (R279). -/
def qualified (s : State) : List PtpMsg :=
  s.ptp.foreign.filter (fun m => decide (2 ≤ (s.ptp.foreign.filter (fun x => x.source == m.source)).length))

/-- The node becomes master (R279). -/
def becomeMaster (s : State) : State :=
  let s := if getN 0x0804 3 s = 1 ∨ getN 0x0804 3 s = 2 ∨ getN 0x0804 3 s = 3 then setN 0x0804 3 4 s else s
  setN 0x0803 0x0F 0 (setN 0x0803 0x0E (getN 0x0100 4 s) (setN 0x0803 0x0D 6 (modPtp (fun p => { p with master := none, syncWait := none }) s)))

/-- The node follows a master. -/
def becomeSlave (m : PtpMsg) (s : State) : State :=
  let same := s.ptp.master.any (fun x => x.source == m.source)
  let s := modPtp (fun p => { p with master := some m, announceAt := s.now }) s
  let s := setN 0x0803 0x0F ((m.steps + 1) % 2 ^ 16) (setN 0x0803 0x0E m.gm s)
  if same then s else setN 0x0803 0x0D 8 (modPtp (fun p => { p with lastSync := none, delaySent := none, syncWait := none }) s)

/-- An Announce feeds the best master clock algorithm (R279). -/
def announce (m : PtpMsg) (s : State) : State :=
  if !ptpHears m s ∨ 255 ≤ m.steps then s
  else
    let young := s.ptp.foreign.filter (fun x => decide ((m.rx - x.rx).natAbs ≤ 4 * announceT s))
    let s := modPtp (fun p => { p with foreign := young.drop (young.length - 31) ++ [m] }) s
    match bestOf (qualified s) with
    | none => s
    | some b => if getN 0x0803 1 s = 2 ∧ lexLt (ownSet s) (dataSet b) then becomeMaster s else becomeSlave b s

/-- ANNOUNCE. -/
def execAnnounce (m : PtpMsg) (s : State) : Host.Outcome State Fault Refusal := gated (.announce m) (announce m) s

/-- No master is announced within the receipt time-out: holdover, or the node becomes master (R279, R282). -/
def announceReceiptTimeout (s : State) : State :=
  match getN 0x0803 1 s with
  | 2 => becomeMaster (modPtp (fun p => { p with foreign := [] }) s)
  | r =>
    let s := if getN 0x0804 3 s = 1 ∨ getN 0x0804 3 s = 2 ∨ getN 0x0804 3 s = 3 then setN 0x0804 3 4 s else s
    setN 0x0803 0x0D (if r = 0 then 1 else 4) (modPtp (fun p => { p with foreign := [], master := none, syncWait := none }) s)

/-- ANNOUNCE_RECEIPT_TIMEOUT. -/
def execAnnounceReceiptTimeout (s : State) : Host.Outcome State Fault Refusal :=
  gated .announceReceiptTimeout announceReceiptTimeout s

/-- SERVO_LOCKED: the filtered offset has stayed within +-20 ns for 10 s (R282). -/
def execServoLocked (s : State) : Host.Outcome State Fault Refusal :=
  gated .servoLocked (fun s => if getN 0x0804 3 s = 2 then setN 0x0804 3 3 s else s) s

/-- A write of the time set object (R277, R278). -/
def timeSet (ns : Nat) (s : State) : State :=
  let st := getN 0x0804 3 s
  if s.hm.seatNo ≠ 0 ∨ (st ≠ 0 ∧ st ≠ 4) ∨ !mayStep s then withResult 4 s else setN 0x0804 9 0 (stepTo ns s)

/-- TIME_SET. -/
def execTimeSet (ns : Nat) (s : State) : Host.Outcome State Fault Refusal := gated (.timeSet ns) (timeSet ns) s

/-- The next sequence identifier. -/
def nextSeq (s : State) : State := modPtp (fun p => { p with outSeq := (p.outSeq + 1) % 2 ^ 16 }) s

/-- SYNC_INTERVAL: a master sends its own Sync, with a Follow_Up in two-step mode (R279). -/
def syncInterval (s : State) : State :=
  if getN 0x0803 0x0D s ≠ 6 then s
  else
    let t : Int := s.now + txCorrection 0 s
    let q := s.ptp.outSeq
    let s := emit (.ptp 0 q 0 t) s
    nextSeq (if getN 0x0803 3 s = 1 then emit (.ptp 8 q 0 t) s else s)

/-- SYNC_INTERVAL. -/
def execSyncInterval (s : State) : Host.Outcome State Fault Refusal := gated .syncInterval syncInterval s

/-- ANNOUNCE_INTERVAL: a master sends Announce (R279). -/
def execAnnounceInterval (s : State) : Host.Outcome State Fault Refusal :=
  gated .announceInterval (fun s => if getN 0x0803 0x0D s = 6 then nextSeq (emit (.ptp 0x0B s.ptp.outSeq 0 s.now) s) else s) s

/-- MINIMUM_DELAY_INTERVAL: Delay_Req to the master, or Pdelay_Req under P2P (R279). -/
def minimumDelayInterval (s : State) : State :=
  let q := s.ptp.outSeq
  if peerDelays s then nextSeq (emit (.ptp 2 q 0 s.now) (modPtp (fun p => { p with pdelaySent := some (q, s.now) }) s))
  else if getN 0x0803 1 s ≠ 0 ∧ s.ptp.master.isSome then
    let t : Int := s.now + txCorrection (s.ptp.master.elim 0 (fun m => m.port)) s
    nextSeq (emit (.ptp 1 q 0 t) (modPtp (fun p => { p with delaySent := some (q, t) }) s))
  else s

/-- MINIMUM_DELAY_INTERVAL. -/
def execMinimumDelayInterval (s : State) : Host.Outcome State Fault Refusal := gated .minimumDelayInterval minimumDelayInterval s

/-- The transparent clock works: it and the bridge are on (R279, R281). -/
def tcOn (s : State) : Bool := getN 0x0803 2 s == 1 && getN 0x0800 3 s == 1

/-- The residence time of a frame that enters by a port and leaves by the other (R280, R281). -/
def residenceOf (port : Nat) (f : EthFrame) (s : State) : Int :=
  (f.egress + txCorrection (1 - port) s) - (f.stamp + rxCorrection port s)

/-- The residence kept for a general message, if one matches and is at most 1 s old (R281). -/
def keptFor (kind : Nat) (f : EthFrame) (s : State) : Option Residence :=
  s.ptp.residences.find? (fun r => r.kind == kind && r.seqId == f.seqId && r.source == f.source && decide (s.now ≤ r.at' + msT 1000))

/-- Counts a residence correction. -/
def counted (s : State) : State := addN 0x0804 0x0B 32 1 s

/-- A PTP frame on its way through the transparent clock: what leaves, if it is not discarded, and the state (R281). -/
def transparent (port : Nat) (f : EthFrame) (s : State) : Option EthFrame × State :=
  let p2p := getN 0x0803 5 s == 1
  let twoMode := getN 0x0803 3 s == 1
  let r := residenceOf port f s
  let link := if p2p && f.ptpType == 0 then s.ptp.linkDelay.getD port 0 else 0
  if p2p ∧ (f.ptpType = 1 ∨ f.ptpType = 9) then (none, s)
  else if f.ptpType < 4 then
    if twoMode ∧ f.twoStep then
      let young := s.ptp.residences.filter (fun x => decide (s.now ≤ x.at' + msT 1000))
      let k : Residence := { kind := f.ptpType, seqId := f.seqId, source := f.source, value := r, at' := s.now }
      (some { f with correction := f.correction + link },
        modPtp (fun p => { p with residences := young.drop (young.length - 63) ++ [k] }) s)
    else (some { f with correction := f.correction + r + link }, counted s)
  else if twoMode ∧ (f.ptpType = 8 ∨ f.ptpType = 9) then
    match keptFor (if f.ptpType = 8 then 0 else 1) f s with
    | none => (some f, addN 0x0804 0x0C 32 1 s)
    | some k =>
      (some { f with correction := f.correction + k.value },
        counted (modPtp (fun p => { p with residences := p.residences.filter (· != k) }) s))
  else (some f, s)

end Sys2Proof.Machine
end

