-- ==== Sys2Proof/Machine/Memory.lean ====
section
/-!
DEFINITION. Sys2Proof/Machine/Memory.lean: the DDR5 controller: training, layout, address map, queues, pages, refresh, self-refresh,
ECC and the patrol scrub (R302-R320), and the memory window. A written byte is in `dram` from its request on, which is what R312 and
R313 let every client see; the queues hold what is not yet issued to the devices.
-/
namespace Sys2Proof.Machine

/-- The capacity in force in bytes (R302, R306). -/
def capacity (s : State) : Nat := getN 0x6000 3 s * mbB

/-- The MB the regions before the record area take, for slot, frame, chart and quay areas (R307). -/
def layoutUsed (l : List Nat) : Nat := 768 + 96 * l.getD 0 0 + l.getD 1 0 + l.getD 2 0 + l.getD 3 0

/-- The layout written (R308). -/
def layoutWritten (s : State) : List Nat := [getN 0x6001 1 s, getN 0x6001 2 s, getN 0x6001 3 s, getN 0x6001 4 s]

/-- The default layout. -/
def layoutDefault : List Nat := [64, 2048, 16384, 256]

/-- Whether a layout leaves the record area 1,024 MB (R308). -/
def layoutFits (cap : Nat) (l : List Nat) : Bool := decide (layoutUsed l + 1024 ≤ cap)

/-- The region an address lies in: 0 pilot, 1 bulk, 2 manifest, 3 quay, 4 frame, 5 chart, 6 record (R307). -/
def regionOf (a : Nat) (s : State) : Nat :=
  let l := (List.range 4).map (fun i => layoutMB s i)
  ((regionBases l).filter (fun b => decide (b * mbB ≤ a))).length - 1

/-- A layout comes into force (R307, R308). -/
def takeLayout (l : List Nat) (s : State) : State :=
  let s := { s with mem := { s.mem with layout := l } }
  setB 0x6001 6 ((regionBases l).flatMap (fun b => toLe 8 (b * mbB))) (setN 0x6001 5 (getN 0x6000 3 s - layoutUsed l) s)

/-- The capacity of a configuration in MB (R302). -/
def configMB (r : TrainingIn) : Nat := 32768 * (if r.dense then 2 else 1) * (if r.ranks2 then 2 else 1)

/-- A training succeeds: the memory is ready, the stored layout in force or the defaults (R303, R308). -/
def trained (r : TrainingIn) (s : State) : State :=
  let s := setN 0x6000 4 (b2n r.dense + 2 * b2n r.ranks2) (setN 0x6000 3 (configMB r) (setN 0x6000 1 2 s))
  let s := setB 0x6000 5 r.result { s with mem := { s.mem with attempts := 0, driftAt := 0 } }
  if layoutFits (configMB r) (layoutWritten s) then setN 0x6001 7 0 (takeLayout (layoutWritten s) s)
  else noticeObj 6 0 0x6001 7 0 (setN 0x6001 7 1 (takeLayout layoutDefault s))

/-- TRAINING_COMPLETE (R303, R304): the third failure in a row reads failed. -/
def trainingComplete (r : TrainingIn) (s : State) : State :=
  if 2 ≤ getN 0x6000 1 s then s
  else if r.ok ∧ r.supported then trained r s
  else
    let n := s.mem.attempts + 1
    let s := { s with mem := { s.mem with attempts := n } }
    if 3 ≤ n then setNotice 6 0 0x6000 1 3 s else setN 0x6000 1 1 s

/-- TRAINING_COMPLETE. -/
def execTrainingComplete (r : TrainingIn) (s : State) : Host.Outcome State Fault Refusal :=
  gated (.trainingComplete r) (trainingComplete r) s

/-- Where a burst address lies (R306). -/
structure Place where
  sub : Nat := 0
  channel : Nat := 0
  rank : Nat := 0
  group : Nat := 0
  bank : Nat := 0
  row : Nat := 0
  column : Nat := 0
  deriving DecidableEq, Repr

/-- The address map (R306). -/
def placeOf (a : Nat) (s : State) : Place :=
  let two := bit (getN 0x6000 4 s) 1
  let row := a >>> (if two then 20 else 19)
  { sub := bits a 6 6, channel := bits a 7 7, rank := if two then bits a 19 19 else 0, group := bits a 12 10 ^^^ bits row 2 0, bank := bits a 18 17 ^^^ bits row 4 3, row := row, column := bits a 16 13 * 64 + bits a 9 8 * 16 }

/-- The subchannel of a place, counted over both channels. -/
def Place.sc (p : Place) : Nat := 2 * p.channel + p.sub

/-- A bank's number in its subchannel: rank, bank group, bank. -/
def Place.index (p : Place) : Nat := (p.rank * 8 + p.group) * 4 + p.bank

/-- A subchannel's record. -/
def subch (c : Nat) (s : State) : Subchannel := s.mem.subs.getD c {}

/-- Changes a subchannel's record. -/
def modSub (c : Nat) (f : Subchannel → Subchannel) (s : State) : State :=
  { s with mem := { s.mem with subs := s.mem.subs.put c (f (subch c s)) } }

/-- Changes a bank. -/
def modBank (c k : Nat) (f : Bank → Bank) (s : State) : State :=
  modSub c (fun x => { x with banks := x.banks.put k (f (x.banks.getD k {})) }) s

/-- An activate draws a neighbour refresh with probability 2^-k; what the LFSR gives is free (R316, log 3). -/
def activate (c : Nat) (p : Place) (s : State) : State :=
  let hit := decide (freeVal s % 2 ^ getN 0x6002 4 s = 0)
  let s := drawn s
  if hit then addN 0x6005 6 64 1 (modSub c (fun x => { x with neighbours := x.neighbours ++ [(p.index, p.row)] }) s) else s

/-- The rows a neighbour refresh of a row activates: r - 1 and r + 1, at distance 2 also r - 2 and r + 2 (R316). -/
def neighbourRows (row : Nat) (s : State) : List Nat :=
  let top := if bit (getN 0x6000 4 s) 0 then 2 ^ 17 else 2 ^ 16
  ((if getN 0x6002 5 s = 2 then [row, row + 4] else []) ++ [row + 1, row + 3]).filterMap (fun r =>
    if 2 ≤ r ∧ r < top + 2 then some (r - 2) else none)

/-- The neighbour refreshes queued in a subchannel are issued; each leaves its bank closed (R316). -/
def neighbourRefresh (c : Nat) (s : State) : State :=
  (subch c s).neighbours.foldl (fun s e =>
    modBank c e.1 (fun b => { b with openRow := none }) ((neighbourRows e.2 s).foldl (fun s r => emit (.neighbour c e.1 r) s) s))
    (modSub c (fun x => { x with neighbours := [] }) s)

/-- The bank after an access to a row (R314). -/
def bankAfter (policy row : Nat) (t : Time) (b : Bank) : Bank :=
  let n := match b.lastRow with
    | none => b.predict
    | some r => if r = row then min 3 (b.predict + 1) else b.predict - 1
  let stays := policy == 1 || (policy == 2 && decide (2 ≤ n))
  { openRow := if stays then some row else none, lastRow := some row, predict := n, lastUse := t }

/-- A burst is issued to its devices (R311, R314, R316). -/
def issueBurst (a : Nat) (w : Bool) (s : State) : State :=
  let p := placeOf a s
  let c := p.sc
  let opened := ((subch c s).banks.getD p.index {}).openRow == some p.row
  let s := if opened then s else activate c p s
  neighbourRefresh c (emit (.issue c a w) (modBank c p.index (bankAfter (getN 0x6002 1 s) p.row s.now) s))

/-- The latency target of a client in ns (R311). -/
def latencyTarget (c : Nat) (s : State) : Nat := getN 0x6003 (c + 1) s

/-- A request's urgency by its age in ns (R311). -/
def urgency (c age : Nat) (s : State) : Nat :=
  let t := latencyTarget c s
  if 2 * age < t then 0 else if 4 * age < 3 * t then 1 else if age < t then 2 else 3

/-- The age of a queued request in ns. -/
def ageOf (q : Queued) (s : State) : Nat := q.req.age + nsOf (s.now - q.at')

/-- Counts a request that has reached its latency target, once (R311). -/
def lateNote (client age : Nat) (s : State) : State :=
  if latencyTarget client s ≤ age then addN 0x6004 (client + 1) 32 1 s else s

/-- Whether a queued request hits an open row. -/
def rowHit (q : Queued) (s : State) : Bool :=
  let p := placeOf q.req.addr s
  ((subch p.sc s).banks.getD p.index {}).openRow == some p.row

/-- The place of a queued request in the order of R311, refresh apart: the smallest is issued first. -/
def issueKey (s : State) (q : Queued) : Nat :=
  let u := urgency q.req.client (ageOf q s) s
  let cls := if q.req.client = 0 ∧ 2 ≤ u then 0 else if u = 3 then 1 else if rowHit q s then 2 else 3
  (cls * 4 + (if cls = 3 then 3 - u else 0)) * 2 ^ 64 + q.order

/-- Issues one queued write. -/
def issueQueued (c : Nat) (q : Queued) (s : State) : State :=
  let s := modSub c (fun x => { x with queue := x.queue.filter (fun y => y.order != q.order) }) s
  issueBurst q.req.addr true (if q.late then s else lateNote q.req.client (ageOf q s) s)

/-- Drains a subchannel's writes down to 16, `k` at most (R313). -/
def drain (c : Nat) : Nat → State → State
  | 0, s => s
  | k + 1, s =>
    if (subch c s).queue.length ≤ 16 then s
    else match leastBy (issueKey s) (subch c s).queue with
      | none => s
      | some q => drain c k (issueQueued c q s)

/-- The burst of an address. -/
def burstOf (a : Nat) : Nat := a / 64 * 64

/-- The bursts a request touches. -/
def burstsOf (a n : Nat) : List Nat := (List.range ((burstOf (a + n - 1) - burstOf a) / 64 + 1)).map (fun i => burstOf a + 64 * i)

/-- A channel leaves self-refresh on a request (R317). -/
def wakeChannel (a : Nat) (s : State) : State :=
  let p := placeOf a s
  setN 0x6002 7 (setBit (getN 0x6002 7 s) p.channel false)
    { s with mem := { s.mem with idleAt := s.mem.idleAt.put p.channel s.now } }

/-- A write of one burst is queued, and a full queue drains (R312, R313). -/
def queueWrite (r : MemReq) (a : Nat) (s : State) : State :=
  let c := (placeOf a s).sc
  let late := decide (latencyTarget r.client s ≤ r.age)
  let q : Queued := { order := s.mem.order, at' := s.now, req := { r with addr := a, data := [] }, late := late }
  let s := { s with mem := { s.mem with order := s.mem.order + 1 } }
  let s := modSub c (fun x => { x with queue := x.queue ++ [q] }) (if late then lateNote r.client r.age s else s)
  if 48 ≤ (subch c s).queue.length then drain c 64 s else s

/-- A read of one burst: queued writes of its burst go first (R313). -/
def readBurst (r : MemReq) (a : Nat) (s : State) : State :=
  let c := (placeOf a s).sc
  let mine := (subch c s).queue.filter (fun q => burstOf q.req.addr == burstOf a)
  issueBurst (burstOf a) false (lateNote r.client r.age (mine.foldl (fun s q => issueQueued c q s) s))

/-- The bytes that name a place in the error records (R318, R366). -/
def placeByte (p : Place) : Nat := p.channel + 2 * p.sub + 4 * p.rank

/-- Records an ECC error of a burst: kind 1 correctable, 2 uncorrectable (R318, R366). -/
def eccError (kind client device a : Nat) (s : State) : State :=
  let p := placeOf a s
  let rec1 := toLe 8 a ++ toLe 1 (placeByte p) ++ toLe 1 p.group ++ toLe 1 p.bank ++ toLe 1 kind ++ toLe 4 p.row ++ toLe 2 p.column
    ++ toLe 1 client ++ toLe 1 device ++ toLe 2 0 ++ toLe 4 (nsOf s.now % 1000000000) ++ toLe 6 (nsOf s.now / 1000000000)
  let d := toLe 1 kind ++ toLe 1 client ++ toLe 1 (placeByte p) ++ toLe 1 device ++ toLe 4 p.row ++ toLe 2 p.column ++ toLe 1 p.group ++ toLe 1 p.bank
  let s := setB 0x6005 3 rec1 (addN 0x6005 kind 32 1 s)
  if kind = 1 then logAdd 6 0 0x0220 d s.now s
  else noticeLog 6 0 0x0220 d { s with mem := { s.mem with poison := s.mem.poison.put a client } }

/-- The devices of a burst that was read that show errors: one is corrected and the burst written back, two or more are not (R318). -/
def eccCheck (client a : Nat) (devices : List Nat) (s : State) : State :=
  match devices.eraseDups with
  | [] => s
  | [d] => issueBurst a true (eccError 1 client d a s)
  | _ => eccError 2 client 0xFF a s

/-- The slot of a manifest address: berth, slot, offset. -/
def slotOfAddr (a : Nat) (s : State) : Nat × Nat × Nat :=
  let o := a - 768 * mbB
  let n := o / slotSize s
  (n / 4, n % 4, o % slotSize s)

/-- Uncorrectable data in the manifest a berth executes: the records it holds, or every record still to come where it lies outside
them (R54). -/
def manifestDamage (a : Nat) (s : State) : State :=
  let (b, k, o) := slotOfAddr a s
  if slotState b k s ≠ 5 ∧ slotState b k s ≠ 6 then s
  else
    let n := segCount (slotBase b k s) s
    let at' := (place b ((plannedArc b s.now s).getD 0) s).1
    if 64 ≤ o ∧ o < 64 + 32 * n then damageRecord b (min (n - 1) ((o + 63 - 64) / 32)) (damageRecord b ((o - 64) / 32) s)
    else damageRecord b (n - 1) (damageRecord b (min (n - 1) (at' + 1)) s)

/-- The chart buffer in use that holds an address, and the offset in it (R185, R309). -/
def chartOfAddr (a : Nat) (s : State) : Option (Nat × Nat) :=
  ((List.range 4).find? (fun k =>
      let b := buffer k s
      b.state != 0 && decide (b.base ≤ a ∧ a < b.base + tileData b + tileCount b * 4096 * cellBytes b.channels))).map
    (fun k => (k, a - (buffer k s).base))

/-- The further effects of an uncorrectable error that the scrub finds (R320). -/
def scrubFound (a : Nat) (s : State) : State :=
  match regionOf a s with
  | 2 =>
    let (b, k, _) := slotOfAddr a s
    if slotState b k s = 3 then setN (qi b) 0x0E nowhere (setN (qi b) 0x0D 2 (setSlot b k 4 (modBerth b (fun x => { x with slotCauses := x.slotCauses.put k 2 }) s)))
    else manifestDamage a s
  | 5 =>
    match chartOfAddr a s with
    | none => s
    | some (k, _) => if (buffer k s).state = 3 then notice 4 28 0x0100 (changeDetail 0x5003 1 (buffer k s).layer k) s else s
  | _ => s

/-- PATROL_SCRUB: the next burst is read (R320). -/
def patrolScrub (errors : List Nat) (s : State) : State :=
  let cap := capacity s
  let a := s.mem.scrubPos
  if getN 0x6002 6 s = 0 ∨ cap ≤ a then s
  else
    let s := eccCheck 0xFF a errors (issueBurst a false s)
    let s := if 2 ≤ errors.eraseDups.length then scrubFound a s else s
    let n := a + 64
    let s := if cap ≤ n then addN 0x6005 5 32 1 s else s
    let n := if cap ≤ n then 0 else n
    setN 0x6005 4 (n * 10000 / cap) { s with mem := { s.mem with scrubPos := n } }

/-- PATROL_SCRUB. -/
def execPatrolScrub (errors : List Nat) (s : State) : Host.Outcome State Fault Refusal :=
  gated (.patrolScrub errors) (patrolScrub errors) s

/-- DQS_OSCILLATOR_CHECK: a drift (in 0.01 %) above 2 % moves the timing in the next refresh window (R305). -/
def execDqsOscillatorCheck (drift : Nat) (s : State) : Host.Outcome State Fault Refusal :=
  gated (.dqsOscillatorCheck drift)
    (fun s => if getN 0x6000 1 s = 2 ∧ 200 < drift then { s with mem := { s.mem with driftAt := 1 } } else s) s

/-- Whether a request of urgency 3 waits in a subchannel. -/
def urgent (c : Nat) (s : State) : Bool := (subch c s).queue.any (fun q => urgency q.req.client (ageOf q s) s == 3)

/-- Same-bank refreshes that are due close the rows of their bank in every bank group (R315). -/
def refreshBank (c : Nat) (s : State) : State :=
  modSub c (fun x => { x with refreshDue := x.refreshDue - 1, refreshAt := s.now, nextBank := (x.nextBank + 1) % 4, banks := x.banks.map (fun e => if e.1 % 4 = x.nextBank then (e.1, { e.2 with openRow := none }) else e) }) s

/-- REFRESH: due at once, or postponed by up to four intervals while a request of urgency 3 waits (R305, R311, R315). The interval
itself, halved above 85 C, is the command's own. -/
def refresh (c : Nat) (s : State) : State :=
  let n := (subch c s).refreshDue + 1
  let s := modSub c (fun x => { x with refreshDue := n }) s
  if urgent c s ∧ n ≤ 4 then s
  else
    let s := each (List.range n) (fun _ s => refreshBank c s) s
    if s.mem.driftAt = 0 then s else addN 0x6000 6 32 1 { s with mem := { s.mem with driftAt := 0 } }

/-- REFRESH. -/
def execRefresh (sc : Nat) (hot : Bool) (s : State) : Host.Outcome State Fault Refusal :=
  gated (.refresh sc hot) (fun s => if getN 0x6000 1 s = 2 then refresh sc s else s) s

/-- PAGE_IDLE_CLOSE (R314). -/
def execPageIdleClose (sc bank : Nat) (s : State) : Host.Outcome State Fault Refusal :=
  gated (.pageIdleClose sc bank) (fun s =>
    if (((subch sc s).banks.getD bank {}).openRow).isSome then modBank sc bank (fun x => { x with openRow := none }) s else s) s

/-- A channel of ready memory enters self-refresh (R317, R341, R351); what is queued is issued first. -/
def selfRefresh (ch : Nat) (s : State) : State :=
  if getN 0x6000 1 s ≠ 2 then s
  else
    let s := each [2 * ch, 2 * ch + 1] (fun c s =>
      let s := (subch c s).queue.foldl (fun s q => issueQueued c q s) s
      modSub c (fun x => { x with banks := x.banks.map (fun e => (e.1, { e.2 with openRow := none })) }) s) s
    setN 0x6002 7 (setBit (getN 0x6002 7 s) ch true) s

/-- SELF_REFRESH_ENTRY: unless it is disabled or inhibited (R317). -/
def selfRefreshEntry (ch : Nat) (s : State) : State :=
  let busy := berthList.any (fun b => bState b s == 1 || bState b s == 2) || commitWaiting s
  if getN 0x6002 3 s = 0 ∨ busy then s else selfRefresh ch s

/-- SELF_REFRESH_ENTRY. -/
def execSelfRefreshEntry (ch : Nat) (s : State) : Host.Outcome State Fault Refusal :=
  gated (.selfRefreshEntry ch) (selfRefreshEntry ch) s

/-- A read through the memory window: its result and bytes (R319, objects 0x6010). -/
def windowRead (n : Nat) (s : State) : Nat × List Byte × State :=
  let a := getN 0x6010 1 s
  if a < regionBase 1 s then (4, [], s)
  else if capacity s < a + n then (0x0A, [], s)
  else match s.mem.poison.find? (fun e => decide (a < e.1 + 64 ∧ e.1 < a + n)) with
    | some e => (4, [], setN 0x6010 3 e.1 s)
    | none => (0, dramRead a n s, setN 0x6010 1 (a + n) s)

/-- A write through the memory window, within the record area only. -/
def windowWrite (l : List Byte) (s : State) : State :=
  let a := getN 0x6010 1 s
  if a < recordBase s ∨ capacity s < a + l.length then withResult 4 s
  else setN 0x6010 1 (a + l.length) (dramFresh a l s)

/-- A write of a layout object is refused where the record area would fall below 1,024 MB at the capacity in force (R308). -/
def layoutAllows (k : Nat) (v : Int) (s : State) : Bool :=
  getN 0x6000 3 s == 0 || layoutFits (getN 0x6000 3 s) ((layoutWritten s).set (k - 1) v.toNat)

end Sys2Proof.Machine
end

