-- ==== Sys2Proof/Machine/Bollards.lean ====
section
/-!
DEFINITION. Sys2Proof/Machine/Bollards.lean: the bollards: their inputs, latches, gating path and release (R332-R337, R353).
-/
namespace Sys2Proof.Machine

/-- The role of bollard i: 0 off, 1 pause, 2 hard stop (R332). -/
def bolRole (i : Nat) (s : State) : Nat := getN 0x0402 (i + 1) s

/-- The berth mask of bollard i. -/
def bolBerths (i : Nat) (s : State) : Nat := getN 0x0403 (i + 1) s

/-- The axis mask of bollard i. -/
def bolAxes (i : Nat) (s : State) : Nat := getN 0x0404 (i + 1) s

/-- Whether bollard i is latched. -/
def bolLatched (i : Nat) (s : State) : Bool := bit (getN 0x0402 0x15 s) i

/-- The bollards whose input is at its active level (R333). -/
def activeOf (levels active : Nat) : Nat := (0xFFFF ^^^ levels ^^^ active) % 65536

/-- The levels of the bollard inputs are taken: which are active, and since when the others are not (R333, R334). -/
def bolInputs (levels : Nat) (s : State) : State :=
  let old := getN 0x0402 0x14 s
  let now := activeOf levels (getN 0x0402 0x11 s)
  let since := (List.range 16).foldl (fun (m : Tab Time) i =>
    if bit now i then m.del i else if bit old i then m.put i s.now else m) s.mains.inactiveSince
  setN 0x0402 0x14 now { s with mains := { s.mains with input := levels % 65536, inactiveSince := since } }

/-- Whether a berth of a mask is Armed or Exposing. -/
def anyExposing (m : Nat) (s : State) : Bool := berthList.any (fun b => bit m b && (bState b s == 1 || bState b s == 2))

/-- What a latched bollard does to its berths and axes from the instant t on (R332, R333, R337, R379). -/
def bolActs (i : Nat) (t : Time) (s : State) : State :=
  let m := bolBerths i s
  let s := eachBerth m calStop s
  let s := if bolRole i s = 1 then faultStop m 2 0x000F t s
    else if bolRole i s = 2 then eachBerth m (fun b => stopBerth b 3 0x0080 t) s
    else s
  let s := if bolRole i s = 2 then each ([0, 1, 2, 3].filter (fun a => bit (bolAxes i s) a)) stopDecelerate s else s
  eachBerth m (fun b => updateLen b t) s

/-- Bollard i latches at t unless its role is Off (R332, R388); its berths' outputs are forced within 200 ns, a free value (R333,
R334, log 3). -/
def bolLatch (i : Nat) (t : Time) (s : State) : State :=
  if bolLatched i s ∨ bolRole i s = 0 then s
  else
    let s := setN 0x0402 0x15 (setBit (getN 0x0402 0x15 s) i true) s
    let s := setN 0x0402 0x14 (setBit (getN 0x0402 0x14 s) i true) { s with mains := { s.mains with inactiveSince := s.mains.inactiveSince.del i } }
    let s := addN 0x0405 (i + 1) 32 1 s
    let s := noticeLogAt 5 0 0x0212 (toLe 1 i ++ toLe 1 (bolRole i s) ++ toLe 1 (bolAxes i s) ++ toLe 1 0 ++ toLe 4 (bolBerths i s) ++ toLe 4 0) t s
    bolActs i (t + freeVal s % 201 * nsT) (drawn s)

/-- BOLLARD_LATCH (R333). -/
def execBollardLatch (i off : Nat) (s : State) : Host.Outcome State Fault Refusal :=
  gated (.bollardLatch i off) (fun s => bolLatch i (timeAt off s) s) s

/-- Whether the input of bollard i has been inactive for the release time (R334). -/
def bolMayRelease (i : Nat) (s : State) : Bool :=
  !bit (getN 0x0402 0x14 s) i && decide (s.mains.inactiveSince.getD i 0 + msT (getN 0x0402 0x13 s) ≤ s.now)

/-- Releases bollard i where it may be released (R334). -/
def bolRelease (i : Nat) (s : State) : State :=
  if bolLatched i s ∧ bolMayRelease i s then
    let m := bolBerths i s
    eachBerth m (fun b s => updateLen b s.now s) (setN 0x0402 0x15 (setBit (getN 0x0402 0x15 s) i false) s)
  else s

/-- The bits of a mask. -/
def bitsOf (n m : Nat) : List Nat := (List.range n).filter (fun i => bit m i)

/-- A write to the acknowledge object (R334). -/
def acknowledge (m : Nat) (s : State) : State :=
  let s := each (bitsOf 16 m) bolRelease s
  if (bitsOf 16 m).any (fun i => bolLatched i s) then withResult 4 s else s

/-- ACKNOWLEDGE. -/
def execAcknowledge (mask : Nat) (s : State) : Host.Outcome State Fault Refusal := gated (.acknowledge mask) (acknowledge mask) s

/-- The bollards whose active level a write changes. -/
def levelChanges (m : Nat) (s : State) : List Nat := (List.range 16).filter (fun i => bit m i != bit (getN 0x0402 0x11 s) i)

/-- A write of the active levels (R336). -/
def activeLevel (m : Nat) (s : State) : State :=
  let l := levelChanges m s
  let now := activeOf s.mains.input (getN 0x0402 0x11 s)
  let new := activeOf s.mains.input m
  let latching := l.filter (fun i => !bit now i && bit new i)
  if l.any (fun i => bolLatched i s || anyExposing (bolBerths i s) s) then withResult 4 s
  else if latching ≠ [] ∧ anyExposing allBerths s then withResult 4 s
  else
    let s := bolInputs s.mains.input (setN 0x0402 0x11 m s)
    each latching (fun i s => bolLatch i s.now s) s

/-- ACTIVE_LEVEL. -/
def execActiveLevel (mask : Nat) (s : State) : Host.Outcome State Fault Refusal := gated (.activeLevel mask) (activeLevel mask) s

/-- A write of a bollard's role or of one of its masks; `new` is the berth mask it leaves (R336). A bollard whose input is active
latches as soon as its role is not Off (R388). -/
def bolWrite (i k : Nat) (j : Nat) (v new : Nat) (s : State) : State :=
  if bolLatched i s ∨ anyExposing (bolBerths i s) s ∨ anyExposing new s then withResult 4 s
  else
    let s := setN k j v s
    if k = 0x0402 ∧ bit (getN 0x0402 0x14 s) i = true then bolLatch i s.now s else s

/-- A write of the glitch filter (R336). -/
def glitchWrite (v : Nat) (s : State) : State :=
  if getN 0x0402 0x15 s ≠ 0 ∨ (List.range 16).any (fun i => bolRole i s != 0 && anyExposing (bolBerths i s) s) then withResult 4 s
  else setN 0x0402 0x12 v s

/-- After an event that resets W-kind objects, each bollard whose input is active latches at once (R334, R353). -/
def bolBoot (levels : Nat) (s : State) : State :=
  let s := bolInputs levels s
  each (bitsOf 16 (getN 0x0402 0x14 s)) (fun i s => bolLatch i s.now s) s

end Sys2Proof.Machine
end

