-- ==== Sys2Proof/Machine/Resets.lean ====
section
/-!
DEFINITION. Sys2Proof/Machine/Resets.lean: the resets and what each keeps (R349-R353), the flash and the boot (R354-R362, R371), and
their commands.
-/
namespace Sys2Proof.Machine

/-- The blocks a warm reset leaves alone: tide tracker and bollards, memory controller, axes, counters and compare units (R351). -/
def warmSpared (i : Nat) : Bool :=
  decide (0x0400 ≤ i ∧ i ≤ 0x0402) || decide (0x6000 ≤ i ∧ i < 0x6010) || decide (0x7000 ≤ i ∧ i < 0x7300)

/-- The contents of an image bank: 0 pilot A, 1 pilot B, 2 berth A, 3 berth B (R355). -/
def imageOf (n : Nat) (s : State) : List Byte := (s.flash.images.find n).getD (Config.shippedImage n)

/-- The largest body of an image: 1 pilot, 2 berth (R358). -/
def bodyMax (kind : Nat) : Nat := if kind = 1 then 1048448 else 524160

/-- The body length of an image's header. -/
def bodyLen (l : List Byte) : Nat := field l 0x10 4

/-- Whether an image's body hash and signature are right (R358). -/
def imageSigned (l : List Byte) (s : State) : Bool :=
  let hashes := getB 0x0100 0x0B s
  slice l 0x18 32 == sha256 ((l.drop 128).take (bodyLen l))
    && (signersOf (slice l 0x38 64) (l.take 0x38)).any (fun k => sha256 k == slice hashes 0 32 || sha256 k == slice hashes 32 32)

/-- Whether an image verifies as one of a kind (R358). -/
def imageVerifies (kind : Nat) (l : List Byte) (s : State) : Bool :=
  field l 0 4 == 0x54494D47 && field l 4 1 == kind && decide (bodyLen l ≤ bodyMax kind) && decide (128 + bodyLen l ≤ l.length)
    && imageSigned l s

/-- The boot record in use: that of the higher sequence; bank A of both, without trial, where there is none (R357). -/
def bootRecord (s : State) : BootRecord :=
  s.flash.boot.foldl (fun a r => if a.seq ≤ r.seq then r else a) {}

/-- Writes a change of the boot record to the other copy (R357). -/
def setBootRecord (r : BootRecord) (s : State) : State :=
  let old := bootRecord s
  if r = old then s
  else { s with flash := { s.flash with boot := [{ r with seq := old.seq + 1 }] ++ (if s.flash.boot = [] then [] else [old]) } }

/-- An image's bank and trial count after its count was raised or, at 4, the other bank taken (R364). -/
def trialStep (bank trial : Nat) : Nat × Nat :=
  if trial = 0 then (bank, 0) else if 4 ≤ trial then (1 - bank, 0) else (bank, trial + 1)

/-- The bank an image boots from: the recorded one, else the other where that verifies; none where neither does (R359). -/
def bankPick (kind : Nat) (p : Nat × Nat) (s : State) : Option (Nat × Nat) :=
  let base := if kind = 1 then 0 else 2
  if imageVerifies kind (imageOf (base + p.1) s) s then some p
  else if imageVerifies kind (imageOf (base + (1 - p.1)) s) s then some (1 - p.1, 0)
  else none

/-- The versions of a bank in 0x0110:07 (R358). -/
def bankVersion (n : Nat) (s : State) : List Byte :=
  let l := imageOf n s
  if imageVerifies (if n < 2 then 1 else 2) l s then slice l 6 2 ++ toLe 2 0 ++ slice l 8 4 else toLe 8 0

/-- Whether an image supports the chip's stepping (R358, R360). -/
def steppingOk (l : List Byte) (s : State) : Bool := bit (field l 0x0C 2) (getN 0x0100 2 s)

/-- The Anchorage cause of a pilot image and a berth image, 0 where they are accepted (R360, R361). -/
def versionCause (p b : List Byte) (s : State) : Nat :=
  if !steppingOk p s then 1
  else if !steppingOk b s then 3
  else if field b 7 1 ≠ field p 7 1 then 2 else 0

/-- The stored breakwater copies that verify (R197). -/
def goodCopies (s : State) : List (List Byte) := s.flash.breakwater.filter (fun l => setFormOk l && setSigned l s)

/-- The breakwater loads the newer stored copy that verifies (R197). -/
def loadBreakwater (s : State) : State :=
  match (goodCopies s).foldl (fun a l => match a with
      | none => some l
      | some m => if field m 8 8 ≤ field l 8 8 then some l else some m) none with
  | some l =>
    let s : State := { s with bw := { force := setPolygons l } }
    setB 0x5100 6 l (setB 0x5100 5 (sha256 l) (setN 0x5100 4 (field l 6 1) (setN 0x5100 3 (field l 8 8) (setN 0x5100 8 0 s))))
  | none =>
    let s : State := { s with bw := {} }
    setN 0x5100 3 (maxN (s.flash.breakwater.map (fun l => field l 8 8))) (setN 0x5100 8 1 s)

/-- The records of the logbook that flash holds. -/
def logHeld (s : State) : List LogRecord := s.flash.permanent ++ s.flash.circulating

/-- The scan of the logbook at boot (R371). -/
def logScan (s : State) : State :=
  let good := (logHeld s ++ s.log.staging).filter (fun r => r.crcOk)
  let next := match good.getLast? with
    | none => 0
    | some r => (r.index + 1) % 2 ^ 32
  let bad := ((logHeld s).filter (fun r => !r.crcOk)).length
  logCount (setN 0x0500 0x0B bad (setN 0x0500 1 next s))

/-- The S-kind values of the newer store copy come into force (R300, R350, R356). -/
def loadStored (s : State) : State :=
  let s : State := { s with obj := (s.flash.store.getD []).foldl (fun o e => o.put e.1 e.2) s.obj, pilot := { s.pilot with restorePending := false } }
  if s.flash.big then s else eachBerth allBerths (fun b s => setN (bi b 5) 1 0 { s with obj := s.obj.del (key (bi b 5) 5) }) s

/-- Defaults that are pending stay so, and are shown so, until a reset that reloads the stored values (R300, log 50). -/
def restoreShown (s : State) : State := if s.pilot.restorePending then setN 0x0220 2 4 s else s

/-- The tide tracker comes up with D2 (R323, R325). -/
def tideUp (s : State) : State :=
  let s : State := { s with mains := { input := s.mains.input, inactiveSince := s.mains.inactiveSince } }
  setN 0x0401 8 4 (setN 0x0400 9 (getN 0x0400 1 s) (setN 0x0400 7 0 s))

/-- Domains D2 to D7 are enabled: the loop engine reports its load and the trips still latched, and axes, camera contexts and links start
as their enable objects say (R132, R146, R223, R251, R359). -/
def enableDomains (s : State) : State :=
  let s := reportTrips (reportShadowLoad (reportLoad s))
  let s := each [0, 1, 2, 3] (fun m s => if getN (mi m 0) 1 s = 1 ∧ axisState m s = 0 then axisStart m s else s) s
  let s := each (List.range 26) (fun c s => if ctxOn c s then contextEnable c true (setN (ci c 0) 1 0 s) else s) s
  each (List.range 26) (fun l s => if getN (lki l) 1 s = 1 then enterDetect l s else s) s

/-- D2 but for its tide tracker, and D4 to D7, are held in reset in Anchorage (R361). -/
def holdDomains (s : State) : State :=
  let s := keepObjects (fun i k => k != .v || domainOf i == 0 || domainOf i == 1 || domainOf i == 3 || decide (0x0400 ≤ i ∧ i ≤ 0x0402)) s
  { s with axes := [], ctrs := [], wake := {} }

/-- The version objects of the images booted (R358). -/
def showVersions (p b : List Byte) (banks : Nat) (s : State) : State :=
  let s := setN 0x0100 6 (field p 8 4) (setN 0x0100 5 (field p 6 2) s)
  let s := setN 0x0100 8 (field b 8 4) (setN 0x0100 7 (field b 6 2) s)
  setB 0x0110 7 ([0, 1, 2, 3].flatMap (fun n => bankVersion n s)) (setN 0x0100 0x0A banks s)

/-- The boot enters Anchorage (R361). -/
def enterAnchorage (cause : Nat) (p b : List Byte) (s : State) : State :=
  let s := setN 0x0100 9 cause { floatOutputs (holdDomains s) with pilot := { s.pilot with anchorage := true } }
  noticeLog 0 0 0x0202 (slice p 6 2 ++ slice b 6 2 ++ slice p 8 4 ++ slice b 8 4) s

/-- LENn of every berth is driven inactive once the S-kind objects are there (R386). -/
def driveLens (s : State) : State :=
  each berthList (fun b s =>
    let level := getN (bi b 2) 4 s != 1
    emit (.len b level s.now) (modBerth b (fun x => { x with len := false, lenPin := level }) s)) s

/-- A whole-chip reset drives GATE low and lets the other outputs float (R386). -/
def floatAll (s : State) : State :=
  let s := each (berthList.filter (fun b => (berth b s).gate)) (fun b => emit (.gate b false s.now)) s
  floatOutputs (each berthList (fun b => emit (.highZ 0 b)) s)

/-- The boot from flash: images, breakwater, versions, then the domains (R197, R359, R360, R364, R371). -/
def boot (s : State) : State :=
  let s := driveLens s
  let r := bootRecord s
  let pt := trialStep r.pilotBank r.pilotTrial
  let bt := trialStep r.berthBank r.berthTrial
  match bankPick 1 pt s with
  | none => { setBootRecord { r with pilotBank := pt.1, pilotTrial := pt.2 } s with pilot := { s.pilot with romRecovery := true } }
  | some pp =>
    let bp := (bankPick 2 bt s).getD bt
    let failed := pp != pt || (bankPick 2 bt s) != some bt
    let s := setBootRecord { r with pilotBank := pp.1, pilotTrial := pp.2, berthBank := bp.1, berthTrial := bp.2 } s
    let p := imageOf pp.1 s
    let b := if (bankPick 2 bt s).isSome then imageOf (2 + bp.1) s else []
    let banks := pp.1 + 2 * bp.1 + 4 * b2n (pp.2 != 0) + 8 * b2n (bp.2 != 0) + 16 * b2n failed
    let s := logScan (showVersions p b banks (loadBreakwater s))
    let cause := if (bankPick 2 bt s).isNone then 4 else versionCause p b s
    if cause = 0 then enableDomains s else enterAnchorage cause p b s

/-- The record of a reset, with the versions it booted (R349, R366). -/
def resetNote (cause rung : Nat) (s : State) : State :=
  let s := setN 0x0301 2 cause s
  logAdd 0 0 0x0200 (toLe 1 cause ++ toLe 1 rung ++ toLe 2 0 ++ toLe 4 (getN 0x0100 6 s) ++ toLe 4 (getN 0x0100 8 s)) s.now s

/-- What a berth keeps beside its objects when D5 is reset warm: its slots' lengths, its runs, its strength (R352). -/
def warmBerth (x : Berth) : Berth :=
  { strength := x.strength, annexes := x.annexes, annexNow := x.annexNow, givenAway := x.givenAway, damaged := x.damaged, origin := x.origin, evDone := x.evDone, evAhead := x.evAhead, stretch := x.stretch, goFrom := x.goFrom, closeLens := x.closeLens, lenPin := x.lenPin, slotCauses := x.slotCauses }

/-- The harbour a chip is in, from its objects (R14, R16). -/
def freshHarbour (s : State) : Harbour := { seatNo := getN 0x1800 1 s, size := getN 0x1800 2 s, ring := getN 0x1800 3 s == 1 }

/-- The records of D1, D4 to D7 and the beacon after a warm reset (R351, R352). -/
def warmRecords (s : State) : State :=
  { s with shadow := [], timeSet := none, berths := s.berths.map (fun e => (e.1, warmBerth e.2)), loops := [], ctxs := [], links := [], hm := freshHarbour s, commit := {}, vision := { lit := s.vision.lit }, chart := { buffers := s.chart.buffers, counter := s.chart.counter }, rcd := {}, wake := {}, net := { seqs := s.net.seqs }, ptp := {}, mem := { s.mem with subs := [] }, pilot := { resetAt := s.now, restorePending := s.pilot.restorePending }, cal := {} }

/-- A warm reset (R330, R349-R352): LTRG0 and LTRG1 float until their contexts are enabled again (R155). -/
def warmReset (cause : Nat) (s : State) : State :=
  let rung := getN 0x0300 2 s
  let s := each berthList calStop s
  let s := faultStop allBerths 2 0x0012 s.now s
  let s := each [0, 1] selfRefresh (each (List.range 0x62) closeTruncated s)
  let s := each [0, 1] (fun k => emit (.highZ 2 k)) (outputsOff s)
  let s := keepObjects (fun i k => k != .v || warmSpared i) s
  let s := addN 0x0301 3 32 1 (restoreShown (warmRecords s))
  resetNote cause rung (boot s)

/-- The strap value and the node ID in use after a whole-chip reset (R273). -/
def strapNode (n : Nat) (s : State) : State :=
  setN 0x0801 1 (if getN 0x0801 2 s = 1 then getN 0x0801 3 s else n) (setN 0x0801 4 n s)

/-- A whole-chip reset: every object but factory and protected ones takes its stored or default value, DRAM is lost (R350). -/
def wholeReset (cause : Nat) (t : Time) (f : Nat) (log : Logbook) (p : Straps) (s : State) : State :=
  let rung := getN 0x0300 2 s
  let kept := keepObjects (fun _ k => k == .f || k == .p) s
  let s : State := { pending := s.pending, out := (floatAll s).out, result := s.result, free := s.free, now := t, frame := f, obj := kept.obj, flash := s.flash, log := log, pilot := { resetAt := t } }
  let s := loadStored s
  let s := tideUp (strapNode p.node { s with hm := freshHarbour s })
  resetNote cause rung (bolBoot p.bol (boot (setN 0x6000 1 1 s)))

/-- POWER_ON_RESET (R349, R350). -/
def execPowerOnReset (p : Straps) (s : State) : Host.Outcome State Fault Refusal :=
  gated (.powerOnReset p) (wholeReset 1 0 0 {} p) s

/-- NRST: the logbook staging and the RTC of D0 are kept (R349, R350). -/
def execNrst (p : Straps) (s : State) : Host.Outcome State Fault Refusal :=
  gated (.nrst p) (fun s => wholeReset 2 s.now s.frame s.log p s) s

/-- WATCHDOG: the pilot watchdog expires (R349); in ROM recovery it restarts the boot (R362). -/
def execWatchdog (s : State) : Host.Outcome State Fault Refusal := gated .watchdog (warmReset 3) s

/-- WARM_RESET: a write of 1 to 0x0301:01 (R349). -/
def execWarmReset (s : State) : Host.Outcome State Fault Refusal := gated .warmReset (warmReset 4) s

end Sys2Proof.Machine
end

