-- ==== Sys2Proof/Machine/Mains.lean ====
section
/-!
DEFINITION. Sys2Proof/Machine/Mains.lean: the tide tracker (R321-R324) and the dips (R325-R331).
-/
namespace Sys2Proof.Machine

/-- The tracker's state: 0 Off, 1 Acquiring, 2 Locked, 3 Coasting (R323). -/
def tideState (s : State) : Nat := getN 0x0400 9 s

/-- The mains state: 0 Normal, 1 Warning, 2 Reset, 3 Recovering, 4 Not monitored (R325). -/
def mainsState (s : State) : Nat := getN 0x0401 8 s

/-- Whether an input has a fault: 0-2 voltages, 3-5 currents (R322). -/
def inputFaulted (i : Nat) (s : State) : Bool := bit (getN 0x0400 0x14 s) i

/-- Whether the reference phase's voltage input has a fault. -/
def referenceFaulted (s : State) : Bool := inputFaulted (getN 0x0400 2 s) s

/-- The enabled phases whose voltage input has no fault (R322). -/
def phasesJudged (s : State) : List Nat := [0, 1, 2].filter (fun i => bit (getN 0x0400 5 s) i && !inputFaulted i s)

/-- Puts the mains into a state; a Locked tracker coasts outside Normal (R323). -/
def setMains (n : Nat) (s : State) : State :=
  let old := mainsState s
  let s := setN 0x0401 8 n s
  if old = 0 ∧ n ≠ 0 ∧ tideState s = 2 then setN 0x0400 9 3 { s with mains := { s.mains with freqHeld := getN 0x0400 8 s } }
  else if n = 0 ∧ tideState s = 3 then setN 0x0400 9 2 s
  else s

/-- Changes the mains record. -/
def modMains (f : Mains → Mains) (s : State) : State := { s with mains := f s.mains }

/-- The frequency at which the angle advances, in mHz (R323). -/
def tideRate (s : State) : Nat :=
  if tideState s = 3 ∨ referenceFaulted s then s.mains.freqHeld else min 66000 (max 45000 (getN 0x0400 8 s))

/-- The angle advances over a loop frame, short of the next evaluation point, which EVALUATION_POINT marks (R323, R324). -/
def tideFrame (s : State) : State :=
  if tideState s = 0 ∨ !s.mains.advancing then s
  else
    let a := getN 0x0400 7 s
    setN 0x0400 7 (min ((a / 2 ^ 26 + 1) * 2 ^ 26 - 1) (a + tideRate s * 2500 * 2 ^ 32 / 10 ^ 12)) s

/-- The tracker begins to acquire with its angle held at 0 (R323). -/
def acquireFromRest (s : State) : State :=
  setN 0x0400 9 1 (setN 0x0400 7 0 (setN 0x0400 8 s.mains.freqHeld (modMains (fun m => { m with advancing := false }) s)))

/-- A run of evaluations below the warning level ends before the dwell: logged only (R326). -/
def dipLogged (s : State) : State :=
  let m := s.mains
  if m.below = 0 then s
  else
    let s := addN 0x0401 0x0B 32 1 (modMains (fun m => { m with below := 0 }) s)
    logAdd 5 0 0x0210 (toLe 2 m.lowest ++ toLe 1 m.lowPhase ++ toLe 1 m.below ++ toLe 4 m.runAngle ++ toLe 4 0) m.runTime s

/-- Entering Not monitored: the layer hold ends, no resume is granted, a supervised reset due is carried out at once (R325). -/
def notMonitored (s : State) : State :=
  let old := mainsState s
  if old = 4 then s
  else
    let due := old == 2 || getN 0x0401 0x10 s == 1
    let s := setN 0x0401 0x10 0 (setMains 4 (dipLogged s))
    let s := modMains (fun m => { m with below := 0 }) s
    if due then warmReset 5 s else s

/-- A write of tide enable (R323, R325). -/
def tideEnable (v : Bool) (s : State) : State :=
  let was := getN 0x0400 1 s
  let s := setN 0x0400 1 (b2n v) s
  if v then (if was = 0 then acquireFromRest s else s)
  else notMonitored (setN 0x0400 9 0 (setN 0x0400 7 0 (modMains (fun m => { m with advancing := false, v2 := [[], [], []], i2 := [[], [], []], p := [[], [], []] }) s)))

/-- TIDE_ENABLE. -/
def execTideEnable (v : Bool) (s : State) : Host.Outcome State Fault Refusal := gated (.tideEnable v) (tideEnable v) s

/-- A write of the reference phase, which takes effect through Acquiring (R323). -/
def referenceWrite (v : Nat) (s : State) : State :=
  let was := getN 0x0400 2 s
  let s := setN 0x0400 2 v s
  if v ≠ was ∧ tideState s ≠ 0 then acquireFromRest s else s

/-- POSITIVE_GOING_ZERO_CROSSING: the angle advances from 0 (R323). -/
def execPositiveGoingZeroCrossing (s : State) : Host.Outcome State Fault Refusal :=
  gated .positiveGoingZeroCrossing (fun s =>
    if tideState s = 1 ∧ !s.mains.advancing then setN 0x0400 7 0 (modMains (fun m => { m with advancing := true }) s) else s) s

/-- TIDE_LOCK (R323). -/
def execTideLock (s : State) : Host.Outcome State Fault Refusal :=
  gated .tideLock (fun s => if tideState s = 1 ∧ s.mains.advancing then setN 0x0400 9 2 s else s) s

/-- TIDE_LOCK_LOST (R323). -/
def execTideLockLost (s : State) : Host.Outcome State Fault Refusal :=
  gated .tideLockLost (fun s => if tideState s = 2 then setN 0x0400 9 1 s else s) s

/-- An input's bit stream holds one level (R322). -/
def inputFault (i : Nat) (s : State) : State :=
  if inputFaulted i s ∨ tideState s = 0 then s
  else
    let f := tideRate s
    let s := setNotice 5 0 0x0400 0x14 (setBit (getN 0x0400 0x14 s) i true) s
    let s := if i = getN 0x0400 2 s then setN 0x0400 9 1 (setN 0x0400 8 f (modMains (fun m => { m with freqHeld := f }) s)) else s
    if i < 3 ∧ phasesJudged s = [] then notMonitored s else s

/-- INPUT_FAULT. -/
def execInputFault (i : Nat) (s : State) : Host.Outcome State Fault Refusal := gated (.inputFault i) (inputFault i) s

/-- INPUT_FAULT_CLEAR: the stream has toggled for 10 ms (R322). -/
def execInputFaultClear (i : Nat) (s : State) : Host.Outcome State Fault Refusal :=
  gated (.inputFaultClear i) (fun s => setN 0x0400 0x14 (setBit (getN 0x0400 0x14 s) i false) s) s

/-- A write of the phase enable; with every enabled phase faulted the mains state is Not monitored (R321, R322). -/
def phaseEnable (v : Int) (s : State) : State :=
  let s := setI 0x0400 5 v s
  if tideState s ≠ 0 ∧ phasesJudged s = [] then notMonitored s else s

/-- Appends to a window of n intervals. -/
def pushWindow {α : Type} (n : Nat) (l : List α) (v : α) : List α := (l ++ [v]).drop (l.length + 1 - n)

/-- The sum of a window. -/
def sumN (l : List Nat) : Nat := l.foldl (· + ·) 0

/-- k times the RMS of a window of squares, rounded to nearest (R324). -/
def rms (k d : Nat) (l : List Nat) : Nat := (isqrt (4 * k * k * sumN l / max 1 l.length) + d) / (2 * max 1 d)

/-- A mean square in the units of a full scale squared, to the nearest (R321; the rounding is log 86). -/
def fullScaled (fs x : Nat) : Nat := (fs * fs * x + 2 ^ 31) / 2 ^ 32

/-- The windows and figures of phase i take the latest interval (R324), each input scaled by its full scale: mV^2 with
0x0400:03, mA^2 with 0x0400:04, mW with both (R321). -/
def phaseFigures (r : MainsIn) (i : Nat) (s : State) : State :=
  let fv := getN 0x0400 3 s
  let fi := getN 0x0400 4 s
  let v := pushWindow 32 (s.mains.v2.getD i []) (fullScaled fv (r.v2.getD i 0))
  let c := pushWindow 32 (s.mains.i2.getD i []) (fullScaled fi (r.i2.getD i 0))
  let p := pushWindow 64 (s.mains.p.getD i []) (roundHalfAway (r.p.getD i 0 * (fv * fi : Nat)) (1000 * 2 ^ 32))
  let s := modMains (fun m => { m with v2 := m.v2.set i v, i2 := m.i2.set i c, p := m.p.set i p }) s
  let s := setN 0x0400 (0x0E + i) (rms 1 1 c) (setN 0x0400 (0x0B + i) (rms 1 1 v) s)
  setI 0x0400 (0x11 + i) (roundHalfAway (sumI p) (1000 * p.length)) s

/-- The voltage level of phase i in 0.01 % (R324). -/
def levelOf (i : Nat) (s : State) : Nat := min 65535 (rms 10000 (getN 0x0401 1 s) (s.mains.v2.getD i []))

/-- The mains level and its phase (R324). -/
def mainsLevel (s : State) : Option (Nat × Nat) :=
  (leastBy (fun i => levelOf i s * 4 + i) (phasesJudged s)).map (fun i => (levelOf i s, i))

/-- The berths a stop of the whole chip will stop. -/
def stoppable (s : State) : Nat := maskOf (fun b => bState b s == 1 || bState b s == 2)

/-- The notice and record of a change of mains state (R327, R330, R366). -/
def mainsNote (old mask : Nat) (s : State) : State :=
  noticeLog 5 0 0x0211 (toLe 1 (mainsState s) ++ toLe 1 old ++ toLe 2 (getN 0x0401 0x0A s) ++ toLe 4 (getN 0x0400 7 s) ++ toLe 4 mask) s

/-- Entry to Warning (R325, R327, R379). -/
def enterWarning (low : Nat) (s : State) : State :=
  let old := mainsState s
  let mask := stoppable s
  let s := modMains (fun m => { m with below := 0, faultSince := m.faultSince && old != 0 }) (setMains 1 s)
  let s := each berthList calStop (addN 0x0401 0x0C 32 1 (setN 0x0401 0x0A low s))
  mainsNote old mask (faultStop allBerths 1 0x0010 s.now s)

/-- Entry to Reset (R325, R330). -/
def enterReset (low : Nat) (s : State) : State :=
  let old := mainsState s
  let mask := stoppable s
  let s := modMains (fun m => { m with below := 0 }) (setMains 2 s)
  let s := addN 0x0401 0x0D 32 1 (setN 0x0401 0x0A low s)
  mainsNote old mask (faultStop allBerths 2 0x0011 s.now s)

/-- Entry to Recovering: the hold-off starts in full (R325, R330). -/
def enterRecovering (s : State) : State :=
  setMains 3 (if mainsState s = 2 then setN 0x0401 0x10 1 s else s)

/-- An evaluation below the warning level in Normal counts in the dwell (R325, R326). -/
def dwell (m ph : Nat) (s : State) : State :=
  let x := s.mains
  let s := modMains (fun x => { x with below := x.below + 1, lowest := if x.below = 0 then m else min x.lowest m, lowPhase := if x.below = 0 ∨ m < x.lowest then ph else x.lowPhase, runAngle := if x.below = 0 then getN 0x0400 7 s else x.runAngle, runTime := if x.below = 0 then s.now else x.runTime }) s
  if getN 0x0401 5 s ≤ x.below + 1 then enterWarning s.mains.lowest s else s

/-- The judgement of an evaluation with mains level m on phase ph (R325). -/
def judgeLevel (m ph : Nat) (s : State) : State :=
  let w := getN 0x0401 2 s
  let x := getN 0x0401 3 s
  let up := w + getN 0x0401 4 s
  let s := setN 0x0401 9 m s
  let low := min m (getN 0x0401 0x0A s)
  match mainsState s with
  | 0 => if m < x then enterReset (if s.mains.below = 0 then m else min m s.mains.lowest) s
      else if m < w then dwell m ph s else dipLogged s
  | 1 => if m < x then enterReset low s else if up ≤ m then enterRecovering s else setN 0x0401 0x0A low s
  | 2 => if up ≤ m then enterRecovering s else setN 0x0401 0x0A low s
  | 3 => if m < x then enterReset m s else if m < up then enterWarning m s else s
  | _ => if m < x then enterReset m s else if m < w then dwell m ph (setMains 0 s) else setMains 0 s

/-- EVALUATION_POINT: the angle crosses a multiple of 2^26 (R324). -/
def evaluationPoint (r : MainsIn) (s : State) : State :=
  if tideState s = 0 ∨ !s.mains.advancing then s
  else
    let s := setN 0x0400 7 ((getN 0x0400 7 s / 2 ^ 26 + 1) * 2 ^ 26 % 2 ^ 32) s
    let s := if referenceFaulted s ∨ tideState s = 3 then s else setN 0x0400 8 r.freq s
    let s := setN 0x0400 0x0A (if 1100 ≤ r.sequence ∧ r.sequence ≤ 1300 then 1 else if 2300 ≤ r.sequence ∧ r.sequence ≤ 2500 then 2 else 0) s
    let s := each ([0, 1, 2].filter (fun i => bit (getN 0x0400 5 s) i)) (phaseFigures r) s
    match mainsLevel s with
    | none => s
    | some (m, ph) => judgeLevel m ph s

/-- EVALUATION_POINT. -/
def execEvaluationPoint (r : MainsIn) (s : State) : Host.Outcome State Fault Refusal :=
  gated (.evaluationPoint r) (evaluationPoint r) s

/-- The automatic resume at the end of a hold-off (R329). -/
def autoResume (s : State) : State :=
  let s := each (berthList.filter (fun b => (bState b s == 3 || bState b s == 4) && getN (bi b 0) 6 s == 0x0010)) (fun b s => resume b s.now s) s
  if s.mains.faultSince then s else setN 0x7080 1 0 s

/-- HOLD_OFF_COMPLETE (R329, R330). -/
def holdOffComplete (s : State) : State :=
  if mainsState s ≠ 3 then s
  else
    if getN 0x0401 0x10 s = 1 then setMains 0 (warmReset 5 (setN 0x0401 0x10 0 s))
    else
      let s := setMains 0 s
      if getN 0x0401 7 s = 1 then autoResume s else s

/-- HOLD_OFF_COMPLETE. -/
def execHoldOffComplete (s : State) : Host.Outcome State Fault Refusal := gated .holdOffComplete holdOffComplete s

end Sys2Proof.Machine
end

