-- ==== Sys2Proof/Machine/Ladder.lean ====
section
/-!
DEFINITION. Sys2Proof/Machine/Ladder.lean: the power ladder and waking (R341-R348), field update (R363, R364) and the die
temperature (R397).
-/
namespace Sys2Proof.Machine

/-- The rung in force (R341). -/
def rung (s : State) : Nat := getN 0x0300 2 s

/-- Whether every other seat of a harbour reports no berth Armed or Exposing (R343). -/
def seatsQuiet (s : State) : Bool :=
  (List.range s.hm.size).all (fun n => n == s.hm.seatNo || (match s.hm.seats.find n with
    | none => false
    | some f => f.quiet))

/-- The reason why rung n is refused, 0 for none (R343). -/
def rungRefusal (n : Nat) (s : State) : Nat :=
  if berthList.any (fun b => if n ≤ 3 then bState b s == 1 || bState b s == 2 else bState b s != 0) then 1
  else if commitWaiting s then 2
  else if 2 ≤ n ∧ [0, 1, 2, 3].any (fun m => axisState m s == 2 || axisState m s == 3) then 3
  else if 2 ≤ n ∧ s.hm.size ≠ 1 ∧ !seatsQuiet s then 4
  else if 2 ≤ n ∧ (s.net.sessions.any (fun e => !e.2.bulks.isEmpty) || getN 0x5801 8 s == 1 || getN 0x0220 2 s == 1) then 5
  else 0

/-- The record of a rung change (R366). -/
def rungNote (a b : Nat) (s : State) : State :=
  noticeLog 0 0 0x0201 (toLe 1 a ++ toLe 1 b ++ toLe 1 (getN 0x0300 6 s) ++ toLe 1 0 ++ toLe 4 (getN 0x0300 7 s) ++ toLe 4 0) s

/-- Links go Down with the ladder: no link loss (R344). -/
def linksDown (s : State) : State :=
  each (List.range 26) (fun l s => if linkState l s = 0 then s
    else modLink l (fun x => { x with commandFrom := none, burst := {} }) (setN (lki l) 3 9 (setLinkState l 0 s))) s

/-- The S-kind values in force (R300, R348). -/
def storedValues (s : State) : Tab Val := s.obj.filter (fun e => kindOf e.1 == some .s)

/-- What the pilot does before P4 or P5 (R348). -/
def beforeOff (n : Nat) (s : State) : State :=
  let s := logFlush (each (List.range 0x62) endSegment s)
  if n = 4 then { s with pilot := { s.pilot with keptS := storedValues s } } else s

/-- The chip moves to a lower rung n (R343-R345, R348). -/
def goDown (n : Nat) (s : State) : State :=
  let a := rung s
  let s := if 2 ≤ n ∧ a < 2 then each [0, 1] selfRefresh (linksDown (outputsOff s)) else s
  let s := rungNote a n s
  setN 0x0300 2 n (if 4 ≤ n then beforeOff n s else s)

/-- What comes up again on leaving P2 or P3 (R344, R345). -/
def comeUp (s : State) : State :=
  let s := each (List.range 26) (fun l s => if getN (lki l) 1 s = 1 then enterDetect l s else s) (tideUp s)
  if 1 ≤ getN 0x0804 3 s ∧ getN 0x0804 3 s ≤ 3 then setN 0x0804 3 2 s else s

/-- The chip moves to a higher rung n from P1, P2 or P3. -/
def goUp (n : Nat) (s : State) : State :=
  let a := rung s
  let s := if 2 ≤ a ∧ n < 2 then setN 0x6002 7 0 (if s.pilot.anchorage then tideUp s else comeUp s) else s
  rungNote a n (setN 0x0300 2 n s)

/-- A write of the rung request (R325, R343): a supervised reset due is carried out instead of a move to P2 or below. -/
def rungRequest (n : Nat) (s : State) : State :=
  if 5 < n then withResult 3 s
  else if n ≤ rung s then (if n = rung s then s else goUp n s)
  else
    let why := rungRefusal n s
    if why ≠ 0 then withResult 4 (setN 0x0300 4 why s)
    else
      let due := decide (2 ≤ n) && (mainsState s == 2 || (mainsState s != 4 && getN 0x0401 0x10 s == 1))
      let s := setN 0x0300 4 0 (if 2 ≤ n then notMonitored s else s)
      if due then s else goDown n s

/-- RUNG_REQUEST. -/
def execRungRequest (n : Nat) (s : State) : Host.Outcome State Fault Refusal := gated (.rungRequest n) (rungRequest n) s

/-- The objects D0 keeps through P4 and P5 (R347), and the straps latched at reset (R273, log 28). -/
def keptOff (k : Nat) : Bool :=
  [key 0x0300 5, key 0x0300 3, key 0x0300 6, key 0x0801 1, key 0x0801 4].contains k

/-- The state in which domains lost on P4 or P5 come up: objects `o` beside those D0 keeps (R347, R350). -/
def cold (o : Tab Val) (s : State) : State :=
  let kept := (keepObjects (fun _ k => k == .f || k == .p) s).obj
  let obj := (s.obj.filter (fun e => keptOff e.1)).foldl (fun t e => t.put e.1 e.2) (o.foldl (fun t e => t.put e.1 e.2) kept)
  { pending := s.pending, out := s.out, result := s.result, free := s.free, now := s.now, frame := s.frame, obj := obj, flash := s.flash, log := s.log, vision := { lit := s.vision.lit }, mains := s.mains, pilot := { resetAt := s.now, restorePending := s.pilot.restorePending } }

/-- Exit from P5: the boot from flash (R350). -/
def exitP5 (s : State) : State :=
  let mask := getN 0x0300 3 s
  let s := setN 0x0300 3 mask (loadStored (cold [] s))
  bolBoot s.mains.input (boot (setN 0x6000 1 1 (tideUp { s with hm := freshHarbour s })))

/-- Whether the copy of the pilot image in DRAM fails its hash: an uncorrectable error in the pilot region (R319, R348). -/
def pilotCopyBad (s : State) : Bool := s.mem.poison.any (fun e => decide (e.1 < regionBase 1 s))

/-- Exit from P4: the pilot restarts from its copy in DRAM, with the S-kind values and the training results (R348, R350). -/
def exitP4 (s : State) : State :=
  let keep := s.obj.filter (fun e => [key 0x6000 1, key 0x6000 3, key 0x6000 4, key 0x6000 5, key 0x6001 5, key 0x6001 6, key 0x6001 7].contains e.1)
  let versions := s.obj.filter (fun e => decide (key 0x0100 5 ≤ e.1 ∧ e.1 ≤ key 0x0100 0x0A) || e.1 == key 0x0110 7)
  let n := cold (keep ++ versions ++ s.pilot.keptS) s
  let n : State := { n with dram := s.dram, mem := { layout := s.mem.layout, poison := s.mem.poison } }
  let n := restoreShown (logScan (loadBreakwater (tideUp { n with hm := freshHarbour n })))
  let n := driveLens n
  let banks := getN 0x0100 0x0A n
  let p := imageOf (banks % 2) n
  let b := imageOf (2 + banks / 2 % 2) n
  let cause := if !imageVerifies 2 b n then 4 else versionCause p b n
  bolBoot n.mains.input (if cause = 0 then enableDomains n else enterAnchorage cause p b n)

/-- WAKE: an enabled source takes the chip to P0 (R347). -/
def wakeUp (source exitUs : Nat) (s : State) : State :=
  let a := rung s
  if a = 0 ∨ !bit (getN 0x0300 3 s % 16) source ∨ (source = 1 ∧ getN 0x0300 5 s = 0) then s
  else
    let s := setN 0x0300 7 exitUs (setN 0x0300 6 source s)
    let seen := fun (s : State) => rungNote a 0 (setN 0x0300 7 exitUs (setN 0x0300 6 source s))
    if a ≤ 3 then goUp 0 s
    else if a = 4 ∧ !pilotCopyBad s then seen (exitP4 s)
    else seen (exitP5 s)

/-- WAKE. -/
def execWake (source exitUs : Nat) (s : State) : Host.Outcome State Fault Refusal := gated (.wake source exitUs) (wakeUp source exitUs) s

/-- The target of an update: 1 pilot, 2 berth image. -/
def updateTarget (s : State) : Nat := getN 0x0110 1 s

/-- The update state of 0x0110:03. -/
def updateState (s : State) : Nat := getN 0x0110 3 s

/-- Changes the update's record. -/
def modUpdate (f : Update → Update) (s : State) : State := { s with pilot := { s.pilot with update := f s.pilot.update } }

/-- Bytes of a target's bank (R355). -/
def bankBytes (target : Nat) : Nat := if target = 1 then 2 ^ 20 else 2 ^ 19

/-- A write of the image data (R363). -/
def imageData (offset : Nat) (data : List Byte) (s : State) : State :=
  if getN 0x0220 2 s = 1 then withResult 4 (setN 0x0110 4 5 s)
  else if updateState s = 2 ∨ updateState s = 3 then withResult 4 s
  else if bankBytes (updateTarget s) < offset + data.length then withResult 0xA s
  else
    let old := if updateState s = 1 then s.pilot.update.staged else []
    setN 0x0110 4 0 (setN 0x0110 3 1 (modUpdate (fun u => { u with staged := overlay old offset data }) s))

/-- IMAGE_DATA. -/
def execImageData (offset : Nat) (data : List Byte) (s : State) : Host.Outcome State Fault Refusal :=
  gated (.imageData offset data) (imageData offset data) s

/-- The bank of a target from which the chip does not run: 0-3 as R355 lists them. -/
def inactiveBank (target : Nat) (s : State) : Nat :=
  if target = 1 then 1 - getN 0x0100 0x0A s % 2 else 3 - getN 0x0100 0x0A s / 2 % 2

/-- Update command 1 (R363). -/
def verifyAndWrite (s : State) : State :=
  if getN 0x0220 2 s = 1 then withResult 4 (setN 0x0110 4 5 s)
  else if updateState s ≠ 1 then withResult 4 s
  else setN 0x0110 3 2 (modUpdate (fun u => { u with bank := inactiveBank (updateTarget s) s }) s)

/-- VERIFY_AND_WRITE. -/
def execVerifyAndWrite (s : State) : Host.Outcome State Fault Refusal := gated .verifyAndWrite verifyAndWrite s

/-- Why a staged image is refused, 0 for none (R358, R363). -/
def imageCause (kind : Nat) (l : List Byte) (s : State) : Nat :=
  if field l 0 4 ≠ 0x54494D47 ∨ field l 4 1 ≠ kind then 2
  else if bodyMax kind < bodyLen l then 3
  else if l.length < 128 + bodyLen l ∨ !imageSigned l s then 1 else 0

/-- UPDATE_READY: what a failed write leaves in the bank is a prefix of free length (R363, log 3). -/
def updateReady (flashOk : Bool) (s : State) : State :=
  if updateState s ≠ 2 ∧ updateState s ≠ 3 then s
  else
    let u := s.pilot.update
    let bank := fun (l : List Byte) (s : State) => { s with flash := { s.flash with images := s.flash.images.put u.bank l } }
    let cause := imageCause (if u.bank < 2 then 1 else 2) u.staged s
    if cause ≠ 0 then setN 0x0110 4 cause (setN 0x0110 3 5 s)
    else if flashOk then setN 0x0110 3 4 (bank u.staged s)
    else setN 0x0110 4 4 (setN 0x0110 3 5 (bank (u.staged.take (freeVal s % (u.staged.length + 1))) (drawn s)))

/-- UPDATE_READY. -/
def execUpdateReady (flashOk : Bool) (s : State) : Host.Outcome State Fault Refusal :=
  gated (.updateReady flashOk) (updateReady flashOk) s

/-- Update command 2: the boot record names the new bank on trial (R363). -/
def activateImage (s : State) : State :=
  if updateState s ≠ 4 then withResult 4 s
  else
    let u := s.pilot.update
    let r := bootRecord s
    let r := if u.bank < 2 then { r with pilotBank := u.bank, pilotTrial := 1 } else { r with berthBank := u.bank - 2, berthTrial := 1 }
    let s := setN 0x0110 3 6 (setBootRecord r s)
    noticeLog 0 0 0x0290 (toLe 1 (if u.bank < 2 then 1 else 2) ++ toLe 1 (u.bank % 2) ++ slice u.staged 6 2 ++ slice u.staged 8 4 ++ toLe 4 0) s

/-- ACTIVATE. -/
def execActivate (s : State) : Host.Outcome State Fault Refusal := gated .activate activateImage s

/-- Update command 3: the staged image is discarded (R363). -/
def updateDiscard (s : State) : State := setN 0x0110 4 0 (setN 0x0110 3 0 (modUpdate (fun _ => {}) s))

/-- UPDATE_DISCARD. -/
def execUpdateDiscard (s : State) : Host.Outcome State Fault Refusal := gated .updateDiscard updateDiscard s

/-- CONFIRM: both trial counts become 0 (R364). -/
def execConfirm (s : State) : Host.Outcome State Fault Refusal :=
  gated .confirm (fun s => setBootRecord { bootRecord s with pilotTrial := 0, berthTrial := 0 } s) s

/-- The step of R397 a die temperature has reached: 0 below 105.0 C. -/
def heatStep (t : Int) : Int := if t < 1050 then 0 else (t - 1050) / 50 + 1

/-- DIE_TEMPERATURE (R397). -/
def dieTemperature (t : Int) (s : State) : State :=
  let old := getI 0xF000 1 s
  let s' := setI 0xF000 1 t { s with pilot := { s.pilot with hot := heatStep t } }
  if s.pilot.hot < heatStep t then noticeObj 0 0 0xF000 1 old s' else s'

/-- DIE_TEMPERATURE. -/
def execDieTemperature (t : Int) (s : State) : Host.Outcome State Fault Refusal := gated (.dieTemperature t) (dieTemperature t) s

end Sys2Proof.Machine
end

