-- ==== Sys2Proof/Machine/Logbook.lean ====
section
/-!
DEFINITION. Sys2Proof/Machine/Logbook.lean: the logbook's flushes, its clear and its window (R365-R373). Records enter it through
`logAdd`.
-/
namespace Sys2Proof.Machine

/-- LOGBOOK_FLUSH_TIMER (R368). -/
def execLogbookFlushTimer (s : State) : Host.Outcome State Fault Refusal := gated .logbookFlushTimer logFlush s

/-- FLUSH: a write of 1 to 0x0500:0A (R368). -/
def execFlush (s : State) : Host.Outcome State Fault Refusal := gated .flush logFlush s

/-- BLOCK_ERASE_COMPLETE: waiting records are written (R370). -/
def blockEraseComplete (s : State) : State :=
  if s.log.erasing then logFlush { s with log := { s.log with erasing := false } } else s

/-- BLOCK_ERASE_COMPLETE. -/
def execBlockEraseComplete (s : State) : Host.Outcome State Fault Refusal := gated .blockEraseComplete blockEraseComplete s

/-- A write of the clear object (R372). -/
def logClear (v : Nat) (s : State) : State :=
  let n := getN 0x0500 1 s
  if v ≠ n ∨ anyExposing allBerths s then withResult 4 s
  else
    let s : State := { s with flash := { s.flash with permanent := [], circulating := [] }, log := { s.log with staging := [], erasing := false } }
    logAdd 5 0 0x0270 (toLe 4 n ++ toLe 8 0) s.now (setN 0x0500 1 0 s)

/-- CLEAR. -/
def execClear (v : Nat) (s : State) : Host.Outcome State Fault Refusal := gated (.clear v) (logClear v) s

/-- The records the logbook holds, staged ones included (R373). -/
def logRecords (s : State) : List LogRecord := logHeld s ++ s.log.staging

/-- The records a read of the window returns to session n (R373). -/
def windowRecords (n : Nat) (s : State) : List LogRecord :=
  ((logRecords s).filter (fun r => decide ((r.index + 2 ^ 32 - (sess n s).cursor % 2 ^ 32) % 2 ^ 32 < 2 ^ 31))).take (getN 0x0500 5 s)

/-- A read of the window by session n: the bytes, and the cursor moved past the last record returned (R373). -/
def logWindow (n : Nat) (s : State) : List Byte × State :=
  let l := windowRecords n s
  (l.flatMap LogRecord.bytes, match l.getLast? with
    | none => s
    | some r => modSess n (fun q => { q with cursor := (r.index + 1) % 2 ^ 32 }) s)

/-- WINDOW. -/
def execWindow (sess : Nat) (s : State) : Host.Outcome State Fault Refusal :=
  gated (.window sess) (fun s => let r := logWindow sess s; emit (.value sess r.1) r.2) s

end Sys2Proof.Machine
end

