-- ==== Sys2Proof/Machine/Calibration.lean ====
section
/-!
DEFINITION. Sys2Proof/Machine/Calibration.lean: the in-situ stitching calibration (R376-R381). The mirrors are moved by putting a
berth's standing position at a mark; the correction of a run is the least-squares fit of R379, solved exactly in integers.
-/
namespace Sys2Proof.Machine

/-- A berth's share of the calibration. -/
def calOf (b : Nat) (s : State) : CalBerth := s.cal.berths.getD b {}

/-- Changes a berth's share. -/
def modCal (b : Nat) (f : CalBerth → CalBerth) (s : State) : State :=
  { s with cal := { s.cal with berths := s.cal.berths.put b (f (calOf b s)) } }

/-- The nominal position of mark i + 1,024 j (R376). -/
def markAt (k : Nat) (s : State) : Pt :=
  { x := getI 0x0602 1 s + k % 1024 * getI 0x0602 3 s, y := getI 0x0602 2 s + k / 1024 * getI 0x0602 3 s, z := getI 0x0602 6 s }

/-- The marks inside berth b's map grid, in serpentine order by rows (R378). -/
def marksOf (b : Nat) (s : State) : List Nat :=
  let m := fieldMap b s
  let cols := (List.range (getN 0x0602 4 s)).filter (fun i => let p := markAt i s; decide (m.ox ≤ p.x ∧ p.x ≤ m.ox + 128 * m.pitch))
  let rows := (List.range (getN 0x0602 5 s)).filter (fun j => let p := markAt (1024 * j) s; decide (m.oy ≤ p.y ∧ p.y ≤ m.oy + 128 * m.pitch))
  (List.range rows.length).flatMap (fun r => (if r % 2 = 0 then cols else cols.reverse).map (fun i => i + 1024 * rows.getD r 0))

/-- The cause for which a start is refused, 0 for none (R377). -/
def startCause (s : State) : Nat :=
  let m := getN 0x0603 1 s
  let l := berthList.filter (fun b => bit m b)
  if l.any (fun b => bState b s != 0 || getN (bi b 5) 6 s == 0) then 1
  else if l.any (fun b => linkState b s != 7 || !bit (link b s).capCamera 0 || !ctxOn b s) then 2
  else if commitWaiting s ∨ (List.range 16).any (fun i => bolLatched i s && (bolBerths i s &&& m) != 0) then 3
  else if getN 0x0602 3 s = 0 ∨ getN 0x0602 4 s < 2 ∨ getN 0x0602 5 s < 2 then 4
  else 0

/-- Berth b goes to the mark at its place in the round, or is done (R378). -/
def calGo (b : Nat) (s : State) : State :=
  match (marksOf b s).drop (calOf b s).mark with
  | [] => modCal b (fun x => { x with done := true }) s
  | k :: _ =>
    modCal b (fun x => { x with settled := false, awaited := 0, sums := [] })
      (modBerth b (fun x => { x with standing := some (markAt k s), plan := [], halting := false }) s)

/-- A run begins for every berth of the mask (R378). -/
def calRun (s : State) : State :=
  eachBerth s.cal.mask (fun b s => calGo b (modCal b (fun x => { x with mark := 0, done := false }) s)) s

/-- Clears the results of a calibration (R380). -/
def calForget (s : State) : State :=
  let s : State := { s with cal := {} }
  let s := setN 0x0604 6 0 (setN 0x0604 9 0 (setN 0x0604 5 0xFF (setN 0x0604 1 0 s)))
  setI 0x0604 4 0 (setI 0x0604 3 0 (setI 0x0604 2 0 s))

/-- Calibration command 1 (R377, R378). -/
def calibrationStart (s : State) : State :=
  if calRunning s then withResult 4 s
  else if startCause s ≠ 0 then withResult 4 (setN 0x0603 4 (startCause s) s)
  else
    let m := getN 0x0603 1 s
    let s := calForget s
    let s := setN 0x0603 3 1 (setN 0x0603 4 0 { s with cal := { s.cal with mask := m } })
    calRun (eachBerth m (fun b s => updateLen b s.now (modBerth b (fun x => { x with calibrating := true }) s)) s)

/-- CALIBRATION_START. -/
def execCalibrationStart (s : State) : Host.Outcome State Fault Refusal := gated .calibrationStart calibrationStart s

/-- The frames of a mark are triggered, each as soon as the camera takes it (R378). -/
def calTrigger (b n : Nat) (s : State) : State :=
  (List.range n).foldl (fun s i => cameraTrigger b 0 (s.now + i * getN (ci b 0) 7 s * nsT) s) s

/-- SETTLE_TIME: the settle time at a mark has run (R378). -/
def settleTime (b : Nat) (s : State) : State :=
  let x := calOf b s
  if !calRunning s ∨ !(berth b s).calibrating ∨ x.done ∨ x.settled then s
  else
    let was := (ctx b s).frames.length
    let s := calTrigger b (getN 0x0603 9 s) s
    let n := (ctx b s).frames.length - was
    modCal b (fun x => { x with settled := true, awaited := n, sums := if n = 0 then [(0, 0, true)] else [] }) s

/-- SETTLE_TIME. -/
def execSettleTime (b : Nat) (s : State) : Host.Outcome State Fault Refusal := gated (.settleTime b) (settleTime b) s

/-- The offset d of the mean of centroids, in bed units (R177, R378). -/
def meanOffset (c : Nat) (l : List (Nat × Nat × Bool)) (s : State) : Int × Int :=
  let n := l.length
  let dx : Int := (sumN (l.map (fun v => v.1)) : Nat) - 8 * n * getI (ci c 0) 2 s
  let dy : Int := (sumN (l.map (fun v => v.2.1)) : Nat) - 8 * n * getI (ci c 0) 3 s
  let dy := if getN (ci c 3) 4 s = 1 then -dy else dy
  let a := centideg48 (getI (ci c 3) 3 s)
  let k := getI (ci c 3) 7 s
  (roundHalfAway ((dx * cos48 a - dy * sin48 a) * k) (n * 2 ^ 52), roundHalfAway ((dx * sin48 a + dy * cos48 a) * k) (n * 2 ^ 52))

/-- The key of a mark in a run. -/
def runKey (run k : Nat) : Nat := run * 2 ^ 20 + k

/-- A mark of berth b is finished: its error, or missing, and on to the next (R378). -/
def calMark (b : Nat) (s : State) : State :=
  let x := calOf b s
  if !calRunning s ∨ !(berth b s).calibrating ∨ !x.settled ∨ x.awaited ≠ 0 ∨ x.sums = [] then s
  else
    let k := (marksOf b s).getD x.mark 0
    let l := x.sums.filter (fun v => !v.2.2)
    let d := meanOffset b l s
    let r := runKey (getN 0x0603 3 s) k
    let s := if l = [] then modCal b (fun x => { x with missing := x.missing.put r 1, mark := x.mark + 1 }) s
      else addN 0x0604 1 32 1 (modCal b (fun x => { x with errors := x.errors.put r d, mark := x.mark + 1 }) s)
    calGo b s

/-- What a loop frame brings to a calibration. -/
def calTick (s : State) : State := if calRunning s then eachBerth s.cal.mask calMark s else s

/-- A combination of nodes: (node, weight) pairs. -/
abbrev Combo := List (Nat × Int)

/-- A node of a row, extended linearly along X (R72), times a weight. -/
def comboX (w : Int) (i : Int) (j : Nat) : Combo :=
  if i < 0 then [(129 * j, w * (1 - i)), (129 * j + 1, w * i)]
  else if 128 < i then [(129 * j + 128, w * (i - 127)), (129 * j + 127, w * (128 - i))]
  else [(129 * j + i.toNat, w)]

/-- A node extended linearly outside the outermost ring (R72), times a weight. -/
def comboXY (w : Int) (i j : Int) : Combo :=
  if j < 0 then comboX (w * (1 - j)) i 0 ++ comboX (w * j) i 1
  else if 128 < j then comboX (w * (j - 127)) i 128 ++ comboX (w * (128 - j)) i 127
  else comboX w i j.toNat

/-- The interpolation of R72 at a point as a combination of nodes, times 4 p^6. -/
def comboAt (m : FieldMap) (x y : Int) : Combo :=
  let p : Int := m.pitch
  let wx := cubicW ((x - m.ox) % p) p
  let wy := cubicW ((y - m.oy) % p) p
  (List.range 4).flatMap (fun (l : Nat) => (List.range 4).flatMap (fun (k : Nat) =>
    comboXY (wx.getD k 0 * wy.getD l 0) ((x - m.ox) / p - 1 + k) ((y - m.oy) / p - 1 + l)))

/-- A combination as a row over a list of unknown nodes. -/
def comboRow (nodes : List Nat) (c : Combo) : List Int := nodes.map (fun n => sumI ((c.filter (fun e => e.1 == n)).map (fun e => e.2)))

/-- The second differences over three successive unknown nodes of a row or a column (R379). -/
def secondDiffs (nodes : List Nat) : List Combo :=
  let triple := fun (n k : Nat) => (if nodes.contains (n + k) && nodes.contains (n + 2 * k) then [[(n, 1), (n + k, -2), (n + 2 * k, 1)]] else [] : List Combo)
  nodes.flatMap (fun n => (if n % 129 ≤ 126 then triple n 1 else []) ++ triple n 129)

/-- Adds a multiple of a row so that column c vanishes, and divides by the greatest common divisor. -/
def clearColumn (c : Nat) (piv r : List Int) : List Int :=
  let l := List.zipWith (fun u v => u * piv.getD c 0 - v * r.getD c 0) r piv
  let g := l.foldl (fun (g : Nat) v => Nat.gcd g v.natAbs) 0
  if r.getD c 0 = 0 then r else if g = 0 then l else l.map (fun v => v / (g : Int))

/-- Gauss and Jordan's elimination of rows of `k` columns from column `c` on: the pivot rows with their columns. -/
def jordan : Nat → Nat → List (Nat × List Int) → List (List Int) → List (Nat × List Int)
  | 0, _, piv, _ => piv
  | k + 1, c, piv, rest =>
    match rest.find? (fun r => r.getD c 0 != 0) with
    | none => jordan k (c + 1) piv rest
    | some r => jordan k (c + 1) (piv.map (fun p => (p.1, clearColumn c r p.2)) ++ [(c, r)]) ((rest.erase r).map (clearColumn c r))

/-- The solution of a system of n unknowns, rounded; an unknown that the system leaves open takes `free` (R379, log 3). -/
def solve (n : Nat) (rows : List (List Int)) (free : Nat → Int) : List Int :=
  let piv := jordan n 0 [] rows
  (List.range n).map (fun c =>
    match piv.find? (fun p => p.1 == c) with
    | none => free c
    | some p =>
      let open' := (List.range n).filter (fun f => f != c && p.2.getD f 0 != 0)
      divAway (p.2.getD n 0 - sumI (open'.map (fun f => p.2.getD f 0 * free f))) (p.2.getD c 0))

/-- The product of the transpose of a matrix with a matrix of as many rows, columns of the first given. -/
def normalMatrix (rows : List (List Int)) (n : Nat) : List (List Int) :=
  (List.range n).map (fun i => (List.range n).map (fun j => sumI (rows.map (fun r => r.getD i 0 * r.getD j 0))))

/-- The nodes whose interpolation fits values at points in least squares, with the smallest sum of squared second differences
among equal fits: the stationary point of the second under the first's normal equations (R379). -/
def leastSquares (nodes : List Nat) (fits : List (Combo × Int)) (free : Nat → Int) : List Int :=
  let n := nodes.length
  let a := fits.map (fun f => comboRow nodes f.1)
  let g := normalMatrix a n
  let h := (List.range n).map (fun i => sumI ((a.zip fits).map (fun r => r.1.getD i 0 * r.2.2)))
  let q := normalMatrix ((secondDiffs nodes).map (comboRow nodes)) n
  let top := (List.range n).map (fun i => q.getD i [] ++ g.getD i [] ++ [0])
  let low := (List.range n).map (fun i => g.getD i [] ++ List.replicate n 0 ++ [h.getD i 0])
  (solve (2 * n) (top ++ low) free).take n

/-- The position of a node. -/
def nodeAt (m : FieldMap) (n : Nat) : Int × Int := (m.ox + (n % 129 : Nat) * m.pitch, m.oy + (n / 129 : Nat) * m.pitch)

/-- Whether a node lies within two map pitches of a mark in X and in Y (R379). -/
def nodeNear (m : FieldMap) (n : Nat) (p : Pt) : Bool :=
  let q := nodeAt m n
  decide ((q.1 - p.x).natAbs ≤ 2 * m.pitch ∧ (q.2 - p.y).natAbs ≤ 2 * m.pitch)

/-- The marks berth b measured in a run, with their errors. -/
def measured (b run : Nat) (s : State) : List (Nat × Int × Int) :=
  ((calOf b s).errors.filter (fun e => e.1 / 2 ^ 20 == run)).map (fun e => (e.1 % 2 ^ 20, e.2))

/-- The value on the line through two places of a row or column. -/
def lineThrough (a b : Int × Int) (i : Int) : Int := a.2 + divAway ((b.2 - a.2) * (i - a.1)) (b.1 - a.1)

/-- Extends known places of a line to every place 0-128 from the two nearest (R72, R379); none with fewer than two. -/
def extendLine (known : List (Int × Int)) : Option (List Int) :=
  if known.length < 2 then none
  else some ((List.range 129).map (fun (i : Nat) =>
    match sortBy (fun p => (p.1 - (i : Int)).natAbs) known with
    | a :: b :: _ => if a.1 = i then a.2 else lineThrough a b i
    | _ => 0))

/-- Every node of a component from those fitted: along rows, then from the two nearest rows (R72, R379). -/
def extendNodes (known : Tab Int) (old : Nat → Int) : List Int :=
  let rows := (List.range 129).map (fun j => extendLine ((List.range 129).filterMap (fun i =>
    (known.find (129 * j + i)).map (fun v => ((i : Int), v)))))
  let whole := (List.range 129).filterMap (fun j => (rows.getD j none).map (fun r => ((j : Int), r)))
  if whole.length < 2 then (List.range (129 * 129)).map old
  else (List.range (129 * 129)).map (fun n =>
    let j := n / 129
    match rows.getD j none with
    | some r => r.getD (n % 129) 0
    | none => match sortBy (fun p => (p.1 - (j : Int)).natAbs) whole with
      | a :: b :: _ => lineThrough (a.1, a.2.getD (n % 129) 0) (b.1, b.2.getD (n % 129) 0) j
      | _ => old n)

/-- The X (c = 0) or Y (c = 1) node values of berth b's map after a run (R379): at the point where the spot stood, the new map
gives the set-point that put it there. -/
def runMap (b run c : Nat) (s : State) : List Int :=
  let m := fieldMap b s
  let l := measured b run s
  let stood := l.map (fun e => let p := markAt e.1 s; ((p.x - e.2.1, p.y - e.2.2), p))
  let fits := stood.map (fun e => (comboAt m e.1.1 e.1.2, mapAt m c e.2.x e.2.y * (4 * m.pitch ^ 6 : Nat)))
  let near := (List.range (129 * 129)).filter (fun n => l.any (fun e => nodeNear m n (markAt e.1 s)))
  let stencil := (fits.flatMap (fun f => f.1)).map (fun e => e.1)
  let nodes := (List.range (129 * 129)).filter (fun n => near.contains n || stencil.contains n)
  let v := leastSquares nodes fits (fun k => signed 32 (Config.freeValue (s.free + k)))
  extendNodes (nodes.zip v) (fun n => node m c (n % 129) (n / 129))

/-- The nodes of berth b that lie more than two pitches from every mark measured in a run (R379). -/
def extendedNodes (b run : Nat) (s : State) : Nat :=
  let m := fieldMap b s
  let l := measured b run s
  ((List.range (129 * 129)).filter (fun n => !(l.any (fun e => nodeNear m n (markAt e.1 s))))).length

/-- The pilot computes berth b's map of a run (R379). -/
def calFit (run b : Nat) (s : State) : State :=
  addN 0x0604 9 32 (extendedNodes b run s) (modCal b (fun x => { x with maps := x.maps.put run (runMap b run 0 s ++ runMap b run 1 s) }) { s with free := s.free + 2 ^ 16 })

/-- The node data with new X and Y node values (R72, R379). -/
def withNodes (data : List Byte) (v : List Int) : List Byte :=
  (List.range (129 * 129)).flatMap (fun n => toLeI 4 (v.getD n 0) ++ toLeI 4 (v.getD (129 * 129 + n) 0) ++ slice data (12 * n + 8) 4)

/-- The mean of berth b's maps of the two runs (R380). -/
def meanNodes (b : Nat) (s : State) : List Int :=
  let a := (calOf b s).maps.getD 1 []
  let c := (calOf b s).maps.getD 2 []
  (List.range (2 * 129 * 129)).map (fun n => roundHalfAway (a.getD n 0 + c.getD n 0) 2)

/-- A length in bu. -/
def lenOf (d : Int × Int) : Nat := isqrt (d.1 * d.1 + d.2 * d.2).toNat

/-- The greatest of a list by value, with where it is. -/
def worstOf (l : List (Nat × Nat × Nat)) : Nat × Nat × Nat := l.foldl (fun a v => if a.1 < v.1 then v else a) (0, 0xFF, 0)

/-- At each node of berth b, how far apart the two runs' maps place the spot (R380, cause 7). -/
def agreement (b : Nat) (s : State) : List (Nat × Nat × Nat) :=
  let m := fieldMap b s
  let u := (calOf b s).maps.getD 1 []
  let v := (calOf b s).maps.getD 2 []
  (List.range (129 * 129)).map (fun n =>
    let p := nodeAt m n
    (lenOf (inverseStep m p.1 p.2 (u.getD n 0 - v.getD n 0) (u.getD (129 * 129 + n) 0 - v.getD (129 * 129 + n) 0)), b, 0))

/-- The marks berth b measured in both runs, and how far from each the mean map places the spot (R380, cause 8). -/
def residuals (b : Nat) (s : State) : List (Nat × Int × Int) :=
  let m := fieldMap b s
  let w := { m with data := withNodes m.data (meanNodes b s) }
  (measured b 1 s).filterMap (fun e => ((calOf b s).errors.find (runKey 2 e.1)).map (fun f =>
    let p := markAt e.1 s
    let q := inverseStep m p.x p.y (mapAt w 0 p.x p.y - mapAt m 0 p.x p.y) (mapAt w 1 p.x p.y - mapAt m 1 p.x p.y)
    (e.1, q.1 - roundHalfAway (e.2.1 + f.1) 2, q.2 - roundHalfAway (e.2.2 + f.2) 2)))

/-- The distances between the spots of berths that measured the same mark (R380, cause 9). -/
def overlaps (l : List (Nat × Nat × Int × Int)) : List (Nat × Nat × Nat) :=
  l.flatMap (fun a => (l.filter (fun c => decide (a.1 < c.1) && c.2.1 == a.2.1)).map (fun c =>
    (lenOf (a.2.2.1 - c.2.2.1, a.2.2.2 - c.2.2.2), a.1, a.2.1)))

/-- The generation an apply will write (R381). -/
def newGeneration (s : State) : Nat :=
  if getN 0x0603 0x0A s ≠ 0 then getN 0x0603 0x0A s else maxN (berthList.map (fun b => getN (bi b 5) 6 s)) + 1

/-- The first failing check of R380: cause, worst value, berth and mark. -/
def calVerdict (lone agree resid excess : Nat × Nat × Nat) (s : State) : Nat × Nat × Nat × Nat :=
  if lone.1 ≠ 0 then (6, 0, lone.2)
  else if getN 0x0603 5 s < agree.1 then (7, agree)
  else if getN 0x0603 6 s < resid.1 then (8, resid)
  else if getN 0x0603 7 s < excess.1 then (9, excess)
  else (0, 0, 0xFF, 0)

/-- After run 2 the calibration is accepted or refused as a whole (R380). -/
def calJudge (s : State) : State :=
  let l := berthList.filter (fun b => bit s.cal.mask b)
  let lone := worstOf (l.flatMap (fun b => (marksOf b s).filterMap (fun k =>
    if ((calOf b s).missing.find (runKey 1 k)).isSome != ((calOf b s).missing.find (runKey 2 k)).isSome then some (1, b, k) else none)))
  let agree := worstOf (l.flatMap (fun b => agreement b s))
  let res := l.flatMap (fun b => (residuals b s).map (fun e => (b, e)))
  let resid := worstOf (res.map (fun e => (lenOf e.2.2, e.1, e.2.1)))
  let excess := worstOf (overlaps res)
  let v := calVerdict lone agree resid excess s
  let s := setN 0x0604 4 excess.1 (setN 0x0604 3 resid.1 (setN 0x0604 2 agree.1 (calEnd s)))
  if v.1 ≠ 0 then
    calNotice 0x0261 (toLe 1 v.1 ++ toLe 1 v.2.2.1 ++ toLe 2 0 ++ toLe 4 v.2.1 ++ toLe 4 v.2.2.2)
      (setN 0x0604 5 v.2.2.1 (setN 0x0603 4 v.1 (setN 0x0603 3 4 s)))
  else
    let g := newGeneration s
    let s := setN 0x0604 6 g (setN 0x0603 3 3 s)
    let s := eachBerth s.cal.mask (fun b s => { s with cal := { s.cal with result := s.cal.result.put b (withNodes (getB (bi b 5) 5 s) (meanNodes b s)) } }) s
    calNotice 0x0260 (toLe 4 g ++ toLe 4 s.cal.mask ++ toLe 4 excess.1) s

/-- RUN_COMPLETE: every berth of the mask has been at its last mark (R379, R380). -/
def runComplete (s : State) : State :=
  if !calRunning s ∨ (berthList.filter (fun b => bit s.cal.mask b)).any (fun b => !(calOf b s).done) then s
  else
    let run := getN 0x0603 3 s
    let s := eachBerth s.cal.mask (calFit run) s
    if run = 1 then calRun (setN 0x0603 3 2 s) else calJudge s

/-- RUN_COMPLETE. -/
def execRunComplete (s : State) : Host.Outcome State Fault Refusal := gated .runComplete runComplete s

/-- CALIBRATION_ABORT: calibration command 2 (R379). -/
def execCalibrationAbort (s : State) : Host.Outcome State Fault Refusal :=
  gated .calibrationAbort (fun s => if calRunning s then calAbort s else withResult 4 s) s

/-- Calibration command 3: the accepted maps and their generation enter the shadows (R381). -/
def calApply (s : State) : State :=
  if getN 0x0603 3 s ≠ 3 then withResult 4 s
  else if berthList.any (fun b => bit s.cal.mask b && sealOf (4 + b) s != 0) then withResult 6 s
  else
    let g := newGeneration s
    let s := eachBerth s.cal.mask (fun b s =>
      setShadow (bi b 5) 1 (.int g) (setShadow (bi b 5) 5 (.blob (s.cal.result.getD b [])) s)) s
    setN 0x0604 6 g (setN 0x0603 3 5 s)

/-- APPLY. -/
def execApply (s : State) : Host.Outcome State Fault Refusal := gated .apply calApply s

/-- Calibration command 4: the result is discarded (R380). -/
def calibrationDiscard (s : State) : State :=
  if calRunning s then withResult 4 s else setN 0x0603 4 0 (setN 0x0603 3 0 (calForget s))

/-- CALIBRATION_DISCARD. -/
def execCalibrationDiscard (s : State) : Host.Outcome State Fault Refusal := gated .calibrationDiscard calibrationDiscard s

end Sys2Proof.Machine
end

