-- ==== Sys2Proof/Machine/Objects.lean ====
section
/-!
DEFINITION. Sys2Proof/Machine/Objects.lean: a write of any object as its owner takes or refuses it (R9, R22-R28, R286-R289, R301), the store
(R300), the breakwater set and the key slots (R194, R195, R199), and their commands.
-/
namespace Sys2Proof.Machine

/-- Puts 0 into the subindices a to z of an index. -/
def clearSubs (i a z : Nat) (s : State) : State := each ((List.range (z + 1 - a)).map (a + ·)) (fun k s => setN i k 0 s) s

/-- Whether an object belongs to a camera context that is disabled: its writes are in force at once (R156). -/
def ofIdleContext (i : Nat) (s : State) : Bool := decide (0x4100 ≤ i) && decide (i < 0x41D0) && !ctxOn ((i - 0x4100) / 8) s

/-- A value enters its shadow, or is in force at once (R26, R156). -/
def plain (i k : Nat) (v : Val) (s : State) : State :=
  match findRow i k with
  | none => s
  | some r => match r.acc with
    | .rwc => setShadow i k v s
    | .rwf => if ofIdleContext i s then setV i k v s else setShadow i k v s
    | .rw => setV i k v s
    | _ => s

/-- An integer enters its shadow, or is in force at once. -/
def plainI (i k : Nat) (v : Int) (s : State) : State := plain i k (.int v) s

/-- A value takes effect where `ok` holds; else the write returns the result r. -/
def orElse (ok : Bool) (r : Nat) (f : State → State) (s : State) : State := if ok then f s else withResult r s

/-- Writes of a berth's objects (R31-R34, R69, R87, R88). -/
def writeBerth (i k : Nat) (v : Int) (s : State) : State :=
  let b := (i - 0x1000) / 0x40
  match (i - 0x1000) % 0x40, k with
  | 1, 1 => match v.toNat with
    | 1 => stopBerth b 1 0x0001 s.now s
    | 2 => stopBerth b 2 0x0002 s.now s
    | 3 => resume b s.now s
    | _ => berthReset b s.now (calStop b s)
  | 4, 5 => orElse (decide (v < shadowI i 6 s)) 3 (plainI i k v) s
  | 4, 6 => orElse (decide (shadowI i 5 s < v)) 3 (plainI i k v) s
  | 6, 7 => clearSubs i 1 6 s
  | _, _ => plainI i k v s

/-- Writes of the harbour's and the harbourmaster's objects (R13, R16, R117, R247). -/
def writeHarbour (i k : Nat) (v : Int) (s : State) : State :=
  match i, k with
  | 0x1800, 3 => plainI i k v { s with hm := { s.hm with ring := v == 1 } }
  | 0x1800, 6 => orElse (decide (shadowI i 4 s < v)) 3 (plainI i k v) s
  | 0x1800, 7 => orElse (decide (shadowI i 5 s < v)) 3 (plainI i k v) s
  | 0x1800, 0x0A => harbourCommand v.toNat s
  | 0x1806, 2 => reassignBerth v.toNat s
  | 0x1808, 8 => clearSubs 0x1808 1 4 (clearSubs 0x1806 3 3 (clearSubs 0x1805 4 5 s))
  | _, _ => plainI i k v s

/-- Whether bank c of a loop may be written: not in force, no select of it pending (R134). -/
def bankFree (n c : Nat) (s : State) : Bool :=
  getN (li n 5) 2 s != c && (loop n s).selManifest != some c && s.shadow.find (key (li n 1) 4) != some (.int c)

/-- A write of a bank's coefficient or limit (R134). -/
def bankWrite (n c k : Nat) (v : Int) (s : State) : State :=
  let i := li n (2 + c)
  let at' := fun (j : Nat) => if j = k then v else getI i j s
  if !bankFree n c s then withResult 4 s
  else orElse (decide (at' 0x10 < at' 0x11 ∧ at' 0x12 < at' 0x13)) 3 (plainI i k v) s

/-- Writes of the loops' objects (R132, R134, R147). -/
def writeLoop (i k : Nat) (v : Int) (s : State) : State :=
  let n := (i - 0x2000) / 0x10
  if 0x3000 ≤ i then (if i = 0x3002 then clearSubs i 1 3 s else plainI i k v s)
  else match i % 0x10, k with
    | 0, 1 | 0, 2 => reportShadowLoad (plainI i k v s)
    | 0, 3 => orElse (!(n % 8 == 7 && bit v.toNat 2)) 3 (fun s => reportShadowLoad (plainI i k v s)) s
    | 1, 1 => loopMode n v.toNat s
    | 1, 4 => bankSelect n v.toNat s
    | 1, 6 => tripClear n s
    | 2, _ => bankWrite n 0 k v s
    | 3, _ => bankWrite n 1 k v s
    | 6, 7 => loopFlag n 6 false (loopFlag n 5 false (clearSubs i 1 6 s))
    | _, _ => plainI i k v s

/-- Writes of the links' objects (R223, R231, R240). -/
def writeLink (i k : Nat) (v : Int) (s : State) : State :=
  if i = 0x3800 then plainI i k v s
  else
    let l := if i < 0x3840 then i - 0x3810 else 24 + (i - 0x3840)
    if k = 1 then (if v = 1 then linkEnable l s else linkDisable l s)
    else if k = lsub l 0x0F 0x0B then retrain l s
    else if k = lsub l 0x1D 0x13 then clearSubs i (lsub l 0x15 0x10) (lsub l 0x1C 0x12) s
    else plainI i k v s

/-- Writes of the pipeline's and the camera contexts' objects (R149, R153, R157). -/
def writeVision (i k : Nat) (v : Int) (s : State) : State :=
  if i < 0x4100 then (if k = 6 then clearSubs i 5 5 s else plainI i k v s)
  else
    let c := (i - 0x4100) / 8
    match i % 8, k with
    | 0, 1 => contextEnable c (v == 1) s
    | 0, 0x0D => hostTrigger c 0 s
    | 0, 9 | 0, 0x0A | 0, 0x0B | 0, 0x0C | 0, 0x0F => orElse (!ctxOn c s) 4 (plainI i k v) s
    | 5, 8 => clearSubs i 3 6 s
    | _, _ => plainI i k v s

/-- What an enable or a disable of the beacon does beside the object: its periods begin, or its sequence stops (R169, R172). -/
def beaconEnable (v : Int) (s : State) : State :=
  if v = 0 then stopSequence s.now s
  else if getN 0x4800 1 s = 0 then { s with vision := { s.vision with beaconFrom := s.now } } else s

/-- The beacon's period and blanking time after a write of 0x4800:k: the blanking is 100 to P / 2 ns. -/
def blankingFits (k : Nat) (v : Int) (s : State) : Bool :=
  let p := if k = 2 then v else getI 0x4800 2 s
  let t := if k = 4 then v else getI 0x4800 4 s
  decide (100 ≤ t ∧ 2 * t ≤ p)

/-- Writes of the beacon's objects (R169-R172). -/
def writeBeacon (i k : Nat) (v : Int) (s : State) : State :=
  match i, k with
  | 0x4800, 1 => plainI i k v (beaconEnable v s)
  | 0x4800, 2 | 0x4800, 4 => orElse (blankingFits k v s) 3 (plainI i k v) s
  | 0x4800, 3 => orElse (getN 0x4800 1 s == 0) 4 (plainI i k v) s
  | 0x4808, 3 => sequenceStart s
  | 0x4808, 0x0A => stopSequence s.now s
  | _, _ => plainI i k v s

/-- Writes of the chart's objects (R186, R189). -/
def writeChart (i k : Nat) (v : Int) (s : State) : State :=
  match i, k with
  | 0x5003, 6 => clearSubs i 2 5 s
  | 0x5004, 1 => exportLayer v.toNat s
  | 0x5004, 6 => release v.toNat s
  | _, _ => plainI i k v s

/-- Writes of the compressor's objects (R212, R217). -/
def writeRecord (i k : Nat) (v : Int) (s : State) : State :=
  if i < 0x5900 then
    (if i = 0x5801 ∧ k = 7 then
      (match v.toNat with
       | 1 => jobStart s
       | 2 => jobResume s
       | 3 => jobAbort s
       | _ => jobSaveState s)
     else plainI i k v s)
  else if i % 2 = 0 ∧ k = 6 then readPointer ((i - 0x5900) / 2) v.toNat s
  else if i % 2 = 1 ∧ k = 6 then clearSubs i 4 5 s
  else plainI i k v s

/-- Writes of the memory controller's objects (R308). -/
def writeMemory (i k : Nat) (v : Int) (s : State) : State :=
  match i, k with
  | 0x6001, _ => orElse (layoutAllows k v s) 3 (plainI i k v) s
  | 0x6004, _ => clearSubs i 1 7 s
  | 0x6005, _ => clearSubs i 5 6 (clearSubs i 1 2 s)
  | _, _ => plainI i k v s

/-- Writes of the axes' objects (R251-R258). -/
def writeAxis (i k : Nat) (v : Int) (s : State) : State :=
  let m := (i - 0x7000) / 0x20
  match i % 0x20, k with
  | 0, 1 => axisEnable m v.toNat s
  | 0, 2 | 0, 3 => orElse (getN (mi m 0) 1 s == 0) 4 (plainI i k v) s
  | 1, 1 => target m v s
  | 1, 5 => if v = 1 then stopDecelerate m s else stopFreeze m s
  | 1, 0x0A => positionSet m v s
  | 2, 0x0B => home m s
  | 2, 0x16 => stallClear m s
  | _, _ => plainI i k v s

/-- Writes of the counters' and compare units' objects (R259-R264). -/
def writeCounter (i k : Nat) (v : Int) (s : State) : State :=
  let n := (i - 0x7200) / 0x10
  match i % 0x10, k with
  | 0, 1 => ctrEnable n v.toNat s
  | 0, 4 => orElse (decide (v < getI i 5 s)) 3 (plainI i k v) s
  | 0, 5 => orElse (decide (getI i 4 s < v)) 3 (plainI i k v) s
  | 0, _ => plainI i k v s
  | 1, 2 => countSet n v s
  | 1, 6 => referenceArm n s
  | 1, _ => clearSubs i 9 0x0D s
  | u + 2, 1 => unitEnable n u v.toNat s
  | u + 2, 3 => unitSpacing n u v s
  | u + 2, 5 => unitMask n u v.toNat s
  | _, _ => plainI i k v s

/-- Whether a berth is Armed or Exposing in a wake layer. -/
def wakeBusy (s : State) : Bool := s.commit.wakeLayer && anyExposing allBerths s

/-- Writes of the motion block's objects (R254, R264, R265, R267). -/
def writeMotion (i k : Nat) (v : Int) (s : State) : State :=
  if i < 0x7080 then writeAxis i k v s
  else if i = 0x7080 then orElse (v == 0) 3 (setN 0x7080 1 0) s
  else if i < 0x7300 then writeCounter i k v s
  else if k = 0x0C then wakeRelease s
  else if wakeBusy s ∨ (k = 1 ∧ v ≠ wakeCounter s ∧ wakeStepsSet s) then withResult 4 s
  else plainI i k v s

/-- Whether the dip levels a write of 0x0401:k leaves are in order: reset below warning, warning plus hysteresis at most 10,000. -/
def levelsFit (k : Nat) (v : Int) (s : State) : Bool :=
  let at' := fun (j : Nat) => if j = k then v else getI 0x0401 j s
  decide (at' 3 < at' 2 ∧ at' 2 + at' 4 ≤ 10000)

/-- Writes of the supervisor's objects (R323, R325, R332-R336). -/
def writeMains (i k : Nat) (v : Int) (s : State) : State :=
  match i, k with
  | 0x0400, 1 => tideEnable (v == 1) s
  | 0x0400, 5 => phaseEnable v s
  | 0x0400, 2 => referenceWrite v.toNat s
  | 0x0401, 2 | 0x0401, 3 | 0x0401, 4 => orElse (levelsFit k v s) 3 (plainI i k v) s
  | 0x0401, 0x0E => clearSubs i 0x0B 0x0D s
  | 0x0402, 0x11 => activeLevel v.toNat s
  | 0x0402, 0x12 => glitchWrite v.toNat s
  | 0x0402, 0x13 => plainI i k v s
  | 0x0402, 0x16 => acknowledge v.toNat s
  | 0x0402, _ | 0x0404, _ => bolWrite (k - 1) i k v.toNat (bolBerths (k - 1) s) s
  | 0x0403, _ => bolWrite (k - 1) i k v.toNat v.toNat s
  | 0x0405, 0x11 => clearSubs i 1 0x10 s
  | _, _ => plainI i k v s

/-- Store command 1 (R300): refused while an update writes flash (R363), and while a store runs. -/
def storeStart (s : State) : State :=
  if getN 0x0220 2 s = 1 ∨ updateState s = 2 ∨ updateState s = 3 then withResult 4 s
  else setN 0x0220 2 1 { s with pilot := { s.pilot with storing := some (storedValues s) } }

/-- STORE. -/
def execStore (s : State) : Host.Outcome State Fault Refusal := gated .store storeStart s

/-- Store command 2 (R300): both copies are erased. -/
def restoreDefaults (s : State) : State :=
  if getN 0x0220 2 s = 1 ∨ commitWaiting s ∨ berthList.any (fun b => bState b s != 0) then withResult 4 s
  else setN 0x0220 2 4 { s with flash := { s.flash with store := none, storeOld := none }, pilot := { s.pilot with restorePending := true } }

/-- RESTORE_DEFAULTS. -/
def execRestoreDefaults (s : State) : Host.Outcome State Fault Refusal := gated .restoreDefaults restoreDefaults s

/-- The value a store writes for a key written while it ran: that before or that after, which of them is free (R300, log 3). -/
def storePick (old new : Tab Val) (f : Nat) : Tab Val :=
  new.foldl (fun t e => if old.find e.1 ≠ some e.2 ∧ bit f e.1 then t.put e.1 e.2 else t) old

/-- The end of a store (R300): the new copy joins the old one, which a failed store leaves whole. -/
def storeComplete (ok : Bool) (s : State) : State :=
  match s.pilot.storing with
  | none => s
  | some old =>
    let s : State := { s with pilot := { s.pilot with storing := none } }
    if !ok then setN 0x0220 2 3 s
    else
      let picked := storePick old (storedValues s) (freeVal s)
      let s := setTime 0x0220 4 s.now (addN 0x0220 3 32 1 (setN 0x0220 2 2 (drawn s)))
      let copy := (picked.put (key 0x0220 3) (getV 0x0220 3 s)).put (key 0x0220 4) (getV 0x0220 4 s)
      { s with flash := { s.flash with storeOld := s.flash.store, store := some copy }, pilot := { s.pilot with restorePending := false } }

/-- STORE_COMPLETE. -/
def execStoreComplete (ok : Bool) (s : State) : Host.Outcome State Fault Refusal := gated (.storeComplete ok) (storeComplete ok) s

/-- Writes of the pilot's objects: update, ladder, warm reset, store, watchdog, calibration (R300, R343, R349, R363, R364, R377). -/
def writePilot (i k : Nat) (v : Int) (s : State) : State :=
  match i, k with
  | 0x0110, 5 => (match v.toNat with
    | 1 => verifyAndWrite s
    | 2 => activateImage s
    | _ => updateDiscard s)
  | 0x0110, 6 => setBootRecord { bootRecord s with pilotTrial := 0, berthTrial := 0 } s
  | 0x0210, _ => s
  | 0x0220, 1 => if v = 1 then storeStart s else restoreDefaults s
  | 0x0300, 1 => rungRequest v.toNat s
  | 0x0301, 1 => warmReset 4 s
  | 0x0603, 2 => (match v.toNat with
    | 1 => calibrationStart s
    | 2 => if calRunning s then calAbort s else withResult 4 s
    | 3 => calApply s
    | _ => calibrationDiscard s)
  | _, _ => plainI i k v s

/-- The message a PRESENCE carries (R285). -/
def presencePayload (ip : Nat) (s : State) : List Byte :=
  toLe 2 (getN 0x0801 1 s) ++ toLe 1 s.hm.seatNo ++ toLe 1 s.hm.size ++ toLe 8 (getN 0x0100 4 s) ++ toLe 6 (getN 0x0801 6 s) ++ toLe 2 0
    ++ toLe 4 ip ++ toLe 2 (getN 0x0100 5 s) ++ toLe 2 (getN 0x0100 7 s) ++ toLe 1 (b2n s.pilot.anchorage) ++ toLe 3 0

/-- The IPv4 address in use (R274, R275): what DHCPv4 gives is free (log 3). -/
def ipv4 (s : State) : Nat :=
  if s.net.withdrawn then 0
  else match getN 0x0802 1 s with
    | 0 => getN 0x0802 2 s
    | 1 => (getN 0x0802 2 s + 1 + getN 0x0801 1 s) % 2 ^ 32
    | _ => Config.freeValue s.pilot.resetAt % 2 ^ 32

/-- The node announces its presence (R275). -/
def presenceOut (s : State) : State := emit (.multicast (presencePayload (ipv4 s) s)) s

/-- An address object takes effect at once (R274, R275). -/
def addressWrite (i k : Nat) (v : Val) (s : State) : State :=
  let was := (ipv4 s, getB 0x0802 6 s)
  let s := plain i k v s
  if (ipv4 s, getB 0x0802 6 s) = was then s else presenceOut s

/-- The addresses the node sends from: IPv4, and its global IPv6 address (R274). -/
def sourceOf (s : State) : Nat × List Byte := (ipv4 s, getB 0x0802 6 s)

/-- A MOP datagram: the header with its CRC, then the payload (R284). -/
def mopBytes (n type seq flags : Nat) (payload : List Byte) : List Byte :=
  let h := toLe 2 0x4D50 ++ toLe 1 0x10 ++ toLe 1 type ++ toLe 1 n ++ toLe 1 flags ++ toLe 2 payload.length ++ toLe 4 seq
  h ++ toLe 4 (crc32c (h ++ payload)) ++ payload

/-- Whether bytes are a MOP datagram: magic, major version, length and CRC (R284). -/
def mopGood (l : List Byte) : Bool :=
  field l 0 2 == 0x4D50 && bits (field l 2 1) 7 4 == 1 && field l 6 2 + 16 == l.length && field l 0xC 4 == crc32c (l.take 12 ++ l.drop 16)

/-- A port's bit of the link state (R271). -/
def portBit (p : Nat) (up : Bool) (s : State) : State := setN 0x0800 4 (setBit (getN 0x0800 4 s) p up) s

/-- Writes of the network's and the time unit's objects (R271-R278). -/
def writeNetwork (i k : Nat) (v : Int) (s : State) : State :=
  match i, k with
  | 0x0800, 1 | 0x0800, 2 => if getI i k s = v then s else portBit (k - 1) false (plainI i k v s)
  | 0x0800, 3 => plainI i k v (if v = 0 then portBit 1 false s else s)
  | 0x0802, _ => addressWrite i k (.int v) s
  | 0x0803, 2 => orElse (getN 0x0800 3 s == 1) 4 (plainI i k v) s
  | 0x0804, 2 => timeSet v.toNat s
  | 0x0804, 0x0D => clearSubs i 0x0A 0x0C s
  | 0x0805, 5 => clearSubs 0x0805 1 4 (clearSubs 0x0800 0x0A 0x0B s)
  | _, _ => plainI i k v s

/-- Writes of the logbook's objects; the cursor belongs to the session (R367, R368, R372, R373). -/
def writeLogbook (n i k : Nat) (v : Int) (s : State) : State :=
  match k with
  | 3 => modSess n (fun q => { q with cursor := v.toNat }) s
  | 8 => logClear v.toNat s
  | 0x0A => logFlush s
  | _ => plainI i k v s

/-- Writes of the commit sequencer's and the manifest queues' objects (R52, R55-R57, R60, R64). -/
def writeCommit (i k : Nat) (v : Int) (s : State) : State :=
  if i = 0x8000 then
    (if k = 1 then commitRequest v.toNat s else if k = 0x0D then commitAbort s else plainI i k v s)
  else if i = 0x8001 then plainI i k v s
  else if i = 0x8002 then
    let g := if k < 0x10 then k - 1 else 4 + (k - 0x10)
    if v = 0 then unsealGroup g s else sealGroup g v.toNat s
  else
    let b := i - 0x8100
    match k with
    | 4 => closeLength b v.toNat s
    | 0x0F => slotClear b v.toNat s
    | 0x11 => noHostCopy b s
    | _ => plainI i k v s

/-- A checked integer reaches the owner of its object (R301). -/
def writeInt (n i k : Nat) (v : Int) (s : State) : State :=
  if i < 0x0400 then writePilot i k v s
  else if i < 0x0500 then writeMains i k v s
  else if i < 0x0600 then writeLogbook n i k v s
  else if i < 0x0800 then writePilot i k v s
  else if i < 0x1000 then writeNetwork i k v s
  else if i < 0x1800 then writeBerth i k v s
  else if i < 0x2000 then writeHarbour i k v s
  else if i < 0x3800 then writeLoop i k v s
  else if i < 0x4000 then writeLink i k v s
  else if i < 0x4800 then writeVision i k v s
  else if i < 0x5000 then writeBeacon i k v s
  else if i < 0x5800 then writeChart i k v s
  else if i < 0x6000 then writeRecord i k v s
  else if i < 0x7000 then writeMemory i k v s
  else if i < 0x8000 then writeMotion i k v s
  else writeCommit i k v s

/-- A BLOB whose length fits, whole or laid over the present bytes, as its object takes it (R52, R172, R240, R274, R363). -/
def writeBlob (n i k off : Nat) (data whole : List Byte) (s : State) : State :=
  if 0x8100 ≤ i ∧ i < 0x8118 then loadData (i - 0x8100) data s
  else if i = 0x0110 then imageData off data s
  else if i = 0x6010 then windowWrite data s
  else if 0x3810 ≤ i ∧ i < 0x3828 then configWrite n (i - 0x3810) data s
  else if i = 0x0802 then addressWrite i k (.blob whole) s
  else if i = 0x4808 then orElse (getN 0x4808 6 s != 2) 4 (plain i k (.blob whole)) s
  else plain i k (.blob whole) s

/-- Whether a BLOB takes its bytes as they come, whatever lies before them. -/
def isStreamed (i : Nat) : Bool := decide (0x8100 ≤ i ∧ i < 0x8118) || i == 0x0110 || i == 0x6010 || decide (0x3810 ≤ i ∧ i < 0x3828)

/-- The whole value a write of part of a BLOB leaves (R287). -/
def wholeBlob (i k : Nat) (part : Bool) (off : Nat) (data : List Byte) (s : State) : List Byte :=
  if isStreamed i ∨ !part then data else overlay (asBytes (shadowV i k s)) off data

/-- The set object's write: checked, and taken into the shadow or refused with its reason (R194, R195). -/
def breakwaterTake (l : List Byte) (s : State) : State :=
  if sealOf 2 s ≠ 0 then withResult 6 s
  else
    let c := setCheck l s
    let s := setN 0x5100 2 c s
    if c = 1 then { s with bw := { s.bw with shadow := some l } } else withResult 4 s

/-- BREAKWATER_SET. -/
def execBreakwaterSet (sess : Nat) (set sig : List Byte) (s : State) : Host.Outcome State Fault Refusal :=
  gated (.breakwaterSet sess set sig) (rwpWrite sess 0x5100 1 0 set sig (breakwaterTake set)) s

/-- Whether a key slot is programmed, and not revoked (R199). -/
def slotLive (i : Nat) (s : State) : Bool := bit (getN 0x5101 5 s) i && !bit (getN 0x5101 5 s) (i + 4)

/-- A key hash is programmed into its slot, which must be empty (R199). -/
def keyTake (data : List Byte) (s : State) : State :=
  let i := field data 0 1
  if data.length ≠ 33 then withResult 5 s
  else if 4 ≤ i then withResult 3 s
  else if bit (getN 0x5101 5 s) i then withResult 4 s
  else setN 0x5101 5 (setBit (getN 0x5101 5 s) i true) (setB 0x5101 (i + 1) (slice data 1 32) s)

/-- A write of the key slot program: slot 0 over the SPI port while all four slots are empty, else signed (R199, R299). -/
def keyProgram (n : Nat) (data sig : List Byte) (s : State) : State :=
  if n = 16 ∧ getN 0x5101 5 s = 0 ∧ field data 0 1 = 0 then keyTake data s
  else rwpWrite n 0x5101 6 0 data sig (keyTake data) s

/-- KEY_SLOT_PROGRAM. -/
def execKeySlotProgram (sess : Nat) (data sig : List Byte) (s : State) : Host.Outcome State Fault Refusal :=
  gated (.keySlotProgram sess data sig) (keyProgram sess data sig) s

/-- A key slot is revoked, but not the last programmed and unrevoked one, nor the one whose key signed the session (R199). -/
def keyDrop (n i : Nat) (s : State) : State :=
  if 4 ≤ i then withResult 3 s
  else if !slotLive i s ∨ ([0, 1, 2, 3].filter (fun j => slotLive j s)).length ≤ 1 ∨ getB 0x5101 (i + 1) s = sha256 (sess n s).key then
    withResult 4 s
  else setN 0x5101 5 (setBit (getN 0x5101 5 s) (i + 4) true) s

/-- A write of the key slot revoke (R199, R296). -/
def keyRevoke (n i : Nat) (sig : List Byte) (s : State) : State := rwpWrite n 0x5101 7 0 (toLe 1 i) sig (keyDrop n i) s

/-- KEY_SLOT_REVOKE. -/
def execKeySlotRevoke (sess slot : Nat) (sig : List Byte) (s : State) : Host.Outcome State Fault Refusal :=
  gated (.keySlotRevoke sess slot sig) (keyRevoke sess slot sig) s

/-- A signed write of an RWP object: the signed bytes, and the value they make (R194, R199, R296). -/
def writeProtected (n i k off : Nat) (data : List Byte) (v : Val) (sig : List Byte) (s : State) : State :=
  if i = 0x5101 ∧ k = 6 ∧ n = 16 then keyProgram n data sig s
  else rwpWrite n i k off data sig (fun s =>
    if i = 0x5100 then breakwaterTake (asBytes v) s
    else if i = 0x5101 ∧ k = 6 then keyTake (asBytes v) s
    else if i = 0x5101 then keyDrop n (asInt v).toNat s
    else writeCommit i k (asInt v) s) s

/-- Whether Anchorage serves the objects of an index (R361). -/
def anchorageServes (i : Nat) : Bool := decide (i < 0x0400) || (decide (0x0500 ≤ i) && decide (i < 0x0600)) || (decide (0x0800 ≤ i) && decide (i < 0x0806))

/-- Whether the boot ROM serves an object (R362). -/
def romServes (i k : Nat) : Bool := i == 0x0100 || i == 0x0110 || (i == 0x0301 && decide (k ≤ 2))

/-- The result of an access to an object that the power state keeps away, 0 for none (R346, R361, R362). -/
def awayResult (i k : Nat) (write : Bool) (s : State) : Nat :=
  if s.pilot.romRecovery then (if romServes i k then 0 else 0xC)
  else if s.pilot.anchorage ∧ !anchorageServes i then 0xC
  else if write ∧ rung s = 2 ∧ 2 ≤ domainOf i then 4 else 0

/-- The result of a write that its session, its access class or the power state turns away (R286, R288, R301, R346, R361). -/
def writeBarred (n i k : Nat) (s : State) : Nat :=
  match findRow i k with
  | none => 1
  | some r =>
    if awayResult i k true s ≠ 0 then awayResult i k true s
    else if writeBar n s ≠ 0 then writeBar n s
    else if r.acc = .ro ∨ r.acc = .na then 2 else 0

/-- The result of a value that its object cannot take: its type or length, its range, the bound of a BLOB, a sealed group (R57, R288). -/
def valueBarred (i k : Nat) (part : Bool) (off : Nat) (v : Val) (s : State) : Nat :=
  match findRow i k, v with
  | none, _ => 1
  | some r, .int x =>
    if off ≠ 0 ∨ part ∨ !r.ty.holds v then (if off = 0 ∧ !part ∧ r.ty == .b1 then 3 else 5)
    else if !r.chk.allows x then 3
    else if r.acc = .rwc ∧ (groupOf i).any (fun g => sealOf g s != 0) then 6 else 0
  | some r, .blob d =>
    if r.ty != .blob then 5
    else
      let l := wholeBlob i k part off d s
      if (blobLength i k).2 < l.length then 0xA
      else if l.length < (blobLength i k).1 then 5
      else if r.acc = .rwc ∧ (groupOf i).any (fun g => sealOf g s != 0) then 6 else 0

/-- A write by session n of a value, or of part of a BLOB at an offset, with the signed bytes and their signature (R288, R289). -/
def applyWrite (n i k : Nat) (part : Bool) (off : Nat) (v : Val) (data sig : List Byte) (s : State) : State :=
  let s := withResult 0 s
  if writeBarred n i k s ≠ 0 then withResult (writeBarred n i k s) s
  else if valueBarred i k part off v s ≠ 0 then withResult (valueBarred i k part off v s) s
  else
    let l := wholeBlob i k part off (asBytes v) s
    match (findRow i k).elim Acc.ro (fun r => r.acc), v with
    | .rwp, .int _ => writeProtected n i k off data v sig s
    | .rwp, .blob _ => writeProtected n i k off data (.blob l) sig s
    | _, .int x => writeInt n i k x s
    | _, .blob d => writeBlob n i k off d l s

/-- The bytes of a value as R287 encodes them for its object. -/
def valueBytes (i k : Nat) (v : Val) : List Byte :=
  match findRow i k with
  | none => []
  | some r => encodeVal r.ty v

/-- OBJECT_WRITE: a write of a whole value by a session (R288, R289). -/
def execObjectWrite (sess idx sub : Nat) (v : Val) (s : State) : Host.Outcome State Fault Refusal :=
  gated (.objectWrite sess idx sub v) (applyWrite sess idx sub false 0 v (valueBytes idx sub v) []) s

/-- FENCE: every earlier write of the session is already applied, so nothing is left to wait for (R24, R289). -/
def execFence (sess : Nat) (s : State) : Host.Outcome State Fault Refusal :=
  gated (.fence sess) (fun s => if writeBar sess s = 0 then s else withResult (writeBar sess s) s) s

end Sys2Proof.Machine
end

