-- ==== Sys2Proof/Machine/Reads.lean ====
section
/-!
DEFINITION. Sys2Proof/Machine/Reads.lean: what a read of an object returns (R27, R286-R289), the values that are formed when they are
read among them, and the writes of an entry.
-/
namespace Sys2Proof.Machine

/-- The sessions open, by bit (0x0200:01). -/
def sessionsOpen (s : State) : Nat := (List.range 16).foldl (fun m n => if (sess n s).opened then m + 2 ^ n else m) 0

/-- A session's entry of the session table (0x0200:06). -/
def sessionRow (n : Nat) (s : State) : List Byte :=
  let q := sess n s
  toLe 1 q.cls ++ toLe 1 (b2n q.watched + 2 * b2n q.proven) ++ toLe 2 q.port ++ slice q.addr 0 16 ++ toLe 4 q.last ++ toLe 4 q.dropped ++ toLe 4 0

/-- The link-local address: modified EUI-64 of the MAC address (R274). -/
def linkLocal (s : State) : List Byte :=
  let m := (toLe 6 (getN 0x0801 6 s)).reverse
  [0xFE#8, 0x80#8] ++ List.replicate 6 0#8 ++ [(m.getD 0 0#8) ^^^ 2#8] ++ slice m 1 2 ++ [0xFF#8, 0xFE#8] ++ slice m 3 3

/-- The watchdog's state (0x0211:02): armed while any berth is Armed or Exposing, expired until it is fed (R297). -/
def watchdogState (s : State) : Nat := if getN 0x0211 2 s = 2 then 2 else b2n (anyExposing allBerths s)

/-- The state of domain d as 0xF000:03 codes it (R341); what Anchorage and ROM recovery leave of D4 to D7 reads free (log 3). -/
def domainState (d : Nat) (s : State) : Nat :=
  let off := s.pilot.anchorage || s.pilot.romRecovery
  if 4 ≤ d ∧ off then Config.freeValue (s.free + d) % 4
  else match rung s, d with
    | 0, _ => 3
    | 1, _ => if 5 ≤ d then 2 else 3
    | 2, 4 => 0
    | 2, _ => if d < 2 then 3 else 1
    | 3, 0 => 3
    | 3, 4 => 0
    | 3, _ => 1
    | r, _ => if d = 0 then 3 else if d = 3 ∧ r = 4 then 1 else 0

/-- A measured value that no command brings reads free (log 3). -/
def measuredFree (w : Nat) (s : State) : Val := .int (Config.freeValue s.free % 2 ^ w : Nat)

/-- The diagnostics (0xF000). -/
def diagnostic (k : Nat) (s : State) : Val :=
  match k with
  | 1 => match s.obj.find (key 0xF000 1) with
    | some v => v
    | none => .int (signed 16 (Config.freeValue s.free))
  | 2 => measuredFree 16 s
  | 3 => .int ((List.range 8).foldl (fun m d => m + domainState d s * 4 ^ d) 0 : Nat)
  | 4 => .int (nsOf (s.now - s.pilot.resetAt) / 1000000000 : Nat)
  | _ => .int (Config.freeValue s.pilot.resetAt % 2 ^ 32 : Nat)

/-- The breakwater set a read returns: the shadow, else the set in force (R194). -/
def setShown (s : State) : List Byte := s.bw.shadow.getD (getB 0x5100 6 s)

/-- The value a read by session n returns: the shadow of an RWC or RWF object, a value formed when it is read, else the value in force (R27). -/
def liveValue (n i k : Nat) (s : State) : Val :=
  match i, k with
  | 0x0200, 1 => .int (sessionsOpen s : Nat)
  | 0x0200, 2 => .int (n : Nat)
  | 0x0200, 6 => .blob ((List.range 16).flatMap (fun m => sessionRow m s))
  | 0x0211, 2 => .int (watchdogState s : Nat)
  | 0x0500, 3 => .int ((sess n s).cursor : Nat)
  | 0x0604, 7 => .blob (s.cal.result.getD (getN 0x0604 8 s) [])
  | 0x0802, 5 => .int (ipv4 s : Nat)
  | 0x0802, 8 => .blob (linkLocal s)
  | 0x0804, 1 => .int (nsOf s.now : Nat)
  | 0x3800, 5 => if s.hm.seatNo = 0 then .int 3 else getV i k s
  | 0x5004, 2 => .int (exportState s : Nat)
  | 0x5004, 3 => .blob (exportHeader s)
  | 0x5004, 5 => .blob (exportTile s)
  | 0x5100, 1 => .blob (setShown s)
  | 0x5800, 1 => measuredFree 32 s
  | 0xF000, _ => diagnostic k s
  | _, _ => (motionValue i k s).getD (shadowV i k s)

/-- The result of a read that its access class or the power state turns away (R288, R301, R346, R361). -/
def readBarred (i k : Nat) (s : State) : Nat :=
  match findRow i k with
  | none => 1
  | some r => if awayResult i k false s ≠ 0 then awayResult i k false s else if r.acc = .wo then 2 else 0

/-- A read of `len` bytes at an offset by session n: its result, the bytes, and the state after it (R287, R288, R373). -/
def readObject (n i k : Nat) (part : Bool) (off len : Nat) (s : State) : Nat × List Byte × State :=
  if readBarred i k s ≠ 0 then (readBarred i k s, [], s)
  else if i = 0x0500 ∧ k = 4 then
    let r := logWindow n s
    (0, r.1, r.2)
  else if i = 0x6010 ∧ k = 2 then windowRead len s
  else match findRow i k, liveValue n i k s with
    | some r, .int x => if part ∨ off ≠ 0 ∨ len ≠ r.ty.width then (5, [], s) else (0, encodeVal r.ty (.int x), s)
    | _, .blob l => if l.length < off + len then (0xA, [], s) else (0, slice l off len, s)
    | none, _ => (1, [], s)

/-- The head whose configuration data an object is, if it is one (R240). -/
def configHead (i k : Nat) : Option Nat := if 0x3810 ≤ i ∧ i < 0x3828 ∧ k = 0x14 then some (i - 0x3810) else none

/-- The bytes of an entry's header before its length (R287). -/
def entryHead (e : Entry) : List Byte := toLe 2 e.idx ++ toLe 1 e.sub ++ toLe 1 (b2n e.part + 2 * b2n (e.sig != [])) ++ toLe 4 e.offset

/-- One entry of a READ, with `room` bytes left for data in the reply (R287, R288): a head's data come later (R240). -/
def readEntry (n room : Nat) (e : Entry) (s : State) : Part × State :=
  match configHead e.idx e.sub with
  | some h =>
    if readBarred e.idx e.sub s ≠ 0 then ({ hdr := entryHead e, res := readBarred e.idx e.sub s }, s)
    else
      let s := configRead n h (withResult 0 s)
      ({ head := if s.result = 0 then some h else none, hdr := entryHead e, res := s.result }, withResult 0 s)
  | none =>
    let r := readObject n e.idx e.sub e.part e.offset e.len s
    if room < (r.2.1.length + 3) / 4 * 4 then ({ hdr := entryHead e, res := 0xF }, s)
    else ({ hdr := entryHead e, res := r.1, data := r.2.1 }, r.2.2)

/-- A write of one entry (R287-R289, R296): its value decoded, or its part of a BLOB. -/
def applyEntry (n : Nat) (e : Entry) (s : State) : State :=
  let s := withResult 0 s
  match findRow e.idx e.sub with
  | none => withResult 1 s
  | some r =>
    if writeBarred n e.idx e.sub s ≠ 0 then withResult (writeBarred n e.idx e.sub s) s
    else if !e.part ∧ e.offset ≠ 0 then withResult 3 s
    else match decodeVal r.ty e.data with
      | none => withResult 5 s
      | some v => applyWrite n e.idx e.sub e.part e.offset v e.data e.sig s

/-- One entry of a WRITE: the result, or the head it waits for (R240, R289). -/
def writeEntry (n : Nat) (e : Entry) (s : State) : Part × State :=
  let s := applyEntry n e s
  ({ head := if s.result = 0 then configHead e.idx e.sub else none, res := s.result }, withResult 0 s)

/-- Whether session n has an open bulk write, of an object or of any (R27, R290). -/
def ownBulk (n : Nat) (p : Bulk → Bool) (s : State) : Bool := (sess n s).bulks.any (fun e => !e.2.read && p e.2)

/-- Whether an entry must wait: for a bulk write of its object, for a head it has a part of the message with, or, a fence, for every
earlier write of the session (R22, R24, R27, R289). -/
def entryWaits (n : Nat) (d : Deferred) (e : Entry) (s : State) : Bool :=
  ownBulk n (fun b => b.idx == e.idx && b.sub == e.sub) s
    || (configHead e.idx e.sub).any (fun h => d.parts.any (fun p => p.head == some h))
    || (!d.read && e.idx == 0x0210 && e.sub == 0 && (ownBulk n (fun _ => true) s || d.parts.any (fun p => p.head.isSome)))

/-- The entries of a message in turn, up to one that must wait (R22, R289). -/
def runEntries (n : Nat) : List Entry → Deferred → State → Deferred × State
  | [], d, s => ({ d with rest := [] }, s)
  | e :: l, d, s =>
    if entryWaits n d e s then ({ d with rest := e :: l }, s)
    else
      let p := if d.read then readEntry n d.room e s else writeEntry n e s
      runEntries n l { d with parts := d.parts ++ [p.1], room := d.room - (p.1.data.length + 3) / 4 * 4 } p.2

end Sys2Proof.Machine
end

