-- ==== Sys2Proof/Machine/Bulk.lean ====
section
/-!
DEFINITION. Sys2Proof/Machine/Bulk.lean: bulk transfers (R290, R291, R296, R304, R319). Bytes of a write lie in DRAM from their arrival on:
in the slot for a load, else in the transfer's staging area.
-/
namespace Sys2Proof.Machine

/-- A datagram from the node to session n, from an address (R274, R284). -/
def mopFrom (src : Nat × List Byte) (n type seq flags : Nat) (payload : List Byte) (s : State) : State :=
  emit (.mop n src (mopBytes n type seq flags payload)) s

/-- A datagram from the node to session n. -/
def mopOut (n type seq flags : Nat) (payload : List Byte) (s : State) : State := mopFrom (sourceOf s) n type seq flags payload s

/-- The reply to request q of session n from an address, kept with the last 16 (R287); a session that has closed gets none. -/
def replyFrom (src : Nat × List Byte) (n q type : Nat) (payload : List Byte) (s : State) : State :=
  if !(sess n s).opened then s
  else modSess n (fun x => { x with replies := x.replies.drop (x.replies.length - 15) ++ [(q, type, payload)] }) (mopFrom src n type q 1 payload s)

/-- The reply to request q of session n. -/
def reply (n q type : Nat) (payload : List Byte) (s : State) : State := replyFrom (sourceOf s) n q type payload s

/-- The bytes of data a BULK_DATA carries (R285). -/
def pieceLen : Nat := 1408

/-- A bulk transfer of a session. -/
def bulkOf (n id : Nat) (s : State) : Option Bulk := (sess n s).bulks.find id

/-- Changes the bulk transfers of a session. -/
def modBulks (n : Nat) (f : Tab Bulk → Tab Bulk) (s : State) : State := modSess n (fun q => { q with bulks := f q.bulks }) s

/-- The next 32 datagrams received beyond the bytes in order, by bit (R285). -/
def aheadMap (b : Bulk) : Nat :=
  (List.range 32).foldl (fun m j => if (b.ahead.find (b.got + pieceLen * j)).isSome then m + 2 ^ j else m) 0

/-- The payload of a BULK_ACK (R285). -/
def ackPayload (id got map result state : Nat) : List Byte :=
  toLe 4 id ++ toLe 4 got ++ toLe 4 map ++ toLe 2 result ++ toLe 1 state ++ toLe 1 0

/-- The node acknowledges a bulk write. -/
def ackOut (n id : Nat) (b : Bulk) (result state : Nat) (s : State) : State :=
  mopOut n 0x22 id 0 (ackPayload id b.got (aheadMap b) result state) s

/-- A transfer ends with a result (R290). -/
def bulkEnd (n id : Nat) (b : Bulk) (result : Nat) (s : State) : State :=
  modBulks n (fun l => l.del id) (ackOut n id b result (if result = 0 then 1 else 2) s)

/-- Every open transfer of the node. -/
def allBulks (s : State) : List Bulk := s.net.sessions.flatMap (fun e => e.2.bulks.map (·.2))

/-- Whether an object is a load-data object (R291). -/
def isLoad (i k : Nat) : Bool := decide (0x8100 ≤ i ∧ i < 0x8118) && k == 3

/-- The staging areas in use. -/
def areasUsed (s : State) : List Nat := ((allBulks s).filter (fun b => !b.read && !isLoad b.idx b.sub)).map (fun b => b.area)

/-- The address of a staging area: 16 MB each in the bulk region (R291, R307). -/
def stageBase (a : Nat) (s : State) : Nat := regionBase 1 s + a * 16 * mbB

/-- The result of the present state for a bulk read: the length against the BLOB, or the window's limits (R288, R319). -/
def bulkReadBar (n : Nat) (r : BulkBegin) (s : State) : Nat :=
  if r.idx = 0x6010 then (windowRead r.len s).1
  else match liveValue n r.idx r.sub s with
    | .int _ => 5
    | .blob l => if l.length < r.offset + r.len then 0xA else 0

/-- The result of the present state for a bulk write (R291, R304). -/
def bulkWriteBar (n : Nat) (r : BulkBegin) (s : State) : Nat :=
  if writeBarred n r.idx r.sub s ≠ 0 then writeBarred n r.idx r.sub s
  else if (findRow r.idx r.sub).any (fun x => x.acc == .rwp) && !sessSigned n s then 7
  else if memoryFailed s then 4
  else if isLoad r.idx r.sub then
    let b := r.idx - 0x8100
    let st := slotState b (slotSelect b s) s
    if st = 2 ∨ st = 3 ∨ st = 5 ∨ (st = 6 ∧ !inDamage b (getN r.idx 2 s) r.len s) then 4
    else if slotSize s < getN r.idx 2 s + r.len then 0xA else 0
  else if 16 * mbB < r.len ∨ (!isStreamed r.idx ∧ (blobLength r.idx r.sub).2 < r.offset + r.len) then 0xA else 0

/-- The result of a BULK_BEGIN (R288, R290, R291): 0 where the transfer opens. -/
def bulkBar (n : Nat) (r : BulkBegin) (s : State) : Nat :=
  match findRow r.idx r.sub with
  | none => 1
  | some x =>
    if r.read ∧ readBarred r.idx r.sub s ≠ 0 then readBarred r.idx r.sub s
    else if !r.read ∧ writeBarred n r.idx r.sub s ≠ 0 then writeBarred n r.idx r.sub s
    else if x.ty ≠ .blob ∨ (configHead r.idx r.sub).isSome ∨ r.idx = 0x0500 then 5
    else if 4 ≤ (sess n s).bulks.length ∨ 16 ≤ (allBulks s).length then 0xB
    else if (allBulks s).any (fun b => b.idx == r.idx && b.sub == r.sub) then 0xB
    else if r.read then bulkReadBar n r s else bulkWriteBar n r s

/-- Where the bytes of a bulk write lie in DRAM. -/
def bulkAddr (b : Bulk) (s : State) : Nat :=
  if isLoad b.idx b.sub then slotBase (b.idx - 0x8100) b.slot s + b.base else stageBase b.area s

/-- Whether a stretch of DRAM holds poison (R319). -/
def poisoned (a n : Nat) (s : State) : Bool := s.mem.poison.any (fun e => decide (a < e.1 + 64 ∧ e.1 < a + n))

/-- A bulk write is complete (R291, R296, R319): with a matching CRC its owner takes it. -/
def bulkComplete (n id : Nat) (b : Bulk) (s : State) : State :=
  let a := bulkAddr b s
  let data := dramRead a b.len s
  if poisoned a b.len s ∨ crc32c data ≠ b.crc then bulkEnd n id b 4 s
  else if isLoad b.idx b.sub then bulkEnd n id b 0 (setN b.idx 2 (b.base + b.len) s)
  else
    let s := applyWrite n b.idx b.sub (b.offset != 0) b.offset (.blob data) data b.sig s
    bulkEnd n id b s.result (withResult 0 s)

/-- The bytes in order after the pieces ahead join them. -/
def absorb : Nat → Bulk → Bulk
  | 0, b => b
  | k + 1, b => match b.ahead.find b.got with
    | none => b
    | some m => absorb k { b with got := b.got + m, ahead := b.ahead.del b.got }

/-- Whether a piece of a load may still enter its slot, and the slot it leaves Loading (R52, R55, R304). -/
def loadPiece (b : Bulk) (off n : Nat) (s : State) : Option State :=
  let k := b.idx - 0x8100
  let st := slotState k b.slot s
  if memoryFailed s ∨ st = 2 ∨ st = 3 ∨ st = 5 ∨ (st = 6 ∧ !inDamage k (b.base + off) n s) then none
  else some (if st = 6 then s else setSlot k b.slot 1 (emptySlot k b.slot s))

/-- Puts a piece into DRAM (R291). -/
def placePiece (b : Bulk) (off : Nat) (data : List Byte) (s : State) : State :=
  clearPoison (bulkAddr b s + off) data.length (dramWrite (bulkAddr b s + off) data s)

/-- A new piece of a bulk write is counted, and the write completed or acknowledged (R290). -/
def pieceTaken (n id : Nat) (b : Bulk) (off m : Nat) (s : State) : State :=
  let b := if off = b.got then absorb 64 { b with got := b.got + m } else { b with ahead := b.ahead.put off m }
  let b := { b with grams := b.grams + 1 }
  if b.got = b.len then bulkComplete n id b s
  else if 16 ≤ b.grams then modBulks n (fun l => l.put id { b with grams := 0 }) (ackOut n id b 0 0 s)
  else modBulks n (fun l => l.put id b) s

/-- A BULK_DATA of a bulk write arrives (R290, R291). -/
def bulkData (n id off : Nat) (data : List Byte) (s : State) : State :=
  match bulkOf n id s with
  | none => s
  | some b =>
    let m := data.length
    if b.read ∨ m = 0 ∨ pieceLen < m ∨ b.len < off + m ∨ b.got + 64 * pieceLen < off + m then s
    else if off < b.got ∨ (b.ahead.find off).isSome then s
    else if isLoad b.idx b.sub then
      match loadPiece b off m s with
      | none => bulkEnd n id b 4 s
      | some s => pieceTaken n id b off m (placePiece b off data s)
    else pieceTaken n id b off m (placePiece b off data s)

/-- A piece of a bulk read, read when it is sent (R291). -/
def readPiece (n : Nat) (b : Bulk) (off m : Nat) (s : State) : List Byte :=
  if b.idx = 0x6010 then dramRead (b.base + off) m s
  else match liveValue n b.idx b.sub s with
    | .int _ => []
    | .blob l => slice l (b.offset + off) m

/-- Sends the pieces of a bulk read from `off` up to `top`, k at most. -/
def sendPieces (n id : Nat) (b : Bulk) (top : Nat) : Nat → Nat → State → State
  | 0, _, s => s
  | k + 1, off, s =>
    if top ≤ off then s
    else
      let m := min pieceLen (top - off)
      sendPieces n id b top k (off + m) (mopOut n 0x21 id 0 (toLe 4 id ++ toLe 4 off ++ readPiece n b off m s) s)

/-- Sends what the acknowledged count allows: 64 datagrams beyond it (R290). -/
def bulkSend (n id : Nat) (b : Bulk) (s : State) : State :=
  let top := min b.len (b.acked + 64 * pieceLen)
  if b.idx = 0x6010 ∧ poisoned b.base b.len s then bulkEnd n id b 4 s
  else modBulks n (fun l => l.put id { b with sent := max b.sent top }) (sendPieces n id b top 64 b.sent s)

/-- A BULK_BEGIN in its place of the session's order (R290, R291). -/
def bulkBegin (n q : Nat) (r : BulkBegin) (s : State) : State :=
  let why := bulkBar n r s
  if why ≠ 0 then reply n q 0x22 (ackPayload q 0 0 why 2) s
  else
    let k := r.idx - 0x8100
    let load := isLoad r.idx r.sub
    let b : Bulk := { read := r.read, idx := r.idx, sub := r.sub, offset := r.offset, len := r.len, crc := r.crc, sig := r.sig, slot := if load then slotSelect k s else 0, base := if load then getN r.idx 2 s else getN 0x6010 1 s, area := ((List.range 16).find? (fun a => !(areasUsed s).contains a)).getD 0 }
    let s := modBulks n (fun l => l.put q b) (reply n q 0x22 (ackPayload q 0 0 0 0) s)
    if r.read then bulkSend n q b (if r.idx = 0x6010 then setN 0x6010 1 (b.base + r.len) s else s)
    else if r.len = 0 then bulkComplete n q b s else s

/-- A BULK_ACK of a bulk read arrives (R290). -/
def bulkAck (n id received : Nat) (s : State) : State :=
  match bulkOf n id s with
  | none => s
  | some b =>
    if !b.read then s
    else
      let b := { b with acked := max b.acked (min received b.len) }
      if b.acked = b.len then modBulks n (fun l => l.del id) s else bulkSend n id b s

/-- The sender of a bulk read sends again from the acknowledged count (R290). -/
def bulkResend (n id : Nat) (s : State) : State :=
  match bulkOf n id s with
  | none => s
  | some b => if b.read then bulkSend n id { b with sent := b.acked } s else s

/-- A transfer makes no progress for 2 s (R290). -/
def bulkTimeout (n id : Nat) (s : State) : State :=
  match bulkOf n id s with
  | none => s
  | some b => bulkEnd n id b 0xE s

/-- The node acknowledges a bulk write within 1 ms (R290). -/
def bulkAckInterval (n id : Nat) (s : State) : State :=
  match bulkOf n id s with
  | none => s
  | some b => if b.read then s else modBulks n (fun l => l.put id { b with grams := 0 }) (ackOut n id b 0 0 s)

/-- A read of staged bytes finds them poisoned: the transfer fails (R319). -/
def bulkPoisoned (a : Nat) (s : State) : State :=
  each (List.range 17) (fun n s => (sess n s).bulks.foldl (fun s e =>
    let b := e.2
    if !b.read ∧ bulkAddr b s < a + 64 ∧ a < bulkAddr b s + b.len then bulkEnd n e.1 b 4 s else s) s) s

/-- BULK_RESEND_TIMEOUT. -/
def execBulkResendTimeout (sess id : Nat) (s : State) : Host.Outcome State Fault Refusal :=
  gated (.bulkResendTimeout sess id) (bulkResend sess id) s

/-- BULK_ACK_INTERVAL. -/
def execBulkAckInterval (sess id : Nat) (s : State) : Host.Outcome State Fault Refusal :=
  gated (.bulkAckInterval sess id) (bulkAckInterval sess id) s

end Sys2Proof.Machine
end

