-- ==== Sys2Proof/Machine/Sessions.lean ====
section
/-!
DEFINITION. Sys2Proof/Machine/Sessions.lean: sessions, their requests and replies, notices and reports, signed sessions and the host-silence
watchdog (R284-R297), and head configuration replies (R240).
-/
namespace Sys2Proof.Machine

/-- The watchdog is fed (R297): the next expiry is possible again. -/
def feed (s : State) : State := if getN 0x0211 2 s = 2 then setN 0x0211 2 0 s else s

/-- A valid datagram is counted, and feeds the watchdog where its session is watched (R284, R297). -/
def datagram (n : Nat) (s : State) : State :=
  let s := addN 0x0805 1 64 1 s
  if n < 16 ∧ (sess n s).opened ∧ (sess n s).watched then feed s else s

/-- A session closes: its pending requests, transfers and subscriptions are lost (R286). -/
def closeNow (n : Nat) (s : State) : State := modSess n (fun _ => {}) s

/-- The reply to a request the node cannot take (R284, R285). -/
def errorReply (n q result : Nat) (s : State) : State := reply n q 0x7F (toLe 2 result ++ toLe 2 0) s

/-- Data padded to a multiple of 4 bytes (R287). -/
def pad4 (l : List Byte) : List Byte := l ++ List.replicate ((4 - l.length % 4) % 4) 0#8

/-- The bytes of a READ_REPLY entry (R287). -/
def Part.bytes (p : Part) : List Byte := p.hdr ++ toLe 2 p.data.length ++ toLe 2 p.res ++ pad4 p.data

/-- Sends the reply of a READ or a WRITE whose parts are all there, from the address the node had before it (R274, R285). -/
def partsReply (n : Nat) (d : Deferred) (s : State) : State :=
  if d.read then replyFrom d.src n d.seq 0x11 (d.parts.flatMap Part.bytes) s
  else replyFrom d.src n d.seq 0x14 (pad4 (d.parts.flatMap (fun p => toLe 2 p.res))) s

/-- A READ or a WRITE goes on: it waits at a fence until the session's bulk writes are done, at an entry that must wait, and at its end
until its heads have answered; then it is replied to (R24, R240, R289). -/
def settle (n : Nat) (d : Deferred) (s : State) : State :=
  let wait := fun (d : Deferred) (s : State) => modSess n (fun x => { x with deferred := some d }) s
  if d.fence ∧ ownBulk n (fun _ => true) s then wait d s
  else
    let r := runEntries n d.rest { d with fence := false } s
    if r.1.rest ≠ [] ∨ r.1.parts.any (fun p => p.head.isSome) then wait r.1 r.2
    else partsReply n r.1 r.2

/-- The bytes of a WRITE's entries (R287). -/
def writeBytes' (es : List Entry) : Nat := (es.map (fun e => 12 + (e.data.length + e.sig.length + 3) / 4 * 4)).foldl (· + ·) 0

/-- The result of one object of a report set (R294). -/
def reportEntry (o : Nat × Nat) (s : State) : Nat :=
  if readBarred o.1 o.2 s ≠ 0 then readBarred o.1 o.2 s
  else if (findRow o.1 o.2).any (fun r => r.ty == .blob || r.ty == .str) then 5 else 0

/-- A SUBSCRIBE (R293, R294): the class mask, and a report set replaced or ended. -/
def subscribe (n q : Nat) (r : Subscription) (s : State) : State :=
  if (r.set ≠ 0xFF ∧ 4 ≤ r.set) ∨ 32 < r.objs.length ∨ (r.set ≠ 0xFF ∧ r.objs ≠ [] ∧ (r.period = 0 ∨ 60000 < r.period)) then errorReply n q 3 s
  else
    let res := r.objs.map (fun o => reportEntry o s)
    let s := modSess n (fun x => { x with mask := r.mask % 1024 }) s
    let good := r.objs.filter (fun o => reportEntry o s == 0)
    let s := if r.set = 0xFF then s
      else modSess n (fun x => { x with sets := if r.objs = [] then x.sets.del r.set else x.sets.put r.set { objs := good, period := r.period } }) s
    reply n q 0x31 (pad4 (res.flatMap (fun c => toLe 2 c))) s

/-- The message a proof signs (R295). -/
def proofMessage (n : Nat) (s : State) : List Byte :=
  (sess n s).nodeNonce ++ toLe 8 (chipId s) ++ toLe 1 n ++ (sess n s).hostNonce

/-- A failed proof (R295): the session closes; the third within 60 s bars class-2 OPENs for 60 s. -/
def proofFailed (n q : Nat) (s : State) : State :=
  let s := closeNow n (reply n q 0x41 (toLe 2 8) s)
  let l := s.net.failures.filter (fun t => decide (s.now ≤ t + msT 60000)) ++ [s.now]
  if l.length < 3 then { s with net := { s.net with failures := l } }
  else setNotice 0 0 0x0200 5 1 (addN 0x0200 4 32 1 { s with net := { s.net with failures := [] } })

/-- A SIGN_PROOF (R295). -/
def signProof (n q : Nat) (key sig : List Byte) (s : State) : State :=
  if (sess n s).cls ≠ 2 ∨ (sess n s).proven then reply n q 0x41 (toLe 2 4) s
  else if keyKnown key s ∧ verify key sig (proofMessage n s) then
    reply n q 0x41 (toLe 2 0) (modSess n (fun x => { x with proven := true, key := key, rwp := 0 }) s)
  else proofFailed n q s

/-- One request of a session has its effect (R285-R295). -/
def request (n q : Nat) (r : Request) (s : State) : State :=
  match r with
  | .keepalive => reply n q 0x07 [] s
  | .close => closeNow n (reply n q 0x04 [] s)
  | .read es =>
    if 64 < es.length ∨ 1416 < 12 * es.length then errorReply n q 5 s
    else settle n { seq := q, read := true, rest := es, room := 1416 - 12 * es.length, src := sourceOf s } s
  | .write fence es =>
    if 64 < es.length ∨ 1416 < writeBytes' es then errorReply n q 5 s
    else settle n { seq := q, rest := es, fence := fence, src := sourceOf s } s
  | .bulk r => bulkBegin n q r s
  | .subscribe r => subscribe n q r s
  | .proof key sig => signProof n q key sig s

/-- A request is executed in its place of the order (R287). -/
def runRequest (n q : Nat) (r : Request) (s : State) : State := request n q r (modSess n (fun x => { x with last := q }) s)

/-- Held requests are executed once those before them are (R287). -/
def runHeld (n : Nat) : Nat → State → State
  | 0, s => s
  | k + 1, s =>
    let x := sess n s
    if !x.opened ∨ x.deferred.isSome then s
    else match x.held.find (x.last + 1) with
      | none => s
      | some r => runHeld n k (runRequest n (x.last + 1) r (modSess n (fun x => { x with held := x.held.del (x.last + 1) }) s))

/-- A READ or a WRITE of a session that waited goes on, and the requests held behind it (R24, R27, R289). -/
def goOn (n : Nat) (s : State) : State :=
  match (sess n s).deferred with
  | none => s
  | some d => runHeld n 8 (settle n d (modSess n (fun x => { x with deferred := none }) s))

/-- A request that repeats one of the last 16 is answered with the stored reply (R287). -/
def replay (n q : Nat) (s : State) : State :=
  match (sess n s).replies.find? (fun x => x.1 == q) with
  | none => s
  | some x => addN 0x0805 3 32 1 (mopOut n x.2.1 q 3 x.2.2 s)

/-- A request datagram of a session arrives (R284, R286, R287): in order, ahead of a missing one, again, or,
of a session that is not open, discarded without a reply (log 63). -/
def receive (n q : Nat) (r : Request) (s : State) : State :=
  let s := datagram n s
  let x := sess n s
  if !x.opened then s
  else if q ≤ x.last then replay n q s
  else if q = x.last + 1 ∧ x.deferred.isNone then runHeld n 8 (runRequest n q r s)
  else if q ≤ x.last + 8 then modSess n (fun x => { x with held := x.held.put q r }) s
  else s

/-- CLOSE. -/
def execCloseSession (sess seq : Nat) (s : State) : Host.Outcome State Fault Refusal :=
  gated (.closeSession sess seq) (receive sess seq .close) s

/-- KEEPALIVE. -/
def execKeepalive (sess seq : Nat) (s : State) : Host.Outcome State Fault Refusal :=
  gated (.keepalive sess seq) (receive sess seq .keepalive) s

/-- READ. -/
def execRead (sess seq : Nat) (es : List Entry) (s : State) : Host.Outcome State Fault Refusal :=
  gated (.read sess seq es) (receive sess seq (.read es)) s

/-- WRITE. -/
def execWrite (sess seq : Nat) (es : List Entry) (s : State) : Host.Outcome State Fault Refusal :=
  gated (.write sess seq es) (receive sess seq (.write false es)) s

/-- WRITE_FENCED: its entries wait until every earlier write of the session is applied, an open bulk write among them (R24, R289). -/
def execWriteFenced (sess seq : Nat) (es : List Entry) (s : State) : Host.Outcome State Fault Refusal :=
  gated (.writeFenced sess seq es) (receive sess seq (.write true es)) s

/-- BULK_BEGIN. -/
def execBulkBegin (sess seq : Nat) (r : BulkBegin) (s : State) : Host.Outcome State Fault Refusal :=
  gated (.bulkBegin sess seq r) (receive sess seq (.bulk r)) s

/-- BULK_DATA. -/
def execBulkData (sess id offset : Nat) (data : List Byte) (s : State) : Host.Outcome State Fault Refusal :=
  gated (.bulkData sess id offset data) (fun s => goOn sess (bulkData sess id offset data (datagram sess s))) s

/-- BULK_TIMEOUT. -/
def execBulkTimeout (sess id : Nat) (s : State) : Host.Outcome State Fault Refusal :=
  gated (.bulkTimeout sess id) (fun s => goOn sess (bulkTimeout sess id s)) s

/-- BULK_ACK. -/
def execBulkAck (sess id received : Nat) (s : State) : Host.Outcome State Fault Refusal :=
  gated (.bulkAck sess id received) (fun s => bulkAck sess id received (datagram sess s)) s

/-- SUBSCRIBE. -/
def execSubscribe (sess seq : Nat) (r : Subscription) (s : State) : Host.Outcome State Fault Refusal :=
  gated (.subscribe sess seq r) (receive sess seq (.subscribe r)) s

/-- SIGN_PROOF. -/
def execSignProof (sess seq : Nat) (key sig : List Byte) (s : State) : Host.Outcome State Fault Refusal :=
  gated (.signProof sess seq key sig) (receive sess seq (.proof key sig)) s

/-- SIGNED_LOCKOUT_END (R295). -/
def execSignedLockoutEnd (s : State) : Host.Outcome State Fault Refusal := gated .signedLockoutEnd (setN 0x0200 5 0) s

/-- Why an OPEN is refused, 0 for none (R286, R295). -/
def openBar (r : OpenReq) (s : State) : Nat :=
  if 2 < r.cls then 3
  else if (List.range 16).all (fun n => (sess n s).opened) then 4
  else if r.cls = 2 ∧ ((List.range 16).any (fun n => (sess n s).opened && (sess n s).cls == 2) ∨ getN 0x0200 5 s = 1) then 4
  else 0

/-- An OPEN_ACK (R285). -/
def openAck (seq n cls result : Nat) (nonce : List Byte) (s : State) : State :=
  mopOut 0xFF 0x02 seq 1 (toLe 1 n ++ toLe 1 cls ++ toLe 2 result ++ toLe 8 (chipId s) ++ slice nonce 0 32) s

/-- An OPEN (R285, R286): the lowest session number free, and a nonce of free value for class 2 (log 3). -/
def openSession (r : OpenReq) (s : State) : State :=
  let s := datagram 0xFF s
  let why := openBar r s
  if why ≠ 0 then openAck r.seq 0xFF 0 why [] s
  else
    let n := ((List.range 16).find? (fun n => !(sess n s).opened)).getD 0
    let nonce := if r.cls = 2 then toLe 32 (freeVal s) else List.replicate 32 0#8
    let s := if r.cls = 2 then drawn s else s
    let x : Session := { opened := true, cls := r.cls, watched := r.watched, port := r.port, addr := slice r.addr 0 16, hostNonce := r.nonce, nodeNonce := nonce }
    openAck r.seq n r.cls 0 nonce (modSess n (fun _ => x) s)

/-- OPEN. -/
def execOpenSession (r : OpenReq) (s : State) : Host.Outcome State Fault Refusal := gated (.openSession r) (openSession r) s

/-- SESSION_TIMEOUT (R286). -/
def execSessionTimeout (sess : Nat) (s : State) : Host.Outcome State Fault Refusal :=
  gated (.sessionTimeout sess) (closeNow sess) s

/-- The next sequence number of the node's own datagrams to a session (R287). -/
def nextOut (n : Nat) (s : State) : State := modSess n (fun x => { x with outSeq := (x.outSeq + 1) % 2 ^ 32 }) s

/-- Sends a session's queued notices, 44 a datagram (R285, R293). -/
def sendNotices (n : Nat) : Nat → State → State
  | 0, s => s
  | k + 1, s =>
    let x := sess n s
    if x.queue = [] then s
    else
      let rest := x.queue.drop 44
      let s := mopOut n 0x32 x.outSeq (if rest = [] then 0 else 4) ((x.queue.take 44).flatMap Notice.bytes) s
      sendNotices n k (nextOut n (modSess n (fun x => { x with queue := rest }) s))

/-- NOTICE_BATCH (R293). -/
def execNoticeBatch (sess : Nat) (s : State) : Host.Outcome State Fault Refusal :=
  gated (.noticeBatch sess) (sendNotices sess 6) s

/-- A REPORT of a set (R294). -/
def sendReport (n k : Nat) (s : State) : State :=
  match (sess n s).sets.find k with
  | none => s
  | some r =>
    let vals := r.objs.flatMap (fun o => pad4 (valueBytes o.1 o.2 (liveValue n o.1 o.2 s)))
    let t := toLe 4 (nsOf s.now % 1000000000) ++ toLe 6 (nsOf s.now / 1000000000)
    nextOut n (mopOut n 0x33 (sess n s).outSeq 0 (toLe 1 k ++ toLe 1 r.objs.length ++ toLe 2 0 ++ t ++ vals) s)

/-- REPORT_PERIOD (R294). -/
def execReportPeriod (sess set : Nat) (s : State) : Host.Outcome State Fault Refusal :=
  gated (.reportPeriod sess set) (sendReport sess set) s

/-- HOST_SILENCE: the watchdog expires while it is armed (R297). -/
def hostSilence (s : State) : State :=
  if watchdogState s ≠ 1 then s
  else faultStop allBerths 1 0x0013 s.now (noticeObj 0 0 0x0211 2 1 (addN 0x0211 4 32 1 (setN 0x0211 2 2 s)))

/-- HOST_SILENCE. -/
def execHostSilence (s : State) : Host.Outcome State Fault Refusal := gated .hostSilence hostSilence s

/-- The SPI port's request ends: with reply data, or with a result alone (R298). -/
def spiDone (read : Bool) (res : Nat) (data : List Byte) (s : State) : State :=
  { s with net := { s.net with spiState := if read && res == 0 then 2 else 3, spiResult := res, spiReply := if res = 0 then data else [] } }

/-- The part of a waiting reply that waits for head h is filled (R240, R289). -/
def fillPart (n h res : Nat) (data : List Byte) (d : Deferred) (s : State) : State :=
  let l := d.parts.map (fun p => if p.head = some h then { p with head := none, res := res, data := if d.read ∧ res = 0 then data else [] } else p)
  goOn n (modSess n (fun x => { x with deferred := some { d with parts := l } }) s)

/-- A head configuration access ends: the request that made it is answered (R240). -/
def configDone (h : Nat) (a : ConfigAccess) (res : Nat) (data : List Byte) (s : State) : State :=
  let s := modLink h (fun x => { x with cfg := none }) s
  match (sess a.sess s).deferred with
  | some d => if d.parts.any (fun p => p.head == some h) then fillPart a.sess h res data d s else emit (.value a.sess data) (withResult res s)
  | none =>
    if a.sess = 16 ∧ s.net.spiState = 1 then spiDone (!a.write) res data s
    else emit (.value a.sess (if res = 0 then data else [])) (withResult res s)

/-- A CONFIG REPLY arrives (R234, R240): a refusal by the head is the owner's. -/
def configReply (h : Nat) (f : ConfigReply) (s : State) : State :=
  match (link h s).cfg with
    | none => s
    | some a => if f.seq = a.seq then configDone h a (if f.result = 0 then 0 else 4) f.data s else s

/-- CONFIG_REPLY. -/
def execConfigReply (h : Nat) (w : WireFrame) (s : State) : Host.Outcome State Fault Refusal :=
  gated (.configReply h w) (hearFrame h 0x86 w (fun l => configReply h (configReplyOf l))) s

/-- No CONFIG REPLY within 100 us (R240): the frame is sent again, three times in all, then the access is refused with a notice. -/
def configTimeout (h : Nat) (s : State) : State :=
  match (link h s).cfg with
  | none => s
  | some a =>
    if a.sends < 3 then
      let s := modLink h (fun x => { x with cfg := some { a with sends := a.sends + 1 } }) s
      if linkState h s = 7 then configFrame h a s else s
    else configDone h a 0xE [] (notice 8 h 0x0100 (changeDetail (hi h) 0x14 0 0) s)

/-- CONFIG_TIMEOUT. -/
def execConfigTimeout (h : Nat) (s : State) : Host.Outcome State Fault Refusal := gated (.configTimeout h) (configTimeout h) s

end Sys2Proof.Machine
end

