-- ==== Sys2Proof/Machine/Network.lean ====
section
/-!
DEFINITION. Sys2Proof/Machine/Network.lean: the Ethernet ports and the bridge (R271, R272, R281), presence (R275), and the SPI maintenance port
(R298, R299).
-/
namespace Sys2Proof.Machine

/-- Whether a port's link is up. -/
def portUp (p : Nat) (s : State) : Bool := bit (getN 0x0800 4 s) p

/-- Whether the bridge is on. -/
def bridgeOn (s : State) : Bool := getN 0x0800 3 s == 1

/-- Whether a port may carry a link: its mode is not off, and ETH1 only with the bridge (R271, R272). -/
def portAllowed (p : Nat) (s : State) : Bool := getN 0x0800 (p + 1) s != 0 && (p == 0 || bridgeOn s)

/-- A port link comes up: the node announces its presence (R275). -/
def portLinkUp (p : Nat) (s : State) : State :=
  if portAllowed p s ∧ !portUp p s then presenceOut (portBit p true s) else s

/-- PORT_LINK_UP. -/
def execPortLinkUp (port : Nat) (s : State) : Host.Outcome State Fault Refusal := gated (.portLinkUp port) (portLinkUp port) s

/-- PORT_LINK_DOWN (R271). -/
def execPortLinkDown (port : Nat) (s : State) : Host.Outcome State Fault Refusal := gated (.portLinkDown port) (portBit port false) s

/-- DISCOVER is answered with PRESENCE; the random delay of up to 100 ms is left out (R275). -/
def execDiscover (s : State) : Host.Outcome State Fault Refusal := gated .discover (fun s => presenceOut (datagram 0xFF s)) s

/-- A PRESENCE arrives: this node's number from another MAC address is a duplicate, and an IPv4 address of mode 1 is withdrawn, which
changes the address (R275). -/
def presence (p : PresenceMsg) (s : State) : State :=
  let s := datagram 0xFF s
  if p.node ≠ getN 0x0801 1 s ∨ p.mac = getN 0x0801 6 s then s
  else
    let s := setNotice 0 0 0x0801 5 1 s
    if getN 0x0802 1 s = 1 ∧ !s.net.withdrawn then presenceOut { s with net := { s.net with withdrawn := true } } else s

/-- PRESENCE. -/
def execPresence (p : PresenceMsg) (s : State) : Host.Outcome State Fault Refusal := gated (.presence p) (presence p) s

/-- Whether a MAC address is a group address. -/
def isGroup (a : Nat) : Bool := bit a 40

/-- Whether a MAC address is one of the link-local groups that are never forwarded (R272). -/
def isLinkLocal (a : Nat) : Bool := decide (0x0180C2000000 ≤ a ∧ a ≤ 0x0180C200000F)

/-- The solicited-node groups of the node's IPv6 addresses, which neighbour discovery joins (R274): that of the link-local address, formed
from the MAC address, and that of a global one. -/
def solicited (s : State) : List Nat :=
  let g := getB 0x0802 6 s
  [0x3333FF000000 + getN 0x0801 6 s % 2 ^ 24] ++ (if g.all (fun b => b == 0) then [] else [0x3333FF000000 + ofBe (slice g 13 3)])

/-- The multicast groups the node has joined: those of R275, all nodes, solicited-node groups, and those of PTP while a clock is on (R272,
R274, R279). -/
def joined (a : Nat) (s : State) : Bool :=
  [0x01005E7FB808, 0x33330000B808, 0x333300000001, 0x01005E000001].contains a || (solicited s).contains a
    || ((getN 0x0803 1 s != 0 || tcOn s) && [0x011B19000000, 0x0180C200000E, 0x01005E000181, 0x01005E00006B, 0x333300000181, 0x33330000006B].contains a)

/-- Whether a frame is delivered to the node (R272). -/
def forNode (f : EthFrame) (s : State) : Bool := f.dst == getN 0x0801 6 s || f.dst == 0xFFFFFFFFFFFF || (isGroup f.dst && joined f.dst s)

/-- The port an address was learned on in the last 300 s (R272). -/
def learned (a : Nat) (s : State) : Option Nat :=
  match s.net.macs.find a with
  | none => none
  | some (p, t) => if s.now ≤ t + msT 300000 then some p else none

/-- The bridge learns a source address; of more than 4,096 the oldest goes (R272). -/
def learn (p : Nat) (f : EthFrame) (s : State) : State :=
  if isGroup f.src then s
  else
    let young := s.net.macs.filter (fun e => decide (s.now ≤ e.2.2 + msT 300000))
    let l : Tab (Nat × Time) := Tab.put f.src (p, s.now) young
    let l := if 4096 < l.length then (match leastBy (fun e => e.2.2) l with
      | none => l
      | some e => Tab.del e.1 l) else l
    { s with net := { s.net with macs := l } }

/-- Whether a frame goes on to the other port (R272). -/
def forwards (p : Nat) (f : EthFrame) (s : State) : Bool :=
  bridgeOn s && portUp (1 - p) s && !isLinkLocal f.dst && f.dst != getN 0x0801 6 s && (isGroup f.dst || learned f.dst s != some p)

/-- Whether a frame leaves by the upper queue: PTP event messages, and priority 6 or 7 (R272). -/
def upperQueue (f : EthFrame) : Bool := (f.ptp && decide (f.ptpType < 4)) || f.prio == 6 || f.prio == 7

/-- A frame leaves by the other port; the transparent clock corrects PTP messages on their way (R272, R281). -/
def forward (p : Nat) (f : EthFrame) (s : State) : State :=
  if f.ptp ∧ tcOn s then
    match transparent p f s with
    | (none, s) => s
    | (some g, s) => emit (.ethernet (1 - p) g (upperQueue g)) s
  else emit (.ethernet (1 - p) f (upperQueue f)) s

/-- Whether a received frame is discarded: a bad FCS, oversize, PAUSE or PFC (R271). -/
def frameBad (f : EthFrame) : Bool := !f.fcsOk || f.ethertype == 0x8808 || decide ((if f.tagged then 1522 else 1518) < f.len)

/-- An Ethernet frame arrives at a port (R271, R272). -/
def ethernetFrame (p : Nat) (f : EthFrame) (s : State) : State :=
  if !portUp p s then s
  else
    let s := addN 0x0800 0x0A 64 1 s
    if frameBad f then addN 0x0800 0x0B 32 1 s
    else
      let go := forwards p f s
      let s := if bridgeOn s then learn p f s else s
      let s := if forNode f s then emit (.deliver f) (if f.mop = [] ∨ mopGood f.mop then s else addN 0x0805 2 32 1 s) else s
      if go then forward p f s else s

/-- ETHERNET_FRAME. -/
def execEthernetFrame (port : Nat) (f : EthFrame) (s : State) : Host.Outcome State Fault Refusal :=
  gated (.ethernetFrame port f) (ethernetFrame port f) s

/-- A transaction of the SPI port; it feeds the watchdog where 0x0211:03 says so (R297). -/
def spiSeen (s : State) : State := if getN 0x0211 3 s = 1 then feed s else s

/-- A request transaction of the SPI port: executed if none is outstanding and its CRC is right (R299). -/
def spiRequest (crcOk : Bool) (f : State → State) (s : State) : State :=
  let s := spiSeen s
  if s.net.spiState = 1 then { s with net := { s.net with spiResult := 0xB } }
  else if !crcOk then spiDone false 0xD [] s
  else f s

/-- The port waits for a head (R240), or its request is done. -/
def spiAnswer (read : Bool) (p : Part) (s : State) : State :=
  if p.head.isSome then { s with net := { s.net with spiState := 1, spiResult := 0, spiReply := [] } } else spiDone read p.res p.data s

/-- An SPI READ REQUEST (R298). -/
def spiRead (i k off len : Nat) (s : State) : State :=
  if len = 0 ∨ 1024 < len then spiDone true 5 [] s
  else
    let p := readEntry 16 1024 { idx := i, sub := k, part := off != 0, offset := off, len := len, data := [], sig := [] } s
    spiAnswer true p.1 p.2

/-- READ_REQUEST. -/
def execSpiReadRequest (idx sub offset len : Nat) (crcOk : Bool) (s : State) : Host.Outcome State Fault Refusal :=
  gated (.spiReadRequest idx sub offset len crcOk) (spiRequest crcOk (spiRead idx sub offset len)) s

/-- An SPI WRITE (R298): an offset other than 0 addresses part of a BLOB. -/
def spiWriteEntry (e : Entry) (s : State) : State :=
  let p := writeEntry 16 { e with part := e.offset != 0 } s
  spiAnswer false p.1 p.2

/-- SPI_WRITE. -/
def execSpiWrite (e : Entry) (crcOk : Bool) (s : State) : Host.Outcome State Fault Refusal :=
  gated (.spiWrite e crcOk) (spiRequest crcOk (spiWriteEntry e)) s

/-- SPI_WRITE_FENCED: the port executes one request at a time, so what came before is applied (R289, R299). -/
def execSpiWriteFenced (e : Entry) (crcOk : Bool) (s : State) : Host.Outcome State Fault Refusal :=
  gated (.spiWriteFenced e crcOk) (spiRequest crcOk (spiWriteEntry e)) s

/-- What the node returns on a command, with its CRC over the command byte too (R298). -/
def spiOut (cmd : Nat) (l : List Byte) (s : State) : State := emit (.spi (l ++ toLe 4 (crc32c (toLe 1 cmd ++ l)))) s

/-- SPI_STATUS (R298). -/
def execSpiStatus (s : State) : Host.Outcome State Fault Refusal :=
  gated .spiStatus (fun s =>
    let s := spiSeen s
    spiOut 4 (toLe 1 s.net.spiState ++ toLe 1 0 ++ toLe 2 s.net.spiResult ++ toLe 2 s.net.spiReply.length ++ toLe 2 (sess 16 s).queue.length) s) s

/-- FETCH_REPLY (R298). -/
def execFetchReply (s : State) : Host.Outcome State Fault Refusal :=
  gated .fetchReply (fun s => spiOut 5 s.net.spiReply (spiSeen s)) s

/-- FETCH_NOTICES: up to 8 records leave the port's queue (R298, R299). -/
def fetchNotices (s : State) : State :=
  let l := (sess 16 s).queue.take 8
  spiOut 6 (toLe 1 l.length ++ l.flatMap Notice.bytes) (modSess 16 (fun q => { q with queue := q.queue.drop 8 }) (spiSeen s))

/-- FETCH_NOTICES. -/
def execFetchNotices (s : State) : Host.Outcome State Fault Refusal := gated .fetchNotices fetchNotices s

end Sys2Proof.Machine
end

