-- ==== Sys2Proof/Machine/Clients.lean ====
section
/-!
DEFINITION. Sys2Proof/Machine/Clients.lean: the DRAM requests of the seven clients, and what data delivered poisoned does to each
(R306, R311-R313, R317-R319).
-/
namespace Sys2Proof.Machine

/-- The cells of buffer k that touch the burst at offset o become untouched, here and in DRAM (R180, R319). -/
def untouch (k o : Nat) (s : State) : State :=
  let b := buffer k s
  let n := cellBytes b.channels
  if o + 63 < tileData b then s
  else
    let lo := (o - tileData b) / n
    let hi := (o + 63 - tileData b) / n
    let s := modBuffer k (fun b => { b with cells := b.cells.filter (fun e => !decide (lo ≤ e.1 ∧ e.1 ≤ hi)) }) s
    let s := storeChart k (tileData b + lo * n) ((List.range (hi + 1 - lo)).flatMap (fun _ => ({} : Cell).bytes b.channels)) s
    storeChart k (64 + 8 * (lo / 4096)) (dirEntry (buffer k s) (lo / 4096)) s

/-- The compositor reads poisoned cells: the burst becomes untouched cells, the feature at the front of the queue is discarded, and a
notice names layer and tile (R319, R185, log 23). -/
def chartPoisoned (a : Nat) (s : State) : State :=
  match chartOfAddr a s with
  | none => s
  | some (k, o) =>
    let b := buffer k s
    let s := untouch k o s
    let s := { s with chart := { s.chart with queue := s.chart.queue.drop 1 } }
    notice 4 28 0x0100 (changeDetail 0x5003 1 b.layer ((o - tileData b) / cellBytes b.channels / 4096 : Nat)) s

/-- Whether the burst at `a` touches the place of frame n of a context (R310). -/
def inFramePlace (c n a : Nat) (s : State) : Bool :=
  match framePlace c n s with
  | none => false
  | some p =>
    let d := windowOf c (setFor c n s).vals
    decide (p < a + 64 ∧ a < p + d.1 * d.2 * 2)

/-- The pipeline reads poisoned pixels: the frame held in that part of the frame area is corrupt (R319, R152, R310). -/
def framePoisoned (a : Nat) (s : State) : State :=
  each (List.range 26) (fun c s =>
    match (ctx c s).frames.find? (fun f => inFramePlace c f.num a s) with
    | none => s
    | some f => corruptFrame c f.num s) s

/-- Whether byte i of stream st's staging lies in the burst at `a` of the record area (R212). -/
def stagedIn (st a i : Nat) (s : State) : Bool :=
  let g := ((stream st s).segs.getLast?).getD {}
  let p := recordBase s + g.stageBase + ((stream st s).staged - stagedBytes st s + i) % max 1 g.stageSize
  decide (a ≤ p ∧ p < a + 64)

/-- The compressor reads poisoned input: what is staged in the burst is lost, as under R215 (R319). -/
def recordPoisoned (a : Nat) (s : State) : State :=
  each streamList (fun st s =>
    let l := ((headSeg st s).getD {}).staging
    let w := if isByteStream st then 1 else 2
    let keep := (List.range l.length).filter (fun i => !stagedIn st a (w * i) s)
    let n := l.length - keep.length
    if n = 0 then s
    else addN (ssi st 1) 4 32 n (modHead st (fun g => { g with staging := keep.map (fun i => l.getD i 0), flags := setBit g.flags 1 true })
      (modStream st (fun x => { x with lost := x.lost + n }) s))) s

/-- A quay DATA buffer reads poisoned: the frame counts as lost and is sent again (R319, R240); which link's buffer it is, the spec
does not say (log 3). -/
def quayPoisoned (s : State) : State :=
  let l := 24 + freeVal s % 2
  let s := drawn s
  if (link l s).dataIn = [] then s
  else modLink l (fun x => { x with dataIn := [], dataAck := (x.dataAck + 255) % 256 }) s

/-- The effect of a poisoned delivery on its client (R319). -/
def poisonedFor (client a : Nat) (s : State) : State :=
  match client with
  | 0 => manifestDamage a s
  | 1 => chartPoisoned a s
  | 2 => framePoisoned a s
  | 3 => recordPoisoned a s
  | 4 => each (List.range 16) goOn (bulkPoisoned a s)
  | 5 => warmReset 6 s
  | _ => quayPoisoned s

/-- A write of a client: its bytes are in memory and its bursts are queued; a burst written in part is read first (R312, R313, R318). -/
def clientWrite (r : MemReq) (s : State) : State :=
  let l := burstsOf r.addr r.len
  let part := l.filter (fun a => decide (a < r.addr ∨ r.addr + r.len < a + 64))
  let s := part.foldl (fun s a => readBurst r a s) s
  let s := match part with
    | [] => s
    | a :: _ => eccCheck r.client a r.errors s
  let s := clearPoison r.addr r.len (dramWrite r.addr r.data s)
  l.foldl (fun s a => queueWrite r a s) s

/-- A read of a client: its bursts are issued, checked and delivered, poisoned where one of them cannot be corrected (R311, R313, R318). -/
def clientRead (r : MemReq) (s : State) : State :=
  let l := burstsOf r.addr r.len
  let s := eccCheck r.client (burstOf r.addr) r.errors (l.foldl (fun s a => readBurst r a s) s)
  let bad := l.filter (fun a => (s.mem.poison.find a).isSome)
  let s := emit (.dram r.client r.addr (dramRead r.addr r.len s) (!bad.isEmpty)) s
  match bad.head? with
  | none => s
  | some a => poisonedFor r.client a s

/-- A request of a client (R311). -/
def memoryRequest (r : MemReq) (s : State) : State :=
  if getN 0x6000 1 s ≠ 2 ∨ r.len = 0 then s
  else
    let s := (burstsOf r.addr r.len).foldl (fun s a => wakeChannel a s) s
    if r.write then clientWrite r s else clientRead r s

/-- Whether a request reaches beyond the capacity of ready memory (R306). -/
def beyondMemory (r : MemReq) (s : State) : Bool :=
  running (.memoryRequest r) s && getN 0x6000 1 s == 2 && decide (capacity s < r.addr + r.len)

/-- MEMORY_REQUEST: an address beyond the capacity does not exist (R306). -/
def execMemoryRequest (r : MemReq) (s : State) : Host.Outcome State Fault Refusal :=
  if (Instr.memoryRequest r).wf && beyondMemory r s then .fault (.noSuchAddress r.addr)
  else gated (.memoryRequest r) (memoryRequest r) s

end Sys2Proof.Machine
end

