-- ==== Sys2Proof/Machine/LoopFrame.lean ====
section
/-!
DEFINITION. Sys2Proof/Machine/LoopFrame.lean: the loop frame (R124): what ends with a frame (loop samples, overspeed, sample sets,
COMMAND), the advance of harbour time, and what begins with the next (latches, harbourmaster, commit sequencer, quay frames, periodic
triggers, pins and outputs).
-/
namespace Sys2Proof.Machine

/-- The mirror and focus set-points of berth b's planned path at a time, those the head held where it has no map (R71, R404, R405). -/
def pathSetPoints (b : Nat) (t : Time) (s : State) : List Int :=
  let m := fieldMap b s
  match plannedPoint b t s with
  | none => (berth b s).spHeld
  | some p => if m.held then [sat31 (mapAt m 0 p.x p.y), sat31 (mapAt m 1 p.x p.y), sat31 (focusAt m p)] else (berth b s).spHeld

/-- The planned speed of berth b at its actual arc in Q1.31 of 8 m/s (R405). -/
def plannedSpeed31 (b : Nat) (s : State) : Int :=
  match phaseAt (berth b s).plan s.now with
  | none => 0
  | some ph =>
    let v := match ph.kind with
      | .move _ _ => phaseSpeed ph s.now
      | _ => planSpeedAt (berth b s).plan ((actualArc b s.now s).getD 0)
    roundHalfAway (v * 2 ^ 31 : Nat) 8000000000

/-- The signals of berth b's path for the samples of the frame that ends (R127, R405); a spot that stands has no movement. -/
def loopInputs (b : Nat) (s : State) : LoopIn :=
  let sp := pathSetPoints b s.now s
  let still := (berth b s).plan = []
  { sp := sp, before := if still then sp else pathSetPoints b (s.now - frameT) s, after := if still then sp else pathSetPoints b (s.now + frameT) s, back := fun d => if still then sp else pathSetPoints b (s.now - d * frameT) s, speed := plannedSpeed31 b s, holdK6 := (berth b s).handover.k6Held }

/-- Loop n samples where it is due; of k2 to k4 the head link notes that they have taken a measurement from the head (R125, R242). -/
def loopDue (inp : LoopIn) (outs : Nat → Int) (n : Nat) (s : State) : State :=
  if !(loop n s).due then s
  else
    let b := n / 8
    let s := loopSample n inp outs s
    if linkState b s = 7 ∧ (link b s).fbLast.isSome then modBerth b (fun x => { x with headTook := setBit x.headTook (n % 8) true }) s else s

/-- The samples of the frame that ends: every loop sees the outputs as they were before them (R126). -/
def loopSamples (s : State) : State :=
  let outs := fun (n : Nat) => loopOut n s
  each berthList (fun b s =>
    let inp := loopInputs b s
    let s := photoStep b s
    each ((List.range 8).map (8 * b + ·)) (loopDue inp outs) s) s

/-- A frame takes the position at its exposure midpoint and the actual speed of the loop frame that holds its trigger (R176, R181). -/
def latchOne (b v : Nat) (s : State) (f : Frame) : Frame :=
  let t := s.now + frameT
  let f := if f.mid < t then latchFrame b f s else f
  if s.now ≤ f.trig ∧ f.trig < t then { f with speed := v } else f

/-- The frames of berth b's context are latched; speeds are in mm/s. -/
def latchFrames (b : Nat) (s : State) : State :=
  let v := ((arcMoved b (s.now + frameT) s).elim 0 (fun d => max 0 (roundHalfAway (d * 3125) 65536000))).toNat
  if (ctx b s).frames = [] then s else modCtx b (fun x => { x with frames := x.frames.map (latchOne b v s) }) s

/-- The top 16 bits of a Q1.31 value, stored plus 0x8000 (R204). -/
def top16 (v : Int) : Nat := (v / 65536 + 0x8000).toNat

/-- An error in 2^-16 bu as a sample channel (R204). -/
def errorWord (v : Int) : Nat := (clamp (roundHalfAway v 65536) (-0x8000) 0x7FFF + 0x8000).toNat

/-- Berth b's sample set of the frame that ends, while it is not Idle (R204). -/
def takeSampleSet (b : Nat) (s : State) : State :=
  if bState b s = 0 ∨ (inSeg (sampleStream b) s).isNone then s
  else
    let last := (berth b s).samples.getLast?.getD {}
    let f := (link b s).fbGood
    let fb := fun (p : FeedbackFrame → Int) => top16 (f.elim 0 p)
    sampleSet b [errorWord last.e, errorWord last.d, bits (getN (bi b 3) 2 s) 20 5, top16 (getI (li (8 * b + 5) 5) 5 s), fb (fun x => x.melt), fb (fun x => x.mx), fb (fun x => x.my), fb (fun x => x.focus)] s

/-- Whether head h must hold: on P1, before Up, and until loops k2 to k4 have sampled it (R242, R344). -/
def holdRequest (h : Nat) (s : State) : Bool :=
  getN 0x0300 2 s == 1 || linkState h s != 7 || [2, 3, 4].any (fun k => !bit (berth h s).headTook k)

/-- The COMMAND for the frame to come (R79, R127, R226, R234, R239, R242). -/
def commandFor (h : Nat) (s : State) : Command :=
  let x := berth h s
  let valid := x.codes.length == 25
  let retry := (link h s).retry.isSome && (link h s).retryFrame == s.frame
  { frame := (s.frame + 1) % 2 ^ 32, x := loopOut (8 * h) s, y := loopOut (8 * h + 1) s, focus := loopOut (8 * h + 4) s, codes := if valid then x.codes else List.replicate 25 0, flags := b2n valid + 2 * b2n retry + 4 * b2n (holdRequest h s), ack := (link h s).tileNext }

/-- The COMMAND of a head link that has identified its head, from the frame after it did (R226, R233). -/
def sendCommand (h : Nat) (s : State) : State :=
  if hears h s ∧ (link h s).commandFrom.any (fun f => decide (f ≤ s.frame)) then
    let c := commandFor h s
    sendFrame h 1 (commandPayload c) (modLink h (fun x => { x with command := c }) s)
  else s

/-- One ECHO of a burst per loop frame (R238). -/
def sendEcho (h : Nat) (s : State) : State :=
  let x := (link h s).burst
  if x.left = 0 ∨ (linkState h s ≠ 6 ∧ linkState h s ≠ 7) then s
  else sendFrame h 3 (echoPayload x.token) (modLink h (fun l => { l with burst := { x with left := x.left - 1, token := (x.token + 1) % 2 ^ 16, waiting := x.waiting ++ [(x.token, s.now)] } }) s)

/-- The error characters a link counted in the frame that ends: more than 16 lose an Up link (R243, R248). -/
def errorChars (n : Tab Nat) (l : Nat) (s : State) : State :=
  let k := n.getD l 0
  if k = 0 then s
  else
    let s := addN (lki l) (lsub l 0x18 0x12) 32 k s
    if 16 < k then linkLost l 2 s else s

/-- The error characters every link counted in the frame that ended (R243, R248), and the SLACK pairs a head link's elastic buffer
repeated and deleted in it (R222). -/
def endErrors (inp : FrameIn) (s : State) : State :=
  let s := each berthList (fun h s => addN (hi h) 0x1A 32 (inp.deleted.getD h 0) (addN (hi h) 0x19 32 (inp.repeated.getD h 0) s)) s
  each (List.range 26) (errorChars inp.errors) s

/-- What a head link's transmitter sends in the frame that ends: COMMAND, ECHO, the TICK of the frame to come, launched Ld before its
boundary, SLACK and IDLE (R222, R226, R235, R236). -/
def endLink (h : Nat) (s : State) : State :=
  let s := formPower h s
  if !hears h s then s
  else
    let s := sendEcho h (sendCommand h s)
    fillFrame h s.frame (sendTick h (s.frame + 1) (fineT (s.now + frameT) - 10 * getN (hi h) 4 s) s)

/-- What ends with a frame in the links: of a quay link the seats heard in it. -/
def endLinks (s : State) : State :=
  let s := each berthList endLink s
  each [24, 25] (fun l s =>
    let s := if hears l s then fillFrame l s.frame s else s
    modLink l (fun x => { x with heardBefore := x.heard, heard := [] }) s) s

/-- What ends with a frame in the berths and the loop engine: k5 gives the next frame's power correction (R84). -/
def endBerths (s : State) : State :=
  let s := loopSamples s
  each berthList (fun b s =>
    let s := takeSampleSet b (latchFrames b s)
    let s := setN (bi b 3) 3 (getN (li (8 * b + 6) 5) 1 s) s
    modBerth b (fun x => { x with corr := roundHalfAway (loopOut (8 * b + 5) s) (2 ^ 11) }) s) s

/-- Harbour time and the frame count advance; a step of harbour time takes effect at the boundary instead (R276-R278, R250), and the
instants that later ones must keep a distance from move with it (R80, R154). -/
def advanceTime (s : State) : State :=
  match s.timeSet with
  | none => { s with frame := s.frame + 1, now := s.now + frameT }
  | some ns =>
    let old := s.now + frameT
    let move := fun (t : Time) => t + ns * nsT - old
    let s : State := { s with
      timeSet := none, now := ns * nsT, frame := (ns + 1250) / 2500
      berths := s.berths.map (fun e => (e.1, { e.2 with lastGroup := e.2.lastGroup.map move }))
      ctxs := s.ctxs.map (fun e => (e.1, { e.2 with lastTrig := e.2.lastTrig.map move }))
      axes := s.axes.map (fun e => (e.1, { e.2 with t0 := move e.2.t0, standAt := move e.2.standAt, energiseAt := move e.2.energiseAt, rampAt := move e.2.rampAt, pwmNext := move e.2.pwmNext, pwmAt := move e.2.pwmAt })) }
    let s := if getN 0x0804 3 s = 1 then setN 0x0804 3 2 s else s
    let old := getI 0x0804 0x0A s
    noticeObj 0 0 0x0804 0x0A old (addN 0x0804 0x0A 32 1 s)

/-- Where the actual spot of an Exposing berth is (objects Bb+0x00:02 and :03). -/
def showPlace (b : Nat) (s : State) : State :=
  match actualArc b s.now s with
  | none => s
  | some g =>
    let p := place b (max 0 g) s
    setI (bi b 0) 3 p.2 (setN (bi b 0) 2 p.1 s)

/-- A periodic camera trigger of berth b, every D loop frames counted on F while the berth exposes with its gate high: at the boundary
before, where its instant becomes final, the gate is judged as the schedule foresees it (R153, log 22). -/
def periodicTrigger (b : Nat) (s : State) : State :=
  let mode := getN (ci b 0) 5 s
  let d := getN (ci b 0) 6 s
  let t := s.now + frameT
  if ctxOn b s ∧ (mode = 1 ∨ mode = 2) ∧ d ≠ 0 ∧ (s.frame + 1) % d = 0 ∧ gateAllowed b s ∧ gateDue b (dueEvents b t s) s then
    addFinal b t { kind := .periodic } s
  else s

/-- What begins with a frame for an Exposing berth. -/
def startExposing (b : Nat) (s : State) : State :=
  if bState b s ≠ 2 then s else finaliseBerth b (periodicTrigger b (showPlace b s))

/-- Whether the step of berth b's bias may be applied: 50 ns after its last group with 100 ns to the next, or with none pending (R375). -/
def biasFree (b : Nat) (s : State) : Bool :=
  let x := berth b s
  x.finals.isEmpty || (match x.lastGroup with
    | none => false
    | some t => decide (t + 50 * nsT ≤ s.now) && x.finals.all (fun f => decide (t + 100 * nsT ≤ f.group)))

/-- The bias of berth b moves one code, or stays at its range end (R375, R366). -/
def biasMove (b : Nat) (up : Bool) (s : State) : State :=
  let l := getB 0x0600 3 s
  let c := field l b 1
  let s := modBerth b (fun x => { x with biasStep := none }) s
  let ends := getN 0x0600 5 s
  if (up ∧ c = 255) ∨ (!up ∧ c = 0) then
    noticeLog 1 b 0x0250 (toLe 1 b ++ toLe 1 c ++ toLe 10 0) (setN 0x0600 5 (setBit ends b true) s)
  else
    let n := if up then c + 1 else c - 1
    let s := setB 0x0600 3 (overlay l b (toLe 1 n)) (addN 0x0600 4 32 1 s)
    setN 0x0600 5 (setBit ends b false) s

/-- Tap 64 of berth b's delay line is compared once per loop cycle: two like comparisons call for a step (R375). -/
def biasCompare (b : Nat) (late : Bool) (s : State) : State :=
  let up := late == Config.biasRises
  let again := (berth b s).late == some late
  modBerth b (fun x => { x with late := if again then none else some late, biasStep := if again then some up else x.biasStep }) s

/-- The vernier bias of berth b at a frame. -/
def biasTick (late : Nat) (b : Nat) (s : State) : State :=
  let s := if s.frame % 16 = 0 then biasCompare b (bit late b) s else s
  match (berth b s).biasStep with
  | none => s
  | some up => if biasFree b s then biasMove b up s else s

/-- The seats beyond quay link k, which a SPOT frame must reach (R246); in a ring with a lost link, those heard there (R248). -/
def quayReach (k : Nat) (s : State) : Nat :=
  let n := s.hm.size
  if ringWhole s then (if k = 0 then (n - 1) / 2 else n / 2)
  else if s.hm.ring then (seatsBeyond k s).length
  else if k = 0 then s.hm.seatNo else n - 1 - s.hm.seatNo

/-- This seat's SEAT frame (R65, R66, R245). -/
def seatFrameOf (s : State) : SeatFrame :=
  let tide := getN 0x0400 9 s
  { seat := s.hm.seatNo, ready := s.commit.ready, decision := s.hm.seatNo == 0 && s.commit.decided.isSome, quiet := berthList.all (fun b => bState b s != 1 && bState b s != 2), tideLocked := tide == 2 || tide == 3, layer := layerAsked s, commitFrame := s.commit.decided.getD 0 % 2 ^ 32, tide := getN 0x0400 7 s }

/-- This seat's QTIME frame on link k (R245, R249). -/
def qtimeFrameOf (k : Nat) (s : State) : QtimeFrame :=
  let root := s.hm.seatNo == 0
  let x := link (24 + k) s
  { frame := x.tickFrame % 2 ^ 32, launch := x.tickAt, arrival := x.tickIn, hops := if root then 0 else getN 0x3800 6 s, offset := if root then 0 else getI 0x1808 6 s }

/-- The TICK of this frame's boundary and the quay frames of a loop frame on link k: SPOT when Up, SEAT and QTIME from Identify on (R227,
R244-R246, R249). -/
def sendQuay (k : Nat) (s : State) : State :=
  let l := 24 + k
  if !hears l s then s
  else
    let spots : SpotFrame := { seat := s.hm.seatNo, command := s.hm.carried.getD 0, hops := quayReach k s, frame := s.frame % 2 ^ 32, records := s.hm.own.map (·.2) }
    let s := sendTick l s.frame (fineT s.now) s
    let s := if linkState l s = 7 ∧ spots.hops ≠ 0 ∧ spots.records ≠ [] then sendFrame l 0x11 (spotPayload spots) s else s
    let s := sendFrame l 0x12 (seatPayload (seatFrameOf s)) s
    sendFrame l 0x13 (qtimePayload (qtimeFrameOf k s)) s

/-- A seat without a path to seat 0 has no quay time, and its servo holds over (R250, R283). -/
def quayTime (s : State) : State :=
  if s.hm.seatNo = 0 ∨ (upstream s).isSome ∨ getN 0x3800 5 s = 0 then s else setN 0x0804 3 4 (setN 0x3800 5 0 s)

/-- The berths that still expose what the last breakwater commit found under way (R196). -/
def oldSets (s : State) : State :=
  let m := maskOf (fun b => bit s.bw.oldBerths b && bState b s == 2)
  if m = s.bw.oldBerths then s else { s with bw := { s.bw with oldBerths := m, old := if m = 0 then [] else s.bw.old } }

/-- The temperature settings written for the berths take effect at the frame boundary (R26, class RWF). -/
def takeLevels (s : State) : State :=
  takeShadows (fun k => decide (bi 0 0 ≤ k / 256 ∧ k / 256 < bi 24 0) && (k / 256) % 0x40 == 4) s

/-- What begins with a frame in D5 to D7 (R94, R124, R126, R153, R375). -/
def startBerths (late : Nat) (s : State) : State :=
  let s := takeLevels s
  let s := commitTick (hmTick (setN 0x3000 4 (s.frame % 80) s))
  let s := each (List.range 192) (loopLatch s.frame) s
  each berthList (fun b s => biasTick late b (startExposing b s)) (oldSets s)

/-- What begins with a frame in D2 and D4: quay frames, axes and wake line, lamps, calibration marks. -/
def startChamber (s : State) : State := calTick (motionTick (each [0, 1] sendQuay (quayTime s)))

/-- A loop frame: each block in a domain that runs does its part (R124, R341, R344, R361, R362). -/
def loopFrame (inp : FrameIn) (s : State) : State :=
  let r := getN 0x0300 2 s
  let up := !s.pilot.romRecovery && !s.pilot.anchorage && decide (r ≤ 1)
  let s := if up ∧ r = 0 then endBerths s else s
  let s := if up then beaconTick (endLinks s) else s
  let s := bolInputs inp.bol (advanceTime s)
  let s := if up then endErrors inp s else s
  let s := if !s.pilot.romRecovery ∧ r ≤ 1 then tideFrame s else s
  let s := if up ∧ r = 0 then startBerths inp.late s else s
  if up then startChamber s else s

/-- LOOP_FRAME. -/
def execLoopFrame (inp : FrameIn) (s : State) : Host.Outcome State Fault Refusal := gated (.loopFrame inp) (loopFrame inp) s

end Sys2Proof.Machine
end

