-- ==== Sys2Proof/Machine/Dispatch.lean ====
section
/-!
DEFINITION. Sys2Proof/Machine/Dispatch.lean: the meaning of each command, one arm per row of spec/opcode_table.json.
-/
namespace Sys2Proof.Machine

/-- The effect of a command on everything but the queue. -/
def exec (i : Instr) (s : State) : Host.Outcome State Fault Refusal :=
  match i with
  | .pauseAtSafePoint b => Sys2Proof.Machine.execPauseAtSafePoint b s
  | .pauseNow b off => Sys2Proof.Machine.execPauseNow b off s
  | .resume b off => Sys2Proof.Machine.execResume b off s
  | .berthReset b off => Sys2Proof.Machine.execBerthReset b off s
  | .harbourPauseAtSafePoint => Sys2Proof.Machine.execHarbourPauseAtSafePoint s
  | .harbourPauseNow => Sys2Proof.Machine.execHarbourPauseNow s
  | .harbourResume => Sys2Proof.Machine.execHarbourResume s
  | .safePointReached b => Sys2Proof.Machine.execSafePointReached b s
  | .decelerationComplete b => Sys2Proof.Machine.execDecelerationComplete b s
  | .fence sess => Sys2Proof.Machine.execFence sess s
  | .objectWrite sess idx sub v => Sys2Proof.Machine.execObjectWrite sess idx sub v s
  | .loadData b data => Sys2Proof.Machine.execLoadData b data s
  | .closeLength b len => Sys2Proof.Machine.execCloseLength b len s
  | .validationComplete b slot => Sys2Proof.Machine.execValidationComplete b slot s
  | .repairComplete b slot => Sys2Proof.Machine.execRepairComplete b slot s
  | .slotClear b slot => Sys2Proof.Machine.execSlotClear b slot s
  | .noHostCopy b => Sys2Proof.Machine.execNoHostCopy b s
  | .groupSeal sess group layer sig => Sys2Proof.Machine.execSeal sess group layer sig s
  | .groupUnseal sess group sig => Sys2Proof.Machine.execUnseal sess group sig s
  | .commitRequest layer => Sys2Proof.Machine.execCommitRequest layer s
  | .lockWindowOpen => Sys2Proof.Machine.execLockWindowOpen s
  | .lockGateCommit => Sys2Proof.Machine.execLockGateCommit s
  | .lockTimeout => Sys2Proof.Machine.execLockTimeout s
  | .commitAbort => Sys2Proof.Machine.execCommitAbort s
  | .exposingStart => Sys2Proof.Machine.execExposingStart s
  | .endReached b => Sys2Proof.Machine.execEndReached b s
  | .fenceComplete id => Sys2Proof.Machine.execFenceComplete id s
  | .waitComplete b => Sys2Proof.Machine.execWaitComplete b s
  | .waitTimeout b => Sys2Proof.Machine.execWaitTimeout b s
  | .loopFrame inp => Sys2Proof.Machine.execLoopFrame inp s
  | .feedback h w => Sys2Proof.Machine.execFeedback h w s
  | .eventGroup b => Sys2Proof.Machine.execEventGroup b s
  | .powerSample b j => Sys2Proof.Machine.execPowerSample b j s
  | .status h w => Sys2Proof.Machine.execStatus h w s
  | .temperatureReportTimeout b => Sys2Proof.Machine.execTemperatureReportTimeout b s
  | .recordMissing k => Sys2Proof.Machine.execRecordMissing k s
  | .budgetWaitTimeout b => Sys2Proof.Machine.execBudgetWaitTimeout b s
  | .budgetWithdrawal phase => Sys2Proof.Machine.execBudgetWithdrawal phase s
  | .reassignBerth b => Sys2Proof.Machine.execReassignBerth b s
  | .reassignment => Sys2Proof.Machine.execReassignment s
  | .bankSelect n v => Sys2Proof.Machine.execBankSelect n v s
  | .loopMode n v => Sys2Proof.Machine.execLoopMode n v s
  | .tripClear n => Sys2Proof.Machine.execTripClear n s
  | .hostTrigger c off => Sys2Proof.Machine.execHostTrigger c off s
  | .contextEnable c v => Sys2Proof.Machine.execContextEnable c v s
  | .tile h w => Sys2Proof.Machine.execTile h w s
  | .csiPacket port p => Sys2Proof.Machine.execCsiPacket port p s
  | .tileFrameTimeout c => Sys2Proof.Machine.execTileFrameTimeout c s
  | .frameTimeout c => Sys2Proof.Machine.execFrameTimeout c s
  | .tileProcessed c => Sys2Proof.Machine.execTileProcessed c s
  | .overload => Sys2Proof.Machine.execOverload s
  | .lampTemperatureRead temps => Sys2Proof.Machine.execLampTemperatureRead temps s
  | .lampBoardTimeout d => Sys2Proof.Machine.execLampBoardTimeout d s
  | .channelDiagnosis volts => Sys2Proof.Machine.execChannelDiagnosis volts s
  | .sequenceStart => Sys2Proof.Machine.execSequenceStart s
  | .projectorStartTime => Sys2Proof.Machine.execProjectorStartTime s
  | .projectorEntry => Sys2Proof.Machine.execProjectorEntry s
  | .sequenceStop => Sys2Proof.Machine.execSequenceStop s
  | .featureCharted => Sys2Proof.Machine.execFeatureCharted s
  | .bufferClosed => Sys2Proof.Machine.execBufferClosed s
  | .release layer => Sys2Proof.Machine.execRelease layer s
  | .exportLayer layer => Sys2Proof.Machine.execExportLayer layer s
  | .breakwaterSet sess set sig => Sys2Proof.Machine.execBreakwaterSet sess set sig s
  | .keySlotProgram sess data sig => Sys2Proof.Machine.execKeySlotProgram sess data sig s
  | .keySlotRevoke sess slot sig => Sys2Proof.Machine.execKeySlotRevoke sess slot sig s
  | .blockCoded => Sys2Proof.Machine.execBlockCoded s
  | .streamResume st => Sys2Proof.Machine.execStreamResume st s
  | .gapEntry st => Sys2Proof.Machine.execGapEntry st s
  | .sampleAnchor b => Sys2Proof.Machine.execSampleAnchor b s
  | .readPointer st v => Sys2Proof.Machine.execReadPointer st v s
  | .jobStart => Sys2Proof.Machine.execJobStart s
  | .jobResume => Sys2Proof.Machine.execJobResume s
  | .jobAbort => Sys2Proof.Machine.execJobAbort s
  | .jobSaveState => Sys2Proof.Machine.execJobSaveState s
  | .linkEnable l => Sys2Proof.Machine.execLinkEnable l s
  | .linkDisable l => Sys2Proof.Machine.execLinkDisable l s
  | .signalDetected l => Sys2Proof.Machine.execSignalDetected l s
  | .commaAligned l inverted => Sys2Proof.Machine.execCommaAligned l inverted s
  | .lanesDeskewed k order skews => Sys2Proof.Machine.execLanesDeskewed k order skews s
  | .equaliseComplete l margins => Sys2Proof.Machine.execEqualiseComplete l margins s
  | .caps h w => Sys2Proof.Machine.execCaps h w s
  | .measurementComplete l => Sys2Proof.Machine.execMeasurementComplete l s
  | .trainingTimeout l => Sys2Proof.Machine.execTrainingTimeout l s
  | .retryInterval l => Sys2Proof.Machine.execRetryInterval l s
  | .eyeMargin l margins => Sys2Proof.Machine.execEyeMargin l margins s
  | .retrain l => Sys2Proof.Machine.execRetrain l s
  | .retrainStart l => Sys2Proof.Machine.execRetrainStart l s
  | .feedbackMissing h => Sys2Proof.Machine.execFeedbackMissing h s
  | .measurementInterval h => Sys2Proof.Machine.execMeasurementInterval h s
  | .echoReply h bytes bad trip => Sys2Proof.Machine.execEchoReply h bytes bad trip s
  | .configWrite sess h data => Sys2Proof.Machine.execConfigWrite sess h data s
  | .configRead sess h => Sys2Proof.Machine.execConfigRead sess h s
  | .configReply h w => Sys2Proof.Machine.execConfigReply h w s
  | .configTimeout h => Sys2Proof.Machine.execConfigTimeout h s
  | .spot k w => Sys2Proof.Machine.execSpot k w s
  | .seat k f => Sys2Proof.Machine.execSeat k f s
  | .seatFrameMissing k => Sys2Proof.Machine.execSeatFrameMissing k s
  | .qtime k f => Sys2Proof.Machine.execQtime k f s
  | .data k w => Sys2Proof.Machine.execData k w s
  | .target m pos => Sys2Proof.Machine.execTarget m pos s
  | .strokeEnd m => Sys2Proof.Machine.execStrokeEnd m s
  | .stopDecelerate m => Sys2Proof.Machine.execStopDecelerate m s
  | .stopFreeze m => Sys2Proof.Machine.execStopFreeze m s
  | .motionHoldClear => Sys2Proof.Machine.execMotionHoldClear s
  | .stall m => Sys2Proof.Machine.execStall m s
  | .stallClear m => Sys2Proof.Machine.execStallClear m s
  | .home m => Sys2Proof.Machine.execHome m s
  | .homingTravelLimit m => Sys2Proof.Machine.execHomingTravelLimit m s
  | .standstillDelay m => Sys2Proof.Machine.execStandstillDelay m s
  | .idleAction m => Sys2Proof.Machine.execIdleAction m s
  | .energiseComplete m => Sys2Proof.Machine.execEnergiseComplete m s
  | .encoderEdge k a b off => Sys2Proof.Machine.execEncoderEdge k a b off s
  | .indexPulse k a bb off => Sys2Proof.Machine.execIndexPulse k a bb off s
  | .countSet k v => Sys2Proof.Machine.execCountSet k v s
  | .referenceArm k => Sys2Proof.Machine.execReferenceArm k s
  | .ssiFrame k word startLow endHigh off => Sys2Proof.Machine.execSsiFrame k word startLow endHigh off s
  | .counterStandstill k => Sys2Proof.Machine.execCounterStandstill k s
  | .wakeRelease => Sys2Proof.Machine.execWakeRelease s
  | .wakeResume b => Sys2Proof.Machine.execWakeResume b s
  | .openSession r => Sys2Proof.Machine.execOpenSession r s
  | .closeSession sess seq => Sys2Proof.Machine.execCloseSession sess seq s
  | .sessionTimeout sess => Sys2Proof.Machine.execSessionTimeout sess s
  | .discover => Sys2Proof.Machine.execDiscover s
  | .presence p => Sys2Proof.Machine.execPresence p s
  | .keepalive sess seq => Sys2Proof.Machine.execKeepalive sess seq s
  | .read sess seq es => Sys2Proof.Machine.execRead sess seq es s
  | .write sess seq es => Sys2Proof.Machine.execWrite sess seq es s
  | .writeFenced sess seq es => Sys2Proof.Machine.execWriteFenced sess seq es s
  | .bulkBegin sess seq r => Sys2Proof.Machine.execBulkBegin sess seq r s
  | .bulkData sess id offset data => Sys2Proof.Machine.execBulkData sess id offset data s
  | .bulkAck sess id received => Sys2Proof.Machine.execBulkAck sess id received s
  | .bulkResendTimeout sess id => Sys2Proof.Machine.execBulkResendTimeout sess id s
  | .bulkTimeout sess id => Sys2Proof.Machine.execBulkTimeout sess id s
  | .subscribe sess seq r => Sys2Proof.Machine.execSubscribe sess seq r s
  | .noticeBatch sess => Sys2Proof.Machine.execNoticeBatch sess s
  | .reportPeriod sess set => Sys2Proof.Machine.execReportPeriod sess set s
  | .signProof sess seq key sig => Sys2Proof.Machine.execSignProof sess seq key sig s
  | .hostSilence => Sys2Proof.Machine.execHostSilence s
  | .spiReadRequest idx sub offset len crcOk => Sys2Proof.Machine.execSpiReadRequest idx sub offset len crcOk s
  | .spiWrite e crcOk => Sys2Proof.Machine.execSpiWrite e crcOk s
  | .spiWriteFenced e crcOk => Sys2Proof.Machine.execSpiWriteFenced e crcOk s
  | .spiStatus => Sys2Proof.Machine.execSpiStatus s
  | .fetchReply => Sys2Proof.Machine.execFetchReply s
  | .fetchNotices => Sys2Proof.Machine.execFetchNotices s
  | .store => Sys2Proof.Machine.execStore s
  | .storeComplete ok => Sys2Proof.Machine.execStoreComplete ok s
  | .restoreDefaults => Sys2Proof.Machine.execRestoreDefaults s
  | .ethernetFrame port f => Sys2Proof.Machine.execEthernetFrame port f s
  | .portLinkUp port => Sys2Proof.Machine.execPortLinkUp port s
  | .sync m => Sys2Proof.Machine.execSync m s
  | .followUp m => Sys2Proof.Machine.execFollowUp m s
  | .delayReq m => Sys2Proof.Machine.execDelayReq m s
  | .delayResp m => Sys2Proof.Machine.execDelayResp m s
  | .pdelayReq m => Sys2Proof.Machine.execPdelayReq m s
  | .pdelayResp m => Sys2Proof.Machine.execPdelayResp m s
  | .announce m => Sys2Proof.Machine.execAnnounce m s
  | .announceReceiptTimeout => Sys2Proof.Machine.execAnnounceReceiptTimeout s
  | .servoLocked => Sys2Proof.Machine.execServoLocked s
  | .timeSet ns => Sys2Proof.Machine.execTimeSet ns s
  | .memoryRequest r => Sys2Proof.Machine.execMemoryRequest r s
  | .trainingComplete r => Sys2Proof.Machine.execTrainingComplete r s
  | .dqsOscillatorCheck drift => Sys2Proof.Machine.execDqsOscillatorCheck drift s
  | .refresh sc hot => Sys2Proof.Machine.execRefresh sc hot s
  | .pageIdleClose sc bank => Sys2Proof.Machine.execPageIdleClose sc bank s
  | .selfRefreshEntry ch => Sys2Proof.Machine.execSelfRefreshEntry ch s
  | .patrolScrub errors => Sys2Proof.Machine.execPatrolScrub errors s
  | .evaluationPoint r => Sys2Proof.Machine.execEvaluationPoint r s
  | .holdOffComplete => Sys2Proof.Machine.execHoldOffComplete s
  | .tideEnable v => Sys2Proof.Machine.execTideEnable v s
  | .inputFault k => Sys2Proof.Machine.execInputFault k s
  | .inputFaultClear k => Sys2Proof.Machine.execInputFaultClear k s
  | .tideLock => Sys2Proof.Machine.execTideLock s
  | .tideLockLost => Sys2Proof.Machine.execTideLockLost s
  | .bollardLatch k off => Sys2Proof.Machine.execBollardLatch k off s
  | .acknowledge mask => Sys2Proof.Machine.execAcknowledge mask s
  | .activeLevel mask => Sys2Proof.Machine.execActiveLevel mask s
  | .rungRequest n => Sys2Proof.Machine.execRungRequest n s
  | .wake source exitUs => Sys2Proof.Machine.execWake source exitUs s
  | .powerOnReset p => Sys2Proof.Machine.execPowerOnReset p s
  | .nrst p => Sys2Proof.Machine.execNrst p s
  | .watchdog => Sys2Proof.Machine.execWatchdog s
  | .warmReset => Sys2Proof.Machine.execWarmReset s
  | .imageData offset data => Sys2Proof.Machine.execImageData offset data s
  | .verifyAndWrite => Sys2Proof.Machine.execVerifyAndWrite s
  | .updateReady flashOk => Sys2Proof.Machine.execUpdateReady flashOk s
  | .activate => Sys2Proof.Machine.execActivate s
  | .updateDiscard => Sys2Proof.Machine.execUpdateDiscard s
  | .confirm => Sys2Proof.Machine.execConfirm s
  | .logbookFlushTimer => Sys2Proof.Machine.execLogbookFlushTimer s
  | .flush => Sys2Proof.Machine.execFlush s
  | .blockEraseComplete => Sys2Proof.Machine.execBlockEraseComplete s
  | .clear v => Sys2Proof.Machine.execClear v s
  | .window sess => Sys2Proof.Machine.execWindow sess s
  | .calibrationStart => Sys2Proof.Machine.execCalibrationStart s
  | .settleTime b => Sys2Proof.Machine.execSettleTime b s
  | .runComplete => Sys2Proof.Machine.execRunComplete s
  | .calibrationAbort => Sys2Proof.Machine.execCalibrationAbort s
  | .apply => Sys2Proof.Machine.execApply s
  | .calibrationDiscard => Sys2Proof.Machine.execCalibrationDiscard s
  | .dieTemperature t => Sys2Proof.Machine.execDieTemperature t s
  | .lockOrAlignmentLost l => Sys2Proof.Machine.execLockOrAlignmentLost l s
  | .echoReplyTimeout h token => Sys2Proof.Machine.execEchoReplyTimeout h token s
  | .backOffComplete m => Sys2Proof.Machine.execBackOffComplete m s
  | .syncInterval => Sys2Proof.Machine.execSyncInterval s
  | .announceInterval => Sys2Proof.Machine.execAnnounceInterval s
  | .minimumDelayInterval => Sys2Proof.Machine.execMinimumDelayInterval s
  | .signedLockoutEnd => Sys2Proof.Machine.execSignedLockoutEnd s
  | .bulkAckInterval sess id => Sys2Proof.Machine.execBulkAckInterval sess id s
  | .portLinkDown port => Sys2Proof.Machine.execPortLinkDown port s
  | .positiveGoingZeroCrossing => Sys2Proof.Machine.execPositiveGoingZeroCrossing s

end Sys2Proof.Machine
end

