-- ==== Sys2Proof/Machine/Effects.lean ====
section
/-!
DEFINITION. Sys2Proof/Machine/Effects.lean: the operation each command carries out where it names something of the part and its domain
runs, in one table (R340, R346): what `exec` answers then, for the claims.
-/
namespace Sys2Proof.Machine

/-- What a command does to the state it finds: no output, result 0. -/
def effect : Instr → State → State
  | .pauseAtSafePoint b => fun s => stopBerth b 1 0x0001 s.now s
  | .pauseNow b off => fun s => stopBerth b 2 0x0002 (timeAt off s) s
  | .resume b off => fun s => resume b (timeAt off s) s
  | .berthReset b off => fun s => berthReset b (timeAt off s) (calStop b s)
  | .harbourPauseAtSafePoint => harbourCommand 1
  | .harbourPauseNow => harbourCommand 2
  | .harbourResume => harbourCommand 3
  | .safePointReached b => safePointReached b
  | .decelerationComplete b => fun s => if (berth b s).halting then comeToRest b s else s
  | .fence sess => fun s => if writeBar sess s = 0 then s else withResult (writeBar sess s) s
  | .objectWrite sess idx sub v => applyWrite sess idx sub false 0 v (valueBytes idx sub v) []
  | .loadData b data => loadData b data
  | .closeLength b len => closeLength b len
  | .validationComplete b slot => validationComplete b slot
  | .repairComplete b slot => repairComplete b slot
  | .slotClear b slot => slotClear b slot
  | .noHostCopy b => noHostCopy b
  | .groupSeal sess group layer sig => sealWrite sess group layer sig (sealGroup group layer)
  | .groupUnseal sess group sig => sealWrite sess group 0 sig (unsealGroup group)
  | .commitRequest layer => commitRequest layer
  | .lockWindowOpen => lockWindowOpen
  | .lockGateCommit => lockGateCommit
  | .lockTimeout => lockTimeout
  | .commitAbort => commitAbort
  | .exposingStart => each berthList exposeOne
  | .endReached b => endReached b
  | .fenceComplete id => fenceComplete id
  | .waitComplete b => waitComplete b
  | .waitTimeout b => waitTimeout b
  | .loopFrame inp => loopFrame inp
  | .feedback h w => hearFrame h 0x81 w (fun l => feedback h (feedbackOf (payloadOf l)))
  | .eventGroup b => eventGroup b
  | .powerSample b j => powerSample b j
  | .status h w => hearFrame h 0x82 w (fun l => status h (statusOf (payloadOf l)))
  | .temperatureReportTimeout b => temperatureTimeout b
  | .recordMissing k => recordMissing k
  | .budgetWaitTimeout b => budgetWaitTimeout b
  | .budgetWithdrawal p => budgetWithdrawal p
  | .reassignBerth b => reassignBerth b
  | .reassignment => fun s => each s.hm.trigger reassignRuns { s with hm := { s.hm with trigger := [] } }
  | .bankSelect n v => bankSelect n v
  | .loopMode n v => loopMode n v
  | .tripClear n => tripClear n
  | .hostTrigger c off => hostTrigger c off
  | .contextEnable c v => contextEnable c v
  | .tile h w => fun s => if hears h s ∧ !frameGood 0x83 (streamOf h w s) w.bad then askTiles h (crcError h s)
    else hearFrame h 0x83 w (fun l => tile h (tileOf (payloadOf l))) s
  | .csiPacket port p => csiPacket port p
  | .tileFrameTimeout c => fun s => if c < 24 then frameTimeout c s else s
  | .frameTimeout c => fun s => if 24 ≤ c then frameTimeout c s else s
  | .tileProcessed c => tileProcessed c
  | .overload => overload
  | .lampTemperatureRead temps => lampTemperatureRead temps
  | .lampBoardTimeout d => lampBoardTimeout d
  | .channelDiagnosis volts => channelDiagnosis volts
  | .sequenceStart => sequenceStart
  | .projectorStartTime => fun s => if getN 0x4808 2 s = 2 then projectorStart s.now s else s
  | .projectorEntry => projectorEntry
  | .sequenceStop => fun s => stopSequence s.now s
  | .featureCharted => featureCharted
  | .bufferClosed => bufferClosed
  | .release l => release l
  | .exportLayer l => exportLayer l
  | .breakwaterSet sess set sig => rwpWrite sess 0x5100 1 0 set sig (breakwaterTake set)
  | .keySlotProgram sess data sig => keyProgram sess data sig
  | .keySlotRevoke sess slot sig => keyRevoke sess slot sig
  | .blockCoded => blockCoded
  | .streamResume st => streamResume st
  | .gapEntry st => gapEntry st
  | .sampleAnchor b => writeAnchor b
  | .readPointer st v => readPointer st v
  | .jobStart => jobStart
  | .jobResume => jobResume
  | .jobAbort => jobAbort
  | .jobSaveState => jobSaveState
  | .linkEnable l => linkEnable l
  | .linkDisable l => linkDisable l
  | .signalDetected l => fun s => if linkState l s = 1 then setLinkState l 2 s else s
  | .commaAligned l inverted => commaAligned l inverted
  | .lanesDeskewed k order skews => lanesDeskewed k order skews
  | .equaliseComplete l margins => equaliseComplete l margins
  | .caps h w => hearFrame h 0x85 w (fun l => caps h (capsOf (payloadOf l)))
  | .measurementComplete l => measurementComplete l
  | .trainingTimeout l => fun s => if 1 ≤ linkState l s ∧ linkState l s ≤ 6 then attemptFails l 5 s else s
  | .retryInterval l => fun s => if linkState l s = 0 ∧ getN (lki l) 1 s = 1 then enterDetect l s else s
  | .eyeMargin l margins => eyeMargin l margins
  | .retrain l => retrain l
  | .retrainStart l => retrainStart l
  | .feedbackMissing h => feedbackMissing h
  | .measurementInterval h => fun s => if linkState h s = 7 then modLink h (fun l => { l with burst := { left := 16 } }) s else s
  | .echoReply h bytes bad trip => hearFrame h 0x84 { bytes := bytes, lanes := [], bad := bad } (fun l => echoReply h (echoOf (payloadOf l)).1 trip (echoOf (payloadOf l)).2)
  | .configWrite sess h data => configWrite sess h data
  | .configRead sess h => configRead sess h
  | .configReply h w => hearFrame h 0x86 w (fun l => configReply h (configReplyOf l))
  | .configTimeout h => configTimeout h
  | .spot k w => hearFrame (24 + k) 0x11 w (fun l => spot k (spotFrameOf (payloadOf l)))
  | .seat k f => hearFrame (24 + k) 0x12 f.frame (fun l => seat k (seatOf (payloadOf l)) f.size f.topology)
  | .seatFrameMissing k => quayLost k 13
  | .qtime k f => hearFrame (24 + k) 0x13 f.frame (fun l => qtime k (qtimeOf (payloadOf l)) f.arrival)
  | .data k w => hearFrame (24 + k) 0x14 w (fun l => dataFrame k (dataOf l))
  | .target m pos => target m pos
  | .strokeEnd m => fun s => if axisState m s = 2 then axisStand m (axis m s).goal s else s
  | .stopDecelerate m => stopDecelerate m
  | .stopFreeze m => stopFreeze m
  | .motionHoldClear => setN 0x7080 1 0
  | .stall m => stall m
  | .stallClear m => stallClear m
  | .home m => home m
  | .homingTravelLimit m => homingTravelLimit m
  | .standstillDelay m => standstillDelay m
  | .idleAction m => idleAction m
  | .energiseComplete m => energiseComplete m
  | .encoderEdge i a bb off => encoderEdge i a bb off
  | .indexPulse i a bb off => indexPulse i a bb off
  | .countSet i v => countSet i v
  | .referenceArm i => referenceArm i
  | .ssiFrame i word startLow endHigh off => ssiFrame i word startLow endHigh off
  | .counterStandstill i => counterStandstill i
  | .wakeRelease => wakeRelease
  | .wakeResume b => wakeResume b
  | .openSession r => openSession r
  | .closeSession sess seq => receive sess seq .close
  | .sessionTimeout sess => closeNow sess
  | .discover => fun s => presenceOut (datagram 0xFF s)
  | .presence p => presence p
  | .keepalive sess seq => receive sess seq .keepalive
  | .read sess seq es => receive sess seq (.read es)
  | .write sess seq es => receive sess seq (.write false es)
  | .writeFenced sess seq es => receive sess seq (.write true es)
  | .bulkBegin sess seq r => receive sess seq (.bulk r)
  | .bulkData sess id offset data => fun s => goOn sess (bulkData sess id offset data (datagram sess s))
  | .bulkAck sess id received => fun s => bulkAck sess id received (datagram sess s)
  | .bulkResendTimeout sess id => bulkResend sess id
  | .bulkTimeout sess id => fun s => goOn sess (bulkTimeout sess id s)
  | .subscribe sess seq r => receive sess seq (.subscribe r)
  | .noticeBatch sess => sendNotices sess 6
  | .reportPeriod sess set => sendReport sess set
  | .signProof sess seq key sig => receive sess seq (.proof key sig)
  | .hostSilence => hostSilence
  | .spiReadRequest idx sub offset len crcOk => spiRequest crcOk (spiRead idx sub offset len)
  | .spiWrite e crcOk => spiRequest crcOk (spiWriteEntry e)
  | .spiWriteFenced e crcOk => spiRequest crcOk (spiWriteEntry e)
  | .spiStatus => fun s =>
    let s := spiSeen s
    spiOut 4 (toLe 1 s.net.spiState ++ toLe 1 0 ++ toLe 2 s.net.spiResult ++ toLe 2 s.net.spiReply.length ++ toLe 2 (sess 16 s).queue.length) s
  | .fetchReply => fun s => spiOut 5 s.net.spiReply (spiSeen s)
  | .fetchNotices => fetchNotices
  | .store => storeStart
  | .storeComplete ok => storeComplete ok
  | .restoreDefaults => restoreDefaults
  | .ethernetFrame port f => ethernetFrame port f
  | .portLinkUp port => portLinkUp port
  | .sync m => sync m
  | .followUp m => followUp m
  | .delayReq m => delayReq m
  | .delayResp m => delayResp m
  | .pdelayReq m => pdelayReq m
  | .pdelayResp m => pdelayResp m
  | .announce m => announce m
  | .announceReceiptTimeout => announceReceiptTimeout
  | .servoLocked => fun s => if getN 0x0804 3 s = 2 then setN 0x0804 3 3 s else s
  | .timeSet ns => timeSet ns
  | .memoryRequest r => memoryRequest r
  | .trainingComplete r => trainingComplete r
  | .dqsOscillatorCheck drift => fun s => if getN 0x6000 1 s = 2 ∧ 200 < drift then { s with mem := { s.mem with driftAt := 1 } } else s
  | .refresh sc hot => fun s => if getN 0x6000 1 s = 2 then refresh sc s else s
  | .pageIdleClose sc bank => fun s =>
    if (((subch sc s).banks.getD bank {}).openRow).isSome then modBank sc bank (fun x => { x with openRow := none }) s else s
  | .selfRefreshEntry ch => selfRefreshEntry ch
  | .patrolScrub errors => patrolScrub errors
  | .evaluationPoint r => evaluationPoint r
  | .holdOffComplete => holdOffComplete
  | .tideEnable v => tideEnable v
  | .inputFault i => inputFault i
  | .inputFaultClear i => fun s => setN 0x0400 0x14 (setBit (getN 0x0400 0x14 s) i false) s
  | .tideLock => fun s => if tideState s = 1 ∧ s.mains.advancing then setN 0x0400 9 2 s else s
  | .tideLockLost => fun s => if tideState s = 2 then setN 0x0400 9 1 s else s
  | .bollardLatch i off => fun s => bolLatch i (timeAt off s) s
  | .acknowledge mask => acknowledge mask
  | .activeLevel mask => activeLevel mask
  | .rungRequest n => rungRequest n
  | .wake source exitUs => wakeUp source exitUs
  | .powerOnReset p => wholeReset 1 0 0 {} p
  | .nrst p => fun s => wholeReset 2 s.now s.frame s.log p s
  | .watchdog => warmReset 3
  | .warmReset => warmReset 4
  | .imageData offset data => imageData offset data
  | .verifyAndWrite => verifyAndWrite
  | .updateReady flashOk => updateReady flashOk
  | .activate => activateImage
  | .updateDiscard => updateDiscard
  | .confirm => fun s => setBootRecord { bootRecord s with pilotTrial := 0, berthTrial := 0 } s
  | .logbookFlushTimer => logFlush
  | .flush => logFlush
  | .blockEraseComplete => blockEraseComplete
  | .clear v => logClear v
  | .window sess => fun s => let r := logWindow sess s; emit (.value sess r.1) r.2
  | .calibrationStart => calibrationStart
  | .settleTime b => settleTime b
  | .runComplete => runComplete
  | .calibrationAbort => fun s => if calRunning s then calAbort s else withResult 4 s
  | .apply => calApply
  | .calibrationDiscard => calibrationDiscard
  | .dieTemperature t => dieTemperature t
  | .lockOrAlignmentLost l => linkLost l 1
  | .echoReplyTimeout h token => echoReplyTimeout h token
  | .backOffComplete m => backOffComplete m
  | .syncInterval => syncInterval
  | .announceInterval => fun s => if getN 0x0803 0x0D s = 6 then nextSeq (emit (.ptp 0x0B s.ptp.outSeq 0 s.now) s) else s
  | .minimumDelayInterval => minimumDelayInterval
  | .signedLockoutEnd => setN 0x0200 5 0
  | .bulkAckInterval sess id => bulkAckInterval sess id
  | .portLinkDown port => portBit port false
  | .positiveGoingZeroCrossing => fun s =>
    if tideState s = 1 ∧ !s.mains.advancing then setN 0x0400 7 0 (modMains (fun m => { m with advancing := true }) s)
    else s

end Sys2Proof.Machine
end

