-- ==== Sys2Proof/Safety.lean ====
section
/-!
DEFINITION. Sys2Proof/Safety.lean: what counts as a safe state, and when a command may act, in the words of the claims.
-/
namespace Sys2Proof

/-- The invariant of the block: DRAM keeps its canonical form. -/
abbrev Safe (s : Machine.State) : Prop := Machine.Memory.wf s.dram

/-- A command names something of the part, and the domain in which it acts runs (R340, R346). -/
abbrev Ready (c : Instr) (s : Machine.State) : Prop := c.wf = true ∧ Machine.running c s = true

/-- The commands that may write DRAM: an access, a commit, a coded block, an answered request, a reset; a command that may stop a berth, whose
streams then stand; a frame of a camera or of a feature. -/
def writesDram : Instr → Bool
  | .pauseAtSafePoint _ | .pauseNow _ _ | .resume _ _ | .berthReset _ _ | .safePointReached _ | .objectWrite _ _ _ _ |
  .loadData _ _ | .repairComplete _ _ | .noHostCopy _ | .lockGateCommit | .lockTimeout | .endReached _ | .waitTimeout _ |
  .feedback _ _ | .eventGroup _ | .status _ _ | .temperatureReportTimeout _ | .recordMissing _ | .budgetWaitTimeout _ |
  .budgetWithdrawal _ | .reassignment | .tile _ _ | .csiPacket _ _ | .tileProcessed _ | .featureCharted | .bufferClosed |
  .blockCoded | .streamResume _ | .gapEntry _ | .sampleAnchor _ | .linkDisable _ | .feedbackMissing _ | .configReply _ _ |
  .configTimeout _ | .seatFrameMissing _ | .closeSession _ _ | .keepalive _ _ | .read _ _ _ | .write _ _ _ | .writeFenced _ _ _
  | .bulkBegin _ _ _ | .bulkData _ _ _ _ | .subscribe _ _ _ | .signProof _ _ _ _ | .hostSilence |
  .spiWrite _ _ | .spiWriteFenced _ _ | .memoryRequest _ | .patrolScrub _ | .evaluationPoint _ | .holdOffComplete |
  .tideEnable _ | .inputFault _ | .bollardLatch _ _ | .activeLevel _ | .rungRequest _ | .wake _ _ | .watchdog | .warmReset |
  .lockOrAlignmentLost _ | .loopFrame _ | .powerOnReset _ | .nrst _ => true
  | _ => false

/-- Commands of the network, the clock, the logbook and the store that carry no write of an object by a session. -/
def servesTheHost : Instr → Bool
  | .sync _ | .followUp _ | .delayReq _ | .delayResp _ | .pdelayReq _ | .pdelayResp _ | .announce _ | .announceReceiptTimeout
  | .servoLocked | .timeSet _ | .syncInterval | .announceInterval | .minimumDelayInterval | .discover | .presence _ | .portLinkUp _
  | .portLinkDown _ | .ethernetFrame _ _ | .openSession _ | .sessionTimeout _ | .noticeBatch _ | .reportPeriod _ _ | .bulkAck _ _ _
  | .bulkResendTimeout _ _ | .bulkAckInterval _ _ | .signedLockoutEnd | .spiStatus | .fetchReply | .fetchNotices
  | .fence _ | .window _ | .flush | .logbookFlushTimer | .blockEraseComplete | .clear _ | .store | .storeComplete _
  | .restoreDefaults | .dieTemperature _ => true
  | _ => false

/-- Commands of the axes, the counters, the lamps, the links in training, the memory controller, the tracker, the released charts and the
compressor's jobs that reach no berth. -/
def servesTheChamber : Instr → Bool
  | .target _ _ | .strokeEnd _ | .stopDecelerate _ | .stopFreeze _ | .motionHoldClear | .stallClear _ | .home _
  | .homingTravelLimit _ | .standstillDelay _ | .idleAction _ | .energiseComplete _ | .backOffComplete _ | .referenceArm _
  | .counterStandstill _ | .wakeRelease | .lampTemperatureRead _ | .lampBoardTimeout _ | .channelDiagnosis _ | .sequenceStop
  | .signalDetected _ | .commaAligned _ _ | .lanesDeskewed _ _ _ | .equaliseComplete _ _ | .caps _ _ | .trainingTimeout _
  | .retryInterval _ | .linkEnable _ | .eyeMargin _ _ | .retrain _ | .retrainStart _ | .measurementInterval _ | .echoReply _ _ _ _
  | .echoReplyTimeout _ _ | .configWrite _ _ _ | .configRead _ _ | .data _ _ | .trainingComplete _ | .dqsOscillatorCheck _
  | .refresh _ _ | .pageIdleClose _ _ | .selfRefreshEntry _ | .positiveGoingZeroCrossing | .tideLock | .tideLockLost
  | .inputFaultClear _ | .release _ | .exportLayer _ | .jobStart | .jobAbort | .jobSaveState | .jobResume
  | .readPointer _ _ => true
  | _ => false

/-- The berths, their loops, contexts and slots, the commit sequencer, the calibration and the breakwater stand as they did: their records,
and the objects of the harbourmaster, the berths, the loops, the contexts, the breakwater and the manifest queues. -/
def SameBerths (s t : Machine.State) : Prop :=
  t.berths = s.berths ∧ t.loops = s.loops ∧ t.ctxs = s.ctxs ∧ t.commit = s.commit ∧ t.cal = s.cal ∧ t.bw = s.bw ∧ t.dram = s.dram ∧
    ∀ i k, k < 256 → (0x1000 ≤ i ∧ i < 0x3000 ∨ 0x4100 ≤ i ∧ i < 0x4800 ∨ 0x5100 ≤ i ∧ i < 0x5200 ∨ 0x8000 ≤ i ∧ i < 0xF000) →
      Machine.getV i k t = Machine.getV i k s

end Sys2Proof
end

