-- ==== Sys2Proof/Certificates/Slice0/Obligations.lean ====
section
/-!
DEFINITION. Sys2Proof/Certificates/Slice0/Obligations.lean: the statements for the provers. Each names the rules it follows; a
completion statement says under which conditions on the state and operands a command has its own effect.
-/
open Sys2Proof Sys2Proof.Machine


/-- R31, R33, R35, R67, R68, R89 (tier 2): a pause at safe point takes an Armed berth to Holding with the resume point at record 0, kind 1; a
pause now takes it to Paused, kind 3; either leaves GATE low, its cause shown, and the other berths as they were. A pause now of an Exposing berth outside a handover
window leaves it Holding or Paused with cause 0x0002, its gate low and nothing of its schedule pending. -/
def Obligations.BerthsPause : Prop :=
  (∀ (b off : Nat) (s : State), bState b s = 1 →
    (Ready (.pauseAtSafePoint b) s → ∃ t, exec (.pauseAtSafePoint b) s = .next t ∧ bState b t = 3 ∧ getN (bi b 0) 6 t = 0x0001 ∧
      getN (bi b 1) 2 t = 0 ∧ getN (bi b 1) 8 t = 1 ∧ (berth b t).gate = false ∧
      ∀ c, c < 24 → c ≠ b → berth c t = berth c s ∧ bState c t = bState c s) ∧
    (Ready (.pauseNow b off) s → ∃ t, exec (.pauseNow b off) s = .next t ∧ bState b t = 4 ∧ getN (bi b 0) 6 t = 0x0002 ∧
      getN (bi b 1) 2 t = 0 ∧ getN (bi b 1) 8 t = 3 ∧ (berth b t).gate = false ∧
      ∀ c, c < 24 → c ≠ b → berth c t = berth c s ∧ bState c t = bState c s)) ∧
  (∀ (b off : Nat) (s : State), Ready (.pauseNow b off) s → bState b s = 2 → (berth b s).handover.phase ≠ 2 →
    ∃ t, exec (.pauseNow b off) s = .next t ∧ (bState b t = 3 ∨ bState b t = 4) ∧ getN (bi b 0) 6 t = 0x0002 ∧
      (berth b t).gate = false ∧ (berth b t).gateSched = false ∧ (berth b t).finals = [])

/-- R69, R79, R80, R84, R89, R379 (tier 2): a berth reset leaves the berth Idle with no cause and no resume point, its gate low, and ends a
calibration of it; the end of a deceleration leaves the berth standing; END takes it to Idle. A group of final events acts and is counted,
the one known before unless an event that becomes final opens an earlier one; a power sample puts its word in force and plans the word of
the next frame, zero for a berth that is not Exposing. In part the model's own reading: log 22. -/
def Obligations.BerthEndsResetsAndFires : Prop :=
  (∀ (b off : Nat) (s : State), Ready (.berthReset b off) s →
    ∃ t, exec (.berthReset b off) s = .next t ∧ bState b t = 0 ∧ getN (bi b 0) 6 t = 0 ∧ getN (bi b 1) 8 t = 0 ∧
      (berth b t).gate = false ∧ (calRunning s = true → bit s.cal.mask b = true → getN 0x0603 3 t = 6)) ∧
  (∀ (b : Nat) (s : State), Ready (.decelerationComplete b) s → (berth b s).halting = true →
    ∃ t, exec (.decelerationComplete b) s = .next t ∧ (berth b t).halting = false ∧ (berth b t).plan = [] ∧ t.obj = s.obj) ∧
  (∀ (b : Nat) (s : State), Ready (.endReached b) s → bState b s = 2 → (berth b s).annexes = [] →
    (berth b s).handover.stopAtC0 = none →
    ∃ t, exec (.endReached b) s = .next t ∧ bState b t = 0 ∧ (berth b t).gate = false ∧ (berth b t).plan = [] ∧
      getN 0x1806 (0x10 + b) t = 0xFF) ∧
  (∀ (b : Nat) (u : Time) (l rest : List FinalEvent) (s : State), Ready (.eventGroup b) s → bState b s = 2 →
    nextGroup b s = some (u, l, rest) →
    ∃ t v, exec (.eventGroup b) s = .next t ∧ getN (bi b 6) 1 t = (getN (bi b 6) 1 s + 1) % 2 ^ 64 ∧
      (berth b t).lastGroup = some v ∧ v ≤ u ∧ (pendingEvents b s = [] → v = u)) ∧
  (∀ (b j : Nat) (s : State), Ready (.powerSample b j) s →
    ∃ t, exec (.powerSample b j) s = .next t ∧ getN (bi b 3) 2 t = (berth b s).power.getD j 0 ∧ (berth b t).words.length = j + 1 ∧
      (bState b s ≠ 2 → (berth b t).words.getD j 0 = 0) ∧ t.dram = s.dram)

/-- R61, R36, R90, R269 (tier 2): an Armed berth whose start frame has come is Exposing; a resume that nothing bars makes a Holding or Paused
berth Exposing with no cause; a wake-held berth whose line has passed resumes. In part the model's own reading: log 75. -/
def Obligations.BerthStartsAndResumes : Prop :=
  (∀ (b f : Nat) (s : State), Ready .exposingStart s → b < 24 → bState b s = 1 → (berth b s).startFrame = some f → f ≤ s.frame →
    ∃ t, exec .exposingStart s = .next t ∧ bState b t = 2 ∧ (berth b t).startFrame = none) ∧
  (∀ (b off : Nat) (s : State), Ready (.resume b off) s → bState b s = 3 ∨ bState b s = 4 → resumesInPair b s = none →
    resumeBar b s = none → clearanceBar [b] (resumePath b none (timeAt off s) (withJoin b 0 (fresh s))) = none →
    ∃ t, exec (.resume b off) s = .next t ∧ bState b t = 2 ∧ getN (bi b 0) 6 t = 0 ∧ (berth b t).resuming = true ∧ t.result = 0) ∧
  (∀ (b : Nat) (w : WakeHold) (s : State), Ready (.wakeResume b) s → (berth b s).wake = some w → bState b s = 2 →
    getN (bi b 0) 7 s = 1 → (getN 0x7300 0x0A s = 3 ∨ w.q + getI 0x7300 6 s ≤ wakeLine b s) →
    ∃ t, exec (.wakeResume b) s = .next t ∧ getN (bi b 0) 7 t = 0 ∧ (berth b t).resuming = true ∧ (berth b t).halting = false ∧
      bState b t = 2)

/-- R31, R47, R89 (tier 2): an Exposing berth that reaches the safe point of its pause holds there, and pauses where the place of its pause
is none; one whose FENCE or WAIT is not complete in its time holds at that record; a WAIT whose count meets its target, and a FENCE at which
every berth of its mask of this chip waits, is left. In part the model's own reading: log 45. -/
def Obligations.SafePointsAndWaits : Prop :=
  (∀ (b : Nat) (st : SafeStop) (s : State), Ready (.safePointReached b) s → bState b s = 2 → (berth b s).stopAt = some st →
    (∀ p, (safePoints b s)[(berth b s).stretch]? = some p → st.g ≤ p.2) → (berth b s).handover.stopAtC0 = none →
    ∃ t, exec (.safePointReached b) s = .next t ∧ bState b t = (if ∃ p ∈ safePoints b s, p.2 = st.g then 3 else 4) ∧
      getN (bi b 0) 6 t = st.cause ∧ getN (bi b 1) 2 t = st.ri ∧ getI (bi b 1) 3 t = 0 ∧
      getN (bi b 1) 8 t = (if ∃ p ∈ safePoints b s, p.2 = st.g then 1 else 2) ∧ (berth b t).gate = false ∧ (berth b t).stopAt = none) ∧
  (∀ (b ri : Nat) (u : Time) (s : State), Ready (.waitTimeout b) s → bState b s = 2 → (berth b s).waitingAt = some (ri, u) →
    ∃ t, exec (.waitTimeout b) s = .next t ∧ bState b t = 3 ∧ getN (bi b 0) 6 t = 0x000E ∧ getN (bi b 1) 2 t = ri ∧
      getI (bi b 1) 3 t = 0 ∧ getN (bi b 1) 8 t = 1 ∧ (berth b t).waitingAt = none) ∧
  (∀ (b ri : Nat) (u : Time) (r : Rec) (c : Int) (s : State), Ready (.waitComplete b) s → bState b s = 2 →
    (berth b s).waitingAt = some (ri, u) → r = mfRec b ri s → r.ty = 8 → c = getI (ei (field r.raw 8 1) 1) 1 s →
    (field r.raw 9 1 = 0 → fieldI r.raw 4 4 ≤ c) → (field r.raw 9 1 ≠ 0 → c ≤ fieldI r.raw 4 4) →
    ∃ t, exec (.waitComplete b) s = .next t ∧ bState b t = 2 ∧
      ∀ p, (berth b t).waitingAt = some p → ri < p.1) ∧
  (∀ (b ri id : Nat) (u : Time) (r : Rec) (s : State), Ready (.fenceComplete id) s → b < 24 → bState b s = 2 →
    (berth b s).waitingAt = some (ri, u) → r = mfRec b ri s → r.ty = 6 → field r.raw 4 4 = id →
    (∀ h c, h < 192 → bit (field r.raw 8 24) h = true → localBerth h s = some c →
      ∃ q, waitsAt c 6 s = some q ∧ field q.raw 4 4 = id) →
    ∃ t, exec (.fenceComplete id) s = .next t ∧ bState b t = 2 ∧ ∀ p, (berth b t).waitingAt = some p → ri < p.1)

/-- R52, R53, R55, R403 (tier 2): load data enters the selected slot of a berth at the window offset, which moves past it; nothing else of
DRAM changes; the slot is Loading. A close length starts the validation of a slot; validation ends in Ready or Refused by the checks of
R403; a repaired slot whose contents match their check is In force again; a slot clear empties a slot that is not in use. In part the
model's own reading: log 33, 34 and 47. -/
def Obligations.ManifestSlots : Prop :=
  (∀ (b : Nat) (d : List Byte) (s : State), Ready (.loadData b d) s → Memory.wf s.dram → memoryFailed s = false →
    slotState b (slotSelect b s) s ≠ 2 → slotState b (slotSelect b s) s ≠ 3 → slotState b (slotSelect b s) s ≠ 5 →
    slotState b (slotSelect b s) s ≠ 6 → slotSelect b s < 4 → getN (qi b) 2 s + d.length ≤ slotSize s →
    ∃ t, exec (.loadData b d) s = .next t ∧ slotState b (slotSelect b s) t = 1 ∧ getN (qi b) 2 t = getN (qi b) 2 s + d.length ∧
      readBytes (slotBase b (slotSelect b s) s + getN (qi b) 2 s) d.length t.dram = d ∧
      ∀ a, a < slotBase b (slotSelect b s) s + getN (qi b) 2 s ∨ slotBase b (slotSelect b s) s + getN (qi b) 2 s + d.length ≤ a →
        readByte a t.dram = readByte a s.dram) ∧
  (∀ (b len : Nat) (s : State), Ready (.closeLength b len) s → slotSelect b s < 4 → slotState b (slotSelect b s) s ≠ 2 →
    slotState b (slotSelect b s) s ≠ 3 → slotState b (slotSelect b s) s ≠ 5 → slotState b (slotSelect b s) s ≠ 6 →
    ∃ t, exec (.closeLength b len) s = .next t ∧ slotState b (slotSelect b s) t = 2 ∧
      (berth b t).closeLens.find (slotSelect b s) = some len ∧ t.dram = s.dram) ∧
  (∀ (b k : Nat) (s : State), Ready (.validationComplete b k) s → slotState b k s = 2 →
    ∃ t, exec (.validationComplete b k) s = .next t ∧ slotLayer b k t = header (slotBase b k s) 8 4 s ∧ t.dram = s.dram ∧
      slotState b k t = if (validate b k ((berth b s).closeLens.getD k 0)
        (setSlotLayer b k (header (slotBase b k s) 8 4 s) (fresh s))).isNone then 3 else 4) ∧
  (∀ (b k len : Nat) (s : State), Ready (.repairComplete b k) s → slotState b k s = 6 → (berth b s).closeLens.find k = some len →
    crc32c (dramRead (slotBase b k s + 64) (header (slotBase b k s) 0x24 4 s - 64) s) = header (slotBase b k s) 0x38 4 s →
    ∃ t, exec (.repairComplete b k) s = .next t ∧ slotState b k t = 5 ∧ getN (qi b) 0x10 t = 0 ∧ (berth b t).damaged = none) ∧
  (∀ (b k : Nat) (s : State), Ready (.slotClear b k) s → slotState b k s ≠ 2 → slotState b k s ≠ 5 → slotState b k s ≠ 6 →
    reportedReady s = false →
    ∃ t, exec (.slotClear b k) s = .next t ∧ slotState b k t = 0 ∧ slotLayer b k t = 0 ∧ t.result = 0 ∧ t.dram = s.dram) ∧
  (∀ (b k : Nat) (s : State), Ready (.noHostCopy b) s → k < 4 → slotState b k s = 6 →
    ∃ t, exec (.noHostCopy b) s = .next t ∧ bState b t = 5)

/-- R114, R116, R118-R120, R247 (tier 2): a harbour command waits for the next SPOT frame; nothing else changes. A berth that waited too long
for its reservation holds; a budget withdrawal clears the run of overloads and counts; a reassignment is asked for and gives a Holding
source's remaining run to a candidate. In part the model's own reading: log 20. -/
def Obligations.HarbourCommands : Prop :=
  (∀ s : State,
    (Ready .harbourPauseAtSafePoint s → exec .harbourPauseAtSafePoint s = .next { fresh s with hm := { s.hm with command := some 1 } }) ∧
    (Ready .harbourPauseNow s → exec .harbourPauseNow s = .next { fresh s with hm := { s.hm with command := some 2 } }) ∧
    (Ready .harbourResume s → exec .harbourResume s = .next { fresh s with hm := { s.hm with command := some 3 } })) ∧
  (∀ (b : Nat) (s : State), Ready (.budgetWaitTimeout b) s → bState b s = 2 → (berth b s).waitSince.isSome →
    ∃ t, exec (.budgetWaitTimeout b) s = .next t ∧ bState b t = 3 ∧ getN (bi b 0) 6 t = 0x0004 ∧
      getN (bi b 1) 2 t = (berth b s).goFrom ∧ (berth b t).waitSince = none) ∧
  (∀ (p : Nat) (r : SpotRecord) (s : State), Ready (.budgetWithdrawal p) s → 8 ≤ s.hm.excess.getD p 0 →
    withdrawalBerth (p + 1) { fresh s with hm := { s.hm with excess := s.hm.excess.set p 0 } } = some r →
    ∃ t, exec (.budgetWithdrawal p) s = .next t ∧ t.hm.excess.getD p 0 = 0 ∧ getN 0x1808 4 t = (getN 0x1808 4 s + 1) % 2 ^ 32) ∧
  (∀ (b : Nat) (s : State), Ready (.reassignBerth b) s → bState b s = 3 → getN 0x1806 1 s ≠ 0 →
    exec (.reassignBerth b) s = .next { fresh s with hm := { s.hm with trigger := s.hm.trigger ++ [b] } }) ∧
  (∀ (b c : Nat) (run : Nat × Nat) (s u : State), Ready .reassignment s → s.hm.trigger = [b] →
    u = { fresh s with hm := { s.hm with trigger := [] } } → bState b s = 3 → getN 0x1806 1 s ≠ 0 → remainingRuns b u = [run] →
    leastBy (fun t => (annexLoad t u).1) (berthList.filter (fun t => mayTake b run t u)) = some c →
    ∃ t, exec .reassignment s = .next t ∧ t.hm.trigger = [] ∧
      (berth c t).annexes = (berth c s).annexes ++ [{ src := b, first := run.1, last := run.2 }] ∧
      getN 0x1806 3 t = (getN 0x1806 3 s + 1) % 2 ^ 32)

/-- R56, R57, R65, R295, R296 (tier 2): a group is sealed for a layer by a session that may write, the breakwater's by a write whose signature
verifies; a group is unsealed unless the chip has reported itself ready. In part the model's own reading: log 59. -/
def Obligations.GroupsAreSealed : Prop :=
  (∀ (n g l : Nat) (sig : List Byte) (s : State), Ready (.groupSeal n g l sig) s → (g ≠ 2 → writeBar n s = 0) →
    (g = 2 → (rwpCheck n 0x8002 (sealSub 2) 0 (toLe 4 l) sig (fresh s)).1 = 0) →
    ∃ t, exec (.groupSeal n g l sig) s = .next t ∧ sealOf g t = l ∧ t.result = 0 ∧ t.dram = s.dram) ∧
  (∀ (n g : Nat) (sig : List Byte) (s : State), Ready (.groupUnseal n g sig) s → (g ≠ 2 → writeBar n s = 0) →
    (g = 2 → (rwpCheck n 0x8002 (sealSub 2) 0 (toLe 4 0) sig (fresh s)).1 = 0) → reportedReady s = false →
    ∃ t, exec (.groupUnseal n g sig) s = .next t ∧ sealOf g t = 0 ∧ t.result = 0 ∧ t.dram = s.dram)

/-- R60, R62, R64 (tier 2): a commit request is taken where no commit waits; its window opens at once, at the crossing of the opening position
or at the opening time; a request that is not ready by its time-out fails and lists what is missing; an abort ends it. In part the model's
own reading: log 37 and 38. -/
def Obligations.CommitRequestAndWindow : Prop :=
  (∀ (L : Nat) (s : State), Ready (.commitRequest L) s → commitWaiting s = false → (s.hm.size = 1 ∨ s.hm.seatNo = 0) →
    ∃ t, exec (.commitRequest L) s = .next t ∧ t.commit.layer = L ∧ t.result = 0 ∧
      (getN 0x8000 2 s = 0 → getN 0x8000 8 t = 2 ∧ t.commit.openedAt = some s.now) ∧
      (getN 0x8000 2 s = 1 → getN 0x8000 8 t = 1 ∧ t.commit.openedAt = none)) ∧
  (∀ s : State, Ready .lockWindowOpen s → getN 0x8000 8 s = 1 → layerHeld s = false →
    (getN 0x8000 2 s = 1 ∧ openingMet s = true ∧ s.commit.met = false ∨ getN 0x8000 2 s = 2 ∧ openingDue s = true) →
    ∃ t, exec .lockWindowOpen s = .next t ∧ getN 0x8000 8 t = 2 ∧ t.commit.openedAt = some s.now) ∧
  (∀ s : State, Ready .lockTimeout s → getN 0x8000 8 s = 2 → s.commit.decided = none → s.hm.size = 1 →
    missing s.commit.layer s ≠ [] →
    ∃ t, exec .lockTimeout s = .next t ∧ getN 0x8000 8 t = 4 ∧
      getN 0x8000 0x0B t = min 256 (missing s.commit.layer s).length) ∧
  (∀ s : State, Ready .commitAbort s → (s.hm.size = 1 ∨ s.hm.seatNo = 0) → commitWaiting s = true → s.commit.decided = none →
    ∃ t, exec .commitAbort s = .next t ∧ getN 0x8000 8 t = 5 ∧ t.result = 0)

/-- R57, R60, R61, R66 (tier 3): at a ready boundary of an open window the layer of a chip alone comes into force: the status is Committed,
the layer in force is the layer asked for, every group sealed for it takes effect and its seal returns to 0, and every berth with a Ready
slot for it is Armed on that slot, now In force. In a harbour the layer that seat 0 decided comes into force in the same way at the commit
frame; where this seat has committed it before, its Armed berths start with the next loop cycle. In part the model's own reading: log 37. -/
def Obligations.LockGateCommitTakesTheLayer : Prop :=
  (∀ (u : Time) (s : State), Ready .lockGateCommit s → s.hm.size = 1 → s.hm.seatNo = 0 → layerHeld s = false → getN 0x8000 8 s = 2 →
    s.commit.openedAt = some u → u < s.now → missing s.commit.layer s = [] → committedAlready s.commit.layer s = false →
    ∃ t, exec .lockGateCommit s = .next t ∧ getN 0x8000 8 t = 3 ∧ getN 0x8000 9 t = s.commit.layer ∧ getN 0x8000 0x0B t = 0 ∧
      (∀ g, g < 28 → sealOf g s = s.commit.layer → sealOf g t = 0) ∧
      (∀ b k, (b, k) ∈ readyBerths s.commit.layer s → bState b t = 1 ∧ slotState b k t = 5)) ∧
  (∀ (f : Nat) (s : State), Ready .lockGateCommit s → s.hm.size ≠ 1 → layerHeld s = false → s.commit.decided = some f → f ≤ s.frame →
    committedAlready s.commit.decidedLayer s = false →
    ∃ t, exec .lockGateCommit s = .next t ∧ getN 0x8000 8 t = 3 ∧ getN 0x8000 9 t = s.commit.decidedLayer ∧ t.commit.decided = none ∧
      (∀ g, g < 28 → sealOf g s = s.commit.decidedLayer → sealOf g t = 0) ∧
      (∀ b k, (b, k) ∈ readyBerths s.commit.decidedLayer s → bState b t = 1 ∧ slotState b k t = 5)) ∧
  (∀ (f : Nat) (s : State), Ready .lockGateCommit s → s.hm.size ≠ 1 → layerHeld s = false → s.commit.decided = some f → f ≤ s.frame →
    committedAlready s.commit.decidedLayer s = true →
    ∃ t, exec .lockGateCommit s = .next t ∧ getN 0x8000 8 t = 3 ∧ t.dram = s.dram ∧
      (∀ b, b < 24 → bState b s = 1 → nonExcused s b = true → (berth b t).startFrame = some (nextCycle s)))

/-- R134, R138, R147 (tier 2): a bank select and a loop mode wait in the loop's shadow; a trip is cleared where its check passes. In part the
model's own reading: log 45. -/
def Obligations.LoopCommands : Prop :=
  (∀ (n v : Nat) (s : State), Ready (.bankSelect n v) s → v ≤ 1 →
    ∃ t, exec (.bankSelect n v) s = .next t ∧ shadowI (li n 1) 4 t = v ∧ t.obj = s.obj ∧ t.result = 0) ∧
  (∀ (n v : Nat) (s : State), Ready (.loopMode n v) s → v ≤ 1 → (v = 1 → getN (li n 0) 1 s ≠ 0) →
    ∃ t, exec (.loopMode n v) s = .next t ∧ shadowI (li n 1) 1 t = v ∧ bit (getN (li n 5) 3 t) 7 = true ∧ t.result = 0) ∧
  (∀ (n : Nat) (s : State), Ready (.tripClear n) s → tripPasses n s = true →
    ∃ t, exec (.tripClear n) s = .next t ∧ getN (li n 5) 9 t = 0 ∧ bit (getN (li n 5) 3 t) 4 = false ∧ t.result = 0)

/-- R253, R254, R258 (tier 2): a target starts a stroke of an axis in Standstill; a stroke ends at its goal; the two stop commands decelerate
or freeze it; motion hold is cleared alone. -/
def Obligations.AxisStrokes : Prop :=
  (∀ (m : Nat) (pos : Int) (s : State), Ready (.target m pos) s → axisState m s = 1 → motionHeld s = false → axisBarred m s = false →
    ∃ t, exec (.target m pos) s = .next t ∧ axisState m t = 2 ∧ (axis m t).goal = pos ∧ (axis m t).start = getI (mi m 1) 6 s ∧
      (axis m t).hold = (if (axis m s).hold = 2 then 3 else 0) ∧ t.result = 0 ∧ t.dram = s.dram) ∧
  (∀ (m : Nat) (s : State), Ready (.strokeEnd m) s → axisState m s = 2 →
    ∃ t, exec (.strokeEnd m) s = .next t ∧ axisState m t = 1 ∧ getI (mi m 1) 6 t = (axis m s).goal ∧ getI (mi m 1) 7 t = 0) ∧
  (∀ (m : Nat) (s : State), Ready (.stopDecelerate m) s → axisState m s = 2 ∨ axisState m s = 3 →
    ∃ t, exec (.stopDecelerate m) s = .next t ∧ axisState m t = 2 ∧ (axis m t).stopping = true ∧ (axis m t).homing = 0 ∧
      getI (mi m 1) 6 t = (axisAt m s.now s).1) ∧
  (∀ (m : Nat) (s : State), Ready (.stopFreeze m) s → axisState m s = 2 ∨ axisState m s = 3 →
    ∃ t, exec (.stopFreeze m) s = .next t ∧ axisState m t = 1 ∧ getI (mi m 1) 6 t = (axisAt m s.now s).1 ∧ getI (mi m 1) 7 t = 0) ∧
  (∀ s : State, Ready .motionHoldClear s → exec .motionHoldClear s = .next (setN 0x7080 1 0 (fresh s)))

/-- R255-R258 (tier 2): a stall freezes a moving axis and counts; in homing it fixes the home position and backs off; a home command searches,
its travel limit fails it, the back-off completes it; a stall is cleared to Standstill. The standstill current, the idle action and the
energise time of an axis follow one another. -/
def Obligations.AxisStallsHomingAndStandstill : Prop :=
  (∀ (m : Nat) (s : State), Ready (.stall m) s → axisState m s = 2 → getN (mi m 2) 3 s ≤ (axisAt m s.now s).2.natAbs →
    ∃ t, exec (.stall m) s = .next t ∧ axisState m t = 4 ∧ getI (mi m 1) 6 t = (axisAt m s.now s).1 ∧
      getN (mi m 2) 0x15 t = (getN (mi m 2) 0x15 s + 1) % 2 ^ 32) ∧
  (∀ (m : Nat) (s : State), Ready (.stall m) s → axisState m s = 3 → (axis m s).homing = 1 →
    getN (mi m 2) 0x0F s ≤ ((axisAt m s.now s).1 - (axis m s).homeStart).natAbs →
    ∃ t, exec (.stall m) s = .next t ∧ axisState m t = 3 ∧ (axis m t).homing = 2 ∧ getI (mi m 1) 6 t = getI (mi m 2) 0x11 s) ∧
  (∀ (m : Nat) (s : State), Ready (.stallClear m) s → axisState m s = 4 →
    ∃ t, exec (.stallClear m) s = .next t ∧ axisState m t = 1 ∧ getI (mi m 1) 6 t = getI (mi m 1) 6 s ∧ t.result = 0) ∧
  (∀ (m : Nat) (s : State), Ready (.home m) s → axisState m s = 1 ∨ axisState m s = 4 ∨ axisState m s = 5 → motionHeld s = false →
    axisBarred m s = false →
    ∃ t, exec (.home m) s = .next t ∧ axisState m t = 3 ∧ (axis m t).homing = 1 ∧ (axis m t).homeStart = getI (mi m 1) 6 s ∧
      t.result = 0) ∧
  (∀ (m : Nat) (s : State), Ready (.homingTravelLimit m) s → axisState m s = 3 → (axis m s).homing = 1 →
    ∃ t, exec (.homingTravelLimit m) s = .next t ∧ axisState m t = 5 ∧ (axis m t).homing = 0) ∧
  (∀ (m : Nat) (s : State), Ready (.backOffComplete m) s → axisState m s = 3 → (axis m s).homing = 2 →
    ∃ t, exec (.backOffComplete m) s = .next t ∧ axisState m t = 1 ∧ getI (mi m 1) 6 t = (axis m s).goal ∧
      bit (getN (mi m 1) 9 t) 0 = true) ∧
  (∀ (m : Nat) (s : State), Ready (.standstillDelay m) s → axisState m s = 1 → (axis m s).hold = 0 →
    ∃ t, exec (.standstillDelay m) s = .next t ∧ (axis m t).hold = 1 ∧ bit (getN (mi m 1) 9 t) 1 = true) ∧
  (∀ (m : Nat) (s : State), Ready (.idleAction m) s → axisState m s = 1 → (axis m s).hold = 1 → getN (mi m 2) 9 s ≠ 0 →
    getN (mi m 2) 8 s = 1 ∨ getN (mi m 2) 8 s = 2 →
    ∃ t, exec (.idleAction m) s = .next t ∧ (axis m t).hold = 2 ∧ bit (getN (mi m 1) 9 t) 0 = false ∧
      bit (getN (mi m 1) 9 t) (getN (mi m 2) 8 s + 1) = true) ∧
  (∀ (m : Nat) (s : State), Ready (.energiseComplete m) s → (axis m s).hold = 3 →
    exec (.energiseComplete m) s = .next (modAxis m (fun x => { x with hold := 0, t0 := s.now }) (fresh s)))

/-- R259-R264, R267 (tier 2): an edge of an encoder counts one step in its sense inside the soft limits; an index that is armed, or the first,
sets the count to the nearest index position and references the counter. A count is set within the soft limits and references the counter; an index is armed; a
good SSI frame gives the count within the soft limits; at standstill speed and direction read 0; a held wake is released once its cause is
gone. In part the model's own reading: log 26 and 27. -/
def Obligations.CountersAndWakeRelease : Prop :=
  (∀ (i off : Nat) (a b : Bool) (d : Int) (s : State), Ready (.encoderEdge i a b off) s → getN (ei i 0) 1 s ≠ 0 →
    ((ctr i s).a ≠ a ∧ (ctr i s).b = b ∨ (ctr i s).a = a ∧ (ctr i s).b ≠ b) →
    d = quadStep (ctr i s).a (ctr i s).b a b * (if getN (ei i 0) 2 s = 1 then -1 else 1) →
    getI (ei i 0) 4 s ≤ getI (ei i 1) 1 s + d → getI (ei i 1) 1 s + d ≤ getI (ei i 0) 5 s →
    ∃ t, exec (.encoderEdge i a b off) s = .next t ∧ getI (ei i 1) 1 t = getI (ei i 1) 1 s + d ∧ getI (ei i 1) 4 t = d ∧
      t.dram = s.dram) ∧
  (∀ (i off : Nat) (a b : Bool) (s : State), Ready (.indexPulse i a b off) s → getN (ei i 0) 1 s ≠ 0 →
    (bit (getN (ei i 0) 9 s) 2 = true ∨ a = bit (getN (ei i 0) 9 s) 0 ∧ b = bit (getN (ei i 0) 9 s) 1) →
    (ctrHas i 5 s = true ∨ ctrHas i 0 s = false) →
    ∃ t, exec (.indexPulse i a b off) s = .next t ∧ getI (ei i 1) 1 t = nearestIndex i (getI (ei i 1) 1 s) s ∧
      ctrHas i 0 t = true ∧ ctrHas i 5 t = false) ∧
  (∀ (i : Nat) (v : Int) (s : State), Ready (.countSet i v) s →
    ∃ t, exec (.countSet i v) s = .next t ∧ getI (ei i 1) 1 t = clamp v (getI (ei i 0) 4 s) (getI (ei i 0) 5 s) ∧ ctrHas i 0 t = true ∧ ctrHas i 4 t = false) ∧
  (∀ (i : Nat) (s : State), Ready (.referenceArm i) s →
    ∃ t, exec (.referenceArm i) s = .next t ∧ ctrHas i 5 t = true ∧ ctrHas i 3 t = false) ∧
  (∀ (i w off : Nat) (z c : Int) (s : State), Ready (.ssiFrame i w true true off) s → getN (ei i 0) 1 s ≠ 0 →
    z = ((if getN (ei i 0) 0x0D s = 1 then grayDecode (w % 2 ^ getN (ei i 0) 0x0C s) (getN (ei i 0) 0x0C s)
      else w % 2 ^ getN (ei i 0) 0x0C s : Nat) : Int) →
    c = clamp ((if getN (ei i 0) 2 s = 1 then -z else z) + getI (ei i 0) 0x0F s) (getI (ei i 0) 4 s) (getI (ei i 0) 5 s) →
    ∃ t, exec (.ssiFrame i w true true off) s = .next t ∧ getI (ei i 1) 1 t = c ∧ (ctr i t).badRun = 0 ∧ ctrHas i 0 t = true) ∧
  (∀ (i : Nat) (s : State), Ready (.counterStandstill i) s →
    ∃ t, exec (.counterStandstill i) s = .next t ∧ getN (ei i 1) 3 t = 0 ∧ getI (ei i 1) 4 t = 0 ∧ (ctr i t).lastEdge = none) ∧
  (∀ s : State, Ready .wakeRelease s → getN 0x7300 0x0A s = 2 → wakeCause s = 0 →
    exec .wakeRelease s = .next (setN 0x7300 0x0B 0 (setN 0x7300 0x0A 1 (fresh s))))

/-- R153, R155-R157, R310 (tier 2): a host trigger of an enabled layer context begins the next frame; enabling a context takes its granules
and starts its sets anew; disabling it discards its frames. In part the model's own reading: log 69. -/
def Obligations.ContextsAndTriggers : Prop :=
  (∀ (c off n : Nat) (s : State), Ready (.hostTrigger c off) s → ctxOn c s = true → getN (ci c 0) 5 s = 0 →
    (∀ u, (ctx c s).lastTrig = some u → u + getN (ci c 0) 7 s * nsT ≤ timeAt off s) →
    n = (if (ctx c s).firstTrigger then 0 else (getN (ci c 5) 1 s + 1) % 2 ^ 32) →
    ∃ t, exec (.hostTrigger c off) s = .next t ∧ getN (ci c 5) 1 t = n ∧ (ctx c t).lastTrig = some (timeAt off s) ∧
      (∃ f ∈ (ctx c t).frames, f.num = n ∧ f.trig = timeAt off s) ∧ t.result = 0) ∧
  (∀ (c a : Nat) (s : State), Ready (.contextEnable c true) s → ctxOn c s = false → (c < 24 → headAllows c s = true) →
    firstFit (granulesFor c s) s = some a →
    ∃ t, exec (.contextEnable c true) s = .next t ∧ ctxOn c t = true ∧ t.vision.granules.find c = some (a, granulesFor c s) ∧
      (ctx c t).frames = [] ∧ getN (ci c 5) 2 t = 0 ∧ t.result = 0) ∧
  (∀ (c : Nat) (s : State), Ready (.contextEnable c false) s → ctxOn c s = true → (∀ e ∈ s.shadow, e.1 ≠ key (ci c 0) 1) →
    ∃ t, exec (.contextEnable c false) s = .next t ∧ ctxOn c t = false ∧ (ctx c t).frames = [] ∧ t.result = 0)

/-- R149-R152, R165, R167, R239 (tier 2): a tile in sequence moves the sequence on, one out of sequence asks for the missing one; a frame start opens a frame of a layer context and a frame
end closes it; a frame that stays incomplete is discarded whole and counted. A tile ready at its context's turn is processed; a
declared overload drops frames until the pending work is no greater than its threshold, or stays declared. In part the model's own
reading: log 68. -/
def Obligations.FramesArriveAndAreProcessed : Prop :=
  (∀ (h : Nat) (w : WireFrame) (f : TileFrame) (s : State), Ready (.tile h w) s → hears h s = true → frameGood 0x83 w.bytes w.bad = true →
    f = tileOf (payloadOf w.bytes) →
    (f.seq = (link h s).tileNext → ∃ t, exec (.tile h w) s = .next t ∧ (link h t).tileNext = ((link h s).tileNext + 1) % 256 ∧
      (link h t).retry = none) ∧
    (f.seq ≠ (link h s).tileNext → (link h s).retry = none → ∃ t, exec (.tile h w) s = .next t ∧
      (link h t).retry = some (link h s).tileNext ∧ (link h t).tileNext = (link h s).tileNext ∧ t.ctxs = s.ctxs)) ∧
  (∀ (p : Nat) (k : CsiPacket) (f : Frame) (s : State), Ready (.csiPacket p k) s → ctxOn (24 + p) s = true → k.headerOk = true →
    k.vc = getN (ci (24 + p) 0) 0x0B s → k.dtype = 0 →
    (ctx (24 + p) s).frames.find? (fun g => g.arriving && !g.started) = some f →
    ∃ t, exec (.csiPacket p k) s = .next t ∧ (ctx (24 + p) t).inFrame = true ∧ (ctx (24 + p) t).frameBase = f.num) ∧
  (∀ (p : Nat) (k : CsiPacket) (s : State), Ready (.csiPacket p k) s → ctxOn (24 + p) s = true → k.headerOk = true →
    k.vc = getN (ci (24 + p) 0) 0x0B s → k.dtype = 1 →
    ∃ t, exec (.csiPacket p k) s = .next t ∧ (ctx (24 + p) t).inFrame = false) ∧
  (∀ (c : Nat) (f : Frame) (s : State), Ready (.tileFrameTimeout c) s → c < 24 →
    (ctx c s).frames.find? (fun g => g.arriving) = some f →
    ∃ t, exec (.tileFrameTimeout c) s = .next t ∧ (∀ g ∈ (ctx c t).frames, g.num ≠ f.num) ∧
      getN (ci c 5) 5 t = (getN (ci c 5) 5 s + 1) % 2 ^ 32) ∧
  (∀ (c : Nat) (f : Frame) (s : State), Ready (.frameTimeout c) s → 24 ≤ c →
    (ctx c s).frames.find? (fun g => g.arriving) = some f →
    ∃ t, exec (.frameTimeout c) s = .next t ∧ (∀ g ∈ (ctx c t).frames, g.num ≠ f.num) ∧
      getN (ci c 5) 5 t = (getN (ci c 5) 5 s + 1) % 2 ^ 32) ∧
  (∀ (c n : Nat) (f : Frame) (s : State), Ready (.tileProcessed c) s → nextTurn s = some (c, n) → readyFrame c s = some f →
    f.arriving = true → getN 0x4000 4 s ≠ 1 →
    ∃ t, exec (.tileProcessed c) s = .next t ∧ (∃ g ∈ (ctx c t).frames, g.num = f.num ∧ g.processed = f.processed + 1) ∧
      t.vision.turn = c ∧ t.vision.turnDone = n + 1) ∧
  (∀ s : State, Ready .overload s → getN 0x4000 2 s < pendingWork s →
    ∃ t, exec .overload s = .next t ∧ (getN 0x4000 4 t = 1 ∨ getN 0x4000 4 t = 0 ∧ pendingWork t ≤ getN 0x4000 2 t))

/-- R172, R174, R175 (tier 2): a board's answer is shown and kept; a board silent for its time turns its channels dark; the diagnosis of a
channel in use follows its string voltage. A projector sequence starts at its command or is armed, starts at its start time, passes from
entry to entry, ends at its last one, and stops at its command. In part the model's own reading: log 25. -/
def Obligations.BeaconCommands : Prop :=
  (∀ (d : Nat) (v : Int) (temps : List (Option Int)) (s : State), Ready (.lampTemperatureRead temps) s → d < 4 → d < getN 0x4806 1 s →
    temps.getD d none = some v →
    ∃ t, exec (.lampTemperatureRead temps) s = .next t ∧ getI 0x4807 (1 + d) t = roundHalfAway (10 * v) 256 ∧
      (board d t).good = some v ∧ (board d t).dark = false) ∧
  (∀ (d : Nat) (s : State), Ready (.lampBoardTimeout d) s → (board d s).lostAt.isSome →
    ∃ t, exec (.lampBoardTimeout d) s = .next t ∧ (board d t).dark = true) ∧
  (∀ (c mv : Nat) (volts : List (Option Nat)) (s : State), Ready (.channelDiagnosis volts) s → getN 0x4800 1 s ≠ 0 →
    getN 0x4800 3 s ≠ 1 → c < 16 → bit s.vision.tested c = true → getN 0x4801 (c + 1) s ≠ 0 → volts.getD c none = some mv →
    ∃ t, exec (.channelDiagnosis volts) s = .next t ∧ bits (getN 0x4807 5 t) (2 * c + 1) (2 * c) =
      (if getN 0x4806 9 s ≠ 0 ∧ getN 0x4806 9 s < mv then 1 else if getN 0x4806 0x0A s ≠ 0 ∧ mv < getN 0x4806 0x0A s then 2 else 0)) ∧
  (∀ s : State, Ready .sequenceStart s → getN 0x4800 1 s = 1 → getN 0x4808 6 s ≠ 2 →
    ∃ t, exec .sequenceStart s = .next t ∧ t.result = 0 ∧ (getN 0x4808 2 s = 0 → getN 0x4808 6 t = 2 ∧ getN 0x4808 7 t = 0) ∧
      (getN 0x4808 2 s ≠ 0 → getN 0x4808 6 t = 1)) ∧
  (∀ s : State, Ready .projectorStartTime s → getN 0x4808 2 s = 2 → getN 0x4800 1 s = 1 → getN 0x4808 6 s ≠ 2 →
    ∃ t, exec .projectorStartTime s = .next t ∧ getN 0x4808 6 t = 2 ∧ getN 0x4808 7 t = 0) ∧
  (∀ (k fl : Nat) (s : State), Ready .projectorEntry s → getN 0x4808 6 s = 2 → getN 0x4808 7 s = k →
    fl = field (getB 0x4808 8 s) (8 * k + 6) 1 →
    ∃ t, exec .projectorEntry s = .next t ∧ (bit fl 3 = false → k < 255 → getN 0x4808 6 t = 2 ∧ getN 0x4808 7 t = k + 1) ∧
      (bit fl 3 = true → bit fl 4 = false → getN 0x4808 6 t = 0) ∧
      (bit fl 3 = true → bit fl 4 = true → getN 0x4808 6 t = 2 ∧ getN 0x4808 7 t = 0)) ∧
  (∀ s : State, Ready .sequenceStop s → ∃ t, exec .sequenceStop s = .next t ∧ getN 0x4808 6 t = 0 ∧
    t.vision.shown = s.vision.shown ++ [(s.now, [])] ∧ t.dram = s.dram)

/-- R183, R187, R189 (tier 2): the feature at the front of the queue is charted in the Charting buffer and counted; the Closing buffer whose
delay began first closes, and is Released once the chart stream has taken it;
a Closed buffer is released, a layer that a buffer holds is named for export. In part the model's own reading: log 23. -/
def Obligations.ChartBuffers : Prop :=
  (∀ (f : Feature) (l : List Feature) (k : Nat) (b : Buffer) (s : State), Ready .featureCharted s → s.chart.queue = f :: l →
    s.commit.instant ≤ f.trig → bufferIn 1 s = some k → b = buffer k s → (b.policy = 1 → bit f.flags 2 = false) →
    0 ≤ ((placeFeature b.mode f).1 - b.originX) / b.cell → ((placeFeature b.mode f).1 - b.originX) / b.cell < b.cols →
    0 ≤ ((placeFeature b.mode f).2 - b.originY) / b.cell → ((placeFeature b.mode f).2 - b.originY) / b.cell < b.rows →
    ∃ t, exec .featureCharted s = .next t ∧ t.chart.queue = l ∧ getN 0x5003 2 t = (getN 0x5003 2 s + 1) % 2 ^ 64 ∧
      getN 0x5003 3 t = getN 0x5003 3 s) ∧
  (∀ (k : Nat) (s : State), Ready .bufferClosed s → nextClosing s = some k →
    ∃ t, exec .bufferClosed s = .next t ∧ ((buffer k t).state = 3 ∨ (buffer k t).state = 4) ∧
      ((stream 0x60 s).segs = [] → (buffer k t).state = 3)) ∧
  (∀ (k l : Nat) (s : State), Ready (.release l) s →
    (List.range 4).find? (fun j => (buffer j s).state == 3 && (buffer j s).layer == l) = some k →
    exec (.release l) s = .next (modBuffer k (fun b => { b with state := 4 }) (fresh s))) ∧
  (∀ (k l : Nat) (s : State), Ready (.exportLayer l) s → k < 4 → (buffer k s).state ≠ 0 → (buffer k s).layer = l →
    exec (.exportLayer l) s = .next (setN 0x5004 1 l (fresh s)))

/-- R194-R196, R199, R296 (tier 2): a breakwater set whose write and contents verify enters the shadow; a key hash is programmed into an empty
slot, the first over the SPI port unsigned; a key slot that is not the last is revoked. In part the model's own reading: log 59. -/
def Obligations.BreakwaterAndKeys : Prop :=
  (∀ (n : Nat) (l sig : List Byte) (s : State), Ready (.breakwaterSet n l sig) s → (rwpCheck n 0x5100 1 0 l sig (fresh s)).1 = 0 →
    sealOf 2 s = 0 →
    ∃ t, exec (.breakwaterSet n l sig) s = .next t ∧ getN 0x5100 2 t = setCheck l s ∧
      (setCheck l s = 1 → t.bw.shadow = some l ∧ t.result = 0) ∧
      (setCheck l s ≠ 1 → t.bw.shadow = s.bw.shadow ∧ t.result = 4) ∧ t.bw.force = s.bw.force) ∧
  (∀ (n : Nat) (d sig : List Byte) (s : State), Ready (.keySlotProgram n d sig) s →
    (n = 16 ∧ getN 0x5101 5 s = 0 ∧ field d 0 1 = 0 ∨ (rwpCheck n 0x5101 6 0 d sig (fresh s)).1 = 0) → d.length = 33 →
    field d 0 1 < 4 → bit (getN 0x5101 5 s) (field d 0 1) = false →
    ∃ t, exec (.keySlotProgram n d sig) s = .next t ∧ getB 0x5101 (field d 0 1 + 1) t = slice d 1 32 ∧
      bit (getN 0x5101 5 t) (field d 0 1) = true ∧ t.result = 0) ∧
  (∀ (n i : Nat) (sig : List Byte) (s : State), Ready (.keySlotRevoke n i sig) s →
    (rwpCheck n 0x5101 7 0 (toLe 1 i) sig (fresh s)).1 = 0 → i < 4 → slotLive i s = true →
    2 ≤ ([0, 1, 2, 3].filter (fun j => slotLive j s)).length → getB 0x5101 (i + 1) s ≠ sha256 (sess n s).key →
    ∃ t, exec (.keySlotRevoke n i sig) s = .next t ∧ bit (getN 0x5101 5 t) (i + 4) = true ∧ t.result = 0)

/-- R204, R212-R215, R217, R218 (tier 2): the fullest ring gives one block to its output, or stops where the output is short; a stream that
stopped for output resumes at its threshold; a gap and an anchor are written once there is room; a read pointer never passes the write pointer. A host job starts at its
source, codes one block at a time, resumes after it stopped for output, is aborted, and gives its state. In part the model's own reading:
log 67. -/
def Obligations.RecordStreamsAndJobs : Prop :=
  (∀ (st : Nat) (g : Segment) (s : State), Ready .blockCoded s → getN 0x5801 8 s ≠ 1 → served s = some st → headSeg st s = some g →
    blockElems st ≤ g.staging.length →
    (blockMost g.mode ≤ outFree st s → ∃ t h, exec .blockCoded s = .next t ∧ headSeg st t = some h ∧ h.blocks = g.blocks + 1 ∧
      (g.feed = [] → h.staging = g.staging.drop (blockElems st))) ∧
    (outFree st s < blockMost g.mode → ∃ t, exec .blockCoded s = .next t ∧ getN (ssi st 1) 1 t = 2 ∧ t.dram = s.dram)) ∧
  (∀ (st : Nat) (g : Segment) (s : State), Ready (.streamResume st) s → getN (ssi st 1) 1 s = 2 → headSeg st s = some g →
    g.ended = false → g.resume ≤ outFree st s →
    exec (.streamResume st) s = .next (setN (ssi st 1) 1 1 (fresh s))) ∧
  (∀ (st : Nat) (s : State), Ready (.gapEntry st) s → (stream st s).lost ≠ 0 → roomAgain st s = true →
    (gapTarget st < 24 → (stream (sampleStream (gapTarget st)) s).anchors = []) → hasRoom (gapTarget st) 32 s = true →
    ∃ t, exec (.gapEntry st) s = .next t ∧ (stream st t).lost = 0 ∧ inSeg (gapTarget st) t =
      (inSeg (gapTarget st) s).map (fun g => { g with staging := g.staging ++ gapBytes st (stream st s).lost s })) ∧
  (∀ (b : Nat) (a : Anchor) (s : State), Ready (.sampleAnchor b) s → (stream (sampleStream b) s).anchors = [a] → a.lost = 0 →
    hasRoom (eventStream b) 32 s = true →
    ∃ t, exec (.sampleAnchor b) s = .next t ∧ (stream (sampleStream b) t).anchors = [] ∧ inSeg (eventStream b) t =
      (inSeg (eventStream b) s).map (fun g => { g with staging := g.staging ++ anchorBytes b a s })) ∧
  (∀ (st v : Nat) (s : State), Ready (.readPointer st v) s → v ≤ getN (ssi st 1) 3 s →
    exec (.readPointer st v) s = .next (setN (ssi st 0) 6 v (fresh s))) ∧
  (∀ s : State, Ready .jobStart s → getN 0x5801 8 s ≠ 1 → getN 0x5801 2 s % 128 = 0 → getN 0x5801 0x0D s ≠ 1 →
    ∃ t, exec .jobStart s = .next t ∧ getN 0x5801 8 t = (if getN 0x5801 2 s = 0 then 2 else 1) ∧ t.rcd.jobPos = 0 ∧
      t.rcd.jobDst = getN 0x5801 3 s ∧ t.result = 0) ∧
  (∀ s : State, Ready .blockCoded s → getN 0x5801 8 s = 1 → streamList.any (fun j => decide (stageSize j s < 2 * stagedBytes j s)) = false →
    blockMost (getN 0x5801 5 s) ≤ s.rcd.jobRoom →
    ∃ t, exec .blockCoded s = .next t ∧ t.rcd.jobPos = s.rcd.jobPos + 128 ∧ getN 0x5801 9 t = s.rcd.jobPos + 128 ∧
      getN 0x5801 8 t = (if getN 0x5801 2 s ≤ s.rcd.jobPos + 128 then 2 else 1)) ∧
  (∀ s : State, Ready .jobResume s → getN 0x5801 8 s = 3 →
    ∃ t, exec .jobResume s = .next t ∧ getN 0x5801 8 t = 1 ∧ t.rcd.jobDst = getN 0x5801 3 s ∧ t.rcd.jobRoom = getN 0x5801 4 s ∧
      t.rcd.jobPos = s.rcd.jobPos) ∧
  (∀ s : State, Ready .jobAbort s → getN 0x5801 8 s = 1 ∨ getN 0x5801 8 s = 3 →
    exec .jobAbort s = .next (setN 0x5801 8 4 (fresh s))) ∧
  (∀ s : State, Ready .jobSaveState s →
    exec .jobSaveState s = .next (setB 0x5801 0x0A (stateBlob (getN 0x5801 5 s) s.rcd.jobHist) (fresh s)))

/-- R223, R228, R229, R243, R248 (tier 2): enabling a link that is Failed, or Down and disabled, begins bring-up at Detect with no failed
attempt counted; disabling an Up link takes it Down with reason 9, as it does a link in training. A bring-up attempt that lasts too long
leaves the link Down, or Failed at its attempt limit, with reason 5; after the retry interval an enabled link begins again at Detect. -/
def Obligations.LinksStartStopAndFail : Prop :=
  (∀ (l : Nat) (s : State), Ready (.linkEnable l) s → linkState l s = 8 ∨ (getN (lki l) 1 s = 0 ∧ linkState l s = 0) →
    ∃ t, exec (.linkEnable l) s = .next t ∧ linkState l t = 1 ∧ getN (lki l) 1 t = 1 ∧ (link l t).failed = 0 ∧
      (link l t).attemptAt = s.now ∧ t.dram = s.dram) ∧
  (∀ (l : Nat) (s : State), Ready (.linkDisable l) s → linkState l s ≠ 0 → linkState l s ≠ 8 →
    ∃ t, exec (.linkDisable l) s = .next t ∧ linkState l t = 0 ∧ getN (lki l) 1 t = 0 ∧ getN (lki l) 3 t = 9) ∧
  (∀ (l : Nat) (s : State), Ready (.trainingTimeout l) s → 1 ≤ linkState l s → linkState l s ≤ 6 →
    ∃ t, exec (.trainingTimeout l) s = .next t ∧ getN (lki l) 3 t = 5 ∧ (link l t).failed = ((link l s).failed + 1) % 2 ^ 32 ∧
      linkState l t = (if getN 0x3800 7 s ≠ 0 ∧ getN 0x3800 7 s ≤ ((link l s).failed + 1) % 2 ^ 32 then 8 else 0)) ∧
  (∀ (l : Nat) (s : State), Ready (.retryInterval l) s → linkState l s = 0 → getN (lki l) 1 s = 1 →
    ∃ t, exec (.retryInterval l) s = .next t ∧ linkState l t = 1 ∧ (link l t).attemptAt = s.now ∧
      (link l t).failed = (link l s).failed)

/-- R223-R227, R238, R250 (tier 2): a link passes from stage to stage of bring-up as its signal, its polarity, its lane order and skew and its
margins allow, and a CAPS frame of major version 1 whose reply offset is at most 400 ns identifies the head, which gets COMMANDs from the
next loop frame on. The Measure state ends in Up
when the echoes of a head, or the sixteen offsets of a quay link, lie close enough together; the means of a head's burst are then in use. -/
def Obligations.LinkTraining : Prop :=
  (∀ (l : Nat) (s : State), Ready (.signalDetected l) s → linkState l s = 1 →
    ∃ t, exec (.signalDetected l) s = .next t ∧ linkState l t = 2) ∧
  (∀ (l inv : Nat) (s : State), Ready (.commaAligned l inv) s → linkState l s = 2 →
    ∃ t, exec (.commaAligned l inv) s = .next t ∧ (l < 24 → linkState l t = 4 ∧ getN (lki l) 0x11 t = inv % 2) ∧
      (24 ≤ l → linkState l t = 3 ∧ getN (lki l) 0x05 t = inv)) ∧
  (∀ (k : Nat) (order skews : List Nat) (s : State), Ready (.lanesDeskewed k order skews) s → linkState (24 + k) s = 3 →
    order = [0, 1, 2, 3] ∨ order = [3, 2, 1, 0] → (∀ x ∈ skews, ∀ y ∈ skews, x ≤ y + 24) →
    ∃ t, exec (.lanesDeskewed k order skews) s = .next t ∧ linkState (24 + k) t = 4 ∧
      getN (lki (24 + k)) 4 t = (if order = [3, 2, 1, 0] then 1 else 0)) ∧
  (∀ (l : Nat) (m : List Nat) (s : State), Ready (.equaliseComplete l m) s → linkState l s = 4 →
    (∀ x ∈ laneMargins l m, getN (lki l) (lsub l 0x0C 0x08) s + 10 ≤ x) →
    ∃ t, exec (.equaliseComplete l m) s = .next t ∧ linkState l t = 5) ∧
  (∀ (h : Nat) (w : WireFrame) (f : CapsFrame) (s : State), Ready (.caps h w) s → linkState h s = 5 →
    frameGood 0x85 w.bytes w.bad = true → f = capsOf (payloadOf w.bytes) → f.major = 1 → f.replyOffset ≤ 400 →
    ∃ t, exec (.caps h w) s = .next t ∧ linkState h t = 6 ∧ getB (hi h) 0x12 t = capsBytes f ∧
      (link h t).commandFrom = some (s.frame + 1) ∧ (link h t).burst = { left := 16 }) ∧
  (∀ (h : Nat) (s : State), Ready (.measurementComplete h) s → h < 24 → linkState h s = 6 → burstEnded (link h s).burst = true →
    (link h s).burst.got ≠ [] → spread ((link h s).burst.got.map (fun g => (g.1 : Int) - g.2)) ≤ 64 →
    ∃ t, exec (.measurementComplete h) s = .next t ∧ linkState h t = 7 ∧ (link h t).failed = 0 ∧
      getN (hi h) 4 t = (burstMeans h (link h s).burst.got s).2.2) ∧
  (∀ (l : Nat) (s : State), Ready (.measurementComplete l) s → 24 ≤ l → linkState l s = 6 → (link l s).thetas.length = 16 →
    spread (link l s).thetas ≤ 32768 →
    ∃ t, exec (.measurementComplete l) s = .next t ∧ linkState l t = 7 ∧ (link l t).failed = 0)

/-- R230, R231 (tier 2): a lane's margin below its threshold counts towards a retrain, ten in succession call for it; a retrain becomes pending once and takes the link through
bring-up, with reason 8, when no berth that needs it is Armed or Exposing. -/
def Obligations.LinksAdaptAndRetrain : Prop :=
  (∀ (l i : Nat) (m : List Nat) (s : State), Ready (.eyeMargin l m) s → linkState l s = 7 → i < laneCount l →
    ∃ t, exec (.eyeMargin l m) s = .next t ∧ (l < 24 → getN (lki l) 0x0B t = m.getD 0 0 % 256) ∧
      (m.getD i 0 % 256 < getN (lki l) (lsub l 0x0C 0x08) s →
        ((link l t).lanes.getD i {}).low = min 10 (((link l s).lanes.getD i {}).low + 1) ∧
        (9 ≤ ((link l s).lanes.getD i {}).low → (link l t).retrainPending = true)) ∧
      (getN (lki l) (lsub l 0x0C 0x08) s ≤ m.getD i 0 % 256 → ((link l t).lanes.getD i {}).low = 0)) ∧
  (∀ (l : Nat) (s : State), Ready (.retrain l) s → (link l s).retrainPending = false →
    ∃ t, exec (.retrain l) s = .next t ∧ (link l t).retrainPending = true ∧ getN (lki l) (lsub l 0x0E 0x0A) t = 2) ∧
  (∀ (l : Nat) (s : State), Ready (.retrainStart l) s → linkState l s = 7 → (link l s).retrainPending = true →
    retrainAllowed l s = true →
    ∃ t, exec (.retrainStart l) s = .next t ∧ linkState l t = 1 ∧ getN (lki l) 3 t = 8 ∧ (link l t).retrainPending = false)

/-- R95, R237, R243, R248 (tier 2): a lost head link pauses its Armed berth with cause 0x000A and goes Down, into bring-up at once while it is
enabled; a missing FEEDBACK frame is counted and loses the link past the limit. A quay link without SEAT frames, or whose record misses
its deadline, is lost with reason 13; the frames of the seats beyond it are gone but where a ring brings them the other way round. In part the model's own reading: log 71. -/
def Obligations.LinksAreLost : Prop :=
  (∀ (h : Nat) (s : State), Ready (.lockOrAlignmentLost h) s → h < 24 → linkState h s = 7 → bState h s = 1 →
    ∃ t, exec (.lockOrAlignmentLost h) s = .next t ∧ linkState h t = (if getN (lki h) 1 s = 1 then 1 else 0) ∧
      getN (lki h) 3 t = 1 ∧ bState h t = 4 ∧ getN (bi h 0) 6 t = 0x000A ∧ (berth h t).gate = false) ∧
  (∀ (h : Nat) (s : State), Ready (.feedbackMissing h) s → linkState h s = 7 → (link h s).fbFrame ≠ s.frame →
    ∃ t, exec (.feedbackMissing h) s = .next t ∧ getN (hi h) 0x15 t = (getN (hi h) 0x15 s + 1) % 2 ^ 32 ∧
      linkState h t = (if getN (hi h) 0x0A s < (link h s).missRun + 1 then (if getN (lki h) 1 s = 1 then 1 else 0) else 7) ∧
      (getN (hi h) 0x0A s < (link h s).missRun + 1 → getN (lki h) 3 t = 3)) ∧
  (∀ (k : Nat) (s : State), Ready (.seatFrameMissing k) s → linkState (24 + k) s = 7 →
    ∃ t, exec (.seatFrameMissing k) s = .next t ∧ linkState (24 + k) t = (if getN (lki (24 + k)) 1 s = 1 then 1 else 0) ∧
      getN (lki (24 + k)) 3 t = 13 ∧ (∀ e ∈ t.hm.seats, e.1 ∈ seatsBeyond k s →
        s.hm.ring = true ∧ (e.1 ∈ (link (25 - k) s).heard ∨ e.1 ∈ (link (25 - k) s).heardBefore))) ∧
  (∀ (k : Nat) (s : State), Ready (.recordMissing k) s → linkState (24 + k) s = 7 →
    ∃ t, exec (.recordMissing k) s = .next t ∧ linkState (24 + k) t = (if getN (lki (24 + k)) 1 s = 1 then 1 else 0) ∧
      getN (lki (24 + k)) 3 t = 13 ∧ getN (lki (24 + k)) 0x10 t = (getN (lki (24 + k)) 0x10 s + 1) % 2 ^ 32)

/-- R39, R75, R88, R232, R234, R237, R338 (tier 2): a good FEEDBACK frame of the present frame is kept and a bad one counted; a good STATUS
frame shows the head's temperatures and faults. A head whose temperature report stays away: state 3, a covered fault with cause 0x0007
that starts motion hold, and an Armed berth Paused. In part the model's own reading: log 35 and 42. -/
def Obligations.HeadReportsArrive : Prop :=
  (∀ (h : Nat) (w : WireFrame) (f : FeedbackFrame) (s : State), Ready (.feedback h w) s → linkState h s = 7 →
    frameGood 0x81 w.bytes w.bad = true → f = feedbackOf (payloadOf w.bytes) → f.frame = s.frame % 2 ^ 32 → bit f.status 0 = false →
    ∃ t, exec (.feedback h w) s = .next t ∧ (link h t).fbLast = some f ∧ (link h t).fbGood = some f ∧ (link h t).fbFrame = s.frame ∧
      (link h t).missRun = 0 ∧ (link h t).statusRun = 0) ∧
  (∀ (h : Nat) (w : WireFrame) (s : State), Ready (.feedback h w) s → hears h s = true → frameGood 0x81 w.bytes w.bad = false →
    ∃ t, exec (.feedback h w) s = .next t ∧ getN (hi h) 0x17 t = (getN (hi h) 0x17 s + 1) % 2 ^ 32 ∧ t.links = s.links ∧
      t.dram = s.dram) ∧
  (∀ (h k : Nat) (w : WireFrame) (f : StatusFrame) (s : State), Ready (.status h w) s → hears h s = true →
    frameGood 0x82 w.bytes w.bad = true → f = statusOf (payloadOf w.bytes) → k < 4 →
    ∃ t, exec (.status h w) s = .next t ∧ (link h t).faults = f.faults ∧ getI (bi h 4) (k + 1) t = f.temps.getD k (-32768) ∧
      (berth h t).lastStatus = s.now) ∧
  (∀ (b : Nat) (s : State), Ready (.temperatureReportTimeout b) s → getN (bi b 4) 9 s ≠ 3 →
    ∃ t, exec (.temperatureReportTimeout b) s = .next t ∧ getN (bi b 4) 9 t = 3 ∧ getN 0x7080 1 t = 1 ∧ getN 0x0406 1 t = 0x0007 ∧
      (bState b s = 1 → bState b t = 4))

/-- R238 (tier 2): a measurement interval begins a burst of sixteen echoes; a reply is taken once, and one that does not come is left out. In
part the model's own reading: log 71. -/
def Obligations.EchoesMeasureLatency : Prop :=
  (∀ (h : Nat) (s : State), Ready (.measurementInterval h) s → linkState h s = 7 →
    ∃ t, exec (.measurementInterval h) s = .next t ∧ (link h t).burst = { left := 16 }) ∧
  (∀ (h tok trip turn : Nat) (w : List Byte) (bad : Bool) (s : State), Ready (.echoReply h w bad trip) s → hears h s = true →
    frameGood 0x84 w bad = true → echoOf (payloadOf w) = (tok, turn) →
    (link h s).burst.waiting.any (fun e => e.1 == tok) = true →
    ∃ t, exec (.echoReply h w bad trip) s = .next t ∧ (∀ e ∈ (link h t).burst.waiting, e.1 ≠ tok) ∧
      (linkState h s ≠ 7 → (link h t).burst.got = (link h s).burst.got ++ [(trip, turn)])) ∧
  (∀ (h tok : Nat) (s : State), Ready (.echoReplyTimeout h tok) s →
    (link h s).burst.waiting.any (fun w => w.1 == tok) = true →
    ∃ t, exec (.echoReplyTimeout h tok) s = .next t ∧ (∀ w ∈ (link h t).burst.waiting, w.1 ≠ tok) ∧
      (linkState h s ≠ 7 → (link h t).burst.got = (link h s).burst.got))

/-- R240 (tier 2): a configuration access of a head link that is Up and has none pending goes out at once; a frame that is not answered goes
out again, three times in all; the answer, or the third silence, ends the access. In part the model's own reading: log 61. -/
def Obligations.HeadConfiguration : Prop :=
  (∀ (n h : Nat) (d : List Byte) (s : State), Ready (.configWrite n h d) s → linkState h s = 7 → (link h s).cfg = none →
    ∃ t, exec (.configWrite n h d) s = .next t ∧ t.result = 0 ∧
      t.out = [.frame h (frameBytes 4 (link h s).txSeq (configPayload (getN (hi h) 0x13 s) d.length d))] ∧ (link h t).cfg.isSome = true ∧
      (link h t).cfgLen = d.length ∧ t.obj = s.obj) ∧
  (∀ (n h : Nat) (s : State), Ready (.configRead n h) s → linkState h s = 7 → (link h s).cfg = none →
    ∃ t, exec (.configRead n h) s = .next t ∧ t.result = 0 ∧
      t.out = [.frame h (frameBytes 5 (link h s).txSeq (configPayload (getN (hi h) 0x13 s) (link h s).cfgLen []))] ∧ (link h t).cfg.isSome = true ∧
      t.obj = s.obj) ∧
  (∀ (h : Nat) (w : WireFrame) (f : ConfigReply) (a : ConfigAccess) (s : State), Ready (.configReply h w) s → hears h s = true →
    frameGood 0x86 w.bytes w.bad = true → f = configReplyOf w.bytes → (link h s).cfg = some a → f.seq = a.seq →
    (sess a.sess s).deferred = none →
    ∃ t, exec (.configReply h w) s = .next t ∧ (link h t).cfg = none ∧
      (a.sess ≠ 16 → f.result = 0 → t.out = [.value a.sess f.data] ∧ t.result = 0)) ∧
  (∀ (h : Nat) (a : ConfigAccess) (s : State), Ready (.configTimeout h) s → (link h s).cfg = some a → a.sends < 3 →
    linkState h s = 7 →
    ∃ t, exec (.configTimeout h) s = .next t ∧ (link h t).cfg = some { a with sends := a.sends + 1 } ∧
      t.out = [.frame h (frameBytes (if a.write then 4 else 5) a.seq (configPayload a.addr a.len a.data))]) ∧
  (∀ (h : Nat) (a : ConfigAccess) (s : State), Ready (.configTimeout h) s → (link h s).cfg = some a → 3 ≤ a.sends →
    (sess a.sess s).deferred = none → a.sess ≠ 16 →
    ∃ t, exec (.configTimeout h) s = .next t ∧ (link h t).cfg = none ∧ t.result = 0xE)

/-- R227, R245, R249, R250 (tier 2): a SEAT frame identifies the neighbour of a quay link in Identify; one from another seat is kept; a QTIME
frame shows the offset it gives; a DATA frame in sequence is taken and acknowledged. In part the model's own reading: log 41 and 43. -/
def Obligations.QuayFramesArrive : Prop :=
  (∀ (k : Nat) (w : SeatIn) (l : List Byte) (f : SeatFrame) (s : State), Ready (.seat k w) s →
    l = streamOf (24 + k) w.frame s → frameGood 0x12 l w.frame.bad = true → f = seatOf (payloadOf l) → f.seat ≠ s.hm.seatNo →
    (linkState (24 + k) s = 5 → w.size = s.hm.size → (w.topology = 1 ↔ s.hm.ring = true) → adjacent k s.hm.seatNo f.seat s = true →
      ∃ t, exec (.seat k w) s = .next t ∧ linkState (24 + k) t = 6 ∧ getN (lki (24 + k)) 0x0E t = f.seat) ∧
    (linkState (24 + k) s = 7 → ∃ t, exec (.seat k w) s = .next t ∧ t.hm.seats.find f.seat = some f ∧
      linkState (24 + k) t = 7 ∧ (link (24 + k) t).heard = (link (24 + k) s).heard ++ [f.seat])) ∧
  (∀ (k : Nat) (w : WireFrame) (l : List Byte) (f : SpotFrame) (s : State), Ready (.spot k w) s → linkState (24 + k) s = 7 →
    l = streamOf (24 + k) w s → frameGood 0x11 l w.bad = true → f = spotFrameOf (payloadOf l) →
    ∃ t, exec (.spot k w) s = .next t ∧ t.obj = s.obj ∧
      t.hm.arrived = s.hm.arrived ++ (if f.command % 4 = 0 then [] else [(f.seat, f.command % 4)]) ∧
      (∀ r, f.records = [r] → t.hm.others.find r.hb = some r)) ∧
  (∀ (k : Nat) (w : QtimeIn) (l : List Byte) (f : QtimeFrame) (s : State), Ready (.qtime k w) s →
    linkState (24 + k) s = 7 → l = streamOf (24 + k) w.frame s → frameGood 0x13 l w.frame.bad = true → f = qtimeOf (payloadOf l) →
    ∃ t, exec (.qtime k w) s = .next t ∧ (link (24 + k) t).neighbourHops = f.hops ∧ (link (24 + k) t).tickIn = w.arrival ∧
      getI (lki (24 + k)) 0x0D t = clamp (theta k f w.arrival s) (-2 ^ 31) (2 ^ 31 - 1)) ∧
  (∀ (k : Nat) (w : WireFrame) (l : List Byte) (f : DataFrame) (s : State), Ready (.data k w) s → linkState (24 + k) s = 7 →
    l = streamOf (24 + k) w s → frameGood 0x14 l w.bad = true → f = dataOf l → f.seq = ((link (24 + k) s).dataAck + 1) % 256 →
    ∃ t, exec (.data k w) s = .next t ∧ (link (24 + k) t).dataIn = f.bytes ∧ (link (24 + k) t).dataAck = f.seq ∧
      t.out = [.lanes k (stripe (frameBytes 0x14 (link (24 + k) s).dataSeq (dataPayload f.seq [])))])

/-- R285, R286 (tier 2): an OPEN that nothing bars opens the lowest session free; a CLOSE in its place of the order, and a session time-out,
close a session and leave the others. In part the model's own reading: log 63. -/
def Obligations.SessionsOpenAndClose : Prop :=
  (∀ (r : OpenReq) (n : Nat) (s : State), Ready (.openSession r) s → openBar r s = 0 → n < 16 → (sess n s).opened = false →
    (∀ m, m < n → (sess m s).opened = true) →
    ∃ t, exec (.openSession r) s = .next t ∧ (sess n t).opened = true ∧ (sess n t).cls = r.cls ∧ (sess n t).proven = false ∧
      (sess n t).last = 0 ∧ ∀ m, m ≠ n → sess m t = sess m s) ∧
  (∀ (n q : Nat) (s : State), Ready (.closeSession n q) s → (sess n s).opened = true → q = (sess n s).last + 1 →
    (sess n s).deferred = none →
    ∃ t, exec (.closeSession n q) s = .next t ∧ (sess n t).opened = false ∧ t.out = [.mop n (sourceOf s) (mopBytes n 0x04 q 1 [])] ∧
      ∀ m, m ≠ n → sess m t = sess m s) ∧
  (∀ (n : Nat) (s : State), Ready (.sessionTimeout n) s →
    ∃ t, exec (.sessionTimeout n) s = .next t ∧ sess n t = {} ∧ (∀ m, m ≠ n → sess m t = sess m s) ∧ t.obj = s.obj)

/-- R285, R287-R289, R301 (tier 2): a KEEPALIVE, a READ and a WRITE in their place of the order are answered with their sequence number; the
WRITE's value is in force. The object is the logbook's class mask. In part the model's own reading: log 57. -/
def Obligations.RequestsAreAnswered : Prop :=
  (∀ (n q : Nat) (s : State), Ready (.keepalive n q) s → (sess n s).opened = true → q = (sess n s).last + 1 →
    (sess n s).deferred = none → (sess n s).held = [] →
    ∃ t, exec (.keepalive n q) s = .next t ∧ t.out = [.mop n (sourceOf s) (mopBytes n 0x07 q 1 [])] ∧ (sess n t).last = q) ∧
  (∀ (n q : Nat) (v : Int) (e : Entry) (s : State), Ready (.read n q [e]) s → (sess n s).opened = true →
    q = (sess n s).last + 1 → (sess n s).deferred = none → (sess n s).held = [] → (sess n s).bulks = [] → e.idx = 0x0500 → e.sub = 9 →
    e.part = false → e.offset = 0 → e.len = 2 → awayResult 0x0500 9 false s = 0 → shadowV 0x0500 9 s = .int v →
    ∃ t, exec (.read n q [e]) s = .next t ∧ (sess n t).last = q ∧
      t.out = [.mop n (sourceOf s) (mopBytes n 0x11 q 1 (entryHead e ++ toLe 2 2 ++ toLe 2 0 ++ toLeI 2 v ++ [0#8, 0#8]))]) ∧
  (∀ (n q v : Nat) (e : Entry) (s : State), Ready (.write n q [e]) s → (sess n s).opened = true →
    q = (sess n s).last + 1 → (sess n s).deferred = none → (sess n s).held = [] → (sess n s).bulks = [] → e.idx = 0x0500 → e.sub = 9 →
    e.part = false → e.offset = 0 → e.data = toLe 2 v → e.sig = [] → v ≤ 1023 → awayResult 0x0500 9 true s = 0 → writeBar n s = 0 →
    ∃ t, exec (.write n q [e]) s = .next t ∧ (sess n t).last = q ∧ getN 0x0500 9 t = v ∧
      t.out = [.mop n (sourceOf s) (mopBytes n 0x14 q 1 [0#8, 0#8, 0#8, 0#8])] ∧ t.dram = s.dram) ∧
  (∀ (n q v : Nat) (e : Entry) (s : State), Ready (.writeFenced n q [e]) s → (sess n s).opened = true →
    q = (sess n s).last + 1 → (sess n s).deferred = none → (sess n s).held = [] → (sess n s).bulks = [] → e.idx = 0x0500 → e.sub = 9 →
    e.part = false → e.offset = 0 → e.data = toLe 2 v → e.sig = [] → v ≤ 1023 → awayResult 0x0500 9 true s = 0 → writeBar n s = 0 →
    ∃ t, exec (.writeFenced n q [e]) s = .next t ∧ (sess n t).last = q ∧ getN 0x0500 9 t = v ∧
      t.out = [.mop n (sourceOf s) (mopBytes n 0x14 q 1 [0#8, 0#8, 0#8, 0#8])] ∧ t.dram = s.dram)

/-- R24, R288, R289, R301 (tier 2): a write that its session, its class or the power state turns away has that result and changes no object
and no memory; a write of the class mask puts its value in force; a fence of a session that may write has result 0. In part the model's
own reading: log 57. -/
def Obligations.ObjectWritesAndFences : Prop :=
  (∀ (n i k : Nat) (v : Val) (s : State), Ready (.objectWrite n i k v) s → writeBarred n i k s ≠ 0 →
    ∃ t, exec (.objectWrite n i k v) s = .next t ∧ t.result = writeBarred n i k s ∧ t.obj = s.obj ∧ t.dram = s.dram ∧
      t.shadow = s.shadow) ∧
  (∀ (n v : Nat) (s : State), Ready (.objectWrite n 0x0500 9 (.int v)) s → writeBarred n 0x0500 9 s = 0 → v ≤ 1023 →
    ∃ t, exec (.objectWrite n 0x0500 9 (.int v)) s = .next t ∧ t.result = 0 ∧ getN 0x0500 9 t = v ∧ t.dram = s.dram ∧
      ∀ i k, k < 256 → (i, k) ≠ (0x0500, 9) → getV i k t = getV i k s) ∧
  (∀ (n v : Nat) (s : State), Ready (.objectWrite n 0x0500 9 (.int v)) s → writeBarred n 0x0500 9 s = 0 → 1023 < v → v < 2 ^ 16 →
    ∃ t, exec (.objectWrite n 0x0500 9 (.int v)) s = .next t ∧ t.result = 3 ∧ t.obj = s.obj) ∧
  (∀ (n : Nat) (s : State), Ready (.fence n) s → writeBar n s = 0 → exec (.fence n) s = .next (fresh s))

/-- R285, R290, R291 (tier 2): a BULK_BEGIN that nothing bars opens a transfer; a piece in order is counted and stands in the staging area; an
acknowledgement of all its bytes ends a read, a time-out any transfer; a sender sends again from the acknowledged count. In part the
model's own reading: log 58 and 62. -/
def Obligations.BulkTransfers : Prop :=
  (∀ (n q : Nat) (r : BulkBegin) (s : State), Ready (.bulkBegin n q r) s → (sess n s).opened = true → q = (sess n s).last + 1 →
    (sess n s).deferred = none → (sess n s).held = [] → r.read = false → 0 < r.len →
    bulkBar n r (modSess n (fun x => { x with last := q }) (datagram n (fresh s))) = 0 →
    ∃ t b, exec (.bulkBegin n q r) s = .next t ∧ bulkOf n q t = some b ∧ b.read = false ∧ b.idx = r.idx ∧ b.sub = r.sub ∧
      b.len = r.len ∧ b.crc = r.crc ∧ b.got = 0 ∧ t.out = [.mop n (sourceOf s) (mopBytes n 0x22 q 1 (ackPayload q 0 0 0 0))] ∧ t.dram = s.dram) ∧
  (∀ (n id : Nat) (d : List Byte) (b : Bulk) (s : State), Ready (.bulkData n id b.got d) s → Memory.wf s.dram →
    (sess n s).deferred = none → bulkOf n id s = some b → b.read = false → isLoad b.idx b.sub = false → d ≠ [] → d.length ≤ pieceLen → b.ahead = [] →
    b.got + d.length < b.len → b.grams < 15 →
    ∃ t, exec (.bulkData n id b.got d) s = .next t ∧
      bulkOf n id t = some { b with got := b.got + d.length, grams := b.grams + 1 } ∧
      readBytes (bulkAddr b s + b.got) d.length t.dram = d ∧
      (∀ a, a < bulkAddr b s + b.got ∨ bulkAddr b s + b.got + d.length ≤ a → readByte a t.dram = readByte a s.dram)) ∧
  (∀ (n id : Nat) (b : Bulk) (s : State), Ready (.bulkAck n id b.len) s → bulkOf n id s = some b → b.read = true → b.acked ≤ b.len →
    ∃ t, exec (.bulkAck n id b.len) s = .next t ∧ sess n t = { sess n s with bulks := (sess n s).bulks.del id } ∧ t.out = []) ∧
  (∀ (n id : Nat) (b : Bulk) (s : State), Ready (.bulkResendTimeout n id) s → bulkOf n id s = some b → b.read = true →
    b.acked < b.len → b.idx ≠ 0x6010 →
    ∃ t, exec (.bulkResendTimeout n id) s = .next t ∧
      bulkOf n id t = some { b with sent := min b.len (b.acked + 64 * pieceLen) } ∧ t.out ≠ []) ∧
  (∀ (n id : Nat) (b : Bulk) (s : State), Ready (.bulkTimeout n id) s → bulkOf n id s = some b →
    (sess n s).deferred = none →
    ∃ t, exec (.bulkTimeout n id) s = .next t ∧ sess n t = { sess n s with bulks := (sess n s).bulks.del id } ∧
      t.out = [.mop n (sourceOf s) (mopBytes n 0x22 id 0 (ackPayload id b.got (aheadMap b) 0xE 2))] ∧ t.dram = s.dram) ∧
  (∀ (n id : Nat) (b : Bulk) (s : State), Ready (.bulkAckInterval n id) s → bulkOf n id s = some b → b.read = false →
    ∃ t, exec (.bulkAckInterval n id) s = .next t ∧ bulkOf n id t = some { b with grams := 0 } ∧
      t.out = [.mop n (sourceOf s) (mopBytes n 0x22 id 0 (ackPayload id b.got (aheadMap b) 0 0))])

/-- R293, R294 (tier 2): a SUBSCRIBE sets the class mask and a report set; a batch sends every queued notice, 44 a datagram; a report goes out
at its period. In part the model's own reading: log 64. -/
def Obligations.NoticesAndReports : Prop :=
  (∀ (n q : Nat) (r : Subscription) (s : State), Ready (.subscribe n q r) s → (sess n s).opened = true → q = (sess n s).last + 1 →
    (sess n s).deferred = none → (sess n s).held = [] → r.set < 4 → r.objs ≠ [] → r.objs.length ≤ 32 → 1 ≤ r.period →
    r.period ≤ 60000 →
    ∃ t x, exec (.subscribe n q r) s = .next t ∧ (sess n t).mask = r.mask % 1024 ∧ (sess n t).sets.find r.set = some x ∧
      x.period = r.period ∧ (∀ o ∈ x.objs, o ∈ r.objs) ∧ (sess n t).last = q) ∧
  (∀ (n : Nat) (s : State), Ready (.noticeBatch n) s → (sess n s).queue.length ≤ 256 →
    ∃ t, exec (.noticeBatch n) s = .next t ∧ (sess n t).queue = [] ∧ t.out.length = ((sess n s).queue.length + 43) / 44 ∧
      t.obj = s.obj) ∧
  (∀ (n k : Nat) (r : ReportSet) (s : State), Ready (.reportPeriod n k) s → (sess n s).sets.find k = some r →
    ∃ t p, exec (.reportPeriod n k) s = .next t ∧ t.out = [.mop n (sourceOf s) (mopBytes n 0x33 (sess n s).outSeq 0 p)] ∧
      p.take 2 = toLe 1 k ++ toLe 1 r.objs.length ∧ (sess n t).outSeq = ((sess n s).outSeq + 1) % 2 ^ 32)

/-- R295, R297 (tier 2): a proof under a known key proves a class-2 session, another closes it; the end of the lockout is shown; the armed
watchdog that expires is counted and is a covered fault of cause 0x0013. In part the model's own reading: log 63. -/
def Obligations.ProofsAndSilence : Prop :=
  (∀ (n q : Nat) (key sig : List Byte) (s : State), Ready (.signProof n q key sig) s → (sess n s).opened = true →
    q = (sess n s).last + 1 → (sess n s).deferred = none → (sess n s).held = [] → (sess n s).cls = 2 → (sess n s).proven = false →
    keyKnown key s = true → verify key sig (proofMessage n s) = true →
    ∃ t, exec (.signProof n q key sig) s = .next t ∧ (sess n t).proven = true ∧ (sess n t).key = key ∧
      t.out = [.mop n (sourceOf s) (mopBytes n 0x41 q 1 (toLe 2 0))]) ∧
  (∀ (n q : Nat) (key sig : List Byte) (s : State), Ready (.signProof n q key sig) s → (sess n s).opened = true →
    q = (sess n s).last + 1 → (sess n s).deferred = none → (sess n s).cls = 2 → (sess n s).proven = false → keyKnown key s = false →
    ∃ t, exec (.signProof n q key sig) s = .next t ∧ (sess n t).opened = false ∧ t.out = [.mop n (sourceOf s) (mopBytes n 0x41 q 1 (toLe 2 8))]) ∧
  (∀ s : State, Ready .signedLockoutEnd s → ∃ t, exec .signedLockoutEnd s = .next t ∧ getN 0x0200 5 t = 0) ∧
  (∀ s : State, Ready .hostSilence s → watchdogState s = 1 →
    ∃ t, exec .hostSilence s = .next t ∧ getN 0x0211 2 t = 2 ∧ getN 0x0211 4 t = (getN 0x0211 4 s + 1) % 2 ^ 32 ∧
      getN 0x0406 1 t = 0x0013)

/-- R287, R298, R299 (tier 2): the SPI port reads and writes the class mask by its owner's rules and holds the outcome; status, reply and
notices go out with their CRC; a wrong CRC and a busy port are answered by their results. In part the model's own reading: log 65. -/
def Obligations.SpiPort : Prop :=
  (∀ (v : Int) (s : State), Ready (.spiReadRequest 0x0500 9 0 2 true) s → s.net.spiState ≠ 1 → awayResult 0x0500 9 false s = 0 →
    shadowV 0x0500 9 s = .int v →
    ∃ t, exec (.spiReadRequest 0x0500 9 0 2 true) s = .next t ∧ t.net.spiState = 2 ∧ t.net.spiResult = 0 ∧
      t.net.spiReply = toLeI 2 v) ∧
  (∀ (i k off len : Nat) (crc : Bool) (s : State), Ready (.spiReadRequest i k off len crc) s → s.net.spiState = 1 ∨ crc = false →
    ∃ t, exec (.spiReadRequest i k off len crc) s = .next t ∧ t.net.spiResult = (if s.net.spiState = 1 then 0xB else 0xD)) ∧
  (∀ (v : Nat) (e : Entry) (s : State), Ready (.spiWrite e true) s → s.net.spiState ≠ 1 → e.idx = 0x0500 → e.sub = 9 → e.offset = 0 →
    e.data = toLe 2 v → v ≤ 1023 → awayResult 0x0500 9 true s = 0 → writeBar 16 s = 0 →
    ∃ t, exec (.spiWrite e true) s = .next t ∧ getN 0x0500 9 t = v ∧ t.net.spiState = 3 ∧ t.net.spiResult = 0 ∧ t.dram = s.dram) ∧
  (∀ (v : Nat) (e : Entry) (s : State), Ready (.spiWriteFenced e true) s → s.net.spiState ≠ 1 → e.idx = 0x0500 → e.sub = 9 →
    e.offset = 0 → e.data = toLe 2 v → v ≤ 1023 → awayResult 0x0500 9 true s = 0 → writeBar 16 s = 0 →
    ∃ t, exec (.spiWriteFenced e true) s = .next t ∧ getN 0x0500 9 t = v ∧ t.net.spiState = 3 ∧ t.net.spiResult = 0 ∧
      t.dram = s.dram) ∧
  (∀ (l : List Byte) (s : State), Ready .spiStatus s → l = toLe 1 s.net.spiState ++ toLe 1 0 ++ toLe 2 s.net.spiResult ++
      toLe 2 s.net.spiReply.length ++ toLe 2 (sess 16 s).queue.length →
    ∃ t, exec .spiStatus s = .next t ∧ t.out = [.spi (l ++ toLe 4 (crc32c (toLe 1 4 ++ l)))] ∧ t.net = s.net) ∧
  (∀ s : State, Ready .fetchReply s →
    ∃ t, exec .fetchReply s = .next t ∧ t.out = [.spi (s.net.spiReply ++ toLe 4 (crc32c (toLe 1 5 ++ s.net.spiReply)))] ∧
      t.net = s.net) ∧
  (∀ (l : List Byte) (s : State), Ready .fetchNotices s →
    l = toLe 1 ((sess 16 s).queue.take 8).length ++ ((sess 16 s).queue.take 8).flatMap Notice.bytes →
    ∃ t, exec .fetchNotices s = .next t ∧ t.out = [.spi (l ++ toLe 4 (crc32c (toLe 1 6 ++ l)))] ∧
      (sess 16 t).queue = (sess 16 s).queue.drop 8)

/-- R271, R272, R275 (tier 2): DISCOVER is answered with PRESENCE; a duplicate node number is shown; a port link that comes up announces the
node, one that goes down is shown; a received frame is counted, discarded where it is bad, and delivered where it is for the node. In part
the model's own reading: log 66. -/
def Obligations.NetworkPorts : Prop :=
  (∀ s : State, Ready .discover s → ∃ t, exec .discover s = .next t ∧ t.out = [.multicast (presencePayload (ipv4 s) s)]) ∧
  (∀ (p : PresenceMsg) (s : State), Ready (.presence p) s → p.node = getN 0x0801 1 s → p.mac ≠ getN 0x0801 6 s →
    ∃ t, exec (.presence p) s = .next t ∧ getN 0x0801 5 t = 1 ∧ (getN 0x0802 1 s = 1 → t.net.withdrawn = true)) ∧
  (∀ (p : Nat) (s : State), Ready (.portLinkUp p) s → portAllowed p s = true → portUp p s = false →
    ∃ t, exec (.portLinkUp p) s = .next t ∧ portUp p t = true ∧ t.out = [.multicast (presencePayload (ipv4 s) s)]) ∧
  (∀ (p : Nat) (s : State), Ready (.portLinkDown p) s →
    ∃ t, exec (.portLinkDown p) s = .next t ∧ portUp p t = false ∧ portUp (1 - p) t = portUp (1 - p) s) ∧
  (∀ (p : Nat) (f : EthFrame) (s : State), Ready (.ethernetFrame p f) s → portUp p s = true →
    ∃ t, exec (.ethernetFrame p f) s = .next t ∧ getN 0x0800 0x0A t = (getN 0x0800 0x0A s + 1) % 2 ^ 64 ∧
      (frameBad f = true → getN 0x0800 0x0B t = (getN 0x0800 0x0B s + 1) % 2 ^ 32 ∧ t.out = []) ∧
      (frameBad f = false → forNode f s = true → .deliver f ∈ t.out) ∧
      (frameBad f = false → bridgeOn s = true → isGroup f.src = false → s.net.macs.length < 4096 →
        t.net.macs.find f.src = some (p, s.now)))

/-- R279, R280, R282 (tier 2): a Sync of the master in use, with its Follow_Up in two-step mode, forms the offset; delay requests are answered
and delay responses form the path delay. In part the model's own reading: log 44. -/
def Obligations.PtpMessages : Prop :=
  (∀ (m : PtpMsg) (s : State), Ready (.sync m) s → fromMaster m s = true →
    ∃ t, exec (.sync m) s = .next t ∧ (m.twoStep = true → t.ptp.syncWait = some m ∧ t.obj = s.obj) ∧
      (m.twoStep = false → getN 0x0803 0x0D t = 9 ∧ getI 0x0804 4 t = sat32 (rxAt m s - (m.origin + m.correction) -
        (if getN 0x0803 5 s = 1 then s.ptp.linkDelay.getD m.port 0 else s.ptp.pathDelay)))) ∧
  (∀ (m y : PtpMsg) (s : State), Ready (.followUp m) s → s.ptp.syncWait = some y → fromMaster m s = true → m.seqId = y.seqId →
    m.source = y.source →
    ∃ t, exec (.followUp m) s = .next t ∧ getN 0x0803 0x0D t = 9 ∧ t.ptp.syncWait = none ∧
      getI 0x0804 4 t = sat32 (rxAt y s - (m.origin + m.correction + y.correction) -
        (if getN 0x0803 5 s = 1 then s.ptp.linkDelay.getD y.port 0 else s.ptp.pathDelay))) ∧
  (∀ (m : PtpMsg) (s : State), Ready (.delayReq m) s → ptpHears m s = true → getN 0x0803 0x0D s = 6 → getN 0x0803 5 s = 0 →
    ∃ t, exec (.delayReq m) s = .next t ∧ t.out = [.ptp 9 m.seqId m.source (rxAt m s)] ∧ t.obj = s.obj) ∧
  (∀ (m : PtpMsg) (q : Nat) (t1 t2 t3 : Int) (s : State), Ready (.delayResp m) s → s.ptp.delaySent = some (q, t3) →
    s.ptp.lastSync = some (t1, t2) → fromMaster m s = true → m.seqId = q →
    ∃ t, exec (.delayResp m) s = .next t ∧ t.ptp.pathDelay = ((t2 - t1) + (m.origin - m.correction - t3)) / 2 ∧
      getI 0x0804 5 t = sat32 t.ptp.pathDelay ∧ t.ptp.delaySent = none) ∧
  (∀ (m : PtpMsg) (s : State), Ready (.pdelayReq m) s → peerDelays s = true →
    ∃ t, exec (.pdelayReq m) s = .next t ∧ t.obj = s.obj ∧ t.out = .ptp 3 m.seqId m.source (rxAt m s) ::
      (if getN 0x0803 3 s = 1 then [.ptp 0x0A m.seqId m.source (s.now + txCorrection m.port s)] else [])) ∧
  (∀ (m : PtpMsg) (q : Nat) (t1 d : Int) (s : State), Ready (.pdelayResp m) s → s.ptp.pdelaySent = some (q, t1) → peerDelays s = true →
    m.seqId = q → d = (rxAt m s - (t1 + txCorrection m.port s) - m.origin - m.correction) / 2 →
    ∃ t, exec (.pdelayResp m) s = .next t ∧ t.ptp.linkDelay.find m.port = some d ∧ getI 0x0804 5 t = sat32 d)

/-- R276-R279, R282 (tier 2): two Announce messages qualify a master; without one the clock listens or becomes master; a master sends Sync and
Announce, a slave its delay requests; the servo locks; harbour time is set where it may be stepped. In part the model's own reading: log
32 and 44. -/
def Obligations.PtpRolesAndTime : Prop :=
  (∀ (m m0 : PtpMsg) (s : State), Ready (.announce m) s → ptpHears m s = true → m.steps < 255 → s.ptp.foreign = [m0] →
    m0.source = m.source → (m.rx - m0.rx).natAbs ≤ 4 * announceT s → getN 0x0803 1 s ≠ 2 → s.ptp.master = none →
    ∃ t b, exec (.announce m) s = .next t ∧ t.ptp.master = some b ∧ b.source = m.source ∧ getN 0x0803 0x0D t = 8 ∧
      getN 0x0803 0x0E t = b.gm) ∧
  (∀ s : State, Ready .announceReceiptTimeout s →
    ∃ t, exec .announceReceiptTimeout s = .next t ∧ t.ptp.master = none ∧ t.ptp.foreign = [] ∧
      getN 0x0803 0x0D t = (if getN 0x0803 1 s = 2 then 6 else if getN 0x0803 1 s = 0 then 1 else 4)) ∧
  (∀ s : State, Ready .syncInterval s → getN 0x0803 0x0D s = 6 →
    ∃ t, exec .syncInterval s = .next t ∧ t.ptp.outSeq = (s.ptp.outSeq + 1) % 2 ^ 16 ∧ t.obj = s.obj ∧
      t.out.head? = some (.ptp 0 s.ptp.outSeq 0 (s.now + txCorrection 0 s))) ∧
  (∀ s : State, Ready .announceInterval s → getN 0x0803 0x0D s = 6 →
    ∃ t, exec .announceInterval s = .next t ∧ t.ptp.outSeq = (s.ptp.outSeq + 1) % 2 ^ 16 ∧
      t.out = [.ptp 0x0B s.ptp.outSeq 0 s.now] ∧ t.obj = s.obj) ∧
  (∀ s : State, Ready .minimumDelayInterval s → (peerDelays s = true ∨ (getN 0x0803 1 s ≠ 0 ∧ s.ptp.master.isSome = true)) →
    ∃ t, exec .minimumDelayInterval s = .next t ∧ t.ptp.outSeq = (s.ptp.outSeq + 1) % 2 ^ 16 ∧ t.obj = s.obj ∧
      (peerDelays s = true → t.ptp.pdelaySent = some (s.ptp.outSeq, (s.now : Int))) ∧
      (peerDelays s = false → (t.ptp.delaySent.map (·.1)) = some s.ptp.outSeq)) ∧
  (∀ s : State, Ready .servoLocked s → getN 0x0804 3 s = 2 → ∃ t, exec .servoLocked s = .next t ∧ getN 0x0804 3 t = 3) ∧
  (∀ (ns : Nat) (s : State), Ready (.timeSet ns) s → s.hm.seatNo = 0 → (getN 0x0804 3 s = 0 ∨ getN 0x0804 3 s = 4) →
    mayStep s = true →
    ∃ t, exec (.timeSet ns) s = .next t ∧ t.timeSet = some ((ns + 1250) / 2500 * 2500) ∧ getN 0x0804 9 t = 0 ∧ t.result = 0 ∧
      t.now = s.now)

/-- R300 (tier 2): a store keeps the values in force for its writing; its end joins them to flash beside the copy before, or leaves flash
whole; restoring the defaults erases both copies. In part the model's own reading: log 60. -/
def Obligations.ParameterStore : Prop :=
  (∀ s : State, Ready .store s → getN 0x0220 2 s ≠ 1 → updateState s ≠ 2 → updateState s ≠ 3 →
    ∃ t, exec .store s = .next t ∧ getN 0x0220 2 t = 1 ∧ t.pilot.storing = some (storedValues s) ∧ t.flash = s.flash ∧
      t.result = 0) ∧
  (∀ (v : Tab Val) (s : State), Ready (.storeComplete true) s → s.pilot.storing = some v →
    ∃ t, exec (.storeComplete true) s = .next t ∧ getN 0x0220 2 t = 2 ∧ getN 0x0220 3 t = (getN 0x0220 3 s + 1) % 2 ^ 32 ∧
      t.flash.store.isSome = true ∧ t.flash.storeOld = s.flash.store ∧ t.pilot.storing = none) ∧
  (∀ (v : Tab Val) (s : State), Ready (.storeComplete false) s → s.pilot.storing = some v →
    ∃ t, exec (.storeComplete false) s = .next t ∧ getN 0x0220 2 t = 3 ∧ t.flash = s.flash ∧ t.pilot.storing = none) ∧
  (∀ s : State, Ready .restoreDefaults s → getN 0x0220 2 s ≠ 1 → commitWaiting s = false → (∀ b, b < 24 → bState b s = 0) →
    ∃ t, exec .restoreDefaults s = .next t ∧ getN 0x0220 2 t = 4 ∧ t.flash.store = none ∧ t.flash.storeOld = none ∧
      t.pilot.restorePending = true)

/-- R306, R312, R313 (tier 2): a request of ready memory within its capacity writes its bytes and no other, or delivers the bytes that stand
there; one beyond the capacity names an address that does not exist. In part the model's own reading: log 46 and 72. -/
def Obligations.MemoryRequests : Prop :=
  (∀ (r : MemReq) (s : State), Ready (.memoryRequest r) s → getN 0x6000 1 s = 2 → capacity s < r.addr + r.len →
    exec (.memoryRequest r) s = .fault (.noSuchAddress r.addr)) ∧
  (∀ (r : MemReq) (s : State), Ready (.memoryRequest r) s → Memory.wf s.dram → getN 0x6000 1 s = 2 → 0 < r.len →
    r.addr + r.len ≤ capacity s → r.errors = [] → r.write = true →
    ∃ t, exec (.memoryRequest r) s = .next t ∧ readBytes r.addr r.len t.dram = r.data ∧
      ∀ a, a < r.addr ∨ r.addr + r.len ≤ a → readByte a t.dram = readByte a s.dram) ∧
  (∀ (r : MemReq) (s : State), Ready (.memoryRequest r) s → getN 0x6000 1 s = 2 → 0 < r.len → r.addr + r.len ≤ capacity s →
    r.errors = [] → s.mem.poison = [] → r.write = false →
    ∃ t, exec (.memoryRequest r) s = .next t ∧ .dram r.client r.addr (readBytes r.addr r.len s.dram) false ∈ t.out ∧
      t.dram = s.dram)

/-- R302-R305, R314, R315, R317, R320 (tier 2): training makes memory ready with the capacity of its configuration, and its third failure
reads failed; drift is noted, refresh is carried out unless it may wait, an idle page closes, an idle channel rests with its queues empty,
and the patrol moves to the next burst. In part the model's own reading: log 46. -/
def Obligations.MemoryUpkeep : Prop :=
  (∀ (r : TrainingIn) (s : State), Ready (.trainingComplete r) s → getN 0x6000 1 s < 2 →
    ∃ t, exec (.trainingComplete r) s = .next t ∧ t.dram = s.dram ∧
      (r.ok = true ∧ r.supported = true → getN 0x6000 1 t = 2 ∧ getN 0x6000 3 t = configMB r) ∧
      (r.ok = false ∨ r.supported = false → t.mem.attempts = s.mem.attempts + 1 ∧
        getN 0x6000 1 t = (if 2 ≤ s.mem.attempts then 3 else 1))) ∧
  (∀ (d : Nat) (s : State), Ready (.dqsOscillatorCheck d) s → getN 0x6000 1 s = 2 →
    ∃ t, exec (.dqsOscillatorCheck d) s = .next t ∧ t.mem.driftAt = (if 200 < d then 1 else s.mem.driftAt) ∧ t.obj = s.obj) ∧
  (∀ (c : Nat) (hot : Bool) (s : State), Ready (.refresh c hot) s → getN 0x6000 1 s = 2 →
    ∃ t, exec (.refresh c hot) s = .next t ∧ (subch c t).refreshDue =
      (if urgent c s = true ∧ (subch c s).refreshDue < 4 then (subch c s).refreshDue + 1 else 0)) ∧
  (∀ (c k : Nat) (s : State), Ready (.pageIdleClose c k) s →
    ∃ t, exec (.pageIdleClose c k) s = .next t ∧ ((subch c t).banks.getD k {}).openRow = none ∧ (subch c t).queue = (subch c s).queue) ∧
  (∀ (ch : Nat) (s : State), Ready (.selfRefreshEntry ch) s → getN 0x6000 1 s = 2 → getN 0x6002 3 s ≠ 0 → commitWaiting s = false →
    (∀ b, b < 24 → bState b s ≠ 1 ∧ bState b s ≠ 2) →
    ∃ t, exec (.selfRefreshEntry ch) s = .next t ∧ bit (getN 0x6002 7 t) ch = true ∧ (subch (2 * ch) t).queue = [] ∧
      (subch (2 * ch + 1) t).queue = []) ∧
  (∀ s : State, Ready (.patrolScrub []) s → getN 0x6002 6 s ≠ 0 → s.mem.scrubPos < capacity s →
    ∃ t, exec (.patrolScrub []) s = .next t ∧ t.dram = s.dram ∧
      t.mem.scrubPos = (if capacity s ≤ s.mem.scrubPos + 64 then 0 else s.mem.scrubPos + 64))

/-- R322-R326, R330 (tier 2): the tide tracker is enabled into Acquiring, starts its angle at the positive-going zero crossing, locks and
loses its lock; an evaluation point lies on a multiple of 2^26 of the angle; an input's fault is shown and cleared. The mains state after
a judgement of a level, by the state before; the end of a hold-off leaves Recovering for Normal. In part the model's own reading: log 48. -/
def Obligations.TideTrackerAndMains : Prop :=
  (∀ s : State, Ready (.tideEnable true) s → getN 0x0400 1 s = 0 →
    ∃ t, exec (.tideEnable true) s = .next t ∧ getN 0x0400 1 t = 1 ∧ tideState t = 1 ∧ getN 0x0400 7 t = 0 ∧
      t.mains.advancing = false) ∧
  (∀ s : State, Ready (.tideEnable false) s → mainsState s ≠ 2 → getN 0x0401 0x10 s ≠ 1 →
    ∃ t, exec (.tideEnable false) s = .next t ∧ getN 0x0400 1 t = 0 ∧ tideState t = 0 ∧ mainsState t = 4) ∧
  (∀ s : State, Ready .positiveGoingZeroCrossing s → tideState s = 1 → s.mains.advancing = false →
    ∃ t, exec .positiveGoingZeroCrossing s = .next t ∧ t.mains.advancing = true ∧ getN 0x0400 7 t = 0) ∧
  (∀ s : State, Ready .tideLock s → tideState s = 1 → s.mains.advancing = true →
    ∃ t, exec .tideLock s = .next t ∧ tideState t = 2) ∧
  (∀ s : State, Ready .tideLockLost s → tideState s = 2 → ∃ t, exec .tideLockLost s = .next t ∧ tideState t = 1) ∧
  (∀ (r : MainsIn) (s : State), Ready (.evaluationPoint r) s → tideState s ≠ 0 → s.mains.advancing = true →
    ∃ t, exec (.evaluationPoint r) s = .next t ∧ getN 0x0400 7 t = (getN 0x0400 7 s / 2 ^ 26 + 1) * 2 ^ 26 % 2 ^ 32 ∧
      (referenceFaulted s = false → tideState s ≠ 3 → getN 0x0400 8 t = r.freq)) ∧
  (∀ (i : Nat) (s : State), Ready (.inputFault i) s → inputFaulted i s = false → tideState s ≠ 0 → mainsState s ≠ 2 →
    getN 0x0401 0x10 s ≠ 1 → ∃ t, exec (.inputFault i) s = .next t ∧ inputFaulted i t = true) ∧
  (∀ (i : Nat) (s : State), Ready (.inputFaultClear i) s →
    ∃ t, exec (.inputFaultClear i) s = .next t ∧ inputFaulted i t = false ∧ (∀ j, j ≠ i → inputFaulted j t = inputFaulted j s)) ∧
  (∀ (m ph : Nat) (s : State), mainsState s ≤ 4 → mainsState (judgeLevel m ph s) =
    (if mainsState s = 2 then (if getN 0x0401 2 s + getN 0x0401 4 s ≤ m then 3 else 2)
     else if m < getN 0x0401 3 s then 2
     else if mainsState s = 0 ∨ mainsState s = 4 then
       (if m < getN 0x0401 2 s ∧ getN 0x0401 5 s ≤ s.mains.below + 1 then 1 else 0)
     else if getN 0x0401 2 s + getN 0x0401 4 s ≤ m then 3 else 1)) ∧
  (∀ s : State, Ready .holdOffComplete s → mainsState s = 3 → ∃ t, exec .holdOffComplete s = .next t ∧ mainsState t = 0)

/-- R332-R334, R336, R388 (tier 2): a bollard that latches forces LEN of its berths and pauses an Armed one; one whose role is Off
latches nothing; a release needs its input to be inactive long enough; the active levels change while nothing is latched or exposes. In
part the model's own reading: log 10. -/
def Obligations.Bollards : Prop :=
  (∀ (i off : Nat) (s : State), Ready (.bollardLatch i off) s → bolLatched i s = false → bolRole i s ≠ 0 →
    ∃ t, exec (.bollardLatch i off) s = .next t ∧ bolLatched i t = true ∧
      getN 0x0405 (i + 1) t = (getN 0x0405 (i + 1) s + 1) % 2 ^ 32 ∧
      (∀ b, b < 24 → bit (bolBerths i s) b = true → (berth b t).len = false) ∧
      (∀ b, b < 24 → bolRole i s = 1 → bolBerths i s = 2 ^ b → bState b s = 1 → bState b t = 4 ∧ getN (bi b 0) 6 t = 0x000F)) ∧
  (∀ (i off : Nat) (s : State), Ready (.bollardLatch i off) s → bolRole i s = 0 → exec (.bollardLatch i off) s = .next (fresh s)) ∧
  (∀ (m : Nat) (s : State), Ready (.acknowledge m) s →
    ∃ t, exec (.acknowledge m) s = .next t ∧ (∀ i, i < 16 →
      (bolLatched i t = true ↔ bolLatched i s = true ∧ ¬(bit m i = true ∧ bolMayRelease i s = true))) ∧
      (t.result = 0 ↔ ∀ i, i < 16 → bit m i = true → bolLatched i t = false)) ∧
  (∀ (m : Nat) (s : State), Ready (.activeLevel m) s → (∀ i, i < 16 → bolLatched i s = false) → anyExposing allBerths s = false →
    ∃ t, exec (.activeLevel m) s = .next t ∧ getN 0x0402 0x11 t = m ∧ t.result = 0)

/-- R325, R341, R343-R347, R397 (tier 2): a rung request to a lower rung that nothing bars moves the chip there and one that is barred says
why; a request to a higher rung, and an enabled wake source that can occur, take the chip up. The die temperature is shown, and its step kept. In part
the model's own reading: log 54 and 75. -/
def Obligations.RungsWakingAndDieTemperature : Prop :=
  (∀ (n : Nat) (s : State), Ready (.rungRequest n) s → n ≤ 5 → rung s < n → rungRefusal n s = 0 → mainsState s ≠ 2 →
    getN 0x0401 0x10 s ≠ 1 → ∃ t, exec (.rungRequest n) s = .next t ∧ rung t = n ∧ getN 0x0300 4 t = 0 ∧ (n < 4 → t.dram = s.dram)) ∧
  (∀ (n : Nat) (s : State), Ready (.rungRequest n) s → n ≤ 5 → rung s < n → rungRefusal n s ≠ 0 →
    ∃ t, exec (.rungRequest n) s = .next t ∧ rung t = rung s ∧ t.result = 4 ∧ getN 0x0300 4 t = rungRefusal n s) ∧
  (∀ (n : Nat) (s : State), Ready (.rungRequest n) s → n < rung s → ∃ t, exec (.rungRequest n) s = .next t ∧ rung t = n) ∧
  (∀ (src us : Nat) (s : State), Ready (.wake src us) s → 1 ≤ rung s → rung s ≤ 3 → bit (getN 0x0300 3 s % 16) src = true →
    (src = 1 → getN 0x0300 5 s ≠ 0) →
    ∃ t, exec (.wake src us) s = .next t ∧ rung t = 0 ∧ getN 0x0300 6 t = src ∧ getN 0x0300 7 t = us) ∧
  (∀ (src us : Nat) (s : State), Ready (.wake src us) s → rung s = 0 ∨ bit (getN 0x0300 3 s % 16) src = false ∨ src = 1 ∧ getN 0x0300 5 s = 0 →
    exec (.wake src us) s = .next (fresh s)) ∧
  (∀ (v : Int) (s : State), Ready (.dieTemperature v) s →
    ∃ t, exec (.dieTemperature v) s = .next t ∧ getI 0xF000 1 t = v ∧ t.pilot.hot = heatStep v ∧ t.dram = s.dram)

/-- R349, R350 (tier 2): a power-on reset starts harbour time and the frame count at zero with DRAM lost; NRST keeps both; each shows its
cause and the strap; a watchdog and a commanded reset are warm: they count and leave harbour time alone. In part the model's own reading:
log 5, 28 and 50. -/
def Obligations.Resets : Prop :=
  (∀ (p : Straps) (s : State), Ready (.powerOnReset p) s →
    ∃ t, exec (.powerOnReset p) s = .next t ∧ t.now = 0 ∧ t.frame = 0 ∧ t.dram = [] ∧ getN 0x0301 2 t = 1 ∧ t.pending = s.pending ∧
      (∀ n, n < 16 → (sess n t).opened = false)) ∧
  (∀ (p : Straps) (s : State), Ready (.nrst p) s →
    ∃ t, exec (.nrst p) s = .next t ∧ t.now = s.now ∧ t.frame = s.frame ∧ t.dram = [] ∧ getN 0x0301 2 t = 2 ∧
      (∀ n, n < 16 → (sess n t).opened = false)) ∧
  (∀ s : State, Ready .watchdog s →
    ∃ t, exec .watchdog s = .next t ∧ t.now = s.now ∧ t.frame = s.frame ∧ getN 0x0301 2 t = 3 ∧
      getN 0x0301 3 t = (getN 0x0301 3 s + 1) % 2 ^ 32 ∧ ∀ n, n < 16 → (sess n t).opened = false) ∧
  (∀ s : State, Ready .warmReset s →
    ∃ t, exec .warmReset s = .next t ∧ t.now = s.now ∧ t.frame = s.frame ∧ getN 0x0301 2 t = 4 ∧
      getN 0x0301 3 t = (getN 0x0301 3 s + 1) % 2 ^ 32 ∧ ∀ n, n < 16 → (sess n t).opened = false)

/-- R363, R364 (tier 2): image data are staged, verified into the inactive bank, activated on trial, discarded or confirmed. In part the
model's own reading: log 53. -/
def Obligations.FieldUpdate : Prop :=
  (∀ (o : Nat) (d : List Byte) (s : State), Ready (.imageData o d) s → getN 0x0220 2 s ≠ 1 → updateState s ≠ 2 → updateState s ≠ 3 →
    o + d.length ≤ bankBytes (updateTarget s) →
    ∃ t, exec (.imageData o d) s = .next t ∧ updateState t = 1 ∧ getN 0x0110 4 t = 0 ∧ t.result = 0 ∧ t.flash = s.flash ∧
      t.pilot.update.staged = overlay (if updateState s = 1 then s.pilot.update.staged else []) o d) ∧
  (∀ s : State, Ready .verifyAndWrite s → getN 0x0220 2 s ≠ 1 → updateState s = 1 →
    ∃ t, exec .verifyAndWrite s = .next t ∧ updateState t = 2 ∧ t.pilot.update.bank = inactiveBank (updateTarget s) s ∧
      t.pilot.update.staged = s.pilot.update.staged ∧ t.result = 0) ∧
  (∀ (ok : Bool) (c : Nat) (s : State), Ready (.updateReady ok) s → updateState s = 2 →
    c = imageCause (if s.pilot.update.bank < 2 then 1 else 2) s.pilot.update.staged s →
    ∃ t, exec (.updateReady ok) s = .next t ∧ updateState t = (if c = 0 ∧ ok = true then 4 else 5) ∧
      (c ≠ 0 → getN 0x0110 4 t = c ∧ t.flash = s.flash) ∧ (c = 0 → ok = false → getN 0x0110 4 t = 4) ∧
      (c = 0 → ok = true → imageOf s.pilot.update.bank t = s.pilot.update.staged)) ∧
  (∀ s : State, Ready .activate s → updateState s = 4 →
    ∃ t, exec .activate s = .next t ∧ updateState t = 6 ∧
      (s.pilot.update.bank < 2 → (bootRecord t).pilotBank = s.pilot.update.bank ∧ (bootRecord t).pilotTrial = 1) ∧
      (2 ≤ s.pilot.update.bank → (bootRecord t).berthBank = s.pilot.update.bank - 2 ∧ (bootRecord t).berthTrial = 1)) ∧
  (∀ s : State, Ready .updateDiscard s →
    ∃ t, exec .updateDiscard s = .next t ∧ updateState t = 0 ∧ t.pilot.update.staged = [] ∧ t.flash = s.flash) ∧
  (∀ s : State, Ready .confirm s →
    ∃ t, exec .confirm s = .next t ∧ (bootRecord t).pilotTrial = 0 ∧ (bootRecord t).berthTrial = 0 ∧
      (bootRecord t).pilotBank = (bootRecord s).pilotBank ∧ t.obj = s.obj)

/-- R368, R370, R373 (tier 2): a flush writes every staged record to flash while no erase begins, as the end of an erase does; a read of the
window moves the session's cursor. In part the model's own reading: log 58. -/
def Obligations.LogbookCommands : Prop :=
  (∀ (c : Instr) (s : State), c = .flush ∨ c = .logbookFlushTimer → Ready c s → s.log.erasing = false → s.log.lost = 0 →
    s.flash.circulating.length + s.log.staging.length < 10240 →
    ∃ t, exec c s = .next t ∧ t.log.staging = [] ∧ getN 0x0500 6 t = 0 ∧ t.log.erasing = false ∧
      (logHeld t).length = (logHeld s).length + s.log.staging.length) ∧
  (∀ s : State, Ready .blockEraseComplete s → s.log.erasing = true → s.log.lost = 0 →
    s.flash.circulating.length + s.log.staging.length < 10240 →
    ∃ t, exec .blockEraseComplete s = .next t ∧ t.log.staging = [] ∧ t.log.erasing = false) ∧
  (∀ (n : Nat) (s : State), Ready (.window n) s →
    ∃ t, exec (.window n) s = .next t ∧ t.out = [.value n ((windowRecords n s).flatMap LogRecord.bytes)] ∧
      (∀ r, (windowRecords n s).getLast? = some r → (sess n t).cursor = (r.index + 1) % 2 ^ 32) ∧ t.flash = s.flash ∧ t.obj = s.obj)

/-- R377-R381 (tier 2): a calibration starts where its checks pass, settles at a mark, passes from run 1 to run 2, is aborted, discarded, or
applied into the shadows of its berths' maps; a start whose check fails says which. In part the model's own reading: log 55. -/
def Obligations.Calibration : Prop :=
  (∀ s : State, Ready .calibrationStart s → calRunning s = false → startCause s = 0 →
    ∃ t, exec .calibrationStart s = .next t ∧ getN 0x0603 3 t = 1 ∧ getN 0x0603 4 t = 0 ∧ t.cal.mask = getN 0x0603 1 s ∧
      ∀ b, b < 24 → bit (getN 0x0603 1 s) b = true → (berth b t).calibrating = true) ∧
  (∀ s : State, Ready .calibrationStart s → calRunning s = false → startCause s ≠ 0 →
    ∃ t, exec .calibrationStart s = .next t ∧ t.result = 4 ∧ getN 0x0603 4 t = startCause s ∧ t.cal = s.cal) ∧
  (∀ (b : Nat) (s : State), Ready (.settleTime b) s → calRunning s = true → (berth b s).calibrating = true →
    (calOf b s).done = false → (calOf b s).settled = false →
    ∃ t, exec (.settleTime b) s = .next t ∧ (calOf b t).settled = true ∧ (calOf b t).mark = (calOf b s).mark) ∧
  (∀ s : State, Ready .runComplete s → getN 0x0603 3 s = 1 → (∀ b, b < 24 → bit s.cal.mask b = true → (calOf b s).done = true) →
    ∃ t, exec .runComplete s = .next t ∧ getN 0x0603 3 t = 2 ∧ t.cal.mask = s.cal.mask) ∧
  (∀ s : State, Ready .runComplete s → getN 0x0603 3 s = 2 → (∀ b, b < 24 → bit s.cal.mask b = true → (calOf b s).done = true) →
    ∃ t, exec .runComplete s = .next t ∧ (getN 0x0603 3 t = 3 ∨ getN 0x0603 3 t = 4 ∧ 6 ≤ getN 0x0603 4 t ∧ getN 0x0603 4 t ≤ 9)) ∧
  (∀ s : State, Ready .calibrationAbort s → calRunning s = true →
    ∃ t, exec .calibrationAbort s = .next t ∧ getN 0x0603 3 t = 6 ∧ getN 0x0603 4 t = 5 ∧ t.result = 0 ∧
      ∀ b, b < 24 → bit s.cal.mask b = true → (berth b t).calibrating = false) ∧
  (∀ s : State, Ready .apply s → getN 0x0603 3 s = 3 → (∀ b, b < 24 → bit s.cal.mask b = true → sealOf (4 + b) s = 0) →
    ∃ t, exec .apply s = .next t ∧ getN 0x0603 3 t = 5 ∧ t.result = 0 ∧
      ∀ b, b < 24 → bit s.cal.mask b = true → shadowI (bi b 5) 1 t = newGeneration s) ∧
  (∀ s : State, Ready .calibrationDiscard s → calRunning s = false →
    ∃ t, exec .calibrationDiscard s = .next t ∧ getN 0x0603 3 t = 0 ∧ getN 0x0603 4 t = 0 ∧ t.cal = {} ∧ t.result = 0)

/-- R124, R276, R278 (tier 2): a loop frame moves harbour time by 2,500 ns and counts one frame, or puts in force a time set to a whole frame;
it leaves the queue of commands alone. In part the model's own reading: log 1. -/
def Obligations.LoopFrameAdvancesTime : Prop :=
  (∀ (i : FrameIn) (s : State), Ready (.loopFrame i) s →
    ∃ t, exec (.loopFrame i) s = .next t ∧ t.pending = s.pending ∧
      ((t.now = s.now + 2500 * 65536 ∧ t.frame = s.frame + 1) ∨
        ∃ ns : Nat, t.now = ns * 65536 ∧ t.frame = (ns + 1250) / 2500)) ∧
  (∀ (i : FrameIn) (s : State), Ready (.loopFrame i) s → 2 ≤ getN 0x0300 2 s → s.timeSet = none →
    ∃ t, exec (.loopFrame i) s = .next t ∧ t.now = s.now + 2500 * 65536 ∧ t.frame = s.frame + 1 ∧ t.berths = s.berths ∧
      t.links = s.links)

/-- The model's own queue, log 1 (tier 1): a step runs the command at the front of the queue on the state with the queue's rest; with no
command waiting the block idles. -/
def Obligations.StepRunsTheFrontCommand : Prop :=
  (∀ (c : Instr) (l : List Instr) (s : State), step { s with pending := c :: l } = exec c { s with pending := l }) ∧
  (∀ s : State, s.pending = [] → step s = .next s)

/-- Log 6 (tier 3): every step keeps DRAM in its canonical form. -/
def Obligations.EveryStepKeepsDramCanonical : Prop :=
  ∀ s t : State, Safe s → step s = .next t → Safe t

/-- Log 6 (tier 1): DRAM has its canonical form at reset. -/
def Obligations.ResetIsSafe : Prop :=
  Safe State.reset

/-- R288, R306, log 2 (tier 2): a command that names something of the part and whose domain runs answers the state its own operation
gives (`effect`), but a memory request beyond the capacity of ready memory, which names the address that does not exist; a command that
names nothing of the part has no effect beside its result. No command is refused. -/
def Obligations.EveryCommandCompletes : Prop :=
  ∀ (c : Instr) (s : State),
    (Ready c s → (∀ r, c = .memoryRequest r → beyondMemory r s = false) → exec c s = .next (effect c (fresh s))) ∧
    (c.wf = false → exec c s = .next { fresh s with result := illResult c }) ∧
    (c.wf = true → (∀ r, c = .memoryRequest r → beyondMemory r s = false) → ∃ t, exec c s = .next t) ∧
    (∀ r, c = .memoryRequest r → c.wf = true → beyondMemory r s = true → exec c s = .fault (.noSuchAddress r.addr))

/-- R340, R341, R346, R361 (tier 2): where the domain of a well-formed command does not run, the command changes nothing but what this step
puts out: no output, and the result of a refused access. Below P1 nothing of D2 and D4 to D7 runs, on P1 nothing of D5 to D7 but an
access, below P2 no access of the pilot's objects; the wake, the bollards and the resets run on every rung. In part the model's own
reading: log 29. -/
def Obligations.GatedDomains : Prop :=
  (∀ (c : Instr) (s : State), c.wf = true → running c s = false →
    exec c s = .next { s with out := [], result := offResult c s }) ∧
  (∀ (c : Instr) (s : State), 2 ≤ rung s → running c s = true →
    commandDomain c = 0 ∨ ((commandDomain c = 1 ∨ commandDomain c = 10 ∨ commandDomain c = 11) ∧ rung s = 2)) ∧
  (∀ (c : Instr) (s : State), rung s = 1 → running c s = true → 5 ≤ commandDomain c → commandDomain c ≤ 7 → isAccess c = true) ∧
  (∀ (c : Instr) (s : State), commandDomain c = 0 → running c s = true)

/-- R9, R10, R67, R223, R253, R349 (tier 1): after reset the chip is on P0 and not in Anchorage, no berth is out of Idle, every slot is Empty,
every link is Down, every axis is disabled, no session is open, the reset cause is power-on, and harbour time and the frame count are zero. In part the model's
own reading: log 5, 6 and 8. -/
def Obligations.ResetState : Prop :=
  rung State.reset = 0 ∧ State.reset.pilot.anchorage = false ∧ State.reset.pilot.romRecovery = false ∧
    getN 0x0301 2 State.reset = 1 ∧ (∀ b, b < 24 → bState b State.reset = 0 ∧ (berth b State.reset).gate = false) ∧
    (∀ b k, b < 24 → k < 4 → slotState b k State.reset = 0) ∧ (∀ l, l < 26 → linkState l State.reset = 0) ∧
    (∀ m, m < 4 → axisState m State.reset = 0) ∧ (∀ n, n < 16 → (sess n State.reset).opened = false) ∧
    State.reset.now = 0 ∧ State.reset.frame = 0 ∧ State.reset.pending = [] ∧ State.reset.dram = []

/-- R372 (tier 2): the clear object is accepted only with the next index and while no berth is Armed or Exposing; a clear erases both
areas and the staging, sets the next index to 0 and writes a record of code 0x0270 as index 0, after which the next index is 1. -/
def Obligations.LogbookClear : Prop :=
  ∀ (v : Nat) (s : State), Ready (.clear v) s →
    ((v ≠ getN 0x0500 1 s ∨ ∃ b, b < 24 ∧ (bState b s = 1 ∨ bState b s = 2)) →
      ∃ t, exec (.clear v) s = .next t ∧ t.result ≠ 0 ∧ t.flash = s.flash ∧ t.log = s.log ∧ t.obj = s.obj) ∧
    (v = getN 0x0500 1 s → (∀ b, b < 24 → bState b s ≠ 1 ∧ bState b s ≠ 2) →
      ∃ t r, exec (.clear v) s = .next t ∧ t.flash.permanent = [] ∧ t.flash.circulating = [] ∧ t.log.staging = [r] ∧
        r.code = 0x0270 ∧ r.index = 0 ∧ getN 0x0500 1 t = 1 ∧ t.result = 0)

/-- R273 (tier 2): a power-on and an NRST reset latch the node ID of the straps, which 0x0801:04 reports; the stored node ID is in use
instead where the source is 1; a write of the source or the stored ID leaves the node ID in use as it is until then. -/
def Obligations.NodeIdIsLatchedAtReset : Prop :=
  (∀ (c : Instr) (p : Straps) (s : State), c = .powerOnReset p ∨ c = .nrst p → Ready c s →
    ∃ t, exec c s = .next t ∧ p.node < 1024 ∧ getN 0x0801 4 t = p.node ∧
      getN 0x0801 1 t = (if getN 0x0801 2 t = 1 then getN 0x0801 3 t else p.node)) ∧
  (∀ (n k : Nat) (v : Val) (s : State), Ready (.objectWrite n 0x0801 k v) s → k = 2 ∨ k = 3 →
    ∃ t, exec (.objectWrite n 0x0801 k v) s = .next t ∧ getN 0x0801 1 t = getN 0x0801 1 s ∧ getN 0x0801 4 t = getN 0x0801 4 s)

/-- R209 (tier 1): the static table's code lengths of classes 0-16, and its canonical code words: the first is 0, and each that follows
another, by length and then by class, is one more than it, extended with zeros to its own length. -/
def Obligations.StaticTableIsCanonical : Prop :=
  ({} : History).lengths = [2, 2, 3, 3, 4, 4, 5, 5, 6, 6, 7, 7, 8, 8, 8, 9, 9] ∧ codeWord ({} : History).lengths 0 = (0, 2) ∧
    ∀ c, c < 16 → codeWord ({} : History).lengths (c + 1) =
      (((codeWord ({} : History).lengths c).1 + 1) * 2 ^ (({} : History).lengths.getD (c + 1) 0 - ({} : History).lengths.getD c 0), ({} : History).lengths.getD (c + 1) 0)

/-- R276, R349, and the model's queue (tier 3): no command touches the queue; but for a loop frame and a power-on reset none moves
harbour time or the frame count; and every command outside a named list leaves all of DRAM as it was. -/
def Obligations.WhatNoCommandTouches : Prop :=
  ∀ (c : Instr) (s t : State), exec c s = .next t → t.pending = s.pending ∧
    ((∀ i, c ≠ .loopFrame i) → (∀ p, c ≠ .powerOnReset p) → t.now = s.now ∧ t.frame = s.frame) ∧
    (writesDram c = false → t.dram = s.dram)

/-- R271-R300, R363-R373, R397 (tier 2), the frame of the commands of the network, the clock, the logbook and the store that carry no
write of a session: no berth, loop, context, slot, link, axis, counter, lamp, chart or record stream changes, nor an object of theirs, nor
DRAM. -/
def Obligations.HostCommandsLeaveTheProcess : Prop :=
  ∀ (c : Instr) (s t : State), servesTheHost c = true → exec c s = .next t → SameBerths s t ∧ t.links = s.links ∧ t.axes = s.axes ∧
    t.ctrs = s.ctrs ∧ t.wake = s.wake ∧ t.hm = s.hm ∧ t.vision = s.vision ∧ t.chart = s.chart ∧ t.rcd = s.rcd ∧ t.mem = s.mem ∧
    t.mains = s.mains ∧ t.shadow = s.shadow ∧
    ∀ i k, k < 256 → (0x0400 ≤ i ∧ i < 0x0500 ∨ 0x0600 ≤ i ∧ i < 0x0800 ∨ 0x0806 ≤ i ∧ i < 0xF000) → getV i k t = getV i k s

/-- R174, R175, R187, R189, R217, R218, R223-R240, R251-R270, R302-R317, R322, R323 (tier 2), the frame of the commands of the axes,
counters, lamps, links in training, memory, tracker, chart release and compressor jobs that reach no berth: no berth, loop, context, slot,
commit, calibration or breakwater changes, nor an object of theirs, nor DRAM, nor the clock. -/
def Obligations.ChamberCommandsLeaveTheBerths : Prop :=
  ∀ (c : Instr) (s t : State), servesTheChamber c = true → exec c s = .next t → SameBerths s t ∧ t.ptp = s.ptp ∧
    t.timeSet = s.timeSet ∧ t.shadow = s.shadow ∧
    ∀ i k, k < 256 → (0x0100 ≤ i ∧ i < 0x0400 ∨ 0x0800 ≤ i ∧ i < 0x0805) → getV i k t = getV i k s
end

