-- ==== Sys2Proof/Laws/Memory.lean ====
section
/-!
SUPPORT. Sys2Proof/Laws/Memory.lean: the laws of the keyed lists and of DRAM: what is read after a write, what a write leaves
alone, and that every memory operation keeps the canonical form.
-/
namespace Sys2Proof

variable {α : Type}

theorem Tab.find_put_self (k : Nat) (v : α) (t : Tab α) : Tab.find k (Tab.put k v t) = some v := by
  induction t with
  | nil => simp [Tab.put, Tab.find]
  | cons e l ih =>
    obtain ⟨k', v'⟩ := e
    by_cases h : k < k'
    · simp [Tab.put, Tab.find, h]
    · by_cases h' : k = k' <;> simp [Tab.put, Tab.find, h, h', ih]

theorem Tab.find_put_ne {k j : Nat} (v : α) (t : Tab α) (h : j ≠ k) : Tab.find j (Tab.put k v t) = Tab.find j t := by
  induction t with
  | nil => simp [Tab.put, Tab.find, h]
  | cons e l ih =>
    obtain ⟨k', v'⟩ := e
    by_cases h1 : k < k'
    · by_cases h2 : j < k
      · have : j < k' := by omega
        simp [Tab.put, Tab.find, h1, h2, this]
      · simp [Tab.put, Tab.find, h1, h2, h]
    · by_cases h2 : k = k'
      · subst h2
        by_cases h3 : j < k
        · simp [Tab.put, Tab.find, h3]
        · simp [Tab.put, Tab.find, h3, h]
      · simp [Tab.put, Tab.find, h1, h2, ih]

@[simp] theorem Tab.getD_put_self (k : Nat) (v d : α) (t : Tab α) : Tab.getD k d (Tab.put k v t) = v := by
  simp [Tab.getD, Tab.find_put_self]

@[simp] theorem Tab.getD_put_ne {k j : Nat} (v d : α) (t : Tab α) (h : j ≠ k) :
    Tab.getD j d (Tab.put k v t) = Tab.getD j d t := by
  simp [Tab.getD, Tab.find_put_ne _ _ h]

/-- The keys of a table lie above a bound. -/
def Tab.above (n : Nat) : Tab α → Prop
  | [] => True
  | (k, _) :: l => n < k ∧ Tab.above k l

theorem Tab.above_mono {m n : Nat} (h : m ≤ n) {t : Tab α} (ht : Tab.above n t) : Tab.above m t := by
  cases t with
  | nil => trivial
  | cons e l => exact ⟨Nat.lt_of_le_of_lt h ht.1, ht.2⟩

theorem Tab.sorted_cons {k : Nat} {v : α} {l : Tab α} : Tab.sorted ((k, v) :: l) = true ↔ Tab.above k l := by
  induction l generalizing k v with
  | nil => simp [Tab.sorted, Tab.above]
  | cons e l ih => obtain ⟨k', v'⟩ := e; simp [Tab.sorted, Tab.above, ih]

theorem Tab.above_put {n k : Nat} {v : α} {t : Tab α} (h : Tab.above n t) (hk : n < k) : Tab.above n (Tab.put k v t) := by
  induction t generalizing n with
  | nil => exact ⟨hk, trivial⟩
  | cons e l ih =>
    obtain ⟨k', v'⟩ := e
    by_cases h1 : k < k'
    · simp [Tab.put, h1, Tab.above, hk, h.2]
    · by_cases h2 : k = k'
      · subst h2; simpa [Tab.put, Tab.above] using h
      · have : k' < k := by omega
        simp [Tab.put, h1, h2, Tab.above, h.1, ih h.2 this]

theorem Tab.above_del {n k : Nat} {t : Tab α} (h : Tab.above n t) : Tab.above n (Tab.del k t) := by
  induction t generalizing n with
  | nil => trivial
  | cons e l ih =>
    obtain ⟨k', v'⟩ := e
    by_cases h1 : k < k'
    · simpa [Tab.del, h1] using h
    · by_cases h2 : k = k'
      · simpa [Tab.del, h2] using Tab.above_mono (Nat.le_of_lt h.1) h.2
      · simpa [Tab.del, h1, h2, Tab.above] using ⟨h.1, ih h.2⟩

theorem Tab.sorted_put {k : Nat} {v : α} {t : Tab α} (h : Tab.sorted t = true) : Tab.sorted (Tab.put k v t) = true := by
  cases t with
  | nil => rfl
  | cons e l =>
    obtain ⟨k', v'⟩ := e
    have h' := Tab.sorted_cons.1 h
    by_cases h1 : k < k'
    · simp only [Tab.put, h1, if_true]; exact Tab.sorted_cons.2 ⟨h1, h'⟩
    · by_cases h2 : k = k'
      · subst h2; simp only [Tab.put, Nat.lt_irrefl, if_false, if_true]; exact Tab.sorted_cons.2 h'
      · simp only [Tab.put, h1, h2, if_false]; exact Tab.sorted_cons.2 (Tab.above_put h' (by omega))

theorem Tab.sorted_of_above {n : Nat} {t : Tab α} (h : Tab.above n t) : Tab.sorted t = true := by
  cases t with
  | nil => rfl
  | cons e l => exact Tab.sorted_cons.2 h.2

theorem Tab.sorted_del {k : Nat} {t : Tab α} (h : Tab.sorted t = true) : Tab.sorted (Tab.del k t) = true := by
  cases t with
  | nil => rfl
  | cons e l =>
    obtain ⟨k', v'⟩ := e
    have h' := Tab.sorted_cons.1 h
    by_cases h1 : k < k'
    · simpa [Tab.del, h1] using h
    · by_cases h2 : k = k'
      · simpa [Tab.del, h2] using Tab.sorted_of_above h'
      · simp only [Tab.del, h1, h2, if_false]; exact Tab.sorted_cons.2 (Tab.above_del h')

theorem Tab.mem_put {k : Nat} {v : α} {t : Tab α} {c : Nat × α} (h : c ∈ Tab.put k v t) : c = (k, v) ∨ c ∈ t := by
  induction t with
  | nil => simp [Tab.put] at h; exact .inl h
  | cons e l ih =>
    obtain ⟨k', v'⟩ := e
    by_cases h1 : k < k'
    · simp only [Tab.put, h1, if_true, List.mem_cons] at h ⊢; exact h
    · by_cases h2 : k = k'
      · simp only [Tab.put, h2, if_true, if_false, List.mem_cons, Nat.lt_irrefl] at h ⊢
        exact h.elim .inl (fun h => .inr (.inr h))
      · simp only [Tab.put, h1, h2, if_false, List.mem_cons] at h ⊢
        rcases h with h | h
        · exact .inr (.inl h)
        · exact (ih h).elim .inl (fun h => .inr (.inr h))

theorem Tab.mem_del {k : Nat} {t : Tab α} {c : Nat × α} (h : c ∈ Tab.del k t) : c ∈ t := by
  induction t with
  | nil => exact h
  | cons e l ih =>
    obtain ⟨k', v'⟩ := e
    by_cases h1 : k < k'
    · simpa [Tab.del, h1] using h
    · by_cases h2 : k = k'
      · simp only [Tab.del, h2, Nat.lt_irrefl, if_true, if_false] at h; exact List.mem_cons_of_mem _ h
      · simp only [Tab.del, h1, h2, if_false, List.mem_cons] at h ⊢; exact h.imp id ih

theorem Tab.find_of_above {n k : Nat} {t : Tab α} (h : Tab.above n t) (hk : k ≤ n) : Tab.find k t = none := by
  cases t with
  | nil => rfl
  | cons e l =>
    have : k < e.1 := Nat.lt_of_le_of_lt hk h.1
    simp [Tab.find, this]

theorem Tab.find_del_self {k : Nat} {t : Tab α} (h : Tab.sorted t = true) : Tab.find k (Tab.del k t) = none := by
  induction t with
  | nil => rfl
  | cons e l ih =>
    obtain ⟨k', v'⟩ := e
    have h' := Tab.sorted_cons.1 h
    by_cases h1 : k < k'
    · simp [Tab.del, Tab.find, h1]
    · by_cases h2 : k = k'
      · simpa [Tab.del, h2] using Tab.find_of_above h' (Nat.le_refl _)
      · simp [Tab.del, Tab.find, h1, h2, ih (Tab.sorted_of_above h')]

theorem Tab.find_del_ne {k j : Nat} {t : Tab α} (h : Tab.sorted t = true) (hj : j ≠ k) :
    Tab.find j (Tab.del k t) = Tab.find j t := by
  induction t with
  | nil => rfl
  | cons e l ih =>
    obtain ⟨k', v'⟩ := e
    have h' := Tab.sorted_cons.1 h
    by_cases h1 : k < k'
    · simp [Tab.del, h1]
    · by_cases h2 : k = k'
      · subst h2
        by_cases h3 : j < k
        · simpa [Tab.del, Tab.find, h3] using Tab.find_of_above h' (Nat.le_of_lt h3)
        · simp [Tab.del, Tab.find, h3, hj]
      · simp [Tab.del, Tab.find, h1, h2, ih (Tab.sorted_of_above h')]

namespace Machine

theorem writeByte_wf {a : Nat} {v : Byte} {m : List Host.Cell} (h : Memory.wf m) : Memory.wf (writeByte a v m) := by
  unfold writeByte
  split
  · exact ⟨Tab.sorted_del h.1, fun c hc => h.2 c (Tab.mem_del hc)⟩
  · rename_i hv
    refine ⟨Tab.sorted_put h.1, fun c hc => ?_⟩
    rcases Tab.mem_put hc with rfl | hc
    · exact hv
    · exact h.2 c hc

theorem writeBytes_wf {a : Nat} {l : List Byte} {m : List Host.Cell} (h : Memory.wf m) : Memory.wf (writeBytes a l m) := by
  induction l generalizing a m with
  | nil => exact h
  | cons v l ih => exact ih (writeByte_wf h)

theorem dramWrite_wf {a : Nat} {l : List Byte} {s : State} (h : Memory.wf s.dram) : Memory.wf (dramWrite a l s).dram :=
  writeBytes_wf h

theorem reset_dram_wf : Memory.wf State.reset.dram := ⟨rfl, fun _ h => nomatch h⟩

theorem readByte_writeByte_self {a : Nat} {v : Byte} {m : List Host.Cell} (h : Memory.wf m) :
    readByte a (writeByte a v m) = v := by
  unfold readByte writeByte Tab.getD
  split
  · rename_i hv; simp [Tab.find_del_self h.1, hv]
  · simp [Tab.find_put_self]

theorem readByte_writeByte_ne {a b : Nat} {v : Byte} {m : List Host.Cell} (h : Memory.wf m) (hb : b ≠ a) :
    readByte b (writeByte a v m) = readByte b m := by
  unfold readByte writeByte Tab.getD
  split
  · rw [Tab.find_del_ne h.1 hb]
  · rw [Tab.find_put_ne _ _ hb]

theorem readByte_writeBytes_out {a b : Nat} {l : List Byte} {m : List Host.Cell} (h : Memory.wf m)
    (hb : b < a ∨ a + l.length ≤ b) : readByte b (writeBytes a l m) = readByte b m := by
  induction l generalizing a m with
  | nil => rfl
  | cons v l ih =>
    have hb' : b < a ∨ a + 1 + l.length ≤ b := by simp only [List.length_cons] at hb; omega
    have hne : b ≠ a := by simp only [List.length_cons] at hb; omega
    rw [writeBytes, ih (writeByte_wf h) (by omega), readByte_writeByte_ne h hne]

theorem readByte_writeBytes_in {a i : Nat} {l : List Byte} {m : List Host.Cell} (h : Memory.wf m) (hi : i < l.length) :
    readByte (a + i) (writeBytes a l m) = l[i] := by
  induction l generalizing a i m with
  | nil => simp at hi
  | cons v l ih =>
    cases i with
    | zero => rw [writeBytes, readByte_writeBytes_out (writeByte_wf h) (by omega)]; exact readByte_writeByte_self h
    | succ i =>
      have := ih (a := a + 1) (i := i) (m := writeByte a v m) (writeByte_wf h) (by simpa using hi)
      rw [writeBytes, ← Nat.add_assoc, Nat.add_right_comm]; simpa using this

theorem readBytes_writeBytes_self {a : Nat} {l : List Byte} {m : List Host.Cell} (h : Memory.wf m) :
    readBytes a l.length (writeBytes a l m) = l := by
  refine List.ext_getElem (by simp [readBytes]) (fun i h1 h2 => ?_)
  simp only [readBytes, List.getElem_map, List.getElem_range]
  exact readByte_writeBytes_in h h2

theorem readBytes_length (a n : Nat) (m : List Host.Cell) : (readBytes a n m).length = n := by simp [readBytes]

end Machine

end Sys2Proof
end

