-- ==== Sys2Proof/Laws/Keeps.lean ====
section
/-!
SUPPORT. Sys2Proof/Laws/Keeps.lean: what an operation leaves alone, in three strengths: `Still` (the queue, DRAM and harbour
time unchanged), `Keeps` (the queue and harbour time unchanged, DRAM canonical if it was) and `Holds` (the queue unchanged, DRAM
canonical if it was); and how the three pass through the operations that run other operations.
-/
namespace Sys2Proof.Machine

/-- The queue, DRAM and harbour time are as they were. -/
structure Still (s t : State) : Prop where
  pending : t.pending = s.pending
  dram : t.dram = s.dram
  now : t.now = s.now
  frame : t.frame = s.frame

/-- The queue and harbour time are as they were, and DRAM is canonical if it was. -/
structure Keeps (s t : State) : Prop where
  pending : t.pending = s.pending
  wf : Memory.wf s.dram → Memory.wf t.dram
  now : t.now = s.now
  frame : t.frame = s.frame

/-- The queue is as it was, and DRAM is canonical if it was. -/
structure Holds (s t : State) : Prop where
  pending : t.pending = s.pending
  wf : Memory.wf s.dram → Memory.wf t.dram

theorem Still.refl (s : State) : Still s s := ⟨rfl, rfl, rfl, rfl⟩
theorem Keeps.refl (s : State) : Keeps s s := ⟨rfl, id, rfl, rfl⟩
theorem Holds.refl (s : State) : Holds s s := ⟨rfl, id⟩

theorem Still.keeps {s t : State} (h : Still s t) : Keeps s t := ⟨h.pending, fun w => h.dram ▸ w, h.now, h.frame⟩
theorem Keeps.holds {s t : State} (h : Keeps s t) : Holds s t := ⟨h.pending, h.wf⟩
theorem Still.holds {s t : State} (h : Still s t) : Holds s t := h.keeps.holds

variable {s t u : State}

/-- `Still` after a step that is `Still`, in the order a proof meets them. -/
theorem Still.step (h : Still t u) (h' : Still s t) : Still s u :=
  ⟨h.pending.trans h'.pending, h.dram.trans h'.dram, h.now.trans h'.now, h.frame.trans h'.frame⟩
theorem Keeps.step (h : Keeps t u) (h' : Keeps s t) : Keeps s u :=
  ⟨h.pending.trans h'.pending, h.wf ∘ h'.wf, h.now.trans h'.now, h.frame.trans h'.frame⟩
theorem Holds.step (h : Holds t u) (h' : Holds s t) : Holds s u := ⟨h.pending.trans h'.pending, h.wf ∘ h'.wf⟩
theorem Keeps.still (h : Still t u) (h' : Keeps s t) : Keeps s u := h.keeps.step h'
theorem Holds.still (h : Still t u) (h' : Holds s t) : Holds s u := h.holds.step h'
theorem Holds.keeps (h : Keeps t u) (h' : Holds s t) : Holds s u := h.holds.step h'

/-- An update of other fields, written out so that it meets a structure update and nothing else. -/
theorem Still.upd {out_ : List Out} {result_ : Nat} {free_ : Nat} {timeSet_ : Option Nat} {obj_ : Tab Val} {shadow_ :
    Tab Val} {berths_ : Tab Berth} {loops_ : Tab Loop} {ctxs_ : Tab Context} {links_ : Tab Link} {axes_ : Tab Axis} {ctrs_ :
    Tab Counter} {hm_ : Harbour} {commit_ : Commit} {vision_ : Vision} {chart_ : Chart} {bw_ : Breakwater} {rcd_ : Recorder}
    {wake_ : Wake} {net_ : Net} {ptp_ : Ptp} {mem_ : MemCtl} {mains_ : Mains} {flash_ : Flash} {pilot_ : Pilot} {log_ :
    Logbook} {cal_ : Calib} (h : Still s t) : Still s ⟨t.pending, out_, result_, free_, t.now, t.frame, timeSet_, obj_,
    shadow_, t.dram, berths_, loops_, ctxs_, links_, axes_, ctrs_, hm_, commit_, vision_, chart_, bw_, rcd_, wake_, net_,
    ptp_, mem_, mains_, flash_, pilot_, log_, cal_⟩ :=
  ⟨h.pending, h.dram, h.now, h.frame⟩
theorem Keeps.upd {out_ : List Out} {result_ : Nat} {free_ : Nat} {timeSet_ : Option Nat} {obj_ : Tab Val} {shadow_ :
    Tab Val} {berths_ : Tab Berth} {loops_ : Tab Loop} {ctxs_ : Tab Context} {links_ : Tab Link} {axes_ : Tab Axis} {ctrs_ :
    Tab Counter} {hm_ : Harbour} {commit_ : Commit} {vision_ : Vision} {chart_ : Chart} {bw_ : Breakwater} {rcd_ : Recorder}
    {wake_ : Wake} {net_ : Net} {ptp_ : Ptp} {mem_ : MemCtl} {mains_ : Mains} {flash_ : Flash} {pilot_ : Pilot} {log_ :
    Logbook} {cal_ : Calib} (h : Keeps s t) : Keeps s ⟨t.pending, out_, result_, free_, t.now, t.frame, timeSet_, obj_,
    shadow_, t.dram, berths_, loops_, ctxs_, links_, axes_, ctrs_, hm_, commit_, vision_, chart_, bw_, rcd_, wake_, net_,
    ptp_, mem_, mains_, flash_, pilot_, log_, cal_⟩ :=
  ⟨h.pending, h.wf, h.now, h.frame⟩
theorem Holds.upd {out_ : List Out} {result_ : Nat} {free_ : Nat} {now_ : Time} {frame_ : Nat} {timeSet_ : Option Nat}
    {obj_ : Tab Val} {shadow_ : Tab Val} {berths_ : Tab Berth} {loops_ : Tab Loop} {ctxs_ : Tab Context} {links_ : Tab Link}
    {axes_ : Tab Axis} {ctrs_ : Tab Counter} {hm_ : Harbour} {commit_ : Commit} {vision_ : Vision} {chart_ : Chart} {bw_ :
    Breakwater} {rcd_ : Recorder} {wake_ : Wake} {net_ : Net} {ptp_ : Ptp} {mem_ : MemCtl} {mains_ : Mains} {flash_ : Flash}
    {pilot_ : Pilot} {log_ : Logbook} {cal_ : Calib} (h : Holds s t) : Holds s ⟨t.pending, out_, result_, free_, now_,
    frame_, timeSet_, obj_, shadow_, t.dram, berths_, loops_, ctxs_, links_, axes_, ctrs_, hm_, commit_, vision_, chart_,
    bw_, rcd_, wake_, net_, ptp_, mem_, mains_, flash_, pilot_, log_, cal_⟩ :=
  ⟨h.pending, h.wf⟩

theorem Still.ite {c : Prop} [Decidable c] {a b : State} (h : c → Still s a) (h' : ¬c → Still s b) :
    Still s (if c then a else b) := if hc : c then by simpa [hc] using h hc else by simpa [hc] using h' hc
theorem Keeps.ite {c : Prop} [Decidable c] {a b : State} (h : c → Keeps s a) (h' : ¬c → Keeps s b) :
    Keeps s (if c then a else b) := if hc : c then by simpa [hc] using h hc else by simpa [hc] using h' hc
theorem Holds.ite {c : Prop} [Decidable c] {a b : State} (h : c → Holds s a) (h' : ¬c → Holds s b) :
    Holds s (if c then a else b) := if hc : c then by simpa [hc] using h hc else by simpa [hc] using h' hc

theorem Still.foldl {α : Type} {f : State → α → State} {l : List α} (h : ∀ a s, Still s (f s a)) : Still s (l.foldl f s) := by
  induction l generalizing s with
  | nil => exact .refl _
  | cons a l ih => exact ih.step (h a s)
theorem Keeps.foldl {α : Type} {f : State → α → State} {l : List α} (h : ∀ a s, Keeps s (f s a)) : Keeps s (l.foldl f s) := by
  induction l generalizing s with
  | nil => exact .refl _
  | cons a l ih => exact ih.step (h a s)
theorem Holds.foldl {α : Type} {f : State → α → State} {l : List α} (h : ∀ a s, Holds s (f s a)) : Holds s (l.foldl f s) := by
  induction l generalizing s with
  | nil => exact .refl _
  | cons a l ih => exact ih.step (h a s)

/-- The same in the order a proof meets them. -/
theorem Still.folded {α : Type} {f : State → α → State} {l : List α} (h : ∀ a s, Still s (f s a)) (h' : Still s t) :
    Still s (l.foldl f t) := (Still.foldl h).step h'
theorem Keeps.folded {α : Type} {f : State → α → State} {l : List α} (h : ∀ a s, Keeps s (f s a)) (h' : Keeps s t) :
    Keeps s (l.foldl f t) := (Keeps.foldl h).step h'
theorem Holds.folded {α : Type} {f : State → α → State} {l : List α} (h : ∀ a s, Holds s (f s a)) (h' : Holds s t) :
    Holds s (l.foldl f t) := (Holds.foldl h).step h'

/-- A fold that carries something beside the state. -/
theorem Still.foldl_fst {α β : Type} {f : State × β → α → State × β} {l : List α} {p : State × β}
    (h : ∀ a p, Still p.1 (f p a).1) : Still p.1 (l.foldl f p).1 := by
  induction l generalizing p with
  | nil => exact .refl _
  | cons a l ih => exact ih.step (h a p)
theorem Keeps.foldl_fst {α β : Type} {f : State × β → α → State × β} {l : List α} {p : State × β}
    (h : ∀ a p, Keeps p.1 (f p a).1) : Keeps p.1 (l.foldl f p).1 := by
  induction l generalizing p with
  | nil => exact .refl _
  | cons a l ih => exact ih.step (h a p)

theorem Still.each {l : List Nat} {f : Nat → State → State} (h : ∀ n s, Still s (f n s)) (h' : Still s t) :
    Still s (each l f t) := Still.folded (fun n s => h n s) h'
theorem Keeps.each {l : List Nat} {f : Nat → State → State} (h : ∀ n s, Keeps s (f n s)) (h' : Keeps s t) :
    Keeps s (each l f t) := Keeps.folded (fun n s => h n s) h'
theorem Holds.each {l : List Nat} {f : Nat → State → State} (h : ∀ n s, Holds s (f n s)) (h' : Holds s t) :
    Holds s (each l f t) := Holds.folded (fun n s => h n s) h'
theorem Still.eachBerth {m : Nat} {f : Nat → State → State} (h : ∀ n s, Still s (f n s)) (h' : Still s t) :
    Still s (eachBerth m f t) := Still.each h h'
theorem Keeps.eachBerth {m : Nat} {f : Nat → State → State} (h : ∀ n s, Keeps s (f n s)) (h' : Keeps s t) :
    Keeps s (eachBerth m f t) := Keeps.each h h'

theorem keeps_dramWrite {a : Nat} {l : List Byte} : Keeps s (dramWrite a l s) := ⟨rfl, dramWrite_wf, rfl, rfl⟩

theorem still_withResult {r : Nat} : Still s (withResult r s) := ⟨rfl, rfl, rfl, rfl⟩

theorem Still.orElse {b : Bool} {r : Nat} {f : State → State} (h : ∀ s, Still s (f s)) (h' : Still s t) :
    Still s (orElse b r f t) := (Still.ite (fun _ => h t) (fun _ => still_withResult) : Still t (if b then f t else _)).step h'
theorem Keeps.orElse {b : Bool} {r : Nat} {f : State → State} (h : ∀ s, Keeps s (f s)) (h' : Keeps s t) :
    Keeps s (orElse b r f t) :=
  (Keeps.ite (fun _ => h t) (fun _ => still_withResult.keeps) : Keeps t (if b then f t else _)).step h'

theorem fresh_still (s : State) : Still s (fresh s) := ⟨rfl, rfl, rfl, rfl⟩

/-- What a gated command answers: the effect on the state with no output and result 0, or that state with a result. -/
theorem gated_next {c : Instr} {f : State → State} (h : gated c f s = .next t) :
    c.wf = true ∧ running c s = true ∧ t = f (fresh s) ∨ ∃ r, t = { fresh s with result := r } := by
  unfold gated at h
  injection h with h
  cases hw : c.wf
  · exact .inr ⟨illResult c, by simpa [hw] using h.symm⟩
  · cases hr : running c s
    · exact .inr ⟨offResult c s, by simpa [hw, hr] using h.symm⟩
    · exact .inl ⟨rfl, rfl, by simpa [hw, hr] using h.symm⟩

/-- A well-formed command whose domain runs has its effect. -/
theorem gated_run {c : Instr} {f : State → State} (hw : c.wf = true) (hr : running c s = true) :
    gated c f s = .next (f (fresh s)) := by simp [gated, hw, hr]

/-- A well-formed command whose domain does not run answers its result alone. -/
theorem gated_off {c : Instr} {f : State → State} (hw : c.wf = true) (hr : running c s = false) :
    gated c f s = .next { fresh s with result := offResult c s } := by simp [gated, hw, hr]

/-- A command whose operands name nothing of the part answers its result alone. -/
theorem gated_ill {c : Instr} {f : State → State} (hw : c.wf = false) :
    gated c f s = .next { fresh s with result := illResult c } := by simp [gated, hw]

theorem still_gated {c : Instr} {f : State → State} (hf : ∀ s, Still s (f s)) (h : gated c f s = .next t) : Still s t := by
  obtain ⟨-, -, rfl⟩ | ⟨_, rfl⟩ := gated_next h
  · exact (hf _).step (fresh_still s)
  · exact ⟨rfl, rfl, rfl, rfl⟩
theorem keeps_gated {c : Instr} {f : State → State} (hf : ∀ s, Keeps s (f s)) (h : gated c f s = .next t) : Keeps s t := by
  obtain ⟨-, -, rfl⟩ | ⟨_, rfl⟩ := gated_next h
  · exact (hf _).step (fresh_still s).keeps
  · exact ⟨rfl, id, rfl, rfl⟩
theorem holds_gated {c : Instr} {f : State → State} (hf : ∀ s, Holds s (f s)) (h : gated c f s = .next t) : Holds s t := by
  obtain ⟨-, -, rfl⟩ | ⟨_, rfl⟩ := gated_next h
  · exact (hf _).step (fresh_still s).holds
  · exact ⟨rfl, id⟩

end Sys2Proof.Machine
end

