-- ==== Sys2Proof/Laws/Still.lean ====
section
/-!
SUPPORT. Sys2Proof/Laws/Still.lean: each operation that leaves the queue, DRAM and harbour time as they are.
-/
namespace Sys2Proof.Machine

variable {s t : State}

theorem still_emit {x0 : _} : Still s (emit x0 s) := by
  have h := Still.refl s
  unfold emit; try dsimp only
  repeat' first | with_reducible assumption | with_reducible exact Still.refl _ | with_reducible apply Still.ite | intro _ | split | with_reducible apply Still.upd

theorem still_mopFrom {x0 : _} {x1 : _} {x2 : _} {x3 : _} {x4 : _} {x5 : _} : Still s (mopFrom x0 x1 x2 x3 x4 x5 s) := by
  have h := Still.refl s
  unfold mopFrom; try dsimp only
  repeat' first | with_reducible assumption | with_reducible exact Still.refl _ | with_reducible apply Still.ite | with_reducible apply Still.step still_emit | intro _ | split

theorem still_mopOut {x0 : _} {x1 : _} {x2 : _} {x3 : _} {x4 : _} : Still s (mopOut x0 x1 x2 x3 x4 s) := by
  have h := Still.refl s
  unfold mopOut; try dsimp only
  repeat' first | with_reducible assumption | with_reducible exact Still.refl _ | with_reducible apply Still.ite | with_reducible apply Still.step still_mopFrom | intro _ | split

theorem still_ackOut {x0 : _} {x1 : _} {x2 : _} {x3 : _} {x4 : _} : Still s (ackOut x0 x1 x2 x3 x4 s) := by
  have h := Still.refl s
  unfold ackOut; try dsimp only
  repeat' first | with_reducible assumption | with_reducible exact Still.refl _ | with_reducible apply Still.ite | with_reducible apply Still.step still_mopOut | intro _ | split

theorem still_setV {x0 : _} {x1 : _} {x2 : _} : Still s (setV x0 x1 x2 s) := by
  have h := Still.refl s
  unfold setV; try dsimp only
  repeat' first | with_reducible assumption | with_reducible exact Still.refl _ | with_reducible apply Still.ite | intro _ | split | with_reducible apply Still.upd

theorem still_setN {x0 : _} {x1 : _} {x2 : _} : Still s (setN x0 x1 x2 s) := by
  have h := Still.refl s
  unfold setN; try dsimp only
  repeat' first | with_reducible assumption | with_reducible exact Still.refl _ | with_reducible apply Still.ite | with_reducible apply Still.step still_setV | intro _ | split

theorem still_modBerth {x0 : _} {x1 : _} : Still s (modBerth x0 x1 s) := by
  have h := Still.refl s
  unfold modBerth; try dsimp only
  repeat' first | with_reducible assumption | with_reducible exact Still.refl _ | with_reducible apply Still.ite | intro _ | split | with_reducible apply Still.upd

theorem still_updateLen {x0 : _} {x1 : _} : Still s (updateLen x0 x1 s) := by
  have h := Still.refl s
  unfold updateLen; try dsimp only
  repeat' first | with_reducible assumption | with_reducible exact Still.refl _ | with_reducible apply Still.ite | with_reducible apply Still.step still_emit | with_reducible apply Still.step still_modBerth | intro _ | split

theorem still_bolRelease {x0 : _} : Still s (bolRelease x0 s) := by
  have h := Still.refl s
  unfold bolRelease; try dsimp only
  repeat' first | with_reducible assumption | with_reducible exact Still.refl _ | with_reducible apply Still.ite | with_reducible apply Still.eachBerth | with_reducible apply Still.step still_setN | with_reducible apply Still.step still_updateLen | intro _ | split

theorem still_acknowledge {x0 : _} : Still s (acknowledge x0 s) := by
  have h := Still.refl s
  unfold acknowledge; try dsimp only
  repeat' first | with_reducible assumption | with_reducible exact Still.refl _ | with_reducible apply Still.ite | with_reducible apply Still.each | with_reducible apply Still.step still_bolRelease | with_reducible apply Still.step still_withResult | intro _ | split

theorem still_modMains {x0 : _} : Still s (modMains x0 s) := by
  have h := Still.refl s
  unfold modMains; try dsimp only
  repeat' first | with_reducible assumption | with_reducible exact Still.refl _ | with_reducible apply Still.ite | intro _ | split | with_reducible apply Still.upd

theorem still_acquireFromRest : Still s (acquireFromRest s) := by
  have h := Still.refl s
  unfold acquireFromRest; try dsimp only
  repeat' first | with_reducible assumption | with_reducible exact Still.refl _ | with_reducible apply Still.ite | with_reducible apply Still.step still_modMains | with_reducible apply Still.step still_setN | intro _ | split

theorem still_addN {x0 : _} {x1 : _} {x2 : _} {x3 : _} : Still s (addN x0 x1 x2 x3 s) := by
  have h := Still.refl s
  unfold addN; try dsimp only
  repeat' first | with_reducible assumption | with_reducible exact Still.refl _ | with_reducible apply Still.ite | with_reducible apply Still.step still_setN | intro _ | split

theorem still_drawn : Still s (drawn s) := by
  have h := Still.refl s
  unfold drawn; try dsimp only
  repeat' first | with_reducible assumption | with_reducible exact Still.refl _ | with_reducible apply Still.ite | intro _ | split | with_reducible apply Still.upd

theorem still_modSub {x0 : _} {x1 : _} : Still s (modSub x0 x1 s) := by
  have h := Still.refl s
  unfold modSub; try dsimp only
  repeat' first | with_reducible assumption | with_reducible exact Still.refl _ | with_reducible apply Still.ite | intro _ | split | with_reducible apply Still.upd

theorem still_activate {x0 : _} {x1 : _} : Still s (activate x0 x1 s) := by
  have h := Still.refl s
  unfold activate; try dsimp only
  repeat' first | with_reducible assumption | with_reducible exact Still.refl _ | with_reducible apply Still.ite | with_reducible apply Still.step still_addN | with_reducible apply Still.step still_drawn | with_reducible apply Still.step still_modSub | intro _ | split

theorem still_logCount : Still s (logCount s) := by
  have h := Still.refl s
  unfold logCount; try dsimp only
  repeat' first | with_reducible assumption | with_reducible exact Still.refl _ | with_reducible apply Still.ite | with_reducible apply Still.step still_setN | intro _ | split

theorem still_logProgram {x0 : _} : Still s (logProgram x0 s) := by
  have h := Still.refl s
  unfold logProgram; try dsimp only
  repeat' first | with_reducible assumption | with_reducible exact Still.refl _ | with_reducible apply Still.ite | intro _ | split | with_reducible apply Still.upd

theorem still_logDrain {x0 : _} : Still s (logDrain x0 s) := by
  induction x0 generalizing s with
  | nil =>
    have h := Still.refl s
    simp only [logDrain]
    repeat' first | with_reducible assumption | with_reducible exact Still.refl _ | with_reducible apply Still.ite | with_reducible apply Still.step still_logProgram | intro _ | split | with_reducible apply Still.upd
  | cons e l ih =>
    have h := Still.refl s
    simp only [logDrain]
    repeat' first | with_reducible apply Still.step (ih ..) | with_reducible assumption | with_reducible exact Still.refl _ | with_reducible apply Still.ite | with_reducible apply Still.step still_logProgram | intro _ | split | with_reducible apply Still.upd

theorem still_logStage {x0 : _} {x1 : _} {x2 : _} {x3 : _} {x4 : _} : Still s (logStage x0 x1 x2 x3 x4 s) := by
  have h := Still.refl s
  unfold logStage; try dsimp only
  repeat' first | with_reducible assumption | with_reducible exact Still.refl _ | with_reducible apply Still.ite | with_reducible apply Still.step still_addN | intro _ | split | with_reducible apply Still.upd

theorem still_logLostNote : Still s (logLostNote s) := by
  have h := Still.refl s
  unfold logLostNote; try dsimp only
  repeat' first | with_reducible assumption | with_reducible exact Still.refl _ | with_reducible apply Still.ite | with_reducible apply Still.step still_logStage | intro _ | split | with_reducible apply Still.upd

theorem still_logFlush : Still s (logFlush s) := by
  have h := Still.refl s
  unfold logFlush; try dsimp only
  repeat' first | with_reducible assumption | with_reducible exact Still.refl _ | with_reducible apply Still.ite | with_reducible apply Still.step still_logCount | with_reducible apply Still.step still_logDrain | with_reducible apply Still.step still_logLostNote | intro _ | split

theorem still_logAdd {x0 : _} {x1 : _} {x2 : _} {x3 : _} {x4 : _} : Still s (logAdd x0 x1 x2 x3 x4 s) := by
  have h := Still.refl s
  unfold logAdd; try dsimp only
  repeat' first | with_reducible assumption | with_reducible exact Still.refl _ | with_reducible apply Still.ite | with_reducible apply Still.step still_addN | with_reducible apply Still.step still_logCount | with_reducible apply Still.step still_logFlush | with_reducible apply Still.step still_logStage | intro _ | split | with_reducible apply Still.upd

theorem still_modSess {x0 : _} {x1 : _} : Still s (modSess x0 x1 s) := by
  have h := Still.refl s
  unfold modSess; try dsimp only
  repeat' first | with_reducible assumption | with_reducible exact Still.refl _ | with_reducible apply Still.ite | intro _ | split | with_reducible apply Still.upd

theorem still_queueNotice {x0 : _} {x1 : _} : Still s (queueNotice x0 x1 s) := by
  have h := Still.refl s
  unfold queueNotice; try dsimp only
  repeat' first | with_reducible assumption | with_reducible exact Still.refl _ | with_reducible apply Still.ite | with_reducible apply Still.step still_addN | with_reducible apply Still.step still_modSess | intro _ | split

theorem still_noticeAt {x0 : _} {x1 : _} {x2 : _} {x3 : _} {x4 : _} : Still s (noticeAt x0 x1 x2 x3 x4 s) := by
  have h := Still.refl s
  unfold noticeAt; try dsimp only
  repeat' first | with_reducible assumption | with_reducible exact Still.refl _ | with_reducible apply Still.ite | with_reducible apply Still.each | with_reducible apply Still.step still_logAdd | with_reducible apply Still.step still_queueNotice | intro _ | split | with_reducible apply Still.upd

theorem still_noticeLogAt {x0 : _} {x1 : _} {x2 : _} {x3 : _} {x4 : _} : Still s (noticeLogAt x0 x1 x2 x3 x4 s) := by
  have h := Still.refl s
  unfold noticeLogAt; try dsimp only
  repeat' first | with_reducible assumption | with_reducible exact Still.refl _ | with_reducible apply Still.ite | with_reducible apply Still.step still_logAdd | with_reducible apply Still.step still_noticeAt | intro _ | split

theorem still_noticeLog {x0 : _} {x1 : _} {x2 : _} {x3 : _} : Still s (noticeLog x0 x1 x2 x3 s) := by
  have h := Still.refl s
  unfold noticeLog; try dsimp only
  repeat' first | with_reducible assumption | with_reducible exact Still.refl _ | with_reducible apply Still.ite | with_reducible apply Still.step still_noticeLogAt | intro _ | split

theorem still_setBootRecord {x0 : _} : Still s (setBootRecord x0 s) := by
  have h := Still.refl s
  unfold setBootRecord; try dsimp only
  repeat' first | with_reducible assumption | with_reducible exact Still.refl _ | with_reducible apply Still.ite | intro _ | split | with_reducible apply Still.upd

theorem still_activateImage : Still s (activateImage s) := by
  have h := Still.refl s
  unfold activateImage; try dsimp only
  repeat' first | with_reducible assumption | with_reducible exact Still.refl _ | with_reducible apply Still.ite | with_reducible apply Still.step still_noticeLog | with_reducible apply Still.step still_setBootRecord | with_reducible apply Still.step still_setN | with_reducible apply Still.step still_withResult | intro _ | split

theorem still_bolInputs {x0 : _} : Still s (bolInputs x0 s) := by
  have h := Still.refl s
  unfold bolInputs; try dsimp only
  repeat' first | with_reducible assumption | with_reducible exact Still.refl _ | with_reducible apply Still.ite | with_reducible apply Still.step still_setN | with_reducible apply Still.folded | intro _ | split | with_reducible apply Still.upd

theorem still_calEnd : Still s (calEnd s) := by
  have h := Still.refl s
  unfold calEnd; try dsimp only
  repeat' first | with_reducible assumption | with_reducible exact Still.refl _ | with_reducible apply Still.ite | with_reducible apply Still.eachBerth | with_reducible apply Still.step still_modBerth | with_reducible apply Still.step still_updateLen | intro _ | split

theorem still_notice {x0 : _} {x1 : _} {x2 : _} {x3 : _} : Still s (notice x0 x1 x2 x3 s) := by
  have h := Still.refl s
  unfold notice; try dsimp only
  repeat' first | with_reducible assumption | with_reducible exact Still.refl _ | with_reducible apply Still.ite | with_reducible apply Still.step still_noticeAt | intro _ | split

theorem still_calNotice {x0 : _} {x1 : _} : Still s (calNotice x0 x1 s) := by
  have h := Still.refl s
  unfold calNotice; try dsimp only
  repeat' first | with_reducible assumption | with_reducible exact Still.refl _ | with_reducible apply Still.ite | with_reducible apply Still.step still_notice | intro _ | split

theorem still_calAbort : Still s (calAbort s) := by
  have h := Still.refl s
  unfold calAbort; try dsimp only
  repeat' first | with_reducible assumption | with_reducible exact Still.refl _ | with_reducible apply Still.ite | with_reducible apply Still.step still_calEnd | with_reducible apply Still.step still_calNotice | with_reducible apply Still.step still_setN | intro _ | split | with_reducible apply Still.upd

theorem still_calStop {x0 : _} : Still s (calStop x0 s) := by
  have h := Still.refl s
  unfold calStop; try dsimp only
  repeat' first | with_reducible assumption | with_reducible exact Still.refl _ | with_reducible apply Still.ite | with_reducible apply Still.step still_calAbort | intro _ | split

theorem still_setTime {x0 : _} {x1 : _} {x2 : _} : Still s (setTime x0 x1 x2 s) := by
  have h := Still.refl s
  unfold setTime; try dsimp only
  repeat' first | with_reducible assumption | with_reducible exact Still.refl _ | with_reducible apply Still.ite | with_reducible apply Still.step still_setN | intro _ | split

theorem still_coveredFault {x0 : _} {x1 : _} {x2 : _} : Still s (coveredFault x0 x1 x2 s) := by
  have h := Still.refl s
  unfold coveredFault; try dsimp only
  repeat' first | with_reducible assumption | with_reducible exact Still.refl _ | with_reducible apply Still.ite | with_reducible apply Still.step still_logAdd | with_reducible apply Still.step still_setN | with_reducible apply Still.step still_setTime | intro _ | split | with_reducible apply Still.upd

theorem still_modStream {x0 : _} {x1 : _} : Still s (modStream x0 x1 s) := by
  have h := Still.refl s
  unfold modStream; try dsimp only
  repeat' first | with_reducible assumption | with_reducible exact Still.refl _ | with_reducible apply Still.ite | intro _ | split | with_reducible apply Still.upd

theorem still_modLast {x0 : _} {x1 : _} : Still s (modLast x0 x1 s) := by
  have h := Still.refl s
  unfold modLast; try dsimp only
  repeat' first | with_reducible assumption | with_reducible exact Still.refl _ | with_reducible apply Still.ite | with_reducible apply Still.step still_modStream | intro _ | split

theorem still_dropInput {x0 : _} {x1 : _} {x2 : _} : Still s (dropInput x0 x1 x2 s) := by
  have h := Still.refl s
  unfold dropInput; try dsimp only
  repeat' first | with_reducible assumption | with_reducible exact Still.refl _ | with_reducible apply Still.ite | with_reducible apply Still.step still_addN | with_reducible apply Still.step still_modLast | with_reducible apply Still.step still_modStream | intro _ | split

theorem still_decelerate {x0 : _} {x1 : _} : Still s (decelerate x0 x1 s) := by
  have h := Still.refl s
  unfold decelerate; try dsimp only
  repeat' first | with_reducible assumption | with_reducible exact Still.refl _ | with_reducible apply Still.ite | with_reducible apply Still.step still_modBerth | intro _ | split

theorem still_setI {x0 : _} {x1 : _} {x2 : _} : Still s (setI x0 x1 x2 s) := by
  have h := Still.refl s
  unfold setI; try dsimp only
  repeat' first | with_reducible assumption | with_reducible exact Still.refl _ | with_reducible apply Still.ite | with_reducible apply Still.step still_setV | intro _ | split

theorem still_setResume {x0 : _} {x1 : _} {x2 : _} {x3 : _} {x4 : _} {x5 : _} {x6 : _} {x7 : _} : Still s (setResume x0 x1 x2 x3 x4 x5 x6 x7 s) := by
  have h := Still.refl s
  unfold setResume; try dsimp only
  repeat' first | with_reducible assumption | with_reducible exact Still.refl _ | with_reducible apply Still.ite | with_reducible apply Still.step still_setI | with_reducible apply Still.step still_setN | with_reducible apply Still.step still_setTime | intro _ | split

theorem still_recordNow {x0 : _} {x1 : _} : Still s (recordNow x0 x1 s) := by
  have h := Still.refl s
  unfold recordNow; try dsimp only
  repeat' first | with_reducible assumption | with_reducible exact Still.refl _ | with_reducible apply Still.ite | with_reducible apply Still.step still_setResume | intro _ | split

theorem still_sampleEnd {x0 : _} : Still s (sampleEnd x0 s) := by
  have h := Still.refl s
  unfold sampleEnd; try dsimp only
  repeat' first | with_reducible assumption | with_reducible exact Still.refl _ | with_reducible apply Still.ite | with_reducible apply Still.step still_modStream | intro _ | split

theorem still_enterState {x0 : _} {x1 : _} {x2 : _} : Still s (enterState x0 x1 x2 s) := by
  have h := Still.refl s
  unfold enterState; try dsimp only
  repeat' first | with_reducible assumption | with_reducible exact Still.refl _ | with_reducible apply Still.ite | with_reducible apply Still.step still_sampleEnd | with_reducible apply Still.step still_setN | with_reducible apply Still.step still_updateLen | intro _ | split

theorem still_setGate {x0 : _} {x1 : _} {x2 : _} : Still s (setGate x0 x1 x2 s) := by
  have h := Still.refl s
  unfold setGate; try dsimp only
  repeat' first | with_reducible assumption | with_reducible exact Still.refl _ | with_reducible apply Still.ite | with_reducible apply Still.step still_emit | with_reducible apply Still.step still_modBerth | intro _ | split

theorem still_sameTime {x0 : _} {x1 : _} : Still s (sameTime x0 x1 s) := by
  have h := Still.refl s
  unfold sameTime; try dsimp only
  repeat' first | with_reducible assumption | with_reducible exact Still.refl _ | with_reducible apply Still.ite | with_reducible apply Still.step still_setN | intro _ | split

theorem still_giverToC0 {x0 : _} {x1 : _} {x2 : _} : Still s (giverToC0 x0 x1 x2 s) := by
  have h := Still.refl s
  unfold giverToC0; try dsimp only
  repeat' first | with_reducible assumption | with_reducible exact Still.refl _ | with_reducible apply Still.ite | with_reducible apply Still.step still_modBerth | intro _ | split

theorem still_modAxis {x0 : _} {x1 : _} : Still s (modAxis x0 x1 s) := by
  have h := Still.refl s
  unfold modAxis; try dsimp only
  repeat' first | with_reducible assumption | with_reducible exact Still.refl _ | with_reducible apply Still.ite | intro _ | split | with_reducible apply Still.upd

theorem still_stopDecelerate {x0 : _} : Still s (stopDecelerate x0 s) := by
  have h := Still.refl s
  unfold stopDecelerate; try dsimp only
  repeat' first | with_reducible assumption | with_reducible exact Still.refl _ | with_reducible apply Still.ite | with_reducible apply Still.step still_modAxis | with_reducible apply Still.step still_setI | with_reducible apply Still.step still_setN | intro _ | split

theorem still_modCtx {x0 : _} {x1 : _} : Still s (modCtx x0 x1 s) := by
  have h := Still.refl s
  unfold modCtx; try dsimp only
  repeat' first | with_reducible assumption | with_reducible exact Still.refl _ | with_reducible apply Still.ite | intro _ | split | with_reducible apply Still.upd

theorem still_takeShadows {x0 : _} : Still s (takeShadows x0 s) := by
  have h := Still.refl s
  unfold takeShadows; try dsimp only
  repeat' first | with_reducible assumption | with_reducible exact Still.refl _ | with_reducible apply Still.ite | with_reducible apply Still.folded | intro _ | split | with_reducible apply Still.upd

theorem still_commitCtx {x0 : _} {x1 : _} : Still s (commitCtx x0 x1 s) := by
  have h := Still.refl s
  unfold commitCtx; try dsimp only
  repeat' first | with_reducible assumption | with_reducible exact Still.refl _ | with_reducible apply Still.ite | with_reducible apply Still.step still_modCtx | with_reducible apply Still.step still_setN | with_reducible apply Still.step still_takeShadows | intro _ | split

theorem still_openStrobe {x0 : _} {x1 : _} {x2 : _} : Still s (openStrobe x0 x1 x2 s) := by
  have h := Still.refl s
  unfold openStrobe; try dsimp only
  repeat' first | with_reducible assumption | with_reducible exact Still.refl _ | with_reducible apply Still.ite | intro _ | split | with_reducible apply Still.upd

theorem still_modLink {x0 : _} {x1 : _} : Still s (modLink x0 x1 s) := by
  have h := Still.refl s
  unfold modLink; try dsimp only
  repeat' first | with_reducible assumption | with_reducible exact Still.refl _ | with_reducible apply Still.ite | intro _ | split | with_reducible apply Still.upd

theorem still_launchFrame {x0 : _} {x1 : _} {x2 : _} {x3 : _} : Still s (launchFrame x0 x1 x2 x3 s) := by
  have h := Still.refl s
  unfold launchFrame; try dsimp only
  repeat' first | with_reducible assumption | with_reducible exact Still.refl _ | with_reducible apply Still.ite | with_reducible apply Still.step still_emit | with_reducible apply Still.step still_modLink | intro _ | split

theorem still_sendFrame {x0 : _} {x1 : _} {x2 : _} : Still s (sendFrame x0 x1 x2 s) := by
  have h := Still.refl s
  unfold sendFrame; try dsimp only
  repeat' first | with_reducible assumption | with_reducible exact Still.refl _ | with_reducible apply Still.ite | with_reducible apply Still.step still_launchFrame | with_reducible apply Still.step still_modLink | intro _ | split

theorem still_cameraTrigger {x0 : _} {x1 : _} {x2 : _} : Still s (cameraTrigger x0 x1 x2 s) := by
  have h := Still.refl s
  unfold cameraTrigger; try dsimp only
  repeat' first | with_reducible assumption | with_reducible exact Still.refl _ | with_reducible apply Still.ite | with_reducible apply Still.step still_addN | with_reducible apply Still.step still_commitCtx | with_reducible apply Still.step still_emit | with_reducible apply Still.step still_modCtx | with_reducible apply Still.step still_openStrobe | with_reducible apply Still.step still_sendFrame | with_reducible apply Still.step still_setN | intro _ | split

theorem still_triggerFinal {x0 : _} {x1 : _} : Still s (triggerFinal x0 x1 s) := by
  have h := Still.refl s
  unfold triggerFinal; try dsimp only
  repeat' first | with_reducible assumption | with_reducible exact Still.refl _ | with_reducible apply Still.ite | with_reducible apply Still.step still_cameraTrigger | with_reducible apply Still.step still_modBerth | intro _ | split

theorem still_addFinal {x0 : _} {x1 : _} {x2 : _} : Still s (addFinal x0 x1 x2 s) := by
  have h := Still.refl s
  unfold addFinal; try dsimp only
  repeat' first | with_reducible assumption | with_reducible exact Still.refl _ | with_reducible apply Still.ite | with_reducible apply Still.step still_modBerth | with_reducible apply Still.step still_triggerFinal | intro _ | split

theorem still_setShadow {x0 : _} {x1 : _} {x2 : _} : Still s (setShadow x0 x1 x2 s) := by
  have h := Still.refl s
  unfold setShadow; try dsimp only
  repeat' first | with_reducible assumption | with_reducible exact Still.refl _ | with_reducible apply Still.ite | intro _ | split | with_reducible apply Still.upd

theorem still_plain {x0 : _} {x1 : _} {x2 : _} : Still s (plain x0 x1 x2 s) := by
  have h := Still.refl s
  unfold plain; try dsimp only
  repeat' first | with_reducible assumption | with_reducible exact Still.refl _ | with_reducible apply Still.ite | with_reducible apply Still.step still_setShadow | with_reducible apply Still.step still_setV | intro _ | split

theorem still_presenceOut : Still s (presenceOut s) := by
  have h := Still.refl s
  unfold presenceOut; try dsimp only
  repeat' first | with_reducible assumption | with_reducible exact Still.refl _ | with_reducible apply Still.ite | with_reducible apply Still.step still_emit | intro _ | split

theorem still_addressWrite {x0 : _} {x1 : _} {x2 : _} : Still s (addressWrite x0 x1 x2 s) := by
  have h := Still.refl s
  unfold addressWrite; try dsimp only
  repeat' first | with_reducible assumption | with_reducible exact Still.refl _ | with_reducible apply Still.ite | with_reducible apply Still.step still_plain | with_reducible apply Still.step still_presenceOut | intro _ | split

theorem still_noticeObj {x0 : _} {x1 : _} {x2 : _} {x3 : _} {x4 : _} : Still s (noticeObj x0 x1 x2 x3 x4 s) := by
  have h := Still.refl s
  unfold noticeObj; try dsimp only
  repeat' first | with_reducible assumption | with_reducible exact Still.refl _ | with_reducible apply Still.ite | with_reducible apply Still.step still_notice | intro _ | split

theorem still_openingWatch {x0 : _} : Still s (openingWatch x0 s) := by
  have h := Still.refl s
  unfold openingWatch; try dsimp only
  repeat' first | with_reducible assumption | with_reducible exact Still.refl _ | with_reducible apply Still.ite | intro _ | split | with_reducible apply Still.upd

theorem still_setNotice {x0 : _} {x1 : _} {x2 : _} {x3 : _} {x4 : _} : Still s (setNotice x0 x1 x2 x3 x4 s) := by
  have h := Still.refl s
  unfold setNotice; try dsimp only
  repeat' first | with_reducible assumption | with_reducible exact Still.refl _ | with_reducible apply Still.ite | with_reducible apply Still.step still_noticeObj | with_reducible apply Still.step still_setI | intro _ | split

theorem still_wakeCheck : Still s (wakeCheck s) := by
  have h := Still.refl s
  unfold wakeCheck; try dsimp only
  repeat' first | with_reducible assumption | with_reducible exact Still.refl _ | with_reducible apply Still.ite | with_reducible apply Still.step still_setN | with_reducible apply Still.step still_setNotice | intro _ | split | with_reducible apply Still.upd

theorem still_afterCounter {x0 : _} : Still s (afterCounter x0 s) := by
  have h := Still.refl s
  unfold afterCounter; try dsimp only
  repeat' first | with_reducible assumption | with_reducible exact Still.refl _ | with_reducible apply Still.ite | with_reducible apply Still.step still_openingWatch | with_reducible apply Still.step still_wakeCheck | intro _ | split

theorem still_modPtp {x0 : _} : Still s (modPtp x0 s) := by
  have h := Still.refl s
  unfold modPtp; try dsimp only
  repeat' first | with_reducible assumption | with_reducible exact Still.refl _ | with_reducible apply Still.ite | intro _ | split | with_reducible apply Still.upd

theorem still_becomeMaster : Still s (becomeMaster s) := by
  have h := Still.refl s
  unfold becomeMaster; try dsimp only
  repeat' first | with_reducible assumption | with_reducible exact Still.refl _ | with_reducible apply Still.ite | with_reducible apply Still.step still_modPtp | with_reducible apply Still.step still_setN | intro _ | split

theorem still_becomeSlave {x0 : _} : Still s (becomeSlave x0 s) := by
  have h := Still.refl s
  unfold becomeSlave; try dsimp only
  repeat' first | with_reducible assumption | with_reducible exact Still.refl _ | with_reducible apply Still.ite | with_reducible apply Still.step still_modPtp | with_reducible apply Still.step still_setN | intro _ | split

theorem still_announce {x0 : _} : Still s (announce x0 s) := by
  have h := Still.refl s
  unfold announce; try dsimp only
  repeat' first | with_reducible assumption | with_reducible exact Still.refl _ | with_reducible apply Still.ite | with_reducible apply Still.step still_becomeMaster | with_reducible apply Still.step still_becomeSlave | with_reducible apply Still.step still_modPtp | intro _ | split

theorem still_announceReceiptTimeout : Still s (announceReceiptTimeout s) := by
  have h := Still.refl s
  unfold announceReceiptTimeout; try dsimp only
  repeat' first | with_reducible assumption | with_reducible exact Still.refl _ | with_reducible apply Still.ite | with_reducible apply Still.step still_becomeMaster | with_reducible apply Still.step still_modPtp | with_reducible apply Still.step still_setN | intro _ | split

theorem still_configFrame {x0 : _} {x1 : _} : Still s (configFrame x0 x1 s) := by
  have h := Still.refl s
  unfold configFrame; try dsimp only
  repeat' first | with_reducible assumption | with_reducible exact Still.refl _ | with_reducible apply Still.ite | with_reducible apply Still.step still_launchFrame | intro _ | split

theorem still_configSend {x0 : _} {x1 : _} {x2 : _} {x3 : _} {x4 : _} : Still s (configSend x0 x1 x2 x3 x4 s) := by
  have h := Still.refl s
  unfold configSend; try dsimp only
  repeat' first | with_reducible assumption | with_reducible exact Still.refl _ | with_reducible apply Still.ite | with_reducible apply Still.step still_configFrame | with_reducible apply Still.step still_modLink | with_reducible apply Still.step still_withResult | intro _ | split

theorem still_configWrite {x0 : _} {x1 : _} {x2 : _} : Still s (configWrite x0 x1 x2 s) := by
  have h := Still.refl s
  unfold configWrite; try dsimp only
  repeat' first | with_reducible assumption | with_reducible exact Still.refl _ | with_reducible apply Still.ite | with_reducible apply Still.step still_configSend | with_reducible apply Still.step still_modLink | intro _ | split

theorem still_modUpdate {x0 : _} : Still s (modUpdate x0 s) := by
  have h := Still.refl s
  unfold modUpdate; try dsimp only
  repeat' first | with_reducible assumption | with_reducible exact Still.refl _ | with_reducible apply Still.ite | intro _ | split | with_reducible apply Still.upd

theorem still_imageData {x0 : _} {x1 : _} : Still s (imageData x0 x1 s) := by
  have h := Still.refl s
  unfold imageData; try dsimp only
  repeat' first | with_reducible assumption | with_reducible exact Still.refl _ | with_reducible apply Still.ite | with_reducible apply Still.step still_modUpdate | with_reducible apply Still.step still_setN | with_reducible apply Still.step still_withResult | intro _ | split

theorem still_clearPoison {x0 : _} {x1 : _} : Still s (clearPoison x0 x1 s) := by
  have h := Still.refl s
  unfold clearPoison; try dsimp only
  repeat' first | with_reducible assumption | with_reducible exact Still.refl _ | with_reducible apply Still.ite | intro _ | split | with_reducible apply Still.upd

theorem still_setSlot {x0 : _} {x1 : _} {x2 : _} : Still s (setSlot x0 x1 x2 s) := by
  have h := Still.refl s
  unfold setSlot; try dsimp only
  repeat' first | with_reducible assumption | with_reducible exact Still.refl _ | with_reducible apply Still.ite | with_reducible apply Still.step still_setN | intro _ | split

theorem still_setSlotLayer {x0 : _} {x1 : _} {x2 : _} : Still s (setSlotLayer x0 x1 x2 s) := by
  have h := Still.refl s
  unfold setSlotLayer; try dsimp only
  repeat' first | with_reducible assumption | with_reducible exact Still.refl _ | with_reducible apply Still.ite | with_reducible apply Still.step still_setN | intro _ | split

theorem still_emptySlot {x0 : _} {x1 : _} : Still s (emptySlot x0 x1 s) := by
  have h := Still.refl s
  unfold emptySlot; try dsimp only
  repeat' first | with_reducible assumption | with_reducible exact Still.refl _ | with_reducible apply Still.ite | with_reducible apply Still.step still_modBerth | with_reducible apply Still.step still_setSlot | with_reducible apply Still.step still_setSlotLayer | intro _ | split

theorem still_stopSequence {x0 : _} : Still s (stopSequence x0 s) := by
  have h := Still.refl s
  unfold stopSequence; try dsimp only
  repeat' first | with_reducible assumption | with_reducible exact Still.refl _ | with_reducible apply Still.ite | with_reducible apply Still.step still_setN | intro _ | split | with_reducible apply Still.upd

theorem still_beaconEnable {x0 : _} : Still s (beaconEnable x0 s) := by
  have h := Still.refl s
  unfold beaconEnable; try dsimp only
  repeat' first | with_reducible assumption | with_reducible exact Still.refl _ | with_reducible apply Still.ite | with_reducible apply Still.step still_stopSequence | intro _ | split | with_reducible apply Still.upd

theorem still_plainI {x0 : _} {x1 : _} {x2 : _} : Still s (plainI x0 x1 x2 s) := by
  have h := Still.refl s
  unfold plainI; try dsimp only
  repeat' first | with_reducible assumption | with_reducible exact Still.refl _ | with_reducible apply Still.ite | with_reducible apply Still.step still_plain | intro _ | split

theorem still_projectorBegin {x0 : _} {x1 : _} : Still s (projectorBegin x0 x1 s) := by
  have h := Still.refl s
  unfold projectorBegin; try dsimp only
  repeat' first | with_reducible assumption | with_reducible exact Still.refl _ | with_reducible apply Still.ite | with_reducible apply Still.each | with_reducible apply Still.step still_cameraTrigger | with_reducible apply Still.step still_emit | with_reducible apply Still.step still_setN | intro _ | split | with_reducible apply Still.upd

theorem still_sequenceStart : Still s (sequenceStart s) := by
  have h := Still.refl s
  unfold sequenceStart; try dsimp only
  repeat' first | with_reducible assumption | with_reducible exact Still.refl _ | with_reducible apply Still.ite | with_reducible apply Still.step still_projectorBegin | with_reducible apply Still.step still_setN | with_reducible apply Still.step still_withResult | intro _ | split

theorem still_writeBeacon {x0 : _} {x1 : _} {x2 : _} : Still s (writeBeacon x0 x1 x2 s) := by
  have h := Still.refl s
  unfold writeBeacon; try dsimp only
  repeat' first | with_reducible assumption | with_reducible exact Still.refl _ | with_reducible apply Still.ite | with_reducible apply Still.orElse | with_reducible apply Still.step still_beaconEnable | with_reducible apply Still.step still_plainI | with_reducible apply Still.step still_sequenceStart | with_reducible apply Still.step still_stopSequence | intro _ | split

theorem still_keepObjects {x0 : _} : Still s (keepObjects x0 s) := by
  have h := Still.refl s
  unfold keepObjects; try dsimp only
  repeat' first | with_reducible assumption | with_reducible exact Still.refl _ | with_reducible apply Still.ite | intro _ | split | with_reducible apply Still.upd

theorem still_resetObjects {x0 : _} : Still s (resetObjects x0 s) := by
  have h := Still.refl s
  unfold resetObjects; try dsimp only
  repeat' first | with_reducible assumption | with_reducible exact Still.refl _ | with_reducible apply Still.ite | with_reducible apply Still.step still_keepObjects | with_reducible apply Still.step still_setN | intro _ | split | with_reducible apply Still.upd

theorem still_clearSubs {x0 : _} {x1 : _} {x2 : _} : Still s (clearSubs x0 x1 x2 s) := by
  have h := Still.refl s
  unfold clearSubs; try dsimp only
  repeat' first | with_reducible assumption | with_reducible exact Still.refl _ | with_reducible apply Still.ite | with_reducible apply Still.each | with_reducible apply Still.step still_setN | intro _ | split

theorem still_onPlan {x0 : _} {x1 : _} {x2 : _} : Still s (onPlan x0 x1 x2 s) := by
  have h := Still.refl s
  unfold onPlan; try dsimp only
  repeat' first | with_reducible assumption | with_reducible exact Still.refl _ | with_reducible apply Still.ite | with_reducible apply Still.step still_modBerth | intro _ | split

theorem still_toRunUp {x0 : _} {x1 : _} {x2 : _} {x3 : _} {x4 : _} {x5 : _} : Still s (toRunUp x0 x1 x2 x3 x4 x5 s) := by
  have h := Still.refl s
  unfold toRunUp; try dsimp only
  repeat' first | with_reducible assumption | with_reducible exact Still.refl _ | with_reducible apply Still.ite | with_reducible apply Still.step still_modBerth | with_reducible apply Still.step still_onPlan | intro _ | split

theorem still_beginRecord {x0 : _} {x1 : _} {x2 : _} {x3 : _} : Still s (beginRecord x0 x1 x2 x3 s) := by
  have h := Still.refl s
  unfold beginRecord; try dsimp only
  repeat' first | with_reducible assumption | with_reducible exact Still.refl _ | with_reducible apply Still.ite | with_reducible apply Still.step still_modBerth | with_reducible apply Still.step still_onPlan | with_reducible apply Still.step still_toRunUp | intro _ | split

theorem still_setDone {x0 : _} {x1 : _} : Still s (setDone x0 x1 s) := by
  have h := Still.refl s
  unfold setDone; try dsimp only
  repeat' first | with_reducible assumption | with_reducible exact Still.refl _ | with_reducible apply Still.ite | with_reducible apply Still.step still_modBerth | intro _ | split

theorem still_resumePath {x0 : _} {x1 : _} {x2 : _} : Still s (resumePath x0 x1 x2 s) := by
  have h := Still.refl s
  unfold resumePath; try dsimp only
  repeat' first | with_reducible assumption | with_reducible exact Still.refl _ | with_reducible apply Still.ite | with_reducible apply Still.step still_beginRecord | with_reducible apply Still.step still_modBerth | with_reducible apply Still.step still_onPlan | with_reducible apply Still.step still_setDone | with_reducible apply Still.step still_toRunUp | intro _ | split

theorem still_resumeRefused {x0 : _} {x1 : _} {x2 : _} {x3 : _} {x4 : _} : Still s (resumeRefused x0 x1 x2 x3 x4 s) := by
  have h := Still.refl s
  unfold resumeRefused; try dsimp only
  repeat' first | with_reducible assumption | with_reducible exact Still.refl _ | with_reducible apply Still.ite | with_reducible apply Still.step still_noticeAt | with_reducible apply Still.step still_withResult | intro _ | split

theorem still_withJoin {x0 : _} {x1 : _} : Still s (withJoin x0 x1 s) := by
  have h := Still.refl s
  unfold withJoin; try dsimp only
  repeat' first | with_reducible assumption | with_reducible exact Still.refl _ | with_reducible apply Still.ite | with_reducible apply Still.step still_modBerth | intro _ | split

theorem still_exportLayer {x0 : _} : Still s (exportLayer x0 s) := by
  have h := Still.refl s
  unfold exportLayer; try dsimp only
  repeat' first | with_reducible assumption | with_reducible exact Still.refl _ | with_reducible apply Still.ite | with_reducible apply Still.step still_setN | with_reducible apply Still.step still_withResult | intro _ | split

theorem still_modBuffer {x0 : _} {x1 : _} : Still s (modBuffer x0 x1 s) := by
  have h := Still.refl s
  unfold modBuffer; try dsimp only
  repeat' first | with_reducible assumption | with_reducible exact Still.refl _ | with_reducible apply Still.ite | intro _ | split | with_reducible apply Still.upd

theorem still_release {x0 : _} : Still s (release x0 s) := by
  have h := Still.refl s
  unfold release; try dsimp only
  repeat' first | with_reducible assumption | with_reducible exact Still.refl _ | with_reducible apply Still.ite | with_reducible apply Still.step still_modBuffer | with_reducible apply Still.step still_withResult | intro _ | split

theorem still_writeChart {x0 : _} {x1 : _} {x2 : _} : Still s (writeChart x0 x1 x2 s) := by
  have h := Still.refl s
  unfold writeChart; try dsimp only
  repeat' first | with_reducible assumption | with_reducible exact Still.refl _ | with_reducible apply Still.ite | with_reducible apply Still.step still_clearSubs | with_reducible apply Still.step still_exportLayer | with_reducible apply Still.step still_plainI | with_reducible apply Still.step still_release | intro _ | split

theorem still_closeLength {x0 : _} {x1 : _} : Still s (closeLength x0 x1 s) := by
  have h := Still.refl s
  unfold closeLength; try dsimp only
  repeat' first | with_reducible assumption | with_reducible exact Still.refl _ | with_reducible apply Still.ite | with_reducible apply Still.step still_modBerth | with_reducible apply Still.step still_setSlot | with_reducible apply Still.step still_withResult | intro _ | split

theorem still_endCommit {x0 : _} : Still s (endCommit x0 s) := by
  have h := Still.refl s
  unfold endCommit; try dsimp only
  repeat' first | with_reducible assumption | with_reducible exact Still.refl _ | with_reducible apply Still.ite | with_reducible apply Still.step still_setN | intro _ | split | with_reducible apply Still.upd

theorem still_commitAbort : Still s (commitAbort s) := by
  have h := Still.refl s
  unfold commitAbort; try dsimp only
  repeat' first | with_reducible assumption | with_reducible exact Still.refl _ | with_reducible apply Still.ite | with_reducible apply Still.step still_endCommit | with_reducible apply Still.step still_withResult | intro _ | split

theorem still_openWindow : Still s (openWindow s) := by
  have h := Still.refl s
  unfold openWindow; try dsimp only
  repeat' first | with_reducible assumption | with_reducible exact Still.refl _ | with_reducible apply Still.ite | with_reducible apply Still.step still_setN | intro _ | split | with_reducible apply Still.upd

theorem still_commitRequest {x0 : _} : Still s (commitRequest x0 s) := by
  have h := Still.refl s
  unfold commitRequest; try dsimp only
  repeat' first | with_reducible assumption | with_reducible exact Still.refl _ | with_reducible apply Still.ite | with_reducible apply Still.step still_openWindow | with_reducible apply Still.step still_setN | with_reducible apply Still.step still_withResult | intro _ | split | with_reducible apply Still.upd

theorem still_sealGroup {x0 : _} {x1 : _} : Still s (sealGroup x0 x1 s) := by
  have h := Still.refl s
  unfold sealGroup; try dsimp only
  repeat' first | with_reducible assumption | with_reducible exact Still.refl _ | with_reducible apply Still.ite | with_reducible apply Still.step still_setN | intro _ | split

theorem still_slotClear {x0 : _} {x1 : _} : Still s (slotClear x0 x1 s) := by
  have h := Still.refl s
  unfold slotClear; try dsimp only
  repeat' first | with_reducible assumption | with_reducible exact Still.refl _ | with_reducible apply Still.ite | with_reducible apply Still.step still_emptySlot | with_reducible apply Still.step still_withResult | intro _ | split

theorem still_unsealGroup {x0 : _} : Still s (unsealGroup x0 s) := by
  have h := Still.refl s
  unfold unsealGroup; try dsimp only
  repeat' first | with_reducible assumption | with_reducible exact Still.refl _ | with_reducible apply Still.ite | with_reducible apply Still.step still_setN | with_reducible apply Still.step still_withResult | intro _ | split

theorem still_harbourCommand {x0 : _} : Still s (harbourCommand x0 s) := by
  have h := Still.refl s
  unfold harbourCommand; try dsimp only
  repeat' first | with_reducible assumption | with_reducible exact Still.refl _ | with_reducible apply Still.ite | intro _ | split | with_reducible apply Still.upd

theorem still_reassignBerth {x0 : _} : Still s (reassignBerth x0 s) := by
  have h := Still.refl s
  unfold reassignBerth; try dsimp only
  repeat' first | with_reducible assumption | with_reducible exact Still.refl _ | with_reducible apply Still.ite | with_reducible apply Still.step still_withResult | intro _ | split | with_reducible apply Still.upd

theorem still_writeHarbour {x0 : _} {x1 : _} {x2 : _} : Still s (writeHarbour x0 x1 x2 s) := by
  have h := Still.refl s
  unfold writeHarbour; try dsimp only
  repeat' first | with_reducible assumption | with_reducible exact Still.refl _ | with_reducible apply Still.ite | with_reducible apply Still.orElse | with_reducible apply Still.step still_clearSubs | with_reducible apply Still.step still_harbourCommand | with_reducible apply Still.step still_plainI | with_reducible apply Still.step still_reassignBerth | intro _ | split | with_reducible apply Still.upd

theorem still_setLinkState {x0 : _} {x1 : _} : Still s (setLinkState x0 x1 s) := by
  have h := Still.refl s
  unfold setLinkState; try dsimp only
  repeat' first | with_reducible assumption | with_reducible exact Still.refl _ | with_reducible apply Still.ite | with_reducible apply Still.step still_setN | intro _ | split

theorem still_takeSeat {x0 : _} : Still s (takeSeat x0 s) := by
  have h := Still.refl s
  unfold takeSeat; try dsimp only
  repeat' first | with_reducible assumption | with_reducible exact Still.refl _ | with_reducible apply Still.ite | intro _ | split | with_reducible apply Still.upd

theorem still_enterDetect {x0 : _} : Still s (enterDetect x0 s) := by
  have h := Still.refl s
  unfold enterDetect; try dsimp only
  repeat' first | with_reducible assumption | with_reducible exact Still.refl _ | with_reducible apply Still.ite | with_reducible apply Still.step still_drawn | with_reducible apply Still.step still_modLink | with_reducible apply Still.step still_setLinkState | with_reducible apply Still.step still_setN | with_reducible apply Still.step still_takeSeat | intro _ | split

theorem still_linkNote {x0 : _} {x1 : _} : Still s (linkNote x0 x1 s) := by
  have h := Still.refl s
  unfold linkNote; try dsimp only
  repeat' first | with_reducible assumption | with_reducible exact Still.refl _ | with_reducible apply Still.ite | with_reducible apply Still.step still_noticeLog | intro _ | split

theorem still_resetLink {x0 : _} : Still s (resetLink x0 s) := by
  have h := Still.refl s
  unfold resetLink; try dsimp only
  repeat' first | with_reducible assumption | with_reducible exact Still.refl _ | with_reducible apply Still.ite | with_reducible apply Still.step still_keepObjects | with_reducible apply Still.step still_modLink | intro _ | split

theorem still_dropLink {x0 : _} {x1 : _} : Still s (dropLink x0 x1 s) := by
  have h := Still.refl s
  unfold dropLink; try dsimp only
  repeat' first | with_reducible assumption | with_reducible exact Still.refl _ | with_reducible apply Still.ite | with_reducible apply Still.step still_enterDetect | with_reducible apply Still.step still_linkNote | with_reducible apply Still.step still_modLink | with_reducible apply Still.step still_resetLink | with_reducible apply Still.step still_setLinkState | with_reducible apply Still.step still_setN | intro _ | split

theorem still_linkEnable {x0 : _} : Still s (linkEnable x0 s) := by
  have h := Still.refl s
  unfold linkEnable; try dsimp only
  repeat' first | with_reducible assumption | with_reducible exact Still.refl _ | with_reducible apply Still.ite | with_reducible apply Still.step still_enterDetect | with_reducible apply Still.step still_modLink | with_reducible apply Still.step still_setN | intro _ | split

theorem still_showAdaptation {x0 : _} : Still s (showAdaptation x0 s) := by
  have h := Still.refl s
  unfold showAdaptation; try dsimp only
  repeat' first | with_reducible assumption | with_reducible exact Still.refl _ | with_reducible apply Still.ite | with_reducible apply Still.step still_setN | intro _ | split

theorem still_retrain {x0 : _} : Still s (retrain x0 s) := by
  have h := Still.refl s
  unfold retrain; try dsimp only
  repeat' first | with_reducible assumption | with_reducible exact Still.refl _ | with_reducible apply Still.ite | with_reducible apply Still.step still_modLink | with_reducible apply Still.step still_noticeObj | with_reducible apply Still.step still_showAdaptation | intro _ | split

theorem still_logClear {x0 : _} : Still s (logClear x0 s) := by
  have h := Still.refl s
  unfold logClear; try dsimp only
  repeat' first | with_reducible assumption | with_reducible exact Still.refl _ | with_reducible apply Still.ite | with_reducible apply Still.step still_logAdd | with_reducible apply Still.step still_setN | with_reducible apply Still.step still_withResult | intro _ | split | with_reducible apply Still.upd

theorem still_writeLogbook {x0 : _} {x1 : _} {x2 : _} {x3 : _} : Still s (writeLogbook x0 x1 x2 x3 s) := by
  have h := Still.refl s
  unfold writeLogbook; try dsimp only
  repeat' first | with_reducible assumption | with_reducible exact Still.refl _ | with_reducible apply Still.ite | with_reducible apply Still.step still_logClear | with_reducible apply Still.step still_logFlush | with_reducible apply Still.step still_modSess | with_reducible apply Still.step still_plainI | intro _ | split

theorem still_modLoop {x0 : _} {x1 : _} : Still s (modLoop x0 x1 s) := by
  have h := Still.refl s
  unfold modLoop; try dsimp only
  repeat' first | with_reducible assumption | with_reducible exact Still.refl _ | with_reducible apply Still.ite | intro _ | split | with_reducible apply Still.upd

theorem still_bankSelect {x0 : _} {x1 : _} : Still s (bankSelect x0 x1 s) := by
  have h := Still.refl s
  unfold bankSelect; try dsimp only
  repeat' first | with_reducible assumption | with_reducible exact Still.refl _ | with_reducible apply Still.ite | with_reducible apply Still.step still_modLoop | with_reducible apply Still.step still_setShadow | with_reducible apply Still.step still_withResult | intro _ | split

theorem still_bankWrite {x0 : _} {x1 : _} {x2 : _} {x3 : _} : Still s (bankWrite x0 x1 x2 x3 s) := by
  have h := Still.refl s
  unfold bankWrite; try dsimp only
  repeat' first | with_reducible assumption | with_reducible exact Still.refl _ | with_reducible apply Still.ite | with_reducible apply Still.orElse | with_reducible apply Still.step still_plainI | with_reducible apply Still.step still_withResult | intro _ | split

theorem still_loopFlag {x0 : _} {x1 : _} {x2 : _} : Still s (loopFlag x0 x1 x2 s) := by
  have h := Still.refl s
  unfold loopFlag; try dsimp only
  repeat' first | with_reducible assumption | with_reducible exact Still.refl _ | with_reducible apply Still.ite | with_reducible apply Still.step still_setN | intro _ | split

theorem still_countLoop {x0 : _} {x1 : _} {x2 : _} : Still s (countLoop x0 x1 x2 s) := by
  have h := Still.refl s
  unfold countLoop; try dsimp only
  repeat' first | with_reducible assumption | with_reducible exact Still.refl _ | with_reducible apply Still.ite | with_reducible apply Still.step still_addN | intro _ | split

theorem still_transferRefused {x0 : _} {x1 : _} {x2 : _} {x3 : _} : Still s (transferRefused x0 x1 x2 x3 s) := by
  have h := Still.refl s
  unfold transferRefused; try dsimp only
  repeat' first | with_reducible assumption | with_reducible exact Still.refl _ | with_reducible apply Still.ite | with_reducible apply Still.step still_countLoop | with_reducible apply Still.step still_loopFlag | with_reducible apply Still.step still_notice | with_reducible apply Still.step still_setN | intro _ | split

theorem still_loopMode {x0 : _} {x1 : _} : Still s (loopMode x0 x1 s) := by
  have h := Still.refl s
  unfold loopMode; try dsimp only
  repeat' first | with_reducible assumption | with_reducible exact Still.refl _ | with_reducible apply Still.ite | with_reducible apply Still.step still_loopFlag | with_reducible apply Still.step still_setShadow | with_reducible apply Still.step still_transferRefused | with_reducible apply Still.step still_withResult | intro _ | split

theorem still_reportShadowLoad : Still s (reportShadowLoad s) := by
  have h := Still.refl s
  unfold reportShadowLoad; try dsimp only
  repeat' first | with_reducible assumption | with_reducible exact Still.refl _ | with_reducible apply Still.ite | with_reducible apply Still.step still_setN | intro _ | split

theorem still_tripClear {x0 : _} : Still s (tripClear x0 s) := by
  have h := Still.refl s
  unfold tripClear; try dsimp only
  repeat' first | with_reducible assumption | with_reducible exact Still.refl _ | with_reducible apply Still.ite | with_reducible apply Still.step still_loopFlag | with_reducible apply Still.step still_modLoop | with_reducible apply Still.step still_setN | with_reducible apply Still.step still_withResult | intro _ | split

theorem still_writeLoop {x0 : _} {x1 : _} {x2 : _} : Still s (writeLoop x0 x1 x2 s) := by
  have h := Still.refl s
  unfold writeLoop; try dsimp only
  repeat' first | with_reducible assumption | with_reducible exact Still.refl _ | with_reducible apply Still.ite | with_reducible apply Still.orElse | with_reducible apply Still.step still_bankSelect | with_reducible apply Still.step still_bankWrite | with_reducible apply Still.step still_clearSubs | with_reducible apply Still.step still_loopFlag | with_reducible apply Still.step still_loopMode | with_reducible apply Still.step still_plainI | with_reducible apply Still.step still_reportShadowLoad | with_reducible apply Still.step still_tripClear | intro _ | split

theorem still_glitchWrite {x0 : _} : Still s (glitchWrite x0 s) := by
  have h := Still.refl s
  unfold glitchWrite; try dsimp only
  repeat' first | with_reducible assumption | with_reducible exact Still.refl _ | with_reducible apply Still.ite | with_reducible apply Still.step still_setN | with_reducible apply Still.step still_withResult | intro _ | split

theorem still_dipLogged : Still s (dipLogged s) := by
  have h := Still.refl s
  unfold dipLogged; try dsimp only
  repeat' first | with_reducible assumption | with_reducible exact Still.refl _ | with_reducible apply Still.ite | with_reducible apply Still.step still_addN | with_reducible apply Still.step still_logAdd | with_reducible apply Still.step still_modMains | intro _ | split

theorem still_setMains {x0 : _} : Still s (setMains x0 s) := by
  have h := Still.refl s
  unfold setMains; try dsimp only
  repeat' first | with_reducible assumption | with_reducible exact Still.refl _ | with_reducible apply Still.ite | with_reducible apply Still.step still_setN | intro _ | split | with_reducible apply Still.upd

theorem still_driveLens : Still s (driveLens s) := by
  have h := Still.refl s
  unfold driveLens; try dsimp only
  repeat' first | with_reducible assumption | with_reducible exact Still.refl _ | with_reducible apply Still.ite | with_reducible apply Still.each | with_reducible apply Still.step still_emit | with_reducible apply Still.step still_modBerth | intro _ | split

theorem still_axisFlag {x0 : _} {x1 : _} {x2 : _} : Still s (axisFlag x0 x1 x2 s) := by
  have h := Still.refl s
  unfold axisFlag; try dsimp only
  repeat' first | with_reducible assumption | with_reducible exact Still.refl _ | with_reducible apply Still.ite | with_reducible apply Still.step still_setN | intro _ | split

theorem still_axisStand {x0 : _} {x1 : _} : Still s (axisStand x0 x1 s) := by
  have h := Still.refl s
  unfold axisStand; try dsimp only
  repeat' first | with_reducible assumption | with_reducible exact Still.refl _ | with_reducible apply Still.ite | with_reducible apply Still.step still_axisFlag | with_reducible apply Still.step still_modAxis | with_reducible apply Still.step still_setI | with_reducible apply Still.step still_setN | intro _ | split

theorem still_axisStart {x0 : _} : Still s (axisStart x0 s) := by
  have h := Still.refl s
  unfold axisStart; try dsimp only
  repeat' first | with_reducible assumption | with_reducible exact Still.refl _ | with_reducible apply Still.ite | with_reducible apply Still.step still_axisStand | with_reducible apply Still.step still_modAxis | intro _ | split

theorem still_countBacklog {x0 : _} : Still s (countBacklog x0 s) := by
  have h := Still.refl s
  unfold countBacklog; try dsimp only
  repeat' first | with_reducible assumption | with_reducible exact Still.refl _ | with_reducible apply Still.ite | with_reducible apply Still.step still_setN | with_reducible apply Still.folded | intro _ | split

theorem still_calFrame {x0 : _} {x1 : _} : Still s (calFrame x0 x1 s) := by
  have h := Still.refl s
  unfold calFrame; try dsimp only
  repeat' first | with_reducible assumption | with_reducible exact Still.refl _ | with_reducible apply Still.ite | intro _ | split | with_reducible apply Still.upd

theorem still_dropFrame {x0 : _} {x1 : _} : Still s (dropFrame x0 x1 s) := by
  have h := Still.refl s
  unfold dropFrame; try dsimp only
  repeat' first | with_reducible assumption | with_reducible exact Still.refl _ | with_reducible apply Still.ite | with_reducible apply Still.step still_modCtx | intro _ | split

theorem still_droppedFrame {x0 : _} {x1 : _} {x2 : _} : Still s (droppedFrame x0 x1 x2 s) := by
  have h := Still.refl s
  unfold droppedFrame; try dsimp only
  repeat' first | with_reducible assumption | with_reducible exact Still.refl _ | with_reducible apply Still.ite | with_reducible apply Still.step still_addN | with_reducible apply Still.step still_calFrame | with_reducible apply Still.step still_countBacklog | with_reducible apply Still.step still_dropFrame | with_reducible apply Still.step still_notice | intro _ | split

theorem still_overloadDrops {x0 : _} : Still s (overloadDrops x0 s) := by
  induction x0 generalizing s with
  | zero =>
    have h := Still.refl s
    simp only [overloadDrops]
    repeat' first | with_reducible assumption | with_reducible exact Still.refl _ | with_reducible apply Still.ite | with_reducible apply Still.step still_droppedFrame | with_reducible apply Still.step still_setN | intro _ | split | with_reducible apply Still.upd
  | succ k ih =>
    have h := Still.refl s
    simp only [overloadDrops]
    repeat' first | with_reducible apply Still.step (ih ..) | with_reducible assumption | with_reducible exact Still.refl _ | with_reducible apply Still.ite | with_reducible apply Still.step still_droppedFrame | with_reducible apply Still.step still_setN | intro _ | split | with_reducible apply Still.upd

theorem still_watchOverload : Still s (watchOverload s) := by
  have h := Still.refl s
  unfold watchOverload; try dsimp only
  repeat' first | with_reducible assumption | with_reducible exact Still.refl _ | with_reducible apply Still.ite | with_reducible apply Still.step still_overloadDrops | intro _ | split | with_reducible apply Still.upd

theorem still_recount {x0 : _} : Still s (recount x0 s) := by
  have h := Still.refl s
  unfold recount; try dsimp only
  repeat' first | with_reducible assumption | with_reducible exact Still.refl _ | with_reducible apply Still.ite | with_reducible apply Still.step still_countBacklog | with_reducible apply Still.step still_watchOverload | intro _ | split

theorem still_contextEnable {x0 : _} {x1 : _} : Still s (contextEnable x0 x1 s) := by
  have h := Still.refl s
  unfold contextEnable; try dsimp only
  repeat' first | with_reducible assumption | with_reducible exact Still.refl _ | with_reducible apply Still.ite | with_reducible apply Still.step still_emit | with_reducible apply Still.step still_modCtx | with_reducible apply Still.step still_recount | with_reducible apply Still.step still_setN | with_reducible apply Still.step still_takeShadows | with_reducible apply Still.step still_withResult | intro _ | split | with_reducible apply Still.upd

theorem still_reportLoad : Still s (reportLoad s) := by
  have h := Still.refl s
  unfold reportLoad; try dsimp only
  repeat' first | with_reducible assumption | with_reducible exact Still.refl _ | with_reducible apply Still.ite | with_reducible apply Still.step still_setN | intro _ | split

theorem still_reportTrips : Still s (reportTrips s) := by
  have h := Still.refl s
  unfold reportTrips; try dsimp only
  repeat' first | with_reducible assumption | with_reducible exact Still.refl _ | with_reducible apply Still.ite | with_reducible apply Still.each | with_reducible apply Still.step still_loopFlag | intro _ | split

theorem still_enableDomains : Still s (enableDomains s) := by
  have h := Still.refl s
  unfold enableDomains; try dsimp only
  repeat' first | with_reducible assumption | with_reducible exact Still.refl _ | with_reducible apply Still.ite | with_reducible apply Still.each | with_reducible apply Still.step still_axisStart | with_reducible apply Still.step still_contextEnable | with_reducible apply Still.step still_enterDetect | with_reducible apply Still.step still_reportLoad | with_reducible apply Still.step still_reportShadowLoad | with_reducible apply Still.step still_reportTrips | with_reducible apply Still.step still_setN | intro _ | split

theorem still_floatOutputs : Still s (floatOutputs s) := by
  have h := Still.refl s
  unfold floatOutputs; try dsimp only
  repeat' first | with_reducible assumption | with_reducible exact Still.refl _ | with_reducible apply Still.ite | with_reducible apply Still.each | with_reducible apply Still.step still_emit | intro _ | split | with_reducible apply Still.upd

theorem still_holdDomains : Still s (holdDomains s) := by
  have h := Still.refl s
  unfold holdDomains; try dsimp only
  repeat' first | with_reducible assumption | with_reducible exact Still.refl _ | with_reducible apply Still.ite | with_reducible apply Still.step still_keepObjects | intro _ | split | with_reducible apply Still.upd

theorem still_enterAnchorage {x0 : _} {x1 : _} {x2 : _} : Still s (enterAnchorage x0 x1 x2 s) := by
  have h := Still.refl s
  unfold enterAnchorage; try dsimp only
  repeat' first | with_reducible assumption | with_reducible exact Still.refl _ | with_reducible apply Still.ite | with_reducible apply Still.step still_floatOutputs | with_reducible apply Still.step still_holdDomains | with_reducible apply Still.step still_noticeLog | with_reducible apply Still.step still_setN | intro _ | split | with_reducible apply Still.upd

theorem still_setB {x0 : _} {x1 : _} {x2 : _} : Still s (setB x0 x1 x2 s) := by
  have h := Still.refl s
  unfold setB; try dsimp only
  repeat' first | with_reducible assumption | with_reducible exact Still.refl _ | with_reducible apply Still.ite | with_reducible apply Still.step still_setV | intro _ | split

theorem still_loadBreakwater : Still s (loadBreakwater s) := by
  have h := Still.refl s
  unfold loadBreakwater; try dsimp only
  repeat' first | with_reducible assumption | with_reducible exact Still.refl _ | with_reducible apply Still.ite | with_reducible apply Still.step still_setB | with_reducible apply Still.step still_setN | with_reducible apply Still.folded | intro _ | split | with_reducible apply Still.upd

theorem still_logScan : Still s (logScan s) := by
  have h := Still.refl s
  unfold logScan; try dsimp only
  repeat' first | with_reducible assumption | with_reducible exact Still.refl _ | with_reducible apply Still.ite | with_reducible apply Still.step still_logCount | with_reducible apply Still.step still_setN | intro _ | split

theorem still_showVersions {x0 : _} {x1 : _} {x2 : _} : Still s (showVersions x0 x1 x2 s) := by
  have h := Still.refl s
  unfold showVersions; try dsimp only
  repeat' first | with_reducible assumption | with_reducible exact Still.refl _ | with_reducible apply Still.ite | with_reducible apply Still.step still_setB | with_reducible apply Still.step still_setN | intro _ | split

theorem still_boot : Still s (boot s) := by
  have h := Still.refl s
  unfold boot; try dsimp only
  repeat' first | with_reducible assumption | with_reducible exact Still.refl _ | with_reducible apply Still.ite | with_reducible apply Still.step still_driveLens | with_reducible apply Still.step still_enableDomains | with_reducible apply Still.step still_enterAnchorage | with_reducible apply Still.step still_loadBreakwater | with_reducible apply Still.step still_logScan | with_reducible apply Still.step still_setBootRecord | with_reducible apply Still.step still_showVersions | intro _ | split | with_reducible apply Still.upd

theorem still_outputsOff : Still s (outputsOff s) := by
  have h := Still.refl s
  unfold outputsOff; try dsimp only
  repeat' first | with_reducible assumption | with_reducible exact Still.refl _ | with_reducible apply Still.ite | with_reducible apply Still.each | with_reducible apply Still.step still_emit | intro _ | split | with_reducible apply Still.upd

theorem still_resetNote {x0 : _} {x1 : _} : Still s (resetNote x0 x1 s) := by
  have h := Still.refl s
  unfold resetNote; try dsimp only
  repeat' first | with_reducible assumption | with_reducible exact Still.refl _ | with_reducible apply Still.ite | with_reducible apply Still.step still_logAdd | with_reducible apply Still.step still_setN | intro _ | split

theorem still_restoreShown : Still s (restoreShown s) := by
  have h := Still.refl s
  unfold restoreShown; try dsimp only
  repeat' first | with_reducible assumption | with_reducible exact Still.refl _ | with_reducible apply Still.ite | with_reducible apply Still.step still_setN | intro _ | split

theorem still_modBank {x0 : _} {x1 : _} {x2 : _} : Still s (modBank x0 x1 x2 s) := by
  have h := Still.refl s
  unfold modBank; try dsimp only
  repeat' first | with_reducible assumption | with_reducible exact Still.refl _ | with_reducible apply Still.ite | with_reducible apply Still.step still_modSub | intro _ | split

theorem still_neighbourRefresh {x0 : _} : Still s (neighbourRefresh x0 s) := by
  have h := Still.refl s
  unfold neighbourRefresh; try dsimp only
  repeat' first | with_reducible assumption | with_reducible exact Still.refl _ | with_reducible apply Still.ite | with_reducible apply Still.step still_emit | with_reducible apply Still.step still_modBank | with_reducible apply Still.step still_modSub | with_reducible apply Still.folded | intro _ | split

theorem still_issueBurst {x0 : _} {x1 : _} : Still s (issueBurst x0 x1 s) := by
  have h := Still.refl s
  unfold issueBurst; try dsimp only
  repeat' first | with_reducible assumption | with_reducible exact Still.refl _ | with_reducible apply Still.ite | with_reducible apply Still.step still_activate | with_reducible apply Still.step still_emit | with_reducible apply Still.step still_modBank | with_reducible apply Still.step still_neighbourRefresh | intro _ | split

theorem still_lateNote {x0 : _} {x1 : _} : Still s (lateNote x0 x1 s) := by
  have h := Still.refl s
  unfold lateNote; try dsimp only
  repeat' first | with_reducible assumption | with_reducible exact Still.refl _ | with_reducible apply Still.ite | with_reducible apply Still.step still_addN | intro _ | split

theorem still_issueQueued {x0 : _} {x1 : _} : Still s (issueQueued x0 x1 s) := by
  have h := Still.refl s
  unfold issueQueued; try dsimp only
  repeat' first | with_reducible assumption | with_reducible exact Still.refl _ | with_reducible apply Still.ite | with_reducible apply Still.step still_issueBurst | with_reducible apply Still.step still_lateNote | with_reducible apply Still.step still_modSub | intro _ | split

theorem still_selfRefresh {x0 : _} : Still s (selfRefresh x0 s) := by
  have h := Still.refl s
  unfold selfRefresh; try dsimp only
  repeat' first | with_reducible assumption | with_reducible exact Still.refl _ | with_reducible apply Still.ite | with_reducible apply Still.each | with_reducible apply Still.step still_issueQueued | with_reducible apply Still.step still_modSub | with_reducible apply Still.step still_setN | with_reducible apply Still.folded | intro _ | split

theorem still_warmRecords : Still s (warmRecords s) := by
  have h := Still.refl s
  unfold warmRecords; try dsimp only
  repeat' first | with_reducible assumption | with_reducible exact Still.refl _ | with_reducible apply Still.ite | intro _ | split | with_reducible apply Still.upd

theorem still_referenceWrite {x0 : _} : Still s (referenceWrite x0 s) := by
  have h := Still.refl s
  unfold referenceWrite; try dsimp only
  repeat' first | with_reducible assumption | with_reducible exact Still.refl _ | with_reducible apply Still.ite | with_reducible apply Still.step still_acquireFromRest | with_reducible apply Still.step still_setN | intro _ | split

theorem still_writeMemory {x0 : _} {x1 : _} {x2 : _} : Still s (writeMemory x0 x1 x2 s) := by
  have h := Still.refl s
  unfold writeMemory; try dsimp only
  repeat' first | with_reducible assumption | with_reducible exact Still.refl _ | with_reducible apply Still.ite | with_reducible apply Still.orElse | with_reducible apply Still.step still_clearSubs | with_reducible apply Still.step still_plainI | intro _ | split

theorem still_wakeRelease : Still s (wakeRelease s) := by
  have h := Still.refl s
  unfold wakeRelease; try dsimp only
  repeat' first | with_reducible assumption | with_reducible exact Still.refl _ | with_reducible apply Still.ite | with_reducible apply Still.step still_setN | with_reducible apply Still.step still_withResult | intro _ | split

theorem still_axisFreeze {x0 : _} : Still s (axisFreeze x0 s) := by
  have h := Still.refl s
  unfold axisFreeze; try dsimp only
  repeat' first | with_reducible assumption | with_reducible exact Still.refl _ | with_reducible apply Still.ite | with_reducible apply Still.step still_modAxis | with_reducible apply Still.step still_setI | intro _ | split

theorem still_axisEnable {x0 : _} {x1 : _} : Still s (axisEnable x0 x1 s) := by
  have h := Still.refl s
  unfold axisEnable; try dsimp only
  repeat' first | with_reducible assumption | with_reducible exact Still.refl _ | with_reducible apply Still.ite | with_reducible apply Still.step still_axisFlag | with_reducible apply Still.step still_axisFreeze | with_reducible apply Still.step still_axisStart | with_reducible apply Still.step still_emit | with_reducible apply Still.step still_modAxis | with_reducible apply Still.step still_setN | intro _ | split

theorem still_startProfile {x0 : _} {x1 : _} {x2 : _} : Still s (startProfile x0 x1 x2 s) := by
  have h := Still.refl s
  unfold startProfile; try dsimp only
  repeat' first | with_reducible assumption | with_reducible exact Still.refl _ | with_reducible apply Still.ite | with_reducible apply Still.step still_modAxis | intro _ | split

theorem still_home {x0 : _} : Still s (home x0 s) := by
  have h := Still.refl s
  unfold home; try dsimp only
  repeat' first | with_reducible assumption | with_reducible exact Still.refl _ | with_reducible apply Still.ite | with_reducible apply Still.step still_axisFlag | with_reducible apply Still.step still_modAxis | with_reducible apply Still.step still_setN | with_reducible apply Still.step still_startProfile | with_reducible apply Still.step still_withResult | intro _ | split

theorem still_positionSet {x0 : _} {x1 : _} : Still s (positionSet x0 x1 s) := by
  have h := Still.refl s
  unfold positionSet; try dsimp only
  repeat' first | with_reducible assumption | with_reducible exact Still.refl _ | with_reducible apply Still.ite | with_reducible apply Still.step still_axisFlag | with_reducible apply Still.step still_modAxis | with_reducible apply Still.step still_setI | with_reducible apply Still.step still_withResult | intro _ | split

theorem still_stallClear {x0 : _} : Still s (stallClear x0 s) := by
  have h := Still.refl s
  unfold stallClear; try dsimp only
  repeat' first | with_reducible assumption | with_reducible exact Still.refl _ | with_reducible apply Still.ite | with_reducible apply Still.step still_axisStand | with_reducible apply Still.step still_withResult | intro _ | split

theorem still_stopFreeze {x0 : _} : Still s (stopFreeze x0 s) := by
  have h := Still.refl s
  unfold stopFreeze; try dsimp only
  repeat' first | with_reducible assumption | with_reducible exact Still.refl _ | with_reducible apply Still.ite | with_reducible apply Still.step still_axisStand | intro _ | split

theorem still_targetRefused {x0 : _} : Still s (targetRefused x0 s) := by
  have h := Still.refl s
  unfold targetRefused; try dsimp only
  repeat' first | with_reducible assumption | with_reducible exact Still.refl _ | with_reducible apply Still.ite | with_reducible apply Still.step still_axisFlag | with_reducible apply Still.step still_withResult | intro _ | split

theorem still_target {x0 : _} {x1 : _} : Still s (target x0 x1 s) := by
  have h := Still.refl s
  unfold target; try dsimp only
  repeat' first | with_reducible assumption | with_reducible exact Still.refl _ | with_reducible apply Still.ite | with_reducible apply Still.step still_axisFlag | with_reducible apply Still.step still_modAxis | with_reducible apply Still.step still_setN | with_reducible apply Still.step still_startProfile | with_reducible apply Still.step still_targetRefused | intro _ | split

theorem still_writeAxis {x0 : _} {x1 : _} {x2 : _} : Still s (writeAxis x0 x1 x2 s) := by
  have h := Still.refl s
  unfold writeAxis; try dsimp only
  repeat' first | with_reducible assumption | with_reducible exact Still.refl _ | with_reducible apply Still.ite | with_reducible apply Still.orElse | with_reducible apply Still.step still_axisEnable | with_reducible apply Still.step still_home | with_reducible apply Still.step still_plainI | with_reducible apply Still.step still_positionSet | with_reducible apply Still.step still_stallClear | with_reducible apply Still.step still_stopDecelerate | with_reducible apply Still.step still_stopFreeze | with_reducible apply Still.step still_target | intro _ | split

theorem still_ctrFlag {x0 : _} {x1 : _} {x2 : _} : Still s (ctrFlag x0 x1 x2 s) := by
  have h := Still.refl s
  unfold ctrFlag; try dsimp only
  repeat' first | with_reducible assumption | with_reducible exact Still.refl _ | with_reducible apply Still.ite | with_reducible apply Still.step still_setN | intro _ | split

theorem still_modCtr {x0 : _} {x1 : _} : Still s (modCtr x0 x1 s) := by
  have h := Still.refl s
  unfold modCtr; try dsimp only
  repeat' first | with_reducible assumption | with_reducible exact Still.refl _ | with_reducible apply Still.ite | intro _ | split | with_reducible apply Still.upd

theorem still_setReferenced {x0 : _} : Still s (setReferenced x0 s) := by
  have h := Still.refl s
  unfold setReferenced; try dsimp only
  repeat' first | with_reducible assumption | with_reducible exact Still.refl _ | with_reducible apply Still.ite | with_reducible apply Still.step still_ctrFlag | with_reducible apply Still.step still_modCtr | intro _ | split

theorem still_countSet {x0 : _} {x1 : _} : Still s (countSet x0 x1 s) := by
  have h := Still.refl s
  unfold countSet; try dsimp only
  repeat' first | with_reducible assumption | with_reducible exact Still.refl _ | with_reducible apply Still.ite | with_reducible apply Still.step still_afterCounter | with_reducible apply Still.step still_setI | with_reducible apply Still.step still_setReferenced | intro _ | split

theorem still_ctrEnable {x0 : _} {x1 : _} : Still s (ctrEnable x0 x1 s) := by
  have h := Still.refl s
  unfold ctrEnable; try dsimp only
  repeat' first | with_reducible assumption | with_reducible exact Still.refl _ | with_reducible apply Still.ite | with_reducible apply Still.step still_afterCounter | with_reducible apply Still.step still_ctrFlag | with_reducible apply Still.step still_setN | intro _ | split

theorem still_referenceArm {x0 : _} : Still s (referenceArm x0 s) := by
  have h := Still.refl s
  unfold referenceArm; try dsimp only
  repeat' first | with_reducible assumption | with_reducible exact Still.refl _ | with_reducible apply Still.ite | with_reducible apply Still.step still_ctrFlag | intro _ | split

theorem still_unitEnable {x0 : _} {x1 : _} {x2 : _} : Still s (unitEnable x0 x1 x2 s) := by
  have h := Still.refl s
  unfold unitEnable; try dsimp only
  repeat' first | with_reducible assumption | with_reducible exact Still.refl _ | with_reducible apply Still.ite | with_reducible apply Still.step still_setN | with_reducible apply Still.step still_withResult | intro _ | split

theorem still_unitMask {x0 : _} {x1 : _} {x2 : _} : Still s (unitMask x0 x1 x2 s) := by
  have h := Still.refl s
  unfold unitMask; try dsimp only
  repeat' first | with_reducible assumption | with_reducible exact Still.refl _ | with_reducible apply Still.ite | with_reducible apply Still.step still_setN | with_reducible apply Still.step still_withResult | intro _ | split

theorem still_unitSpacing {x0 : _} {x1 : _} {x2 : _} : Still s (unitSpacing x0 x1 x2 s) := by
  have h := Still.refl s
  unfold unitSpacing; try dsimp only
  repeat' first | with_reducible assumption | with_reducible exact Still.refl _ | with_reducible apply Still.ite | with_reducible apply Still.step still_setI | with_reducible apply Still.step still_withResult | intro _ | split

theorem still_writeCounter {x0 : _} {x1 : _} {x2 : _} : Still s (writeCounter x0 x1 x2 s) := by
  have h := Still.refl s
  unfold writeCounter; try dsimp only
  repeat' first | with_reducible assumption | with_reducible exact Still.refl _ | with_reducible apply Still.ite | with_reducible apply Still.orElse | with_reducible apply Still.step still_clearSubs | with_reducible apply Still.step still_countSet | with_reducible apply Still.step still_ctrEnable | with_reducible apply Still.step still_plainI | with_reducible apply Still.step still_referenceArm | with_reducible apply Still.step still_unitEnable | with_reducible apply Still.step still_unitMask | with_reducible apply Still.step still_unitSpacing | intro _ | split

theorem still_writeMotion {x0 : _} {x1 : _} {x2 : _} : Still s (writeMotion x0 x1 x2 s) := by
  have h := Still.refl s
  unfold writeMotion; try dsimp only
  repeat' first | with_reducible assumption | with_reducible exact Still.refl _ | with_reducible apply Still.ite | with_reducible apply Still.orElse | with_reducible apply Still.step still_plainI | with_reducible apply Still.step still_setN | with_reducible apply Still.step still_wakeRelease | with_reducible apply Still.step still_withResult | with_reducible apply Still.step still_writeAxis | with_reducible apply Still.step still_writeCounter | intro _ | split

theorem still_portBit {x0 : _} {x1 : _} : Still s (portBit x0 x1 s) := by
  have h := Still.refl s
  unfold portBit; try dsimp only
  repeat' first | with_reducible assumption | with_reducible exact Still.refl _ | with_reducible apply Still.ite | with_reducible apply Still.step still_setN | intro _ | split

theorem still_stepTo {x0 : _} : Still s (stepTo x0 s) := by
  have h := Still.refl s
  unfold stepTo; try dsimp only
  repeat' first | with_reducible assumption | with_reducible exact Still.refl _ | with_reducible apply Still.ite | intro _ | split | with_reducible apply Still.upd

theorem still_timeSet {x0 : _} : Still s (timeSet x0 s) := by
  have h := Still.refl s
  unfold timeSet; try dsimp only
  repeat' first | with_reducible assumption | with_reducible exact Still.refl _ | with_reducible apply Still.ite | with_reducible apply Still.step still_setN | with_reducible apply Still.step still_stepTo | with_reducible apply Still.step still_withResult | intro _ | split

theorem still_writeNetwork {x0 : _} {x1 : _} {x2 : _} : Still s (writeNetwork x0 x1 x2 s) := by
  have h := Still.refl s
  unfold writeNetwork; try dsimp only
  repeat' first | with_reducible assumption | with_reducible exact Still.refl _ | with_reducible apply Still.ite | with_reducible apply Still.orElse | with_reducible apply Still.step still_addressWrite | with_reducible apply Still.step still_clearSubs | with_reducible apply Still.step still_plainI | with_reducible apply Still.step still_portBit | with_reducible apply Still.step still_timeSet | intro _ | split

theorem still_calApply : Still s (calApply s) := by
  have h := Still.refl s
  unfold calApply; try dsimp only
  repeat' first | with_reducible assumption | with_reducible exact Still.refl _ | with_reducible apply Still.ite | with_reducible apply Still.eachBerth | with_reducible apply Still.step still_setN | with_reducible apply Still.step still_setShadow | with_reducible apply Still.step still_withResult | intro _ | split

theorem still_calForget : Still s (calForget s) := by
  have h := Still.refl s
  unfold calForget; try dsimp only
  repeat' first | with_reducible assumption | with_reducible exact Still.refl _ | with_reducible apply Still.ite | with_reducible apply Still.step still_setI | with_reducible apply Still.step still_setN | intro _ | split | with_reducible apply Still.upd

theorem still_calibrationDiscard : Still s (calibrationDiscard s) := by
  have h := Still.refl s
  unfold calibrationDiscard; try dsimp only
  repeat' first | with_reducible assumption | with_reducible exact Still.refl _ | with_reducible apply Still.ite | with_reducible apply Still.step still_calForget | with_reducible apply Still.step still_setN | with_reducible apply Still.step still_withResult | intro _ | split

theorem still_modCal {x0 : _} {x1 : _} : Still s (modCal x0 x1 s) := by
  have h := Still.refl s
  unfold modCal; try dsimp only
  repeat' first | with_reducible assumption | with_reducible exact Still.refl _ | with_reducible apply Still.ite | intro _ | split | with_reducible apply Still.upd

theorem still_calGo {x0 : _} : Still s (calGo x0 s) := by
  have h := Still.refl s
  unfold calGo; try dsimp only
  repeat' first | with_reducible assumption | with_reducible exact Still.refl _ | with_reducible apply Still.ite | with_reducible apply Still.step still_modBerth | with_reducible apply Still.step still_modCal | intro _ | split

theorem still_calRun : Still s (calRun s) := by
  have h := Still.refl s
  unfold calRun; try dsimp only
  repeat' first | with_reducible assumption | with_reducible exact Still.refl _ | with_reducible apply Still.ite | with_reducible apply Still.eachBerth | with_reducible apply Still.step still_calGo | with_reducible apply Still.step still_modCal | intro _ | split

theorem still_calibrationStart : Still s (calibrationStart s) := by
  have h := Still.refl s
  unfold calibrationStart; try dsimp only
  repeat' first | with_reducible assumption | with_reducible exact Still.refl _ | with_reducible apply Still.ite | with_reducible apply Still.eachBerth | with_reducible apply Still.step still_calForget | with_reducible apply Still.step still_calRun | with_reducible apply Still.step still_modBerth | with_reducible apply Still.step still_setN | with_reducible apply Still.step still_updateLen | with_reducible apply Still.step still_withResult | intro _ | split | with_reducible apply Still.upd

theorem still_restoreDefaults : Still s (restoreDefaults s) := by
  have h := Still.refl s
  unfold restoreDefaults; try dsimp only
  repeat' first | with_reducible assumption | with_reducible exact Still.refl _ | with_reducible apply Still.ite | with_reducible apply Still.step still_setN | with_reducible apply Still.step still_withResult | intro _ | split | with_reducible apply Still.upd

theorem still_modHead {x0 : _} {x1 : _} : Still s (modHead x0 x1 s) := by
  have h := Still.refl s
  unfold modHead; try dsimp only
  repeat' first | with_reducible assumption | with_reducible exact Still.refl _ | with_reducible apply Still.ite | with_reducible apply Still.step still_modStream | intro _ | split

theorem still_bufferTaken {x0 : _} : Still s (bufferTaken x0 s) := by
  have h := Still.refl s
  unfold bufferTaken; try dsimp only
  repeat' first | with_reducible assumption | with_reducible exact Still.refl _ | with_reducible apply Still.ite | intro _ | split | with_reducible apply Still.upd

theorem still_streamStop {x0 : _} : Still s (streamStop x0 s) := by
  have h := Still.refl s
  unfold streamStop; try dsimp only
  repeat' first | with_reducible assumption | with_reducible exact Still.refl _ | with_reducible apply Still.ite | with_reducible apply Still.step still_addN | with_reducible apply Still.step still_modHead | with_reducible apply Still.step still_setNotice | intro _ | split

theorem still_linksDown : Still s (linksDown s) := by
  have h := Still.refl s
  unfold linksDown; try dsimp only
  repeat' first | with_reducible assumption | with_reducible exact Still.refl _ | with_reducible apply Still.ite | with_reducible apply Still.each | with_reducible apply Still.step still_modLink | with_reducible apply Still.step still_setLinkState | with_reducible apply Still.step still_setN | intro _ | split

theorem still_rungNote {x0 : _} {x1 : _} : Still s (rungNote x0 x1 s) := by
  have h := Still.refl s
  unfold rungNote; try dsimp only
  repeat' first | with_reducible assumption | with_reducible exact Still.refl _ | with_reducible apply Still.ite | with_reducible apply Still.step still_noticeLog | intro _ | split

theorem still_tideUp : Still s (tideUp s) := by
  have h := Still.refl s
  unfold tideUp; try dsimp only
  repeat' first | with_reducible assumption | with_reducible exact Still.refl _ | with_reducible apply Still.ite | with_reducible apply Still.step still_setN | intro _ | split | with_reducible apply Still.upd

theorem still_comeUp : Still s (comeUp s) := by
  have h := Still.refl s
  unfold comeUp; try dsimp only
  repeat' first | with_reducible assumption | with_reducible exact Still.refl _ | with_reducible apply Still.ite | with_reducible apply Still.each | with_reducible apply Still.step still_enterDetect | with_reducible apply Still.step still_setN | with_reducible apply Still.step still_tideUp | intro _ | split

theorem still_goUp {x0 : _} : Still s (goUp x0 s) := by
  have h := Still.refl s
  unfold goUp; try dsimp only
  repeat' first | with_reducible assumption | with_reducible exact Still.refl _ | with_reducible apply Still.ite | with_reducible apply Still.step still_comeUp | with_reducible apply Still.step still_rungNote | with_reducible apply Still.step still_setN | with_reducible apply Still.step still_tideUp | intro _ | split

theorem still_storeStart : Still s (storeStart s) := by
  have h := Still.refl s
  unfold storeStart; try dsimp only
  repeat' first | with_reducible assumption | with_reducible exact Still.refl _ | with_reducible apply Still.ite | with_reducible apply Still.step still_setN | with_reducible apply Still.step still_withResult | intro _ | split | with_reducible apply Still.upd

theorem still_updateDiscard : Still s (updateDiscard s) := by
  have h := Still.refl s
  unfold updateDiscard; try dsimp only
  repeat' first | with_reducible assumption | with_reducible exact Still.refl _ | with_reducible apply Still.ite | with_reducible apply Still.step still_modUpdate | with_reducible apply Still.step still_setN | intro _ | split

theorem still_verifyAndWrite : Still s (verifyAndWrite s) := by
  have h := Still.refl s
  unfold verifyAndWrite; try dsimp only
  repeat' first | with_reducible assumption | with_reducible exact Still.refl _ | with_reducible apply Still.ite | with_reducible apply Still.step still_modUpdate | with_reducible apply Still.step still_setN | with_reducible apply Still.step still_withResult | intro _ | split

theorem still_jobAbort : Still s (jobAbort s) := by
  have h := Still.refl s
  unfold jobAbort; try dsimp only
  repeat' first | with_reducible assumption | with_reducible exact Still.refl _ | with_reducible apply Still.ite | with_reducible apply Still.step still_setN | with_reducible apply Still.step still_withResult | intro _ | split

theorem still_jobResume : Still s (jobResume s) := by
  have h := Still.refl s
  unfold jobResume; try dsimp only
  repeat' first | with_reducible assumption | with_reducible exact Still.refl _ | with_reducible apply Still.ite | with_reducible apply Still.step still_setN | with_reducible apply Still.step still_withResult | intro _ | split | with_reducible apply Still.upd

theorem still_jobSaveState : Still s (jobSaveState s) := by
  have h := Still.refl s
  unfold jobSaveState; try dsimp only
  repeat' first | with_reducible assumption | with_reducible exact Still.refl _ | with_reducible apply Still.ite | with_reducible apply Still.step still_setB | intro _ | split

theorem still_jobStart : Still s (jobStart s) := by
  have h := Still.refl s
  unfold jobStart; try dsimp only
  repeat' first | with_reducible assumption | with_reducible exact Still.refl _ | with_reducible apply Still.ite | with_reducible apply Still.step still_setN | with_reducible apply Still.step still_withResult | intro _ | split | with_reducible apply Still.upd

theorem still_readPointer {x0 : _} {x1 : _} : Still s (readPointer x0 x1 s) := by
  have h := Still.refl s
  unfold readPointer; try dsimp only
  repeat' first | with_reducible assumption | with_reducible exact Still.refl _ | with_reducible apply Still.ite | with_reducible apply Still.step still_setN | with_reducible apply Still.step still_withResult | intro _ | split

theorem still_writeRecord {x0 : _} {x1 : _} {x2 : _} : Still s (writeRecord x0 x1 x2 s) := by
  have h := Still.refl s
  unfold writeRecord; try dsimp only
  repeat' first | with_reducible assumption | with_reducible exact Still.refl _ | with_reducible apply Still.ite | with_reducible apply Still.step still_clearSubs | with_reducible apply Still.step still_jobAbort | with_reducible apply Still.step still_jobResume | with_reducible apply Still.step still_jobSaveState | with_reducible apply Still.step still_jobStart | with_reducible apply Still.step still_plainI | with_reducible apply Still.step still_readPointer | intro _ | split

theorem still_hostTrigger {x0 : _} {x1 : _} : Still s (hostTrigger x0 x1 s) := by
  have h := Still.refl s
  unfold hostTrigger; try dsimp only
  repeat' first | with_reducible assumption | with_reducible exact Still.refl _ | with_reducible apply Still.ite | with_reducible apply Still.step still_cameraTrigger | with_reducible apply Still.step still_withResult | intro _ | split

theorem still_writeVision {x0 : _} {x1 : _} {x2 : _} : Still s (writeVision x0 x1 x2 s) := by
  have h := Still.refl s
  unfold writeVision; try dsimp only
  repeat' first | with_reducible assumption | with_reducible exact Still.refl _ | with_reducible apply Still.ite | with_reducible apply Still.orElse | with_reducible apply Still.step still_clearSubs | with_reducible apply Still.step still_contextEnable | with_reducible apply Still.step still_hostTrigger | with_reducible apply Still.step still_plainI | intro _ | split

theorem still_breakwaterTake {x0 : _} : Still s (breakwaterTake x0 s) := by
  have h := Still.refl s
  unfold breakwaterTake; try dsimp only
  repeat' first | with_reducible assumption | with_reducible exact Still.refl _ | with_reducible apply Still.ite | with_reducible apply Still.step still_setN | with_reducible apply Still.step still_withResult | intro _ | split | with_reducible apply Still.upd

theorem still_keyDrop {x0 : _} {x1 : _} : Still s (keyDrop x0 x1 s) := by
  have h := Still.refl s
  unfold keyDrop; try dsimp only
  repeat' first | with_reducible assumption | with_reducible exact Still.refl _ | with_reducible apply Still.ite | with_reducible apply Still.step still_setN | with_reducible apply Still.step still_withResult | intro _ | split

theorem still_keyTake {x0 : _} : Still s (keyTake x0 s) := by
  have h := Still.refl s
  unfold keyTake; try dsimp only
  repeat' first | with_reducible assumption | with_reducible exact Still.refl _ | with_reducible apply Still.ite | with_reducible apply Still.step still_setB | with_reducible apply Still.step still_setN | with_reducible apply Still.step still_withResult | intro _ | split

theorem still_rwpCheck {x0 : _} {x1 : _} {x2 : _} {x3 : _} {x4 : _} {x5 : _} : Still s ((rwpCheck x0 x1 x2 x3 x4 x5 s).2) := by
  have h := Still.refl s
  unfold rwpCheck; try dsimp only
  repeat' first | with_reducible assumption | with_reducible exact Still.refl _ | with_reducible apply Still.ite | with_reducible apply Still.step still_modSess | intro _ | split

theorem still_rwpWrite {a : _} {b : _} {c : _} {d : _} {e : _} {g : _} {f : State → State} (hf : ∀ s, Still s (f s)) (h : Still s t) : Still s (rwpWrite a b c d e g f t) := by
  unfold rwpWrite; try dsimp only
  repeat' first | with_reducible assumption | with_reducible apply Still.ite | with_reducible apply Still.step (hf _) | with_reducible apply Still.step still_rwpCheck | with_reducible apply Still.step still_withResult | intro _ | with_reducible apply Still.upd

theorem keeps_rwpWrite {a : _} {b : _} {c : _} {d : _} {e : _} {g : _} {f : State → State} (hf : ∀ s, Keeps s (f s)) (h : Keeps s t) : Keeps s (rwpWrite a b c d e g f t) := by
  unfold rwpWrite; try dsimp only
  repeat' first | with_reducible assumption | with_reducible apply Keeps.ite | with_reducible apply Keeps.step (hf _) | with_reducible apply Keeps.still still_rwpCheck | with_reducible apply Keeps.still still_withResult | intro _ | with_reducible apply Keeps.upd

theorem still_keyProgram {x0 : _} {x1 : _} {x2 : _} : Still s (keyProgram x0 x1 x2 s) := by
  have h := Still.refl s
  unfold keyProgram; try dsimp only
  repeat' first | with_reducible assumption | with_reducible exact Still.refl _ | with_reducible apply Still.ite | with_reducible apply still_rwpWrite | with_reducible apply Still.step still_keyTake | intro _ | split

theorem still_takeSlot {x0 : _} {x1 : _} {x2 : _} : Still s (takeSlot x0 x1 x2 s) := by
  have h := Still.refl s
  unfold takeSlot; try dsimp only
  repeat' first | with_reducible assumption | with_reducible exact Still.refl _ | with_reducible apply Still.ite | with_reducible apply Still.each | with_reducible apply Still.step still_emptySlot | with_reducible apply Still.step still_modBerth | with_reducible apply Still.step still_setN | with_reducible apply Still.step still_setSlot | intro _ | split

theorem still_armBerth {x0 : _} {x1 : _} {x2 : _} {x3 : _} : Still s (armBerth x0 x1 x2 x3 s) := by
  have h := Still.refl s
  unfold armBerth; try dsimp only
  repeat' first | with_reducible assumption | with_reducible exact Still.refl _ | with_reducible apply Still.ite | with_reducible apply Still.step still_enterState | with_reducible apply Still.step still_modBerth | with_reducible apply Still.step still_setN | with_reducible apply Still.step still_setResume | with_reducible apply Still.step still_takeSlot | intro _ | split | with_reducible apply Still.upd

theorem still_armSelects {x0 : _} {x1 : _} : Still s (armSelects x0 x1 s) := by
  have h := Still.refl s
  unfold armSelects; try dsimp only
  repeat' first | with_reducible assumption | with_reducible exact Still.refl _ | with_reducible apply Still.ite | with_reducible apply Still.step still_modLoop | intro _ | split

theorem still_askTiles {x0 : _} : Still s (askTiles x0 s) := by
  have h := Still.refl s
  unfold askTiles; try dsimp only
  repeat' first | with_reducible assumption | with_reducible exact Still.refl _ | with_reducible apply Still.ite | with_reducible apply Still.step still_modLink | intro _ | split

theorem still_attemptFails {x0 : _} {x1 : _} : Still s (attemptFails x0 x1 s) := by
  have h := Still.refl s
  unfold attemptFails; try dsimp only
  repeat' first | with_reducible assumption | with_reducible exact Still.refl _ | with_reducible apply Still.ite | with_reducible apply Still.step still_linkNote | with_reducible apply Still.step still_modLink | with_reducible apply Still.step still_setLinkState | with_reducible apply Still.step still_setN | intro _ | split

theorem still_axisShow {x0 : _} {x1 : _} : Still s (axisShow x0 x1 s) := by
  have h := Still.refl s
  unfold axisShow; try dsimp only
  repeat' first | with_reducible assumption | with_reducible exact Still.refl _ | with_reducible apply Still.ite | with_reducible apply Still.step still_setI | intro _ | split

theorem still_backOffComplete {x0 : _} : Still s (backOffComplete x0 s) := by
  have h := Still.refl s
  unfold backOffComplete; try dsimp only
  repeat' first | with_reducible assumption | with_reducible exact Still.refl _ | with_reducible apply Still.ite | with_reducible apply Still.step still_axisFlag | with_reducible apply Still.step still_axisStand | intro _ | split

theorem still_bankSwap {x0 : _} {x1 : _} : Still s (bankSwap x0 x1 s) := by
  have h := Still.refl s
  unfold bankSwap; try dsimp only
  repeat' first | with_reducible assumption | with_reducible exact Still.refl _ | with_reducible apply Still.ite | with_reducible apply Still.step still_countLoop | with_reducible apply Still.step still_loopFlag | with_reducible apply Still.step still_modLoop | with_reducible apply Still.step still_noticeObj | with_reducible apply Still.step still_setI | with_reducible apply Still.step still_setN | intro _ | split

theorem still_driveOutputs : Still s (driveOutputs s) := by
  have h := Still.refl s
  unfold driveOutputs; try dsimp only
  repeat' first | with_reducible assumption | with_reducible exact Still.refl _ | with_reducible apply Still.ite | with_reducible apply Still.each | with_reducible apply Still.step still_emit | intro _ | split | with_reducible apply Still.upd

theorem still_placeStretch {x0 : _} : Still s (placeStretch x0 s) := by
  have h := Still.refl s
  unfold placeStretch; try dsimp only
  repeat' first | with_reducible assumption | with_reducible exact Still.refl _ | with_reducible apply Still.ite | intro _ | split | with_reducible apply Still.upd

theorem still_pulseEnded {x0 : _} {x1 : _} : Still s (pulseEnded x0 x1 s) := by
  have h := Still.refl s
  unfold pulseEnded; try dsimp only
  repeat' first | with_reducible assumption | with_reducible exact Still.refl _ | with_reducible apply Still.ite | with_reducible apply Still.step still_emit | intro _ | split | with_reducible apply Still.upd

theorem still_setOutput {x0 : _} {x1 : _} {x2 : _} : Still s (setOutput x0 x1 x2 s) := by
  have h := Still.refl s
  unfold setOutput; try dsimp only
  repeat' first | with_reducible assumption | with_reducible exact Still.refl _ | with_reducible apply Still.ite | with_reducible apply Still.step still_emit | with_reducible apply Still.step still_pulseEnded | intro _ | split | with_reducible apply Still.upd

theorem still_runOutput {x0 : _} : Still s (runOutput x0 s) := by
  have h := Still.refl s
  unfold runOutput; try dsimp only
  repeat' first | with_reducible assumption | with_reducible exact Still.refl _ | with_reducible apply Still.ite | with_reducible apply Still.each | with_reducible apply Still.step still_setOutput | intro _ | split

theorem still_beaconTick : Still s (beaconTick s) := by
  have h := Still.refl s
  unfold beaconTick; try dsimp only
  repeat' first | with_reducible assumption | with_reducible exact Still.refl _ | with_reducible apply Still.ite | with_reducible apply Still.each | with_reducible apply Still.step still_driveOutputs | with_reducible apply Still.step still_placeStretch | with_reducible apply Still.step still_runOutput | with_reducible apply Still.step still_setN | with_reducible apply Still.folded | intro _ | split | with_reducible apply Still.upd

theorem still_biasCompare {x0 : _} {x1 : _} : Still s (biasCompare x0 x1 s) := by
  have h := Still.refl s
  unfold biasCompare; try dsimp only
  repeat' first | with_reducible assumption | with_reducible exact Still.refl _ | with_reducible apply Still.ite | with_reducible apply Still.step still_modBerth | intro _ | split

theorem still_biasMove {x0 : _} {x1 : _} : Still s (biasMove x0 x1 s) := by
  have h := Still.refl s
  unfold biasMove; try dsimp only
  repeat' first | with_reducible assumption | with_reducible exact Still.refl _ | with_reducible apply Still.ite | with_reducible apply Still.step still_addN | with_reducible apply Still.step still_modBerth | with_reducible apply Still.step still_noticeLog | with_reducible apply Still.step still_setB | with_reducible apply Still.step still_setN | intro _ | split

theorem still_biasTick {x0 : _} {x1 : _} : Still s (biasTick x0 x1 s) := by
  have h := Still.refl s
  unfold biasTick; try dsimp only
  repeat' first | with_reducible assumption | with_reducible exact Still.refl _ | with_reducible apply Still.ite | with_reducible apply Still.step still_biasCompare | with_reducible apply Still.step still_biasMove | intro _ | split

theorem still_blockEraseComplete : Still s (blockEraseComplete s) := by
  have h := Still.refl s
  unfold blockEraseComplete; try dsimp only
  repeat' first | with_reducible assumption | with_reducible exact Still.refl _ | with_reducible apply Still.ite | with_reducible apply Still.step still_logFlush | intro _ | split | with_reducible apply Still.upd

theorem still_boardFault {x0 : _} {x1 : _} : Still s (boardFault x0 x1 s) := by
  have h := Still.refl s
  unfold boardFault; try dsimp only
  repeat' first | with_reducible assumption | with_reducible exact Still.refl _ | with_reducible apply Still.ite | with_reducible apply Still.step still_setNotice | intro _ | split

theorem still_modBoard {x0 : _} {x1 : _} : Still s (modBoard x0 x1 s) := by
  have h := Still.refl s
  unfold modBoard; try dsimp only
  repeat' first | with_reducible assumption | with_reducible exact Still.refl _ | with_reducible apply Still.ite | intro _ | split | with_reducible apply Still.upd

theorem still_boardRead {x0 : _} {x1 : _} : Still s (boardRead x0 x1 s) := by
  have h := Still.refl s
  unfold boardRead; try dsimp only
  repeat' first | with_reducible assumption | with_reducible exact Still.refl _ | with_reducible apply Still.ite | with_reducible apply Still.step still_boardFault | with_reducible apply Still.step still_modBoard | with_reducible apply Still.step still_setI | intro _ | split

theorem still_modBulks {x0 : _} {x1 : _} : Still s (modBulks x0 x1 s) := by
  have h := Still.refl s
  unfold modBulks; try dsimp only
  repeat' first | with_reducible assumption | with_reducible exact Still.refl _ | with_reducible apply Still.ite | with_reducible apply Still.step still_modSess | intro _ | split

theorem still_bulkEnd {x0 : _} {x1 : _} {x2 : _} {x3 : _} : Still s (bulkEnd x0 x1 x2 x3 s) := by
  have h := Still.refl s
  unfold bulkEnd; try dsimp only
  repeat' first | with_reducible assumption | with_reducible exact Still.refl _ | with_reducible apply Still.ite | with_reducible apply Still.step still_ackOut | with_reducible apply Still.step still_modBulks | intro _ | split

theorem still_sendPieces {x0 : _} {x1 : _} {x2 : _} {x3 : _} {x4 : _} {x5 : _} : Still s (sendPieces x0 x1 x2 x3 x4 x5 s) := by
  induction x4 generalizing s x5 with
  | zero =>
    have h := Still.refl s
    simp only [sendPieces]
    repeat' first | with_reducible assumption | with_reducible exact Still.refl _ | with_reducible apply Still.ite | with_reducible apply Still.step still_mopOut | intro _ | split | with_reducible apply Still.upd
  | succ k ih =>
    have h := Still.refl s
    simp only [sendPieces]
    repeat' first | with_reducible apply Still.step (ih ..) | with_reducible assumption | with_reducible exact Still.refl _ | with_reducible apply Still.ite | with_reducible apply Still.step still_mopOut | intro _ | split | with_reducible apply Still.upd

theorem still_bulkSend {x0 : _} {x1 : _} {x2 : _} : Still s (bulkSend x0 x1 x2 s) := by
  have h := Still.refl s
  unfold bulkSend; try dsimp only
  repeat' first | with_reducible assumption | with_reducible exact Still.refl _ | with_reducible apply Still.ite | with_reducible apply Still.step still_bulkEnd | with_reducible apply Still.step still_modBulks | with_reducible apply Still.step still_sendPieces | intro _ | split

theorem still_bulkAck {x0 : _} {x1 : _} {x2 : _} : Still s (bulkAck x0 x1 x2 s) := by
  have h := Still.refl s
  unfold bulkAck; try dsimp only
  repeat' first | with_reducible assumption | with_reducible exact Still.refl _ | with_reducible apply Still.ite | with_reducible apply Still.step still_bulkSend | with_reducible apply Still.step still_modBulks | intro _ | split

theorem still_bulkAckInterval {x0 : _} {x1 : _} : Still s (bulkAckInterval x0 x1 s) := by
  have h := Still.refl s
  unfold bulkAckInterval; try dsimp only
  repeat' first | with_reducible assumption | with_reducible exact Still.refl _ | with_reducible apply Still.ite | with_reducible apply Still.step still_ackOut | with_reducible apply Still.step still_modBulks | intro _ | split

theorem still_replyFrom {x0 : _} {x1 : _} {x2 : _} {x3 : _} {x4 : _} : Still s (replyFrom x0 x1 x2 x3 x4 s) := by
  have h := Still.refl s
  unfold replyFrom; try dsimp only
  repeat' first | with_reducible assumption | with_reducible exact Still.refl _ | with_reducible apply Still.ite | with_reducible apply Still.step still_modSess | with_reducible apply Still.step still_mopFrom | intro _ | split

theorem still_reply {x0 : _} {x1 : _} {x2 : _} {x3 : _} : Still s (reply x0 x1 x2 x3 s) := by
  have h := Still.refl s
  unfold reply; try dsimp only
  repeat' first | with_reducible assumption | with_reducible exact Still.refl _ | with_reducible apply Still.ite | with_reducible apply Still.step still_replyFrom | intro _ | split

theorem still_loadPiece {x0 : _} {x1 : _} {x2 : _} (h : loadPiece x0 x1 x2 s = some t) : Still s t := by
  unfold loadPiece at h
  dsimp only at h
  split at h
  · cases h
  · injection h with h
    subst h
    have h := Still.refl s
    repeat' first | with_reducible assumption | with_reducible apply Still.ite | with_reducible apply Still.step still_setSlot | with_reducible apply Still.step still_emptySlot | intro _

theorem still_bulkPoisoned {x0 : _} : Still s (bulkPoisoned x0 s) := by
  have h := Still.refl s
  unfold bulkPoisoned; try dsimp only
  repeat' first | with_reducible assumption | with_reducible exact Still.refl _ | with_reducible apply Still.ite | with_reducible apply Still.each | with_reducible apply Still.step still_bulkEnd | with_reducible apply Still.folded | intro _ | split

theorem still_bulkResend {x0 : _} {x1 : _} : Still s (bulkResend x0 x1 s) := by
  have h := Still.refl s
  unfold bulkResend; try dsimp only
  repeat' first | with_reducible assumption | with_reducible exact Still.refl _ | with_reducible apply Still.ite | with_reducible apply Still.step still_bulkSend | intro _ | split

theorem still_bulkTimeout {x0 : _} {x1 : _} : Still s (bulkTimeout x0 x1 s) := by
  have h := Still.refl s
  unfold bulkTimeout; try dsimp only
  repeat' first | with_reducible assumption | with_reducible exact Still.refl _ | with_reducible apply Still.ite | with_reducible apply Still.step still_bulkEnd | intro _ | split

theorem still_useMeans {x0 : _} {x1 : _} : Still s (useMeans x0 x1 s) := by
  have h := Still.refl s
  unfold useMeans; try dsimp only
  repeat' first | with_reducible assumption | with_reducible exact Still.refl _ | with_reducible apply Still.ite | with_reducible apply Still.step still_setN | intro _ | split

theorem still_burstEnd {x0 : _} : Still s (burstEnd x0 s) := by
  have h := Still.refl s
  unfold burstEnd; try dsimp only
  repeat' first | with_reducible assumption | with_reducible exact Still.refl _ | with_reducible apply Still.ite | with_reducible apply Still.step still_addN | with_reducible apply Still.step still_modLink | with_reducible apply Still.step still_noticeObj | with_reducible apply Still.step still_useMeans | intro _ | split

theorem still_calFit {x0 : _} {x1 : _} : Still s (calFit x0 x1 s) := by
  have h := Still.refl s
  unfold calFit; try dsimp only
  repeat' first | with_reducible assumption | with_reducible exact Still.refl _ | with_reducible apply Still.ite | with_reducible apply Still.step still_addN | with_reducible apply Still.step still_modCal | intro _ | split | with_reducible apply Still.upd

theorem still_calJudge : Still s (calJudge s) := by
  have h := Still.refl s
  unfold calJudge; try dsimp only
  repeat' first | with_reducible assumption | with_reducible exact Still.refl _ | with_reducible apply Still.ite | with_reducible apply Still.eachBerth | with_reducible apply Still.step still_calEnd | with_reducible apply Still.step still_calNotice | with_reducible apply Still.step still_setN | intro _ | split | with_reducible apply Still.upd

theorem still_calMark {x0 : _} : Still s (calMark x0 s) := by
  have h := Still.refl s
  unfold calMark; try dsimp only
  repeat' first | with_reducible assumption | with_reducible exact Still.refl _ | with_reducible apply Still.ite | with_reducible apply Still.step still_addN | with_reducible apply Still.step still_calGo | with_reducible apply Still.step still_modCal | intro _ | split

theorem still_calTick : Still s (calTick s) := by
  have h := Still.refl s
  unfold calTick; try dsimp only
  repeat' first | with_reducible assumption | with_reducible exact Still.refl _ | with_reducible apply Still.ite | with_reducible apply Still.eachBerth | with_reducible apply Still.step still_calMark | intro _ | split

theorem still_calTrigger {x0 : _} {x1 : _} : Still s (calTrigger x0 x1 s) := by
  have h := Still.refl s
  unfold calTrigger; try dsimp only
  repeat' first | with_reducible assumption | with_reducible exact Still.refl _ | with_reducible apply Still.ite | with_reducible apply Still.step still_cameraTrigger | with_reducible apply Still.folded | intro _ | split

theorem still_caps {x0 : _} {x1 : _} : Still s (caps x0 x1 s) := by
  have h := Still.refl s
  unfold caps; try dsimp only
  repeat' first | with_reducible assumption | with_reducible exact Still.refl _ | with_reducible apply Still.ite | with_reducible apply Still.step still_attemptFails | with_reducible apply Still.step still_modLink | with_reducible apply Still.step still_notice | with_reducible apply Still.step still_setB | with_reducible apply Still.step still_setLinkState | intro _ | split

theorem still_caught : Still s (caught s) := by
  have h := Still.refl s
  unfold caught; try dsimp only
  repeat' first | with_reducible assumption | with_reducible exact Still.refl _ | with_reducible apply Still.ite | with_reducible apply Still.step still_addN | with_reducible apply Still.step still_noticeObj | intro _ | split | with_reducible apply Still.upd

theorem still_setDiagnosis {x0 : _} {x1 : _} : Still s (setDiagnosis x0 x1 s) := by
  have h := Still.refl s
  unfold setDiagnosis; try dsimp only
  repeat' first | with_reducible assumption | with_reducible exact Still.refl _ | with_reducible apply Still.ite | with_reducible apply Still.step still_setN | with_reducible apply Still.step still_setNotice | intro _ | split

theorem still_diagnose {x0 : _} {x1 : _} : Still s (diagnose x0 x1 s) := by
  have h := Still.refl s
  unfold diagnose; try dsimp only
  repeat' first | with_reducible assumption | with_reducible exact Still.refl _ | with_reducible apply Still.ite | with_reducible apply Still.step still_setDiagnosis | intro _ | split | with_reducible apply Still.upd

theorem still_channelDiagnosis {x0 : _} : Still s (channelDiagnosis x0 s) := by
  have h := Still.refl s
  unfold channelDiagnosis; try dsimp only
  repeat' first | with_reducible assumption | with_reducible exact Still.refl _ | with_reducible apply Still.ite | with_reducible apply Still.each | with_reducible apply Still.step still_diagnose | intro _ | split | with_reducible apply Still.upd

theorem still_clearAnnexes {x0 : _} : Still s (clearAnnexes x0 s) := by
  have h := Still.refl s
  unfold clearAnnexes; try dsimp only
  repeat' first | with_reducible assumption | with_reducible exact Still.refl _ | with_reducible apply Still.ite | with_reducible apply Still.step still_modBerth | with_reducible apply Still.step still_setN | intro _ | split

theorem still_eccError {x0 : _} {x1 : _} {x2 : _} {x3 : _} : Still s (eccError x0 x1 x2 x3 s) := by
  have h := Still.refl s
  unfold eccError; try dsimp only
  repeat' first | with_reducible assumption | with_reducible exact Still.refl _ | with_reducible apply Still.ite | with_reducible apply Still.step still_addN | with_reducible apply Still.step still_logAdd | with_reducible apply Still.step still_noticeLog | with_reducible apply Still.step still_setB | intro _ | split | with_reducible apply Still.upd

theorem still_eccCheck {x0 : _} {x1 : _} {x2 : _} : Still s (eccCheck x0 x1 x2 s) := by
  have h := Still.refl s
  unfold eccCheck; try dsimp only
  repeat' first | with_reducible assumption | with_reducible exact Still.refl _ | with_reducible apply Still.ite | with_reducible apply Still.step still_eccError | with_reducible apply Still.step still_issueBurst | intro _ | split

theorem still_corruptFrame {x0 : _} {x1 : _} : Still s (corruptFrame x0 x1 s) := by
  have h := Still.refl s
  unfold corruptFrame; try dsimp only
  repeat' first | with_reducible assumption | with_reducible exact Still.refl _ | with_reducible apply Still.ite | with_reducible apply Still.step still_addN | with_reducible apply Still.step still_calFrame | with_reducible apply Still.step still_dropFrame | with_reducible apply Still.step still_recount | intro _ | split

theorem still_framePoisoned {x0 : _} : Still s (framePoisoned x0 s) := by
  have h := Still.refl s
  unfold framePoisoned; try dsimp only
  repeat' first | with_reducible assumption | with_reducible exact Still.refl _ | with_reducible apply Still.ite | with_reducible apply Still.each | with_reducible apply Still.step still_corruptFrame | intro _ | split

theorem still_closeNow {x0 : _} : Still s (closeNow x0 s) := by
  have h := Still.refl s
  unfold closeNow; try dsimp only
  repeat' first | with_reducible assumption | with_reducible exact Still.refl _ | with_reducible apply Still.ite | with_reducible apply Still.step still_modSess | intro _ | split

theorem still_errorReply {x0 : _} {x1 : _} {x2 : _} : Still s (errorReply x0 x1 x2 s) := by
  have h := Still.refl s
  unfold errorReply; try dsimp only
  repeat' first | with_reducible assumption | with_reducible exact Still.refl _ | with_reducible apply Still.ite | with_reducible apply Still.step still_reply | intro _ | split

theorem still_partsReply {x0 : _} {x1 : _} : Still s (partsReply x0 x1 s) := by
  have h := Still.refl s
  unfold partsReply; try dsimp only
  repeat' first | with_reducible assumption | with_reducible exact Still.refl _ | with_reducible apply Still.ite | with_reducible apply Still.step still_replyFrom | intro _ | split

theorem still_configRead {x0 : _} {x1 : _} : Still s (configRead x0 x1 s) := by
  have h := Still.refl s
  unfold configRead; try dsimp only
  repeat' first | with_reducible assumption | with_reducible exact Still.refl _ | with_reducible apply Still.ite | with_reducible apply Still.step still_configSend | intro _ | split

theorem still_logWindow {x0 : _} : Still s ((logWindow x0 s).2) := by
  have h := Still.refl s
  unfold logWindow; try dsimp only
  repeat' first | with_reducible assumption | with_reducible exact Still.refl _ | with_reducible apply Still.ite | with_reducible apply Still.step still_modSess | intro _ | split

theorem still_windowRead {x0 : _} : Still s ((windowRead x0 s).2.2) := by
  have h := Still.refl s
  unfold windowRead; try dsimp only
  repeat' first | with_reducible assumption | with_reducible exact Still.refl _ | with_reducible apply Still.ite | with_reducible apply Still.step still_setN | intro _ | split

theorem still_readObject {x0 : _} {x1 : _} {x2 : _} {x3 : _} {x4 : _} {x5 : _} : Still s ((readObject x0 x1 x2 x3 x4 x5 s).2.2) := by
  have h := Still.refl s
  unfold readObject; try dsimp only
  repeat' first | with_reducible assumption | with_reducible exact Still.refl _ | with_reducible apply Still.ite | with_reducible apply Still.step still_logWindow | with_reducible apply Still.step still_windowRead | intro _ | split

theorem still_readEntry {x0 : _} {x1 : _} {x2 : _} : Still s ((readEntry x0 x1 x2 s).2) := by
  have h := Still.refl s
  unfold readEntry; try dsimp only
  repeat' first | with_reducible assumption | with_reducible exact Still.refl _ | with_reducible apply Still.ite | with_reducible apply Still.step still_configRead | with_reducible apply Still.step still_readObject | with_reducible apply Still.step still_withResult | intro _ | split

theorem still_proofFailed {x0 : _} {x1 : _} : Still s (proofFailed x0 x1 s) := by
  have h := Still.refl s
  unfold proofFailed; try dsimp only
  repeat' first | with_reducible assumption | with_reducible exact Still.refl _ | with_reducible apply Still.ite | with_reducible apply Still.step still_addN | with_reducible apply Still.step still_closeNow | with_reducible apply Still.step still_reply | with_reducible apply Still.step still_setNotice | intro _ | split | with_reducible apply Still.upd

theorem still_signProof {x0 : _} {x1 : _} {x2 : _} {x3 : _} : Still s (signProof x0 x1 x2 x3 s) := by
  have h := Still.refl s
  unfold signProof; try dsimp only
  repeat' first | with_reducible assumption | with_reducible exact Still.refl _ | with_reducible apply Still.ite | with_reducible apply Still.step still_modSess | with_reducible apply Still.step still_proofFailed | with_reducible apply Still.step still_reply | intro _ | split

theorem still_subscribe {x0 : _} {x1 : _} {x2 : _} : Still s (subscribe x0 x1 x2 s) := by
  have h := Still.refl s
  unfold subscribe; try dsimp only
  repeat' first | with_reducible assumption | with_reducible exact Still.refl _ | with_reducible apply Still.ite | with_reducible apply Still.step still_errorReply | with_reducible apply Still.step still_modSess | with_reducible apply Still.step still_reply | intro _ | split

theorem still_stopForDamage {x0 : _} {x1 : _} : Still s (stopForDamage x0 x1 s) := by
  have h := Still.refl s
  unfold stopForDamage; try dsimp only
  repeat' first | with_reducible assumption | with_reducible exact Still.refl _ | with_reducible apply Still.ite | with_reducible apply Still.step still_coveredFault | with_reducible apply Still.step still_modBerth | intro _ | split

theorem still_quayPoisoned : Still s (quayPoisoned s) := by
  have h := Still.refl s
  unfold quayPoisoned; try dsimp only
  repeat' first | with_reducible assumption | with_reducible exact Still.refl _ | with_reducible apply Still.ite | with_reducible apply Still.step still_drawn | with_reducible apply Still.step still_modLink | intro _ | split

theorem still_recordPoisoned {x0 : _} : Still s (recordPoisoned x0 s) := by
  have h := Still.refl s
  unfold recordPoisoned; try dsimp only
  repeat' first | with_reducible assumption | with_reducible exact Still.refl _ | with_reducible apply Still.ite | with_reducible apply Still.each | with_reducible apply Still.step still_addN | with_reducible apply Still.step still_modHead | with_reducible apply Still.step still_modStream | intro _ | split

theorem still_readBurst {x0 : _} {x1 : _} : Still s (readBurst x0 x1 s) := by
  have h := Still.refl s
  unfold readBurst; try dsimp only
  repeat' first | with_reducible assumption | with_reducible exact Still.refl _ | with_reducible apply Still.ite | with_reducible apply Still.step still_issueBurst | with_reducible apply Still.step still_issueQueued | with_reducible apply Still.step still_lateNote | with_reducible apply Still.folded | intro _ | split

theorem still_drain {x0 : _} {x1 : _} : Still s (drain x0 x1 s) := by
  induction x1 generalizing s with
  | zero =>
    have h := Still.refl s
    simp only [drain]
    repeat' first | with_reducible assumption | with_reducible exact Still.refl _ | with_reducible apply Still.ite | with_reducible apply Still.step still_issueQueued | intro _ | split | with_reducible apply Still.upd
  | succ k ih =>
    have h := Still.refl s
    simp only [drain]
    repeat' first | with_reducible apply Still.step (ih ..) | with_reducible assumption | with_reducible exact Still.refl _ | with_reducible apply Still.ite | with_reducible apply Still.step still_issueQueued | intro _ | split | with_reducible apply Still.upd

theorem still_queueWrite {x0 : _} {x1 : _} : Still s (queueWrite x0 x1 s) := by
  have h := Still.refl s
  unfold queueWrite; try dsimp only
  repeat' first | with_reducible assumption | with_reducible exact Still.refl _ | with_reducible apply Still.ite | with_reducible apply Still.step still_drain | with_reducible apply Still.step still_lateNote | with_reducible apply Still.step still_modSub | intro _ | split | with_reducible apply Still.upd

theorem still_comeToRest {x0 : _} : Still s (comeToRest x0 s) := by
  have h := Still.refl s
  unfold comeToRest; try dsimp only
  repeat' first | with_reducible assumption | with_reducible exact Still.refl _ | with_reducible apply Still.ite | with_reducible apply Still.step still_modBerth | intro _ | split

theorem still_commaAligned {x0 : _} {x1 : _} : Still s (commaAligned x0 x1 s) := by
  have h := Still.refl s
  unfold commaAligned; try dsimp only
  repeat' first | with_reducible assumption | with_reducible exact Still.refl _ | with_reducible apply Still.ite | with_reducible apply Still.step still_setLinkState | with_reducible apply Still.step still_setN | intro _ | split

theorem still_storeBreakwater {x0 : _} : Still s (storeBreakwater x0 s) := by
  have h := Still.refl s
  unfold storeBreakwater; try dsimp only
  repeat' first | with_reducible assumption | with_reducible exact Still.refl _ | with_reducible apply Still.ite | intro _ | split | with_reducible apply Still.upd

theorem still_findStanding {x0 : _} {x1 : _} : Still s (findStanding x0 x1 s) := by
  have h := Still.refl s
  unfold findStanding; try dsimp only
  repeat' first | with_reducible assumption | with_reducible exact Still.refl _ | with_reducible apply Still.ite | with_reducible apply Still.step still_modBerth | intro _ | split

theorem still_takeBerthGroup {x0 : _} : Still s (takeBerthGroup x0 s) := by
  have h := Still.refl s
  unfold takeBerthGroup; try dsimp only
  repeat' first | with_reducible assumption | with_reducible exact Still.refl _ | with_reducible apply Still.ite | with_reducible apply Still.step still_findStanding | with_reducible apply Still.step still_setN | with_reducible apply Still.step still_takeShadows | with_reducible apply Still.step still_updateLen | intro _ | split

theorem still_keepEras : Still s (keepEras s) := by
  have h := Still.refl s
  unfold keepEras; try dsimp only
  repeat' first | with_reducible assumption | with_reducible exact Still.refl _ | with_reducible apply Still.ite | with_reducible apply Still.each | intro _ | split | with_reducible apply Still.upd

theorem still_takeBreakwater : Still s (takeBreakwater s) := by
  have h := Still.refl s
  unfold takeBreakwater; try dsimp only
  repeat' first | with_reducible assumption | with_reducible exact Still.refl _ | with_reducible apply Still.ite | with_reducible apply Still.step still_keepEras | with_reducible apply Still.step still_noticeLog | with_reducible apply Still.step still_setB | with_reducible apply Still.step still_setN | intro _ | split | with_reducible apply Still.upd

theorem still_takeGroup {x0 : _} {x2 : _} : Still s (takeGroup x0 s x2) := by
  have h := Still.refl s
  unfold takeGroup; try dsimp only
  repeat' first | with_reducible assumption | with_reducible exact Still.refl _ | with_reducible apply Still.ite | with_reducible apply Still.step still_setN | with_reducible apply Still.step still_takeBerthGroup | with_reducible apply Still.step still_takeBreakwater | with_reducible apply Still.step still_takeShadows | intro _ | split

theorem still_wakeStep {x0 : _} : Still s (wakeStep x0 s) := by
  have h := Still.refl s
  unfold wakeStep; try dsimp only
  repeat' first | with_reducible assumption | with_reducible exact Still.refl _ | with_reducible apply Still.ite | intro _ | split | with_reducible apply Still.upd

theorem still_wakeBegin {x0 : _} : Still s (wakeBegin x0 s) := by
  have h := Still.refl s
  unfold wakeBegin; try dsimp only
  repeat' first | with_reducible assumption | with_reducible exact Still.refl _ | with_reducible apply Still.ite | with_reducible apply Still.step still_setI | with_reducible apply Still.step still_setN | with_reducible apply Still.step still_wakeCheck | with_reducible apply Still.step still_wakeStep | intro _ | split | with_reducible apply Still.upd

theorem still_setMissing {x0 : _} : Still s (setMissing x0 s) := by
  have h := Still.refl s
  unfold setMissing; try dsimp only
  repeat' first | with_reducible assumption | with_reducible exact Still.refl _ | with_reducible apply Still.ite | with_reducible apply Still.step still_setB | with_reducible apply Still.step still_setN | intro _ | split

theorem still_noteMissing {x0 : _} {x1 : _} : Still s (noteMissing x0 x1 s) := by
  have h := Still.refl s
  unfold noteMissing; try dsimp only
  repeat' first | with_reducible assumption | with_reducible exact Still.refl _ | with_reducible apply Still.ite | with_reducible apply Still.step still_noticeLog | with_reducible apply Still.step still_setMissing | intro _ | split

theorem still_startTogether : Still s (startTogether s) := by
  have h := Still.refl s
  unfold startTogether; try dsimp only
  repeat' first | with_reducible assumption | with_reducible exact Still.refl _ | with_reducible apply Still.ite | with_reducible apply Still.each | with_reducible apply Still.step still_modBerth | intro _ | split | with_reducible apply Still.upd

theorem still_commitTick : Still s (commitTick s) := by
  have h := Still.refl s
  unfold commitTick; try dsimp only
  repeat' first | with_reducible assumption | with_reducible exact Still.refl _ | with_reducible apply Still.ite | with_reducible apply Still.step still_drawn | with_reducible apply Still.step still_storeBreakwater | intro _ | split | with_reducible apply Still.upd

theorem still_projectorStart {x0 : _} : Still s (projectorStart x0 s) := by
  have h := Still.refl s
  unfold projectorStart; try dsimp only
  repeat' first | with_reducible assumption | with_reducible exact Still.refl _ | with_reducible apply Still.ite | with_reducible apply Still.step still_projectorBegin | intro _ | split

theorem still_compareActions {x0 : _} {x1 : _} {x2 : _} {x3 : _} : Still s (compareActions x0 x1 x2 x3 s) := by
  have h := Still.refl s
  unfold compareActions; try dsimp only
  repeat' first | with_reducible assumption | with_reducible exact Still.refl _ | with_reducible apply Still.ite | with_reducible apply Still.step still_cameraTrigger | with_reducible apply Still.step still_noticeAt | with_reducible apply Still.step still_projectorStart | with_reducible apply Still.step still_wakeStep | intro _ | split

theorem still_compareUnit {x0 : _} {x1 : _} {x2 : _} : Still s (compareUnit x0 x1 x2 s) := by
  have h := Still.refl s
  unfold compareUnit; try dsimp only
  repeat' first | with_reducible assumption | with_reducible exact Still.refl _ | with_reducible apply Still.ite | with_reducible apply Still.step still_addN | with_reducible apply Still.step still_compareActions | with_reducible apply Still.step still_setI | with_reducible apply Still.step still_setN | with_reducible apply Still.step still_setTime | intro _ | split

theorem still_compareAll {x0 : _} {x1 : _} : Still s (compareAll x0 x1 s) := by
  have h := Still.refl s
  unfold compareAll; try dsimp only
  repeat' first | with_reducible assumption | with_reducible exact Still.refl _ | with_reducible apply Still.ite | with_reducible apply Still.each | with_reducible apply Still.step still_compareUnit | intro _ | split

theorem still_queueFeature {x0 : _} : Still s (queueFeature x0 s) := by
  have h := Still.refl s
  unfold queueFeature; try dsimp only
  repeat' first | with_reducible assumption | with_reducible exact Still.refl _ | with_reducible apply Still.ite | with_reducible apply Still.step still_addN | with_reducible apply Still.step still_noticeObj | intro _ | split | with_reducible apply Still.upd

theorem still_spiDone {x0 : _} {x1 : _} {x2 : _} : Still s (spiDone x0 x1 x2 s) := by
  have h := Still.refl s
  unfold spiDone; try dsimp only
  repeat' first | with_reducible assumption | with_reducible exact Still.refl _ | with_reducible apply Still.ite | intro _ | split | with_reducible apply Still.upd

theorem still_consume {x0 : _} {x1 : _} : Still s (consume x0 x1 s) := by
  have h := Still.refl s
  unfold consume; try dsimp only
  repeat' first | with_reducible assumption | with_reducible exact Still.refl _ | with_reducible apply Still.ite | with_reducible apply Still.step still_modBerth | intro _ | split

theorem still_counted : Still s (counted s) := by
  have h := Still.refl s
  unfold counted; try dsimp only
  repeat' first | with_reducible assumption | with_reducible exact Still.refl _ | with_reducible apply Still.ite | with_reducible apply Still.step still_addN | intro _ | split

theorem still_counterStandstill {x0 : _} : Still s (counterStandstill x0 s) := by
  have h := Still.refl s
  unfold counterStandstill; try dsimp only
  repeat' first | with_reducible assumption | with_reducible exact Still.refl _ | with_reducible apply Still.ite | with_reducible apply Still.step still_modCtr | with_reducible apply Still.step still_setI | with_reducible apply Still.step still_setN | intro _ | split

theorem still_crcError {x0 : _} : Still s (crcError x0 s) := by
  have h := Still.refl s
  unfold crcError; try dsimp only
  repeat' first | with_reducible assumption | with_reducible exact Still.refl _ | with_reducible apply Still.ite | with_reducible apply Still.step still_addN | intro _ | split

theorem still_modFrame {x0 : _} {x1 : _} {x2 : _} : Still s (modFrame x0 x1 x2 s) := by
  have h := Still.refl s
  unfold modFrame; try dsimp only
  repeat' first | with_reducible assumption | with_reducible exact Still.refl _ | with_reducible apply Still.ite | with_reducible apply Still.step still_modCtx | intro _ | split

theorem still_frameStartPacket {x0 : _} : Still s (frameStartPacket x0 s) := by
  have h := Still.refl s
  unfold frameStartPacket; try dsimp only
  repeat' first | with_reducible assumption | with_reducible exact Still.refl _ | with_reducible apply Still.ite | with_reducible apply Still.step still_addN | with_reducible apply Still.step still_droppedFrame | with_reducible apply Still.step still_modCtx | with_reducible apply Still.step still_modFrame | with_reducible apply Still.step still_watchOverload | intro _ | split

theorem still_dataFrame {x0 : _} {x1 : _} : Still s (dataFrame x0 x1 s) := by
  have h := Still.refl s
  unfold dataFrame; try dsimp only
  repeat' first | with_reducible assumption | with_reducible exact Still.refl _ | with_reducible apply Still.ite | with_reducible apply Still.step still_launchFrame | with_reducible apply Still.step still_modLink | intro _ | split

theorem still_feed : Still s (feed s) := by
  have h := Still.refl s
  unfold feed; try dsimp only
  repeat' first | with_reducible assumption | with_reducible exact Still.refl _ | with_reducible apply Still.ite | with_reducible apply Still.step still_setN | intro _ | split

theorem still_datagram {x0 : _} : Still s (datagram x0 s) := by
  have h := Still.refl s
  unfold datagram; try dsimp only
  repeat' first | with_reducible assumption | with_reducible exact Still.refl _ | with_reducible apply Still.ite | with_reducible apply Still.step still_addN | with_reducible apply Still.step still_feed | intro _ | split

theorem still_delayReq {x0 : _} : Still s (delayReq x0 s) := by
  have h := Still.refl s
  unfold delayReq; try dsimp only
  repeat' first | with_reducible assumption | with_reducible exact Still.refl _ | with_reducible apply Still.ite | with_reducible apply Still.step still_emit | intro _ | split

theorem still_delayResp {x0 : _} : Still s (delayResp x0 s) := by
  have h := Still.refl s
  unfold delayResp; try dsimp only
  repeat' first | with_reducible assumption | with_reducible exact Still.refl _ | with_reducible apply Still.ite | with_reducible apply Still.step still_modPtp | with_reducible apply Still.step still_setI | intro _ | split

theorem still_dieTemperature {x0 : _} : Still s (dieTemperature x0 s) := by
  have h := Still.refl s
  unfold dieTemperature; try dsimp only
  repeat' first | with_reducible assumption | with_reducible exact Still.refl _ | with_reducible apply Still.ite | with_reducible apply Still.step still_noticeObj | with_reducible apply Still.step still_setI | intro _ | split | with_reducible apply Still.upd

theorem still_mainsNote {x0 : _} {x1 : _} : Still s (mainsNote x0 x1 s) := by
  have h := Still.refl s
  unfold mainsNote; try dsimp only
  repeat' first | with_reducible assumption | with_reducible exact Still.refl _ | with_reducible apply Still.ite | with_reducible apply Still.step still_noticeLog | intro _ | split

theorem still_echoReply {x0 : _} {x1 : _} {x2 : _} {x3 : _} : Still s (echoReply x0 x1 x2 x3 s) := by
  have h := Still.refl s
  unfold echoReply; try dsimp only
  repeat' first | with_reducible assumption | with_reducible exact Still.refl _ | with_reducible apply Still.ite | with_reducible apply Still.step still_burstEnd | with_reducible apply Still.step still_modLink | intro _ | split

theorem still_echoReplyTimeout {x0 : _} {x1 : _} : Still s (echoReplyTimeout x0 x1 s) := by
  have h := Still.refl s
  unfold echoReplyTimeout; try dsimp only
  repeat' first | with_reducible assumption | with_reducible exact Still.refl _ | with_reducible apply Still.ite | with_reducible apply Still.step still_burstEnd | with_reducible apply Still.step still_modLink | intro _ | split

theorem still_limitNote {x0 : _} {x1 : _} {x2 : _} : Still s (limitNote x0 x1 x2 s) := by
  have h := Still.refl s
  unfold limitNote; try dsimp only
  repeat' first | with_reducible assumption | with_reducible exact Still.refl _ | with_reducible apply Still.ite | with_reducible apply Still.step still_modCtr | with_reducible apply Still.step still_noticeAt | intro _ | split

theorem still_edgeBeyond {x0 : _} {x1 : _} {x2 : _} : Still s (edgeBeyond x0 x1 x2 s) := by
  have h := Still.refl s
  unfold edgeBeyond; try dsimp only
  repeat' first | with_reducible assumption | with_reducible exact Still.refl _ | with_reducible apply Still.ite | with_reducible apply Still.step still_addN | with_reducible apply Still.step still_afterCounter | with_reducible apply Still.step still_ctrFlag | with_reducible apply Still.step still_limitNote | with_reducible apply Still.step still_setI | intro _ | split

theorem still_edgeSpeed {x0 : _} {x1 : _} {x2 : _} : Still s (edgeSpeed x0 x1 x2 s) := by
  have h := Still.refl s
  unfold edgeSpeed; try dsimp only
  repeat' first | with_reducible assumption | with_reducible exact Still.refl _ | with_reducible apply Still.ite | with_reducible apply Still.step still_modCtr | with_reducible apply Still.step still_setI | with_reducible apply Still.step still_setN | intro _ | split

theorem still_encoderEdge {x0 : _} {x1 : _} {x2 : _} {x3 : _} : Still s (encoderEdge x0 x1 x2 x3 s) := by
  have h := Still.refl s
  unfold encoderEdge; try dsimp only
  repeat' first | with_reducible assumption | with_reducible exact Still.refl _ | with_reducible apply Still.ite | with_reducible apply Still.step still_addN | with_reducible apply Still.step still_afterCounter | with_reducible apply Still.step still_compareAll | with_reducible apply Still.step still_ctrFlag | with_reducible apply Still.step still_edgeBeyond | with_reducible apply Still.step still_edgeSpeed | with_reducible apply Still.step still_modCtr | with_reducible apply Still.step still_setI | intro _ | split

theorem still_latchFrames {x0 : _} : Still s (latchFrames x0 s) := by
  have h := Still.refl s
  unfold latchFrames; try dsimp only
  repeat' first | with_reducible assumption | with_reducible exact Still.refl _ | with_reducible apply Still.ite | with_reducible apply Still.step still_modCtx | intro _ | split

theorem still_loopLaw {x0 : _} {x1 : _} {x2 : _} {x3 : _} {x4 : _} : Still s ((loopLaw x0 x1 x2 x3 x4 s).2) := by
  have h := Still.refl s
  unfold loopLaw; try dsimp only
  repeat' first | with_reducible assumption | with_reducible exact Still.refl _ | with_reducible apply Still.ite | with_reducible apply Still.step still_modLoop | with_reducible apply Still.step still_setI | intro _ | split

theorem still_transfer {x0 : _} {x1 : _} {x2 : _} {x3 : _} {x4 : _} {x5 : _} : Still s (transfer x0 x1 x2 x3 x4 x5 s) := by
  have h := Still.refl s
  unfold transfer; try dsimp only
  repeat' first | with_reducible assumption | with_reducible exact Still.refl _ | with_reducible apply Still.ite | with_reducible apply Still.step still_modLoop | with_reducible apply Still.step still_setI | with_reducible apply Still.step still_setN | with_reducible apply Still.step still_transferRefused | intro _ | split

theorem still_loopCompute {x0 : _} {x1 : _} {x2 : _} {x3 : _} {x4 : _} : Still s (loopCompute x0 x1 x2 x3 x4 s) := by
  have h := Still.refl s
  unfold loopCompute; try dsimp only
  repeat' first | with_reducible assumption | with_reducible exact Still.refl _ | with_reducible apply Still.ite | with_reducible apply Still.step still_loopFlag | with_reducible apply Still.step still_loopLaw | with_reducible apply Still.step still_modLoop | with_reducible apply Still.step still_setI | with_reducible apply Still.step still_setN | with_reducible apply Still.step still_transfer | intro _ | split

theorem still_modelStep {x0 : _} {x1 : _} {x2 : _} : Still s ((modelStep x0 x1 x2 s).2) := by
  have h := Still.refl s
  unfold modelStep; try dsimp only
  repeat' first | with_reducible assumption | with_reducible exact Still.refl _ | with_reducible apply Still.ite | with_reducible apply Still.step still_modLoop | intro _ | split

theorem still_photoStep {x0 : _} : Still s (photoStep x0 s) := by
  have h := Still.refl s
  unfold photoStep; try dsimp only
  repeat' first | with_reducible assumption | with_reducible exact Still.refl _ | with_reducible apply Still.ite | with_reducible apply Still.step still_modLoop | intro _ | split

theorem still_fillFrame {x0 : _} {x1 : _} : Still s (fillFrame x0 x1 s) := by
  have h := Still.refl s
  unfold fillFrame; try dsimp only
  repeat' first | with_reducible assumption | with_reducible exact Still.refl _ | with_reducible apply Still.ite | with_reducible apply Still.step still_emit | with_reducible apply Still.step still_modLink | with_reducible apply Still.folded | intro _ | split

theorem still_modulate {x0 : _} {x1 : _} : Still s ((modulate x0 x1 s).2) := by
  have h := Still.refl s
  unfold modulate; try dsimp only
  repeat' first | with_reducible assumption | with_reducible exact Still.refl _ | with_reducible apply Still.ite | with_reducible apply Still.step still_modBerth | intro _ | split

theorem still_modulateAll {x0 : _} {x1 : _} : Still s ((modulateAll x0 x1 s).2) := by
  induction x1 generalizing s with
  | nil =>
    have h := Still.refl s
    simp only [modulateAll]
    repeat' first | with_reducible assumption | with_reducible exact Still.refl _ | with_reducible apply Still.ite | with_reducible apply Still.step still_modulate | intro _ | split | with_reducible apply Still.upd
  | cons e l ih =>
    have h := Still.refl s
    simp only [modulateAll]
    repeat' first | with_reducible apply Still.step (ih ..) | with_reducible assumption | with_reducible exact Still.refl _ | with_reducible apply Still.ite | with_reducible apply Still.step still_modulate | intro _ | split | with_reducible apply Still.upd

theorem still_formPower {x0 : _} : Still s (formPower x0 s) := by
  have h := Still.refl s
  unfold formPower; try dsimp only
  repeat' first | with_reducible assumption | with_reducible exact Still.refl _ | with_reducible apply Still.ite | with_reducible apply Still.step still_modBerth | with_reducible apply Still.step still_modulateAll | intro _ | split

theorem still_sendCommand {x0 : _} : Still s (sendCommand x0 s) := by
  have h := Still.refl s
  unfold sendCommand; try dsimp only
  repeat' first | with_reducible assumption | with_reducible exact Still.refl _ | with_reducible apply Still.ite | with_reducible apply Still.step still_modLink | with_reducible apply Still.step still_sendFrame | intro _ | split

theorem still_sendEcho {x0 : _} : Still s (sendEcho x0 s) := by
  have h := Still.refl s
  unfold sendEcho; try dsimp only
  repeat' first | with_reducible assumption | with_reducible exact Still.refl _ | with_reducible apply Still.ite | with_reducible apply Still.step still_modLink | with_reducible apply Still.step still_sendFrame | intro _ | split

theorem still_sendTick {x0 : _} {x1 : _} {x2 : _} : Still s (sendTick x0 x1 x2 s) := by
  have h := Still.refl s
  unfold sendTick; try dsimp only
  repeat' first | with_reducible assumption | with_reducible exact Still.refl _ | with_reducible apply Still.ite | with_reducible apply Still.step still_drawn | with_reducible apply Still.step still_emit | with_reducible apply Still.step still_modLink | intro _ | split

theorem still_endLink {x0 : _} : Still s (endLink x0 s) := by
  have h := Still.refl s
  unfold endLink; try dsimp only
  repeat' first | with_reducible assumption | with_reducible exact Still.refl _ | with_reducible apply Still.ite | with_reducible apply Still.step still_fillFrame | with_reducible apply Still.step still_formPower | with_reducible apply Still.step still_sendCommand | with_reducible apply Still.step still_sendEcho | with_reducible apply Still.step still_sendTick | intro _ | split

theorem still_endLinks : Still s (endLinks s) := by
  have h := Still.refl s
  unfold endLinks; try dsimp only
  repeat' first | with_reducible assumption | with_reducible exact Still.refl _ | with_reducible apply Still.ite | with_reducible apply Still.each | with_reducible apply Still.step still_endLink | with_reducible apply Still.step still_fillFrame | with_reducible apply Still.step still_modLink | intro _ | split

theorem still_finaliseOne {x0 : _} {x1 : _} {x3 : _} : Still s (finaliseOne x0 x1 s x3) := by
  have h := Still.refl s
  unfold finaliseOne; try dsimp only
  repeat' first | with_reducible assumption | with_reducible exact Still.refl _ | with_reducible apply Still.ite | with_reducible apply Still.step still_addFinal | with_reducible apply Still.step still_consume | intro _ | split

theorem still_finaliseTo {x0 : _} {x1 : _} : Still s (finaliseTo x0 x1 s) := by
  have h := Still.refl s
  unfold finaliseTo; try dsimp only
  repeat' first | with_reducible assumption | with_reducible exact Still.refl _ | with_reducible apply Still.ite | with_reducible apply Still.step still_finaliseOne | with_reducible apply Still.folded | intro _ | split

theorem still_manifestBank {x0 : _} {x1 : _} {x2 : _} : Still s (manifestBank x0 x1 x2 s) := by
  have h := Still.refl s
  unfold manifestBank; try dsimp only
  repeat' first | with_reducible assumption | with_reducible exact Still.refl _ | with_reducible apply Still.ite | with_reducible apply Still.step still_modLoop | intro _ | split

theorem still_manifestMode {x0 : _} {x1 : _} : Still s (manifestMode x0 x1 s) := by
  have h := Still.refl s
  unfold manifestMode; try dsimp only
  repeat' first | with_reducible assumption | with_reducible exact Still.refl _ | with_reducible apply Still.ite | with_reducible apply Still.step still_modLoop | intro _ | split

theorem still_updateGate {x0 : _} {x1 : _} : Still s (updateGate x0 x1 s) := by
  have h := Still.refl s
  unfold updateGate; try dsimp only
  repeat' first | with_reducible assumption | with_reducible exact Still.refl _ | with_reducible apply Still.ite | with_reducible apply Still.step still_setGate | intro _ | split

theorem still_wakeHold {x0 : _} {x1 : _} {x2 : _} : Still s (wakeHold x0 x1 x2 s) := by
  have h := Still.refl s
  unfold wakeHold; try dsimp only
  repeat' first | with_reducible assumption | with_reducible exact Still.refl _ | with_reducible apply Still.ite | with_reducible apply Still.step still_addN | with_reducible apply Still.step still_decelerate | with_reducible apply Still.step still_modBerth | with_reducible apply Still.step still_setN | intro _ | split

theorem still_requestStretch {x0 : _} {x1 : _} : Still s (requestStretch x0 x1 s) := by
  have h := Still.refl s
  unfold requestStretch; try dsimp only
  repeat' first | with_reducible assumption | with_reducible exact Still.refl _ | with_reducible apply Still.ite | with_reducible apply Still.step still_modBerth | intro _ | split

theorem still_startAnnex {x0 : _} {x1 : _} {x2 : _} {x3 : _} : Still s (startAnnex x0 x1 x2 x3 s) := by
  have h := Still.refl s
  unfold startAnnex; try dsimp only
  repeat' first | with_reducible assumption | with_reducible exact Still.refl _ | with_reducible apply Still.ite | with_reducible apply Still.step still_beginRecord | with_reducible apply Still.step still_modBerth | with_reducible apply Still.step still_requestStretch | with_reducible apply Still.step still_setDone | with_reducible apply Still.step still_setN | intro _ | split

theorem still_energiseComplete {x0 : _} : Still s (energiseComplete x0 s) := by
  have h := Still.refl s
  unfold energiseComplete; try dsimp only
  repeat' first | with_reducible assumption | with_reducible exact Still.refl _ | with_reducible apply Still.ite | with_reducible apply Still.step still_modAxis | intro _ | split

theorem still_enterRecovering : Still s (enterRecovering s) := by
  have h := Still.refl s
  unfold enterRecovering; try dsimp only
  repeat' first | with_reducible assumption | with_reducible exact Still.refl _ | with_reducible apply Still.ite | with_reducible apply Still.step still_setMains | with_reducible apply Still.step still_setN | intro _ | split

theorem still_showMargins {x0 : _} {x1 : _} : Still s (showMargins x0 x1 s) := by
  have h := Still.refl s
  unfold showMargins; try dsimp only
  repeat' first | with_reducible assumption | with_reducible exact Still.refl _ | with_reducible apply Still.ite | with_reducible apply Still.step still_setN | intro _ | split

theorem still_equaliseComplete {x0 : _} {x1 : _} : Still s (equaliseComplete x0 x1 s) := by
  have h := Still.refl s
  unfold equaliseComplete; try dsimp only
  repeat' first | with_reducible assumption | with_reducible exact Still.refl _ | with_reducible apply Still.ite | with_reducible apply Still.step still_drawn | with_reducible apply Still.step still_modLink | with_reducible apply Still.step still_setLinkState | with_reducible apply Still.step still_showMargins | intro _ | split

theorem still_transparent {x0 : _} {x1 : _} : Still s ((transparent x0 x1 s).2) := by
  have h := Still.refl s
  unfold transparent; try dsimp only
  repeat' first | with_reducible assumption | with_reducible exact Still.refl _ | with_reducible apply Still.ite | with_reducible apply Still.step still_addN | with_reducible apply Still.step still_counted | with_reducible apply Still.step still_modPtp | intro _ | split

theorem still_forward {x0 : _} {x1 : _} : Still s (forward x0 x1 s) := by
  have h := Still.refl s
  have ht := still_transparent (s := s) (x0 := x0) (x1 := x1)
  unfold forward
  generalize transparent x0 x1 s = r at ht ⊢
  obtain ⟨o, u⟩ := r
  dsimp only at ht
  cases o <;> repeat' first | with_reducible assumption | with_reducible apply Still.ite | with_reducible apply Still.step still_emit | intro _

theorem still_learn {x0 : _} {x1 : _} : Still s (learn x0 x1 s) := by
  have h := Still.refl s
  unfold learn; try dsimp only
  repeat' first | with_reducible assumption | with_reducible exact Still.refl _ | with_reducible apply Still.ite | intro _ | split | with_reducible apply Still.upd

theorem still_ethernetFrame {x0 : _} {x1 : _} : Still s (ethernetFrame x0 x1 s) := by
  have h := Still.refl s
  unfold ethernetFrame; try dsimp only
  repeat' first | with_reducible assumption | with_reducible exact Still.refl _ | with_reducible apply Still.ite | with_reducible apply Still.step still_addN | with_reducible apply Still.step still_emit | with_reducible apply Still.step still_forward | with_reducible apply Still.step still_learn | intro _ | split

theorem still_phaseFigures {x0 : _} {x1 : _} : Still s (phaseFigures x0 x1 s) := by
  have h := Still.refl s
  unfold phaseFigures; try dsimp only
  repeat' first | with_reducible assumption | with_reducible exact Still.refl _ | with_reducible apply Still.ite | with_reducible apply Still.step still_modMains | with_reducible apply Still.step still_setI | with_reducible apply Still.step still_setN | intro _ | split

theorem still_fresh : Still s (fresh s) := by
  have h := Still.refl s
  unfold fresh; try dsimp only
  repeat' first | with_reducible assumption | with_reducible exact Still.refl _ | with_reducible apply Still.ite | intro _ | split | with_reducible apply Still.upd

theorem still_nextSeq : Still s (nextSeq s) := by
  have h := Still.refl s
  unfold nextSeq; try dsimp only
  repeat' first | with_reducible assumption | with_reducible exact Still.refl _ | with_reducible apply Still.ite | with_reducible apply Still.step still_modPtp | intro _ | split

theorem still_replay {x0 : _} {x1 : _} : Still s (replay x0 x1 s) := by
  have h := Still.refl s
  unfold replay; try dsimp only
  repeat' first | with_reducible assumption | with_reducible exact Still.refl _ | with_reducible apply Still.ite | with_reducible apply Still.step still_addN | with_reducible apply Still.step still_mopOut | intro _ | split

theorem still_hearFrame {n : _} {ty : _} {w : _} {f : List Byte → State → State} (hf : ∀ l s, Still s (f l s))
    (h : Still s t) : Still s (hearFrame n ty w f t) := by
  unfold hearFrame; try dsimp only
  repeat' first | with_reducible assumption | with_reducible apply Still.ite | with_reducible apply Still.step (hf _ _) | with_reducible apply Still.step still_crcError | intro _

theorem keeps_hearFrame {n : _} {ty : _} {w : _} {f : List Byte → State → State} (hf : ∀ l s, Keeps s (f l s))
    (h : Keeps s t) : Keeps s (hearFrame n ty w f t) := by
  unfold hearFrame; try dsimp only
  repeat' first | with_reducible assumption | with_reducible apply Keeps.ite | with_reducible apply Keeps.step (hf _ _) | with_reducible apply Keeps.still still_crcError | intro _

theorem still_exposeOne {x0 : _} : Still s (exposeOne x0 s) := by
  have h := Still.refl s
  unfold exposeOne; try dsimp only
  repeat' first | with_reducible assumption | with_reducible exact Still.refl _ | with_reducible apply Still.ite | with_reducible apply Still.step still_beginRecord | with_reducible apply Still.step still_enterState | with_reducible apply Still.step still_modBerth | with_reducible apply Still.step still_requestStretch | intro _ | split

theorem still_eyeMargin {x0 : _} {x1 : _} : Still s (eyeMargin x0 x1 s) := by
  have h := Still.refl s
  unfold eyeMargin; try dsimp only
  repeat' first | with_reducible assumption | with_reducible exact Still.refl _ | with_reducible apply Still.ite | with_reducible apply Still.step still_modLink | with_reducible apply Still.step still_notice | with_reducible apply Still.step still_retrain | with_reducible apply Still.step still_showAdaptation | with_reducible apply Still.step still_showMargins | intro _ | split

theorem still_finaliseBerth {x0 : _} : Still s (finaliseBerth x0 s) := by
  have h := Still.refl s
  unfold finaliseBerth; try dsimp only
  repeat' first | with_reducible assumption | with_reducible exact Still.refl _ | with_reducible apply Still.ite | with_reducible apply Still.step still_finaliseTo | intro _ | split

theorem still_standAtHead {x0 : _} : Still s (standAtHead x0 s) := by
  have h := Still.refl s
  unfold standAtHead; try dsimp only
  repeat' first | with_reducible assumption | with_reducible exact Still.refl _ | with_reducible apply Still.ite | with_reducible apply Still.step still_findStanding | with_reducible apply Still.step still_modBerth | with_reducible apply Still.step still_modLink | intro _ | split

theorem still_waitDone {x0 : _} {x1 : _} : Still s (waitDone x0 x1 s) := by
  have h := Still.refl s
  unfold waitDone; try dsimp only
  repeat' first | with_reducible assumption | with_reducible exact Still.refl _ | with_reducible apply Still.ite | with_reducible apply Still.step still_beginRecord | with_reducible apply Still.step still_modBerth | intro _ | split

theorem still_fenceComplete {x0 : _} : Still s (fenceComplete x0 s) := by
  have h := Still.refl s
  unfold fenceComplete; try dsimp only
  repeat' first | with_reducible assumption | with_reducible exact Still.refl _ | with_reducible apply Still.ite | with_reducible apply Still.each | with_reducible apply Still.step still_waitDone | intro _ | split

theorem still_spiOut {x0 : _} {x1 : _} : Still s (spiOut x0 x1 s) := by
  have h := Still.refl s
  unfold spiOut; try dsimp only
  repeat' first | with_reducible assumption | with_reducible exact Still.refl _ | with_reducible apply Still.ite | with_reducible apply Still.step still_emit | intro _ | split

theorem still_spiSeen : Still s (spiSeen s) := by
  have h := Still.refl s
  unfold spiSeen; try dsimp only
  repeat' first | with_reducible assumption | with_reducible exact Still.refl _ | with_reducible apply Still.ite | with_reducible apply Still.step still_feed | intro _ | split

theorem still_fetchNotices : Still s (fetchNotices s) := by
  have h := Still.refl s
  unfold fetchNotices; try dsimp only
  repeat' first | with_reducible assumption | with_reducible exact Still.refl _ | with_reducible apply Still.ite | with_reducible apply Still.step still_modSess | with_reducible apply Still.step still_spiOut | with_reducible apply Still.step still_spiSeen | intro _ | split

theorem still_steer {x0 : _} : Still s (steer x0 s) := by
  have h := Still.refl s
  unfold steer; try dsimp only
  repeat' first | with_reducible assumption | with_reducible exact Still.refl _ | with_reducible apply Still.ite | with_reducible apply Still.step still_drawn | with_reducible apply Still.step still_modPtp | with_reducible apply Still.step still_setI | intro _ | split

theorem still_servoOffset {x0 : _} {x1 : _} : Still s (servoOffset x0 x1 s) := by
  have h := Still.refl s
  unfold servoOffset; try dsimp only
  repeat' first | with_reducible assumption | with_reducible exact Still.refl _ | with_reducible apply Still.ite | with_reducible apply Still.step still_setN | with_reducible apply Still.step still_steer | with_reducible apply Still.step still_stepTo | intro _ | split

theorem still_syncOffset {x0 : _} {x1 : _} {x2 : _} : Still s (syncOffset x0 x1 x2 s) := by
  have h := Still.refl s
  unfold syncOffset; try dsimp only
  repeat' first | with_reducible assumption | with_reducible exact Still.refl _ | with_reducible apply Still.ite | with_reducible apply Still.step still_modPtp | with_reducible apply Still.step still_servoOffset | with_reducible apply Still.step still_setI | with_reducible apply Still.step still_setN | intro _ | split

theorem still_followUp {x0 : _} : Still s (followUp x0 s) := by
  have h := Still.refl s
  unfold followUp; try dsimp only
  repeat' first | with_reducible assumption | with_reducible exact Still.refl _ | with_reducible apply Still.ite | with_reducible apply Still.step still_syncOffset | intro _ | split

theorem still_frameTimeout {x0 : _} : Still s (frameTimeout x0 s) := by
  have h := Still.refl s
  unfold frameTimeout; try dsimp only
  repeat' first | with_reducible assumption | with_reducible exact Still.refl _ | with_reducible apply Still.ite | with_reducible apply Still.step still_corruptFrame | with_reducible apply Still.step still_modCtx | intro _ | split

theorem still_homingTravelLimit {x0 : _} : Still s (homingTravelLimit x0 s) := by
  have h := Still.refl s
  unfold homingTravelLimit; try dsimp only
  repeat' first | with_reducible assumption | with_reducible exact Still.refl _ | with_reducible apply Still.ite | with_reducible apply Still.step still_axisFreeze | with_reducible apply Still.step still_modAxis | with_reducible apply Still.step still_setNotice | intro _ | split

theorem still_idleAction {x0 : _} : Still s (idleAction x0 s) := by
  have h := Still.refl s
  unfold idleAction; try dsimp only
  repeat' first | with_reducible assumption | with_reducible exact Still.refl _ | with_reducible apply Still.ite | with_reducible apply Still.step still_axisFlag | with_reducible apply Still.step still_modAxis | intro _ | split

theorem still_indexPulse {x0 : _} {x1 : _} {x2 : _} {x3 : _} : Still s (indexPulse x0 x1 x2 x3 s) := by
  have h := Still.refl s
  unfold indexPulse; try dsimp only
  repeat' first | with_reducible assumption | with_reducible exact Still.refl _ | with_reducible apply Still.ite | with_reducible apply Still.step still_addN | with_reducible apply Still.step still_afterCounter | with_reducible apply Still.step still_ctrFlag | with_reducible apply Still.step still_logAdd | with_reducible apply Still.step still_noticeAt | with_reducible apply Still.step still_setI | with_reducible apply Still.step still_setReferenced | with_reducible apply Still.step still_setTime | intro _ | split

theorem still_keyRevoke {x0 : _} {x1 : _} {x2 : _} : Still s (keyRevoke x0 x1 x2 s) := by
  have h := Still.refl s
  unfold keyRevoke; try dsimp only
  repeat' first | with_reducible assumption | with_reducible exact Still.refl _ | with_reducible apply Still.ite | with_reducible apply still_rwpWrite | with_reducible apply Still.step still_keyDrop | intro _ | split

theorem still_lampBoardTimeout {x0 : _} : Still s (lampBoardTimeout x0 s) := by
  have h := Still.refl s
  unfold lampBoardTimeout; try dsimp only
  repeat' first | with_reducible assumption | with_reducible exact Still.refl _ | with_reducible apply Still.ite | with_reducible apply Still.step still_modBoard | with_reducible apply Still.step still_noticeObj | intro _ | split

theorem still_lampTemperatureRead {x0 : _} : Still s (lampTemperatureRead x0 s) := by
  have h := Still.refl s
  unfold lampTemperatureRead; try dsimp only
  repeat' first | with_reducible assumption | with_reducible exact Still.refl _ | with_reducible apply Still.ite | with_reducible apply Still.each | with_reducible apply Still.step still_boardRead | with_reducible apply Still.step still_emit | intro _ | split

theorem still_lanesDeskewed {x0 : _} {x1 : _} {x2 : _} : Still s (lanesDeskewed x0 x1 x2 s) := by
  have h := Still.refl s
  unfold lanesDeskewed; try dsimp only
  repeat' first | with_reducible assumption | with_reducible exact Still.refl _ | with_reducible apply Still.ite | with_reducible apply Still.step still_attemptFails | with_reducible apply Still.step still_setLinkState | with_reducible apply Still.step still_setN | with_reducible apply Still.folded | intro _ | split

theorem still_lockWindowOpen : Still s (lockWindowOpen s) := by
  have h := Still.refl s
  unfold lockWindowOpen; try dsimp only
  repeat' first | with_reducible assumption | with_reducible exact Still.refl _ | with_reducible apply Still.ite | with_reducible apply Still.step still_openWindow | intro _ | split

theorem still_phaseDraw {x0 : _} : Still s (phaseDraw x0 s) := by
  have h := Still.refl s
  unfold phaseDraw; try dsimp only
  repeat' first | with_reducible assumption | with_reducible exact Still.refl _ | with_reducible apply Still.ite | with_reducible apply Still.step still_setN | with_reducible apply Still.folded | intro _ | split | with_reducible apply Still.upd

theorem still_proceed {x0 : _} {x1 : _} : Still s (proceed x0 x1 s) := by
  have h := Still.refl s
  unfold proceed; try dsimp only
  repeat' first | with_reducible assumption | with_reducible exact Still.refl _ | with_reducible apply Still.ite | with_reducible apply Still.step still_beginRecord | intro _ | split

theorem still_serve {x0 : _} {x1 : _} : Still s (serve x0 x1 s) := by
  have h := Still.refl s
  unfold serve; try dsimp only
  repeat' first | with_reducible assumption | with_reducible exact Still.refl _ | with_reducible apply Still.ite | with_reducible apply Still.step still_addN | with_reducible apply Still.step still_modBerth | with_reducible apply Still.step still_proceed | intro _ | split

theorem still_hmBudget : Still s (hmBudget s) := by
  have h := Still.refl s
  unfold hmBudget; try dsimp only
  repeat' first | with_reducible assumption | with_reducible exact Still.refl _ | with_reducible apply Still.ite | with_reducible apply Still.each | with_reducible apply Still.step still_phaseDraw | with_reducible apply Still.step still_serve | with_reducible apply Still.step still_setN | with_reducible apply Still.folded | intro _ | split

theorem still_openGiver {x0 : _} {x1 : _} {x2 : _} : Still s (openGiver x0 x1 x2 s) := by
  have h := Still.refl s
  unfold openGiver; try dsimp only
  repeat' first | with_reducible assumption | with_reducible exact Still.refl _ | with_reducible apply Still.ite | with_reducible apply Still.step still_modBerth | intro _ | split

theorem still_launchTaker {x0 : _} : Still s (launchTaker x0 s) := by
  have h := Still.refl s
  unfold launchTaker; try dsimp only
  repeat' first | with_reducible assumption | with_reducible exact Still.refl _ | with_reducible apply Still.ite | with_reducible apply Still.step still_modBerth | intro _ | split

theorem still_followGiver {x0 : _} {x1 : _} : Still s (followGiver x0 x1 s) := by
  have h := Still.refl s
  unfold followGiver; try dsimp only
  repeat' first | with_reducible assumption | with_reducible exact Still.refl _ | with_reducible apply Still.ite | with_reducible apply Still.step still_modBerth | intro _ | split

theorem still_hmRecords : Still s (hmRecords s) := by
  have h := Still.refl s
  unfold hmRecords; try dsimp only
  repeat' first | with_reducible assumption | with_reducible exact Still.refl _ | with_reducible apply Still.ite | intro _ | split | with_reducible apply Still.upd

theorem still_trackRests : Still s (trackRests s) := by
  have h := Still.refl s
  unfold trackRests; try dsimp only
  repeat' first | with_reducible assumption | with_reducible exact Still.refl _ | with_reducible apply Still.ite | intro _ | split | with_reducible apply Still.upd

theorem still_takeShadow {x0 : _} {x1 : _} : Still s (takeShadow x0 x1 s) := by
  have h := Still.refl s
  unfold takeShadow; try dsimp only
  repeat' first | with_reducible assumption | with_reducible exact Still.refl _ | with_reducible apply Still.ite | with_reducible apply Still.step still_setV | intro _ | split | with_reducible apply Still.upd

theorem still_latchMode {x0 : _} : Still s (latchMode x0 s) := by
  have h := Still.refl s
  unfold latchMode; try dsimp only
  repeat' first | with_reducible assumption | with_reducible exact Still.refl _ | with_reducible apply Still.ite | with_reducible apply Still.step still_loopFlag | with_reducible apply Still.step still_modLoop | with_reducible apply Still.step still_setN | with_reducible apply Still.step still_takeShadow | intro _ | split

theorem still_latchSelect {x0 : _} : Still s (latchSelect x0 s) := by
  have h := Still.refl s
  unfold latchSelect; try dsimp only
  repeat' first | with_reducible assumption | with_reducible exact Still.refl _ | with_reducible apply Still.ite | with_reducible apply Still.step still_bankSwap | with_reducible apply Still.step still_modLoop | with_reducible apply Still.step still_setN | with_reducible apply Still.step still_takeShadow | intro _ | split

theorem still_latchWrites {x0 : _} : Still s (latchWrites x0 s) := by
  have h := Still.refl s
  unfold latchWrites; try dsimp only
  repeat' first | with_reducible assumption | with_reducible exact Still.refl _ | with_reducible apply Still.ite | with_reducible apply Still.step still_takeShadow | intro _ | split

theorem still_takeInputs {x0 : _} : Still s (takeInputs x0 s) := by
  have h := Still.refl s
  unfold takeInputs; try dsimp only
  repeat' first | with_reducible assumption | with_reducible exact Still.refl _ | with_reducible apply Still.ite | with_reducible apply Still.step still_modLoop | intro _ | split

theorem still_unscheduled {x0 : _} : Still s (unscheduled x0 s) := by
  have h := Still.refl s
  unfold unscheduled; try dsimp only
  repeat' first | with_reducible assumption | with_reducible exact Still.refl _ | with_reducible apply Still.ite | with_reducible apply Still.step still_latchMode | with_reducible apply Still.step still_latchWrites | with_reducible apply Still.step still_loopFlag | with_reducible apply Still.step still_modLoop | with_reducible apply Still.step still_setI | with_reducible apply Still.step still_setN | with_reducible apply Still.step still_transferRefused | intro _ | split

theorem still_loopLatch {x0 : _} {x1 : _} : Still s (loopLatch x0 x1 s) := by
  have h := Still.refl s
  unfold loopLatch; try dsimp only
  repeat' first | with_reducible assumption | with_reducible exact Still.refl _ | with_reducible apply Still.ite | with_reducible apply Still.step still_armSelects | with_reducible apply Still.step still_latchMode | with_reducible apply Still.step still_latchSelect | with_reducible apply Still.step still_latchWrites | with_reducible apply Still.step still_modLoop | with_reducible apply Still.step still_takeInputs | with_reducible apply Still.step still_unscheduled | intro _ | split

theorem still_oldSets : Still s (oldSets s) := by
  have h := Still.refl s
  unfold oldSets; try dsimp only
  repeat' first | with_reducible assumption | with_reducible exact Still.refl _ | with_reducible apply Still.ite | intro _ | split | with_reducible apply Still.upd

theorem still_periodicTrigger {x0 : _} : Still s (periodicTrigger x0 s) := by
  have h := Still.refl s
  unfold periodicTrigger; try dsimp only
  repeat' first | with_reducible assumption | with_reducible exact Still.refl _ | with_reducible apply Still.ite | with_reducible apply Still.step still_addFinal | intro _ | split

theorem still_showPlace {x0 : _} : Still s (showPlace x0 s) := by
  have h := Still.refl s
  unfold showPlace; try dsimp only
  repeat' first | with_reducible assumption | with_reducible exact Still.refl _ | with_reducible apply Still.ite | with_reducible apply Still.step still_setI | with_reducible apply Still.step still_setN | intro _ | split

theorem still_startExposing {x0 : _} : Still s (startExposing x0 s) := by
  have h := Still.refl s
  unfold startExposing; try dsimp only
  repeat' first | with_reducible assumption | with_reducible exact Still.refl _ | with_reducible apply Still.ite | with_reducible apply Still.step still_finaliseBerth | with_reducible apply Still.step still_periodicTrigger | with_reducible apply Still.step still_showPlace | intro _ | split

theorem still_takeLevels : Still s (takeLevels s) := by
  have h := Still.refl s
  unfold takeLevels; try dsimp only
  repeat' first | with_reducible assumption | with_reducible exact Still.refl _ | with_reducible apply Still.ite | with_reducible apply Still.step still_takeShadows | intro _ | split

theorem still_pwmStart {x0 : _} {x1 : _} : Still s (pwmStart x0 x1 s) := by
  have h := Still.refl s
  unfold pwmStart; try dsimp only
  repeat' first | with_reducible assumption | with_reducible exact Still.refl _ | with_reducible apply Still.ite | with_reducible apply Still.step still_emit | with_reducible apply Still.step still_modAxis | with_reducible apply Still.step still_setI | intro _ | split | with_reducible apply Still.upd

theorem still_pwmTick {x0 : _} : Still s (pwmTick x0 s) := by
  have h := Still.refl s
  unfold pwmTick; try dsimp only
  repeat' first | with_reducible assumption | with_reducible exact Still.refl _ | with_reducible apply Still.ite | with_reducible apply Still.step still_modAxis | with_reducible apply Still.step still_pwmStart | intro _ | split

theorem still_wakeLatch : Still s (wakeLatch s) := by
  have h := Still.refl s
  unfold wakeLatch; try dsimp only
  repeat' first | with_reducible assumption | with_reducible exact Still.refl _ | with_reducible apply Still.ite | with_reducible apply Still.step still_setI | with_reducible apply Still.step still_setN | intro _ | split | with_reducible apply Still.upd

theorem still_motionTick : Still s (motionTick s) := by
  have h := Still.refl s
  unfold motionTick; try dsimp only
  repeat' first | with_reducible assumption | with_reducible exact Still.refl _ | with_reducible apply Still.ite | with_reducible apply Still.each | with_reducible apply Still.step still_axisShow | with_reducible apply Still.step still_pwmTick | with_reducible apply Still.step still_wakeLatch | intro _ | split

theorem still_quayTime : Still s (quayTime s) := by
  have h := Still.refl s
  unfold quayTime; try dsimp only
  repeat' first | with_reducible assumption | with_reducible exact Still.refl _ | with_reducible apply Still.ite | with_reducible apply Still.step still_setN | intro _ | split

theorem still_sendQuay {x0 : _} : Still s (sendQuay x0 s) := by
  have h := Still.refl s
  unfold sendQuay; try dsimp only
  repeat' first | with_reducible assumption | with_reducible exact Still.refl _ | with_reducible apply Still.ite | with_reducible apply Still.step still_sendFrame | with_reducible apply Still.step still_sendTick | intro _ | split

theorem still_startChamber : Still s (startChamber s) := by
  have h := Still.refl s
  unfold startChamber; try dsimp only
  repeat' first | with_reducible assumption | with_reducible exact Still.refl _ | with_reducible apply Still.ite | with_reducible apply Still.each | with_reducible apply Still.step still_calTick | with_reducible apply Still.step still_motionTick | with_reducible apply Still.step still_quayTime | with_reducible apply Still.step still_sendQuay | intro _ | split

theorem still_tideFrame : Still s (tideFrame s) := by
  have h := Still.refl s
  unfold tideFrame; try dsimp only
  repeat' first | with_reducible assumption | with_reducible exact Still.refl _ | with_reducible apply Still.ite | with_reducible apply Still.step still_setN | intro _ | split

theorem still_linkUpNow {x0 : _} : Still s (linkUpNow x0 s) := by
  have h := Still.refl s
  unfold linkUpNow; try dsimp only
  repeat' first | with_reducible assumption | with_reducible exact Still.refl _ | with_reducible apply Still.ite | with_reducible apply Still.step still_modBerth | with_reducible apply Still.step still_modLink | with_reducible apply Still.step still_setLinkState | with_reducible apply Still.step still_standAtHead | intro _ | split

theorem still_measureAgain {x0 : _} : Still s (measureAgain x0 s) := by
  have h := Still.refl s
  unfold measureAgain; try dsimp only
  repeat' first | with_reducible assumption | with_reducible exact Still.refl _ | with_reducible apply Still.ite | with_reducible apply Still.step still_attemptFails | with_reducible apply Still.step still_modLink | intro _ | split

theorem still_measurementComplete {x0 : _} : Still s (measurementComplete x0 s) := by
  have h := Still.refl s
  unfold measurementComplete; try dsimp only
  repeat' first | with_reducible assumption | with_reducible exact Still.refl _ | with_reducible apply Still.ite | with_reducible apply Still.step still_linkUpNow | with_reducible apply Still.step still_measureAgain | with_reducible apply Still.step still_useMeans | intro _ | split

theorem still_wakeChannel {x0 : _} : Still s (wakeChannel x0 s) := by
  have h := Still.refl s
  unfold wakeChannel; try dsimp only
  repeat' first | with_reducible assumption | with_reducible exact Still.refl _ | with_reducible apply Still.ite | with_reducible apply Still.step still_setN | intro _ | split | with_reducible apply Still.upd

theorem still_minimumDelayInterval : Still s (minimumDelayInterval s) := by
  have h := Still.refl s
  unfold minimumDelayInterval; try dsimp only
  repeat' first | with_reducible assumption | with_reducible exact Still.refl _ | with_reducible apply Still.ite | with_reducible apply Still.step still_emit | with_reducible apply Still.step still_modPtp | with_reducible apply Still.step still_nextSeq | intro _ | split

theorem still_nextOut {x0 : _} : Still s (nextOut x0 s) := by
  have h := Still.refl s
  unfold nextOut; try dsimp only
  repeat' first | with_reducible assumption | with_reducible exact Still.refl _ | with_reducible apply Still.ite | with_reducible apply Still.step still_modSess | intro _ | split

theorem still_sendNotices {x0 : _} {x1 : _} : Still s (sendNotices x0 x1 s) := by
  induction x1 generalizing s with
  | zero =>
    have h := Still.refl s
    simp only [sendNotices]
    repeat' first | with_reducible assumption | with_reducible exact Still.refl _ | with_reducible apply Still.ite | with_reducible apply Still.step still_modSess | with_reducible apply Still.step still_mopOut | with_reducible apply Still.step still_nextOut | intro _ | split | with_reducible apply Still.upd
  | succ k ih =>
    have h := Still.refl s
    simp only [sendNotices]
    repeat' first | with_reducible apply Still.step (ih ..) | with_reducible assumption | with_reducible exact Still.refl _ | with_reducible apply Still.ite | with_reducible apply Still.step still_modSess | with_reducible apply Still.step still_mopOut | with_reducible apply Still.step still_nextOut | intro _ | split | with_reducible apply Still.upd

theorem still_floatAll : Still s (floatAll s) := by
  have h := Still.refl s
  unfold floatAll; try dsimp only
  repeat' first | with_reducible assumption | with_reducible exact Still.refl _ | with_reducible apply Still.ite | with_reducible apply Still.each | with_reducible apply Still.step still_emit | with_reducible apply Still.step still_floatOutputs | intro _ | split

theorem still_loadStored : Still s (loadStored s) := by
  have h := Still.refl s
  unfold loadStored; try dsimp only
  repeat' first | with_reducible assumption | with_reducible exact Still.refl _ | with_reducible apply Still.ite | with_reducible apply Still.eachBerth | with_reducible apply Still.step still_setN | with_reducible apply Still.folded | intro _ | split | with_reducible apply Still.upd

theorem still_strapNode {x0 : _} : Still s (strapNode x0 s) := by
  have h := Still.refl s
  unfold strapNode; try dsimp only
  repeat' first | with_reducible assumption | with_reducible exact Still.refl _ | with_reducible apply Still.ite | with_reducible apply Still.step still_setN | intro _ | split

theorem still_openAck {x0 : _} {x1 : _} {x2 : _} {x3 : _} {x4 : _} : Still s (openAck x0 x1 x2 x3 x4 s) := by
  have h := Still.refl s
  unfold openAck; try dsimp only
  repeat' first | with_reducible assumption | with_reducible exact Still.refl _ | with_reducible apply Still.ite | with_reducible apply Still.step still_mopOut | intro _ | split

theorem still_openSession {x0 : _} : Still s (openSession x0 s) := by
  have h := Still.refl s
  unfold openSession; try dsimp only
  repeat' first | with_reducible assumption | with_reducible exact Still.refl _ | with_reducible apply Still.ite | with_reducible apply Still.step still_datagram | with_reducible apply Still.step still_drawn | with_reducible apply Still.step still_modSess | with_reducible apply Still.step still_openAck | intro _ | split

theorem still_overload : Still s (overload s) := by
  have h := Still.refl s
  unfold overload; try dsimp only
  repeat' first | with_reducible assumption | with_reducible exact Still.refl _ | with_reducible apply Still.ite | with_reducible apply Still.step still_overloadDrops | with_reducible apply Still.step still_setN | intro _ | split

theorem still_pdelayReq {x0 : _} : Still s (pdelayReq x0 s) := by
  have h := Still.refl s
  unfold pdelayReq; try dsimp only
  repeat' first | with_reducible assumption | with_reducible exact Still.refl _ | with_reducible apply Still.ite | with_reducible apply Still.step still_emit | intro _ | split

theorem still_pdelayResp {x0 : _} : Still s (pdelayResp x0 s) := by
  have h := Still.refl s
  unfold pdelayResp; try dsimp only
  repeat' first | with_reducible assumption | with_reducible exact Still.refl _ | with_reducible apply Still.ite | with_reducible apply Still.step still_modPtp | with_reducible apply Still.step still_setI | intro _ | split

theorem still_portLinkUp {x0 : _} : Still s (portLinkUp x0 s) := by
  have h := Still.refl s
  unfold portLinkUp; try dsimp only
  repeat' first | with_reducible assumption | with_reducible exact Still.refl _ | with_reducible apply Still.ite | with_reducible apply Still.step still_portBit | with_reducible apply Still.step still_presenceOut | intro _ | split

theorem still_sampleTaken {x0 : _} {x1 : _} : Still s (sampleTaken x0 x1 s) := by
  have h := Still.refl s
  unfold sampleTaken; try dsimp only
  repeat' first | with_reducible assumption | with_reducible exact Still.refl _ | with_reducible apply Still.ite | with_reducible apply Still.step still_addN | with_reducible apply Still.step still_setN | intro _ | split

theorem still_powerSample {x0 : _} {x1 : _} : Still s (powerSample x0 x1 s) := by
  have h := Still.refl s
  unfold powerSample; try dsimp only
  repeat' first | with_reducible assumption | with_reducible exact Still.refl _ | with_reducible apply Still.ite | with_reducible apply Still.step still_caught | with_reducible apply Still.step still_modBerth | with_reducible apply Still.step still_sampleTaken | intro _ | split

theorem still_presence {x0 : _} : Still s (presence x0 s) := by
  have h := Still.refl s
  unfold presence; try dsimp only
  repeat' first | with_reducible assumption | with_reducible exact Still.refl _ | with_reducible apply Still.ite | with_reducible apply Still.step still_datagram | with_reducible apply Still.step still_presenceOut | with_reducible apply Still.step still_setNotice | intro _ | split | with_reducible apply Still.upd

theorem still_projectorEntry : Still s (projectorEntry s) := by
  have h := Still.refl s
  unfold projectorEntry; try dsimp only
  repeat' first | with_reducible assumption | with_reducible exact Still.refl _ | with_reducible apply Still.ite | with_reducible apply Still.step still_projectorBegin | with_reducible apply Still.step still_stopSequence | intro _ | split

theorem still_followQuay {x0 : _} : Still s (followQuay x0 s) := by
  have h := Still.refl s
  unfold followQuay; try dsimp only
  repeat' first | with_reducible assumption | with_reducible exact Still.refl _ | with_reducible apply Still.ite | with_reducible apply Still.step still_setN | with_reducible apply Still.step still_steer | intro _ | split | with_reducible apply Still.upd

theorem still_qtime {x0 : _} {x1 : _} {x2 : _} : Still s (qtime x0 x1 x2 s) := by
  have h := Still.refl s
  unfold qtime; try dsimp only
  repeat' first | with_reducible assumption | with_reducible exact Still.refl _ | with_reducible apply Still.ite | with_reducible apply Still.step still_followQuay | with_reducible apply Still.step still_modLink | with_reducible apply Still.step still_setI | with_reducible apply Still.step still_setN | intro _ | split

theorem still_skipResume {x0 : _} : Still s (skipResume x0 s) := by
  have h := Still.refl s
  unfold skipResume; try dsimp only
  repeat' first | with_reducible assumption | with_reducible exact Still.refl _ | with_reducible apply Still.ite | with_reducible apply Still.step still_setI | with_reducible apply Still.step still_setN | intro _ | split

theorem still_refreshBank {x0 : _} : Still s (refreshBank x0 s) := by
  have h := Still.refl s
  unfold refreshBank; try dsimp only
  repeat' first | with_reducible assumption | with_reducible exact Still.refl _ | with_reducible apply Still.ite | with_reducible apply Still.step still_modSub | intro _ | split

theorem still_refresh {x0 : _} : Still s (refresh x0 s) := by
  have h := Still.refl s
  unfold refresh; try dsimp only
  repeat' first | with_reducible assumption | with_reducible exact Still.refl _ | with_reducible apply Still.ite | with_reducible apply Still.each | with_reducible apply Still.step still_addN | with_reducible apply Still.step still_modSub | with_reducible apply Still.step still_refreshBank | intro _ | split | with_reducible apply Still.upd

theorem still_sendReport {x0 : _} {x1 : _} : Still s (sendReport x0 x1 s) := by
  have h := Still.refl s
  unfold sendReport; try dsimp only
  repeat' first | with_reducible assumption | with_reducible exact Still.refl _ | with_reducible apply Still.ite | with_reducible apply Still.step still_mopOut | with_reducible apply Still.step still_nextOut | intro _ | split

theorem still_retrainStart {x0 : _} : Still s (retrainStart x0 s) := by
  have h := Still.refl s
  unfold retrainStart; try dsimp only
  repeat' first | with_reducible assumption | with_reducible exact Still.refl _ | with_reducible apply Still.ite | with_reducible apply Still.step still_enterDetect | with_reducible apply Still.step still_modLink | with_reducible apply Still.step still_resetLink | with_reducible apply Still.step still_setLinkState | with_reducible apply Still.step still_setN | intro _ | split

theorem still_runComplete : Still s (runComplete s) := by
  have h := Still.refl s
  unfold runComplete; try dsimp only
  repeat' first | with_reducible assumption | with_reducible exact Still.refl _ | with_reducible apply Still.ite | with_reducible apply Still.eachBerth | with_reducible apply Still.step still_calFit | with_reducible apply Still.step still_calJudge | with_reducible apply Still.step still_calRun | with_reducible apply Still.step still_setN | intro _ | split

theorem still_passSafe {x0 : _} {x1 : _} : Still s (passSafe x0 x1 s) := by
  have h := Still.refl s
  unfold passSafe; try dsimp only
  repeat' first | with_reducible assumption | with_reducible exact Still.refl _ | with_reducible apply Still.ite | with_reducible apply Still.step still_modBerth | with_reducible apply Still.step still_onPlan | with_reducible apply Still.step still_requestStretch | with_reducible apply Still.step still_toRunUp | intro _ | split

theorem still_sealWrite {a : _} {b : _} {c : _} {d : _} {f : State → State} (hf : ∀ s, Still s (f s)) (h : Still s t) : Still s (sealWrite a b c d f t) := by
  unfold sealWrite; try dsimp only
  repeat' first | with_reducible assumption | with_reducible apply Still.ite | with_reducible apply Still.step (hf _) | with_reducible apply Still.step still_withResult | with_reducible apply still_rwpWrite | intro _ | with_reducible apply Still.upd

theorem keeps_sealWrite {a : _} {b : _} {c : _} {d : _} {f : State → State} (hf : ∀ s, Keeps s (f s)) (h : Keeps s t) : Keeps s (sealWrite a b c d f t) := by
  unfold sealWrite; try dsimp only
  repeat' first | with_reducible assumption | with_reducible apply Keeps.ite | with_reducible apply Keeps.step (hf _) | with_reducible apply Keeps.still still_withResult | with_reducible apply keeps_rwpWrite | intro _ | with_reducible apply Keeps.upd

theorem still_heardDecision {x0 : _} : Still s (heardDecision x0 s) := by
  have h := Still.refl s
  unfold heardDecision; try dsimp only
  repeat' first | with_reducible assumption | with_reducible exact Still.refl _ | with_reducible apply Still.ite | intro _ | split | with_reducible apply Still.upd

theorem still_identify {x0 : _} {x1 : _} {x2 : _} {x3 : _} : Still s (identify x0 x1 x2 x3 s) := by
  have h := Still.refl s
  unfold identify; try dsimp only
  repeat' first | with_reducible assumption | with_reducible exact Still.refl _ | with_reducible apply Still.ite | with_reducible apply Still.step still_attemptFails | with_reducible apply Still.step still_modLink | with_reducible apply Still.step still_setLinkState | with_reducible apply Still.step still_setN | intro _ | split

theorem still_seat {x0 : _} {x1 : _} {x2 : _} {x3 : _} : Still s (seat x0 x1 x2 x3 s) := by
  have h := Still.refl s
  unfold seat; try dsimp only
  repeat' first | with_reducible assumption | with_reducible exact Still.refl _ | with_reducible apply Still.ite | with_reducible apply Still.step still_heardDecision | with_reducible apply Still.step still_identify | with_reducible apply Still.step still_modLink | with_reducible apply Still.step still_sendFrame | intro _ | split | with_reducible apply Still.upd

theorem still_selfRefreshEntry {x0 : _} : Still s (selfRefreshEntry x0 s) := by
  have h := Still.refl s
  unfold selfRefreshEntry; try dsimp only
  repeat' first | with_reducible assumption | with_reducible exact Still.refl _ | with_reducible apply Still.ite | with_reducible apply Still.step still_selfRefresh | intro _ | split

theorem still_settleTime {x0 : _} : Still s (settleTime x0 s) := by
  have h := Still.refl s
  unfold settleTime; try dsimp only
  repeat' first | with_reducible assumption | with_reducible exact Still.refl _ | with_reducible apply Still.ite | with_reducible apply Still.step still_calTrigger | with_reducible apply Still.step still_modCal | intro _ | split

theorem still_spiAnswer {x0 : _} {x1 : _} : Still s (spiAnswer x0 x1 s) := by
  have h := Still.refl s
  unfold spiAnswer; try dsimp only
  repeat' first | with_reducible assumption | with_reducible exact Still.refl _ | with_reducible apply Still.ite | with_reducible apply Still.step still_spiDone | intro _ | split | with_reducible apply Still.upd

theorem still_spiRead {x0 : _} {x1 : _} {x2 : _} {x3 : _} : Still s (spiRead x0 x1 x2 x3 s) := by
  have h := Still.refl s
  unfold spiRead; try dsimp only
  repeat' first | with_reducible assumption | with_reducible exact Still.refl _ | with_reducible apply Still.ite | with_reducible apply Still.step still_readEntry | with_reducible apply Still.step still_spiAnswer | with_reducible apply Still.step still_spiDone | intro _ | split

theorem still_spiRequest {a : _} {f : State → State} (hf : ∀ s, Still s (f s)) (h : Still s t) : Still s (spiRequest a f t) := by
  unfold spiRequest; try dsimp only
  repeat' first | with_reducible assumption | with_reducible apply Still.ite | with_reducible apply Still.step (hf _) | with_reducible apply Still.step still_spiSeen | with_reducible apply Still.step still_spiDone | intro _ | with_reducible apply Still.upd

theorem keeps_spiRequest {a : _} {f : State → State} (hf : ∀ s, Keeps s (f s)) (h : Keeps s t) : Keeps s (spiRequest a f t) := by
  unfold spiRequest; try dsimp only
  repeat' first | with_reducible assumption | with_reducible apply Keeps.ite | with_reducible apply Keeps.step (hf _) | with_reducible apply Keeps.still still_spiSeen | with_reducible apply Keeps.still still_spiDone | intro _ | with_reducible apply Keeps.upd

theorem still_spot {x0 : _} {x1 : _} : Still s (spot x0 x1 s) := by
  have h := Still.refl s
  unfold spot; try dsimp only
  repeat' first | with_reducible assumption | with_reducible exact Still.refl _ | with_reducible apply Still.ite | with_reducible apply Still.step still_sendFrame | with_reducible apply Still.folded | intro _ | split | with_reducible apply Still.upd

theorem still_ssiBad {x0 : _} : Still s (ssiBad x0 s) := by
  have h := Still.refl s
  unfold ssiBad; try dsimp only
  repeat' first | with_reducible assumption | with_reducible exact Still.refl _ | with_reducible apply Still.ite | with_reducible apply Still.step still_addN | with_reducible apply Still.step still_afterCounter | with_reducible apply Still.step still_ctrFlag | with_reducible apply Still.step still_modCtr | intro _ | split

theorem still_ssiSpeed {x0 : _} {x1 : _} {x2 : _} : Still s (ssiSpeed x0 x1 x2 s) := by
  have h := Still.refl s
  unfold ssiSpeed; try dsimp only
  repeat' first | with_reducible assumption | with_reducible exact Still.refl _ | with_reducible apply Still.ite | with_reducible apply Still.step still_modCtr | with_reducible apply Still.step still_setI | with_reducible apply Still.step still_setN | intro _ | split

theorem still_ssiFrame {x0 : _} {x1 : _} {x2 : _} {x3 : _} {x4 : _} : Still s (ssiFrame x0 x1 x2 x3 x4 s) := by
  have h := Still.refl s
  unfold ssiFrame; try dsimp only
  repeat' first | with_reducible assumption | with_reducible exact Still.refl _ | with_reducible apply Still.ite | with_reducible apply Still.step still_afterCounter | with_reducible apply Still.step still_compareAll | with_reducible apply Still.step still_ctrFlag | with_reducible apply Still.step still_limitNote | with_reducible apply Still.step still_modCtr | with_reducible apply Still.step still_setI | with_reducible apply Still.step still_setReferenced | with_reducible apply Still.step still_ssiBad | with_reducible apply Still.step still_ssiSpeed | intro _ | split

theorem still_homed {x0 : _} : Still s (homed x0 s) := by
  have h := Still.refl s
  unfold homed; try dsimp only
  repeat' first | with_reducible assumption | with_reducible exact Still.refl _ | with_reducible apply Still.ite | with_reducible apply Still.step still_axisFreeze | with_reducible apply Still.step still_countSet | with_reducible apply Still.step still_modAxis | with_reducible apply Still.step still_setI | with_reducible apply Still.step still_startProfile | intro _ | split

theorem still_stall {x0 : _} : Still s (stall x0 s) := by
  have h := Still.refl s
  unfold stall; try dsimp only
  repeat' first | with_reducible assumption | with_reducible exact Still.refl _ | with_reducible apply Still.ite | with_reducible apply Still.step still_addN | with_reducible apply Still.step still_axisFlag | with_reducible apply Still.step still_axisFreeze | with_reducible apply Still.step still_homed | with_reducible apply Still.step still_noticeObj | with_reducible apply Still.step still_setN | intro _ | split

theorem still_standstillDelay {x0 : _} : Still s (standstillDelay x0 s) := by
  have h := Still.refl s
  unfold standstillDelay; try dsimp only
  repeat' first | with_reducible assumption | with_reducible exact Still.refl _ | with_reducible apply Still.ite | with_reducible apply Still.step still_axisFlag | with_reducible apply Still.step still_modAxis | intro _ | split

theorem still_storeComplete {x0 : _} : Still s (storeComplete x0 s) := by
  have h := Still.refl s
  unfold storeComplete; try dsimp only
  repeat' first | with_reducible assumption | with_reducible exact Still.refl _ | with_reducible apply Still.ite | with_reducible apply Still.step still_addN | with_reducible apply Still.step still_drawn | with_reducible apply Still.step still_setN | with_reducible apply Still.step still_setTime | intro _ | split | with_reducible apply Still.upd

theorem still_sync {x0 : _} : Still s (sync x0 s) := by
  have h := Still.refl s
  unfold sync; try dsimp only
  repeat' first | with_reducible assumption | with_reducible exact Still.refl _ | with_reducible apply Still.ite | with_reducible apply Still.step still_modPtp | with_reducible apply Still.step still_syncOffset | intro _ | split

theorem still_syncInterval : Still s (syncInterval s) := by
  have h := Still.refl s
  unfold syncInterval; try dsimp only
  repeat' first | with_reducible assumption | with_reducible exact Still.refl _ | with_reducible apply Still.ite | with_reducible apply Still.step still_emit | with_reducible apply Still.step still_nextSeq | intro _ | split

theorem still_startFrame {x0 : _} {x1 : _} : Still s (startFrame x0 x1 s) := by
  have h := Still.refl s
  unfold startFrame; try dsimp only
  repeat' first | with_reducible assumption | with_reducible exact Still.refl _ | with_reducible apply Still.ite | with_reducible apply Still.step still_corruptFrame | with_reducible apply Still.step still_droppedFrame | with_reducible apply Still.step still_watchOverload | with_reducible apply Still.folded | intro _ | split

theorem still_takeLayout {x0 : _} : Still s (takeLayout x0 s) := by
  have h := Still.refl s
  unfold takeLayout; try dsimp only
  repeat' first | with_reducible assumption | with_reducible exact Still.refl _ | with_reducible apply Still.ite | with_reducible apply Still.step still_setB | with_reducible apply Still.step still_setN | intro _ | split | with_reducible apply Still.upd

theorem still_trained {x0 : _} : Still s (trained x0 s) := by
  have h := Still.refl s
  unfold trained; try dsimp only
  repeat' first | with_reducible assumption | with_reducible exact Still.refl _ | with_reducible apply Still.ite | with_reducible apply Still.step still_noticeObj | with_reducible apply Still.step still_setB | with_reducible apply Still.step still_setN | with_reducible apply Still.step still_takeLayout | intro _ | split | with_reducible apply Still.upd

theorem still_trainingComplete {x0 : _} : Still s (trainingComplete x0 s) := by
  have h := Still.refl s
  unfold trainingComplete; try dsimp only
  repeat' first | with_reducible assumption | with_reducible exact Still.refl _ | with_reducible apply Still.ite | with_reducible apply Still.step still_setN | with_reducible apply Still.step still_setNotice | with_reducible apply Still.step still_trained | intro _ | split | with_reducible apply Still.upd

theorem still_updateReady {x0 : _} : Still s (updateReady x0 s) := by
  have h := Still.refl s
  unfold updateReady; try dsimp only
  repeat' first | with_reducible assumption | with_reducible exact Still.refl _ | with_reducible apply Still.ite | with_reducible apply Still.step still_drawn | with_reducible apply Still.step still_setN | intro _ | split | with_reducible apply Still.upd

theorem still_validationComplete {x0 : _} {x1 : _} : Still s (validationComplete x0 x1 s) := by
  have h := Still.refl s
  unfold validationComplete; try dsimp only
  repeat' first | with_reducible assumption | with_reducible exact Still.refl _ | with_reducible apply Still.ite | with_reducible apply Still.step still_modBerth | with_reducible apply Still.step still_setN | with_reducible apply Still.step still_setSlot | with_reducible apply Still.step still_setSlotLayer | intro _ | split

theorem still_waitComplete {x0 : _} : Still s (waitComplete x0 s) := by
  have h := Still.refl s
  unfold waitComplete; try dsimp only
  repeat' first | with_reducible assumption | with_reducible exact Still.refl _ | with_reducible apply Still.ite | with_reducible apply Still.step still_waitDone | intro _ | split

theorem still_wakeResume {x0 : _} : Still s (wakeResume x0 s) := by
  have h := Still.refl s
  unfold wakeResume; try dsimp only
  repeat' first | with_reducible assumption | with_reducible exact Still.refl _ | with_reducible apply Still.ite | with_reducible apply Still.step still_modBerth | with_reducible apply Still.step still_onPlan | with_reducible apply Still.step still_setN | intro _ | split

theorem still_refuseNotice {x0 : _} {x1 : _} {x2 : _} {x3 : _} {x4 : _} : Still s (refuseNotice x0 x1 x2 x3 x4 s) := by
  have h := Still.refl s
  unfold refuseNotice; try dsimp only
  repeat' first | with_reducible assumption | with_reducible exact Still.refl _ | with_reducible apply Still.ite | with_reducible apply Still.step still_noticeObj | with_reducible apply Still.step still_withResult | intro _ | split

end Sys2Proof.Machine
end

