-- ==== Sys2Proof/Laws/Writes.lean ====
section
/-!
SUPPORT. Sys2Proof/Laws/Writes.lean: each operation that may write DRAM or move harbour time, and keeps DRAM canonical and the queue as it is.
-/
namespace Sys2Proof.Machine

variable {s t : State}

theorem keeps_ringWrite {x0 x1 x2 : Nat} {x3 : List Byte} : Keeps s (ringWrite x0 x1 x2 x3 s) := by
  unfold ringWrite
  exact Keeps.foldl_fst (p := (s, x2)) fun v p => ⟨rfl, writeByte_wf, rfl, rfl⟩

theorem keeps_ringStage {x0 : _} {x1 : _} : Keeps s (ringStage x0 x1 s) := by
  have h := Keeps.refl s
  unfold ringStage; try dsimp only
  repeat' first | with_reducible assumption | with_reducible exact Keeps.refl _ | with_reducible apply Keeps.ite | with_reducible apply Keeps.still still_modStream | with_reducible apply Keeps.step keeps_ringWrite | intro _ | split

theorem keeps_stageBytes {x0 : _} {x1 : _} : Keeps s (stageBytes x0 x1 s) := by
  have h := Keeps.refl s
  unfold stageBytes; try dsimp only
  repeat' first | with_reducible assumption | with_reducible exact Keeps.refl _ | with_reducible apply Keeps.ite | with_reducible apply Keeps.still still_dropInput | with_reducible apply Keeps.still still_modLast | with_reducible apply Keeps.step keeps_ringStage | intro _ | split

theorem keeps_writeAnchors {x0 : _} {x1 : _} : Keeps s (writeAnchors x0 x1 s) := by
  induction x1 generalizing s with
  | nil =>
    have h := Keeps.refl s
    simp only [writeAnchors]
    repeat' first | with_reducible assumption | with_reducible exact Keeps.refl _ | with_reducible apply Keeps.ite | with_reducible apply Keeps.still still_modStream | with_reducible apply Keeps.step keeps_stageBytes | intro _ | split | with_reducible apply Keeps.upd
  | cons e l ih =>
    have h := Keeps.refl s
    simp only [writeAnchors]
    repeat' first | with_reducible apply Keeps.step (ih ..) | with_reducible assumption | with_reducible exact Keeps.refl _ | with_reducible apply Keeps.ite | with_reducible apply Keeps.still still_modStream | with_reducible apply Keeps.step keeps_stageBytes | intro _ | split | with_reducible apply Keeps.upd

theorem keeps_writeAnchor {x0 : _} : Keeps s (writeAnchor x0 s) := by
  have h := Keeps.refl s
  unfold writeAnchor; try dsimp only
  repeat' first | with_reducible assumption | with_reducible exact Keeps.refl _ | with_reducible apply Keeps.ite | with_reducible apply Keeps.step keeps_writeAnchors | intro _ | split

theorem keeps_gapEntry {x0 : _} : Keeps s (gapEntry x0 s) := by
  have h := Keeps.refl s
  unfold gapEntry; try dsimp only
  repeat' first | with_reducible assumption | with_reducible exact Keeps.refl _ | with_reducible apply Keeps.ite | with_reducible apply Keeps.still still_modStream | with_reducible apply Keeps.step keeps_stageBytes | with_reducible apply Keeps.step keeps_writeAnchor | intro _ | split

theorem keeps_harbourEntry {x0 : _} {x1 : _} {x2 : _} : Keeps s (harbourEntry x0 x1 x2 s) := by
  have h := Keeps.refl s
  unfold harbourEntry; try dsimp only
  repeat' first | with_reducible assumption | with_reducible exact Keeps.refl _ | with_reducible apply Keeps.ite | with_reducible apply Keeps.step keeps_gapEntry | with_reducible apply Keeps.step keeps_stageBytes | intro _ | split

theorem keeps_handoverRefused {x0 : _} {x1 : _} {x2 : _} {x3 : _} : Keeps s (handoverRefused x0 x1 x2 x3 s) := by
  have h := Keeps.refl s
  unfold handoverRefused; try dsimp only
  repeat' first | with_reducible assumption | with_reducible exact Keeps.refl _ | with_reducible apply Keeps.ite | with_reducible apply Keeps.still still_addN | with_reducible apply Keeps.step keeps_harbourEntry | with_reducible apply Keeps.still still_noticeAt | with_reducible apply Keeps.still still_setN | intro _ | split

theorem keeps_berthEntry {x0 : _} {x1 : _} {x2 : _} {x3 : _} : Keeps s (berthEntry x0 x1 x2 x3 s) := by
  have h := Keeps.refl s
  unfold berthEntry; try dsimp only
  repeat' first | with_reducible assumption | with_reducible exact Keeps.refl _ | with_reducible apply Keeps.ite | with_reducible apply Keeps.step keeps_gapEntry | with_reducible apply Keeps.step keeps_stageBytes | with_reducible apply Keeps.step keeps_writeAnchor | intro _ | split

theorem keeps_noteStop {x0 : _} {x1 : _} {x2 : _} {x3 : _} : Keeps s (noteStop x0 x1 x2 x3 s) := by
  have h := Keeps.refl s
  unfold noteStop; try dsimp only
  repeat' first | with_reducible assumption | with_reducible exact Keeps.refl _ | with_reducible apply Keeps.ite | with_reducible apply Keeps.step keeps_berthEntry | with_reducible apply Keeps.still still_noticeLogAt | intro _ | split

theorem keeps_closeWindow {x0 : _} : Keeps s (closeWindow x0 s) := by
  have h := Keeps.refl s
  unfold closeWindow; try dsimp only
  repeat' first | with_reducible assumption | with_reducible exact Keeps.refl _ | with_reducible apply Keeps.ite | with_reducible apply Keeps.still still_addN | with_reducible apply Keeps.step keeps_harbourEntry | with_reducible apply Keeps.still still_modBerth | intro _ | split

theorem keeps_endRun {x0 : _} {x1 : _} {x2 : _} : Keeps s (endRun x0 x1 x2 s) := by
  have h := Keeps.refl s
  unfold endRun; try dsimp only
  repeat' first | with_reducible assumption | with_reducible exact Keeps.refl _ | with_reducible apply Keeps.ite | with_reducible apply Keeps.step keeps_berthEntry | with_reducible apply Keeps.still still_modBerth | intro _ | split

theorem keeps_quiet {x0 : _} {x1 : _} : Keeps s (quiet x0 x1 s) := by
  have h := Keeps.refl s
  unfold quiet; try dsimp only
  repeat' first | with_reducible assumption | with_reducible exact Keeps.refl _ | with_reducible apply Keeps.ite | with_reducible apply Keeps.step keeps_closeWindow | with_reducible apply Keeps.step keeps_endRun | with_reducible apply Keeps.still still_modBerth | with_reducible apply Keeps.still still_setGate | with_reducible apply Keeps.still still_setN | intro _ | split

theorem keeps_stopped {x0 : _} {x1 : _} {x2 : _} {x3 : _} {x4 : _} : Keeps s (stopped x0 x1 x2 x3 x4 s) := by
  have h := Keeps.refl s
  unfold stopped; try dsimp only
  repeat' first | with_reducible assumption | with_reducible exact Keeps.refl _ | with_reducible apply Keeps.ite | with_reducible apply Keeps.still still_enterState | with_reducible apply Keeps.still still_modBerth | with_reducible apply Keeps.step keeps_noteStop | with_reducible apply Keeps.step keeps_quiet | with_reducible apply Keeps.still still_setN | intro _ | split | with_reducible apply Keeps.upd

theorem keeps_pauseExposing {x0 : _} {x1 : _} {x2 : _} {x3 : _} : Keeps s (pauseExposing x0 x1 x2 x3 s) := by
  have h := Keeps.refl s
  unfold pauseExposing; try dsimp only
  repeat' first | with_reducible assumption | with_reducible exact Keeps.refl _ | with_reducible apply Keeps.ite | with_reducible apply Keeps.still still_decelerate | with_reducible apply Keeps.still still_recordNow | with_reducible apply Keeps.still still_setResume | with_reducible apply Keeps.step keeps_stopped | intro _ | split

theorem keeps_pauseToSafe {x0 : _} {x1 : _} {x2 : _} : Keeps s (pauseToSafe x0 x1 x2 s) := by
  have h := Keeps.refl s
  unfold pauseToSafe; try dsimp only
  repeat' first | with_reducible assumption | with_reducible exact Keeps.refl _ | with_reducible apply Keeps.ite | with_reducible apply Keeps.still still_drawn | with_reducible apply Keeps.still still_modBerth | with_reducible apply Keeps.step keeps_pauseExposing | intro _ | split

theorem keeps_stopOne {x0 : _} {x1 : _} {x2 : _} {x3 : _} : Keeps s (stopOne x0 x1 x2 x3 s) := by
  have h := Keeps.refl s
  unfold stopOne; try dsimp only
  repeat' first | with_reducible assumption | with_reducible exact Keeps.refl _ | with_reducible apply Keeps.ite | with_reducible apply Keeps.still still_drawn | with_reducible apply Keeps.still still_modBerth | with_reducible apply Keeps.step keeps_pauseExposing | with_reducible apply Keeps.step keeps_pauseToSafe | with_reducible apply Keeps.still still_setN | with_reducible apply Keeps.still still_setResume | with_reducible apply Keeps.step keeps_stopped | intro _ | split

theorem keeps_takerAtC0 {x0 : _} {x1 : _} {x2 : _} : Keeps s (takerAtC0 x0 x1 x2 s) := by
  have h := Keeps.refl s
  unfold takerAtC0; try dsimp only
  repeat' first | with_reducible assumption | with_reducible exact Keeps.refl _ | with_reducible apply Keeps.ite | with_reducible apply Keeps.still still_decelerate | with_reducible apply Keeps.still still_setResume | with_reducible apply Keeps.step keeps_stopped | intro _ | split

theorem keeps_stopHalf {x0 : _} {x1 : _} {x2 : _} {x3 : _} : Keeps s (stopHalf x0 x1 x2 x3 s) := by
  have h := Keeps.refl s
  unfold stopHalf; try dsimp only
  repeat' first | with_reducible assumption | with_reducible exact Keeps.refl _ | with_reducible apply Keeps.ite | with_reducible apply Keeps.still still_giverToC0 | with_reducible apply Keeps.step keeps_stopOne | with_reducible apply Keeps.step keeps_takerAtC0 | intro _ | split

theorem keeps_stopPair {x0 : _} {x1 : _} {x2 : _} {x3 : _} {x4 : _} : Keeps s (stopPair x0 x1 x2 x3 x4 s) := by
  have h := Keeps.refl s
  unfold stopPair; try dsimp only
  repeat' first | with_reducible assumption | with_reducible exact Keeps.refl _ | with_reducible apply Keeps.ite | with_reducible apply Keeps.still still_sameTime | with_reducible apply Keeps.step keeps_stopHalf | with_reducible apply Keeps.step keeps_stopOne | intro _ | split

theorem keeps_stopBerth {x0 : _} {x1 : _} {x2 : _} {x3 : _} : Keeps s (stopBerth x0 x1 x2 x3 s) := by
  have h := Keeps.refl s
  unfold stopBerth; try dsimp only
  repeat' first | with_reducible assumption | with_reducible exact Keeps.refl _ | with_reducible apply Keeps.ite | with_reducible apply Keeps.step keeps_handoverRefused | with_reducible apply Keeps.step keeps_stopOne | with_reducible apply Keeps.step keeps_stopPair | intro _ | split

theorem keeps_faultStop {x0 : _} {x1 : _} {x2 : _} {x3 : _} : Keeps s (faultStop x0 x1 x2 x3 s) := by
  have h := Keeps.refl s
  unfold faultStop; try dsimp only
  repeat' first | with_reducible assumption | with_reducible exact Keeps.refl _ | with_reducible apply Keeps.ite | with_reducible apply Keeps.eachBerth | with_reducible apply Keeps.still still_coveredFault | with_reducible apply Keeps.step keeps_stopBerth | intro _ | split

theorem keeps_bolActs {x0 : _} {x1 : _} : Keeps s (bolActs x0 x1 s) := by
  have h := Keeps.refl s
  unfold bolActs; try dsimp only
  repeat' first | with_reducible assumption | with_reducible exact Keeps.refl _ | with_reducible apply Keeps.ite | with_reducible apply Keeps.each | with_reducible apply Keeps.eachBerth | with_reducible apply Keeps.still still_calStop | with_reducible apply Keeps.step keeps_faultStop | with_reducible apply Keeps.step keeps_stopBerth | with_reducible apply Keeps.still still_stopDecelerate | with_reducible apply Keeps.still still_updateLen | intro _ | split

theorem keeps_bolLatch {x0 : _} {x1 : _} : Keeps s (bolLatch x0 x1 s) := by
  have h := Keeps.refl s
  unfold bolLatch; try dsimp only
  repeat' first | with_reducible assumption | with_reducible exact Keeps.refl _ | with_reducible apply Keeps.ite | with_reducible apply Keeps.still still_addN | with_reducible apply Keeps.step keeps_bolActs | with_reducible apply Keeps.still still_drawn | with_reducible apply Keeps.still still_noticeLogAt | with_reducible apply Keeps.still still_setN | intro _ | split | with_reducible apply Keeps.upd

theorem keeps_activeLevel {x0 : _} : Keeps s (activeLevel x0 s) := by
  have h := Keeps.refl s
  unfold activeLevel; try dsimp only
  repeat' first | with_reducible assumption | with_reducible exact Keeps.refl _ | with_reducible apply Keeps.ite | with_reducible apply Keeps.each | with_reducible apply Keeps.still still_bolInputs | with_reducible apply Keeps.step keeps_bolLatch | with_reducible apply Keeps.still still_setN | with_reducible apply Keeps.still still_withResult | intro _ | split

theorem holds_advanceTime : Holds s (advanceTime s) := by
  have h := Holds.refl s
  unfold advanceTime; try dsimp only
  repeat' first | with_reducible assumption | with_reducible exact Holds.refl _ | with_reducible apply Holds.ite | with_reducible apply Holds.still still_addN | with_reducible apply Holds.still still_noticeObj | with_reducible apply Holds.still still_setN | intro _ | split | with_reducible apply Holds.upd

theorem keeps_dramFresh {x0 : _} {x1 : _} : Keeps s (dramFresh x0 x1 s) := by
  have h := Keeps.refl s
  unfold dramFresh; try dsimp only
  repeat' first | with_reducible assumption | with_reducible exact Keeps.refl _ | with_reducible apply Keeps.ite | with_reducible apply Keeps.still still_clearPoison | with_reducible apply Keeps.step keeps_dramWrite | intro _ | split

theorem keeps_loadData {x0 : _} {x1 : _} : Keeps s (loadData x0 x1 s) := by
  have h := Keeps.refl s
  unfold loadData; try dsimp only
  repeat' first | with_reducible assumption | with_reducible exact Keeps.refl _ | with_reducible apply Keeps.ite | with_reducible apply Keeps.step keeps_dramFresh | with_reducible apply Keeps.still still_emptySlot | with_reducible apply Keeps.still still_setN | with_reducible apply Keeps.still still_setSlot | with_reducible apply Keeps.still still_withResult | intro _ | split

theorem keeps_windowWrite {x0 : _} : Keeps s (windowWrite x0 s) := by
  have h := Keeps.refl s
  unfold windowWrite; try dsimp only
  repeat' first | with_reducible assumption | with_reducible exact Keeps.refl _ | with_reducible apply Keeps.ite | with_reducible apply Keeps.step keeps_dramFresh | with_reducible apply Keeps.still still_setN | with_reducible apply Keeps.still still_withResult | intro _ | split

theorem keeps_writeBlob {x0 : _} {x1 : _} {x2 : _} {x3 : _} {x4 : _} {x5 : _} : Keeps s (writeBlob x0 x1 x2 x3 x4 x5 s) := by
  have h := Keeps.refl s
  unfold writeBlob; try dsimp only
  repeat' first | with_reducible assumption | with_reducible exact Keeps.refl _ | with_reducible apply Keeps.ite | with_reducible apply Keeps.orElse | with_reducible apply Keeps.still still_addressWrite | with_reducible apply Keeps.still still_configWrite | with_reducible apply Keeps.still still_imageData | with_reducible apply Keeps.step keeps_loadData | with_reducible apply Keeps.still still_plain | with_reducible apply Keeps.step keeps_windowWrite | intro _ | split

theorem keeps_berthReset {x0 : _} {x1 : _} : Keeps s (berthReset x0 x1 s) := by
  have h := Keeps.refl s
  unfold berthReset; try dsimp only
  repeat' first | with_reducible assumption | with_reducible exact Keeps.refl _ | with_reducible apply Keeps.ite | with_reducible apply Keeps.still still_decelerate | with_reducible apply Keeps.still still_drawn | with_reducible apply Keeps.still still_enterState | with_reducible apply Keeps.step keeps_handoverRefused | with_reducible apply Keeps.still still_modBerth | with_reducible apply Keeps.step keeps_quiet | with_reducible apply Keeps.still still_resetObjects | with_reducible apply Keeps.still still_setN | with_reducible apply Keeps.still still_setResume | with_reducible apply Keeps.step keeps_stopHalf | intro _ | split

theorem keeps_resumeGranted {x0 : _} {x1 : _} {x2 : _} : Keeps s (resumeGranted x0 x1 x2 s) := by
  have h := Keeps.refl s
  unfold resumeGranted; try dsimp only
  repeat' first | with_reducible assumption | with_reducible exact Keeps.refl _ | with_reducible apply Keeps.ite | with_reducible apply Keeps.step keeps_berthEntry | with_reducible apply Keeps.still still_enterState | with_reducible apply Keeps.still still_modBerth | with_reducible apply Keeps.still still_setN | intro _ | split

theorem keeps_resumeAll {x0 : _} {x1 : _} : Keeps s (resumeAll x0 x1 s) := by
  have h := Keeps.refl s
  unfold resumeAll; try dsimp only
  repeat' first | with_reducible assumption | with_reducible exact Keeps.refl _ | with_reducible apply Keeps.ite | with_reducible apply Keeps.step keeps_resumeGranted | with_reducible apply Keeps.still still_resumePath | with_reducible apply Keeps.still still_resumeRefused | with_reducible apply Keeps.folded | intro _ | split

theorem keeps_resumeHalf {x0 : _} {x1 : _} {x2 : _} : Keeps s (resumeHalf x0 x1 x2 s) := by
  have h := Keeps.refl s
  unfold resumeHalf; try dsimp only
  repeat' first | with_reducible assumption | with_reducible exact Keeps.refl _ | with_reducible apply Keeps.ite | with_reducible apply Keeps.still still_drawn | with_reducible apply Keeps.step keeps_resumeAll | with_reducible apply Keeps.still still_withJoin | intro _ | split

theorem keeps_resume {x0 : _} {x1 : _} : Keeps s (resume x0 x1 s) := by
  have h := Keeps.refl s
  unfold resume; try dsimp only
  repeat' first | with_reducible assumption | with_reducible exact Keeps.refl _ | with_reducible apply Keeps.ite | with_reducible apply Keeps.still still_drawn | with_reducible apply Keeps.step keeps_resumeAll | with_reducible apply Keeps.step keeps_resumeHalf | with_reducible apply Keeps.still still_resumeRefused | with_reducible apply Keeps.still still_withJoin | intro _ | split

theorem keeps_writeBerth {x0 : _} {x1 : _} {x2 : _} : Keeps s (writeBerth x0 x1 x2 s) := by
  have h := Keeps.refl s
  unfold writeBerth; try dsimp only
  repeat' first | with_reducible assumption | with_reducible exact Keeps.refl _ | with_reducible apply Keeps.ite | with_reducible apply Keeps.orElse | with_reducible apply Keeps.step keeps_berthReset | with_reducible apply Keeps.still still_calStop | with_reducible apply Keeps.still still_clearSubs | with_reducible apply Keeps.still still_plainI | with_reducible apply Keeps.step keeps_resume | with_reducible apply Keeps.step keeps_stopBerth | intro _ | split

theorem keeps_noHostCopy {x0 : _} : Keeps s (noHostCopy x0 s) := by
  have h := Keeps.refl s
  unfold noHostCopy; try dsimp only
  repeat' first | with_reducible assumption | with_reducible exact Keeps.refl _ | with_reducible apply Keeps.ite | with_reducible apply Keeps.step keeps_stopBerth | with_reducible apply Keeps.still still_withResult | intro _ | split

theorem keeps_writeCommit {x0 : _} {x1 : _} {x2 : _} : Keeps s (writeCommit x0 x1 x2 s) := by
  have h := Keeps.refl s
  unfold writeCommit; try dsimp only
  repeat' first | with_reducible assumption | with_reducible exact Keeps.refl _ | with_reducible apply Keeps.ite | with_reducible apply Keeps.still still_closeLength | with_reducible apply Keeps.still still_commitAbort | with_reducible apply Keeps.still still_commitRequest | with_reducible apply Keeps.step keeps_noHostCopy | with_reducible apply Keeps.still still_plainI | with_reducible apply Keeps.still still_sealGroup | with_reducible apply Keeps.still still_slotClear | with_reducible apply Keeps.still still_unsealGroup | intro _ | split

theorem keeps_headLost {x0 : _} {x1 : _} : Keeps s (headLost x0 x1 s) := by
  have h := Keeps.refl s
  unfold headLost; try dsimp only
  repeat' first | with_reducible assumption | with_reducible exact Keeps.refl _ | with_reducible apply Keeps.ite | with_reducible apply Keeps.still still_calStop | with_reducible apply Keeps.still still_dropLink | with_reducible apply Keeps.step keeps_faultStop | intro _ | split

theorem keeps_quayLost {x0 : _} {x1 : _} : Keeps s (quayLost x0 x1 s) := by
  have h := Keeps.refl s
  unfold quayLost; try dsimp only
  repeat' first | with_reducible assumption | with_reducible exact Keeps.refl _ | with_reducible apply Keeps.ite | with_reducible apply Keeps.still still_drawn | with_reducible apply Keeps.still still_dropLink | with_reducible apply Keeps.step keeps_faultStop | with_reducible apply Keeps.still still_notice | with_reducible apply Keeps.folded | intro _ | split | with_reducible apply Keeps.upd

theorem keeps_linkLost {x0 : _} {x1 : _} : Keeps s (linkLost x0 x1 s) := by
  have h := Keeps.refl s
  unfold linkLost; try dsimp only
  repeat' first | with_reducible assumption | with_reducible exact Keeps.refl _ | with_reducible apply Keeps.ite | with_reducible apply Keeps.step keeps_headLost | with_reducible apply Keeps.step keeps_quayLost | intro _ | split

theorem keeps_linkDisable {x0 : _} : Keeps s (linkDisable x0 s) := by
  have h := Keeps.refl s
  unfold linkDisable; try dsimp only
  repeat' first | with_reducible assumption | with_reducible exact Keeps.refl _ | with_reducible apply Keeps.ite | with_reducible apply Keeps.step keeps_linkLost | with_reducible apply Keeps.still still_modLink | with_reducible apply Keeps.still still_setLinkState | with_reducible apply Keeps.still still_setN | intro _ | split

theorem keeps_writeLink {x0 : _} {x1 : _} {x2 : _} : Keeps s (writeLink x0 x1 x2 s) := by
  have h := Keeps.refl s
  unfold writeLink; try dsimp only
  repeat' first | with_reducible assumption | with_reducible exact Keeps.refl _ | with_reducible apply Keeps.ite | with_reducible apply Keeps.still still_clearSubs | with_reducible apply Keeps.step keeps_linkDisable | with_reducible apply Keeps.still still_linkEnable | with_reducible apply Keeps.still still_plainI | with_reducible apply Keeps.still still_retrain | intro _ | split

theorem keeps_bolWrite {x0 : _} {x1 : _} {x2 : _} {x3 : _} {x4 : _} : Keeps s (bolWrite x0 x1 x2 x3 x4 s) := by
  have h := Keeps.refl s
  unfold bolWrite; try dsimp only
  repeat' first | with_reducible assumption | with_reducible exact Keeps.refl _ | with_reducible apply Keeps.ite | with_reducible apply Keeps.step keeps_bolLatch | with_reducible apply Keeps.still still_setN | with_reducible apply Keeps.still still_withResult | intro _ | split

theorem keeps_closeTruncated {x0 : _} : Keeps s (closeTruncated x0 s) := by
  have h := Keeps.refl s
  unfold closeTruncated; try dsimp only
  repeat' first | with_reducible assumption | with_reducible exact Keeps.refl _ | with_reducible apply Keeps.ite | with_reducible apply Keeps.still still_modStream | with_reducible apply Keeps.step keeps_ringWrite | intro _ | split

theorem keeps_warmReset {x0 : _} : Keeps s (warmReset x0 s) := by
  have h := Keeps.refl s
  unfold warmReset; try dsimp only
  repeat' first | with_reducible assumption | with_reducible exact Keeps.refl _ | with_reducible apply Keeps.ite | with_reducible apply Keeps.each | with_reducible apply Keeps.still still_addN | with_reducible apply Keeps.still still_boot | with_reducible apply Keeps.still still_calStop | with_reducible apply Keeps.step keeps_closeTruncated | with_reducible apply Keeps.still still_emit | with_reducible apply Keeps.step keeps_faultStop | with_reducible apply Keeps.still still_keepObjects | with_reducible apply Keeps.still still_outputsOff | with_reducible apply Keeps.still still_resetNote | with_reducible apply Keeps.still still_restoreShown | with_reducible apply Keeps.still still_selfRefresh | with_reducible apply Keeps.still still_warmRecords | intro _ | split

theorem keeps_notMonitored : Keeps s (notMonitored s) := by
  have h := Keeps.refl s
  unfold notMonitored; try dsimp only
  repeat' first | with_reducible assumption | with_reducible exact Keeps.refl _ | with_reducible apply Keeps.ite | with_reducible apply Keeps.still still_dipLogged | with_reducible apply Keeps.still still_modMains | with_reducible apply Keeps.still still_setMains | with_reducible apply Keeps.still still_setN | with_reducible apply Keeps.step keeps_warmReset | intro _ | split

theorem keeps_phaseEnable {x0 : _} : Keeps s (phaseEnable x0 s) := by
  have h := Keeps.refl s
  unfold phaseEnable; try dsimp only
  repeat' first | with_reducible assumption | with_reducible exact Keeps.refl _ | with_reducible apply Keeps.ite | with_reducible apply Keeps.step keeps_notMonitored | with_reducible apply Keeps.still still_setI | intro _ | split

theorem keeps_tideEnable {x0 : _} : Keeps s (tideEnable x0 s) := by
  have h := Keeps.refl s
  unfold tideEnable; try dsimp only
  repeat' first | with_reducible assumption | with_reducible exact Keeps.refl _ | with_reducible apply Keeps.ite | with_reducible apply Keeps.still still_acquireFromRest | with_reducible apply Keeps.still still_modMains | with_reducible apply Keeps.step keeps_notMonitored | with_reducible apply Keeps.still still_setN | intro _ | split

theorem keeps_writeMains {x0 : _} {x1 : _} {x2 : _} : Keeps s (writeMains x0 x1 x2 s) := by
  have h := Keeps.refl s
  unfold writeMains; try dsimp only
  repeat' first | with_reducible assumption | with_reducible exact Keeps.refl _ | with_reducible apply Keeps.ite | with_reducible apply Keeps.orElse | with_reducible apply Keeps.still still_acknowledge | with_reducible apply Keeps.step keeps_activeLevel | with_reducible apply Keeps.step keeps_bolWrite | with_reducible apply Keeps.still still_clearSubs | with_reducible apply Keeps.still still_glitchWrite | with_reducible apply Keeps.step keeps_phaseEnable | with_reducible apply Keeps.still still_plainI | with_reducible apply Keeps.still still_referenceWrite | with_reducible apply Keeps.step keeps_tideEnable | intro _ | split

theorem keeps_codeFront {x0 : _} {x1 : _} : Keeps s (codeFront x0 x1 s) := by
  have h := Keeps.refl s
  unfold codeFront; try dsimp only
  repeat' first | with_reducible assumption | with_reducible exact Keeps.refl _ | with_reducible apply Keeps.ite | with_reducible apply Keeps.still still_addN | with_reducible apply Keeps.still still_modHead | with_reducible apply Keeps.step keeps_ringWrite | with_reducible apply Keeps.still still_setN | intro _ | split

theorem keeps_refill {x0 : _} : Keeps s (refill x0 s) := by
  have h := Keeps.refl s
  unfold refill; try dsimp only
  repeat' first | with_reducible assumption | with_reducible exact Keeps.refl _ | with_reducible apply Keeps.ite | with_reducible apply Keeps.still still_modHead | with_reducible apply Keeps.step keeps_ringStage | intro _ | split

theorem keeps_startSegment {x0 : _} : Keeps s (startSegment x0 s) := by
  have h := Keeps.refl s
  unfold startSegment; try dsimp only
  repeat' first | with_reducible assumption | with_reducible exact Keeps.refl _ | with_reducible apply Keeps.ite | with_reducible apply Keeps.still still_addN | with_reducible apply Keeps.still still_modHead | with_reducible apply Keeps.step keeps_ringWrite | with_reducible apply Keeps.still still_setN | intro _ | split

theorem keeps_finishSegment {x0 : _} : Keeps s (finishSegment x0 s) := by
  have h := Keeps.refl s
  unfold finishSegment; try dsimp only
  repeat' first | with_reducible assumption | with_reducible exact Keeps.refl _ | with_reducible apply Keeps.ite | with_reducible apply Keeps.still still_bufferTaken | with_reducible apply Keeps.still still_modStream | with_reducible apply Keeps.step keeps_refill | with_reducible apply Keeps.step keeps_ringWrite | with_reducible apply Keeps.still still_setN | with_reducible apply Keeps.step keeps_startSegment | intro _ | split

theorem keeps_codeNext {x0 : _} : Keeps s (codeNext x0 s) := by
  have h := Keeps.refl s
  unfold codeNext; try dsimp only
  repeat' first | with_reducible assumption | with_reducible exact Keeps.refl _ | with_reducible apply Keeps.ite | with_reducible apply Keeps.step keeps_codeFront | with_reducible apply Keeps.step keeps_finishSegment | with_reducible apply Keeps.step keeps_refill | with_reducible apply Keeps.still still_streamStop | intro _ | split

theorem keeps_drainSegs {x0 : _} {x1 : _} : Keeps s (drainSegs x0 x1 s) := by
  induction x1 generalizing s with
  | zero =>
    have h := Keeps.refl s
    simp only [drainSegs]
    repeat' first | with_reducible assumption | with_reducible exact Keeps.refl _ | with_reducible apply Keeps.ite | with_reducible apply Keeps.step keeps_codeNext | intro _ | split | with_reducible apply Keeps.upd
  | succ k ih =>
    have h := Keeps.refl s
    simp only [drainSegs]
    repeat' first | with_reducible apply Keeps.step (ih ..) | with_reducible assumption | with_reducible exact Keeps.refl _ | with_reducible apply Keeps.ite | with_reducible apply Keeps.step keeps_codeNext | intro _ | split | with_reducible apply Keeps.upd

theorem keeps_endSegment {x0 : _} : Keeps s (endSegment x0 s) := by
  have h := Keeps.refl s
  unfold endSegment; try dsimp only
  repeat' first | with_reducible assumption | with_reducible exact Keeps.refl _ | with_reducible apply Keeps.ite | with_reducible apply Keeps.step keeps_drainSegs | with_reducible apply Keeps.still still_modLast | intro _ | split

theorem keeps_beforeOff {x0 : _} : Keeps s (beforeOff x0 s) := by
  have h := Keeps.refl s
  unfold beforeOff; try dsimp only
  repeat' first | with_reducible assumption | with_reducible exact Keeps.refl _ | with_reducible apply Keeps.ite | with_reducible apply Keeps.each | with_reducible apply Keeps.step keeps_endSegment | with_reducible apply Keeps.still still_logFlush | intro _ | split | with_reducible apply Keeps.upd

theorem keeps_goDown {x0 : _} : Keeps s (goDown x0 s) := by
  have h := Keeps.refl s
  unfold goDown; try dsimp only
  repeat' first | with_reducible assumption | with_reducible exact Keeps.refl _ | with_reducible apply Keeps.ite | with_reducible apply Keeps.each | with_reducible apply Keeps.step keeps_beforeOff | with_reducible apply Keeps.still still_linksDown | with_reducible apply Keeps.still still_outputsOff | with_reducible apply Keeps.still still_rungNote | with_reducible apply Keeps.still still_selfRefresh | with_reducible apply Keeps.still still_setN | intro _ | split

theorem keeps_rungRequest {x0 : _} : Keeps s (rungRequest x0 s) := by
  have h := Keeps.refl s
  unfold rungRequest; try dsimp only
  repeat' first | with_reducible assumption | with_reducible exact Keeps.refl _ | with_reducible apply Keeps.ite | with_reducible apply Keeps.step keeps_goDown | with_reducible apply Keeps.still still_goUp | with_reducible apply Keeps.step keeps_notMonitored | with_reducible apply Keeps.still still_setN | with_reducible apply Keeps.still still_withResult | intro _ | split

theorem keeps_writePilot {x0 : _} {x1 : _} {x2 : _} : Keeps s (writePilot x0 x1 x2 s) := by
  have h := Keeps.refl s
  unfold writePilot; try dsimp only
  repeat' first | with_reducible assumption | with_reducible exact Keeps.refl _ | with_reducible apply Keeps.ite | with_reducible apply Keeps.still still_activateImage | with_reducible apply Keeps.still still_calAbort | with_reducible apply Keeps.still still_calApply | with_reducible apply Keeps.still still_calibrationDiscard | with_reducible apply Keeps.still still_calibrationStart | with_reducible apply Keeps.still still_plainI | with_reducible apply Keeps.still still_restoreDefaults | with_reducible apply Keeps.step keeps_rungRequest | with_reducible apply Keeps.still still_setBootRecord | with_reducible apply Keeps.still still_storeStart | with_reducible apply Keeps.still still_updateDiscard | with_reducible apply Keeps.still still_verifyAndWrite | with_reducible apply Keeps.step keeps_warmReset | with_reducible apply Keeps.still still_withResult | intro _ | split

theorem keeps_writeInt {x0 : _} {x1 : _} {x2 : _} {x3 : _} : Keeps s (writeInt x0 x1 x2 x3 s) := by
  have h := Keeps.refl s
  unfold writeInt; try dsimp only
  repeat' first | with_reducible assumption | with_reducible exact Keeps.refl _ | with_reducible apply Keeps.ite | with_reducible apply Keeps.still still_writeBeacon | with_reducible apply Keeps.step keeps_writeBerth | with_reducible apply Keeps.still still_writeChart | with_reducible apply Keeps.step keeps_writeCommit | with_reducible apply Keeps.still still_writeHarbour | with_reducible apply Keeps.step keeps_writeLink | with_reducible apply Keeps.still still_writeLogbook | with_reducible apply Keeps.still still_writeLoop | with_reducible apply Keeps.step keeps_writeMains | with_reducible apply Keeps.still still_writeMemory | with_reducible apply Keeps.still still_writeMotion | with_reducible apply Keeps.still still_writeNetwork | with_reducible apply Keeps.step keeps_writePilot | with_reducible apply Keeps.still still_writeRecord | with_reducible apply Keeps.still still_writeVision | intro _ | split

theorem keeps_writeProtected {x0 : _} {x1 : _} {x2 : _} {x3 : _} {x4 : _} {x5 : _} {x6 : _} : Keeps s (writeProtected x0 x1 x2 x3 x4 x5 x6 s) := by
  have h := Keeps.refl s
  unfold writeProtected; try dsimp only
  repeat' first | with_reducible assumption | with_reducible exact Keeps.refl _ | with_reducible apply Keeps.ite | with_reducible apply keeps_rwpWrite | with_reducible apply Keeps.still still_breakwaterTake | with_reducible apply Keeps.still still_keyDrop | with_reducible apply Keeps.still still_keyProgram | with_reducible apply Keeps.still still_keyTake | with_reducible apply Keeps.step keeps_writeCommit | intro _ | split

theorem keeps_applyWrite {x0 : _} {x1 : _} {x2 : _} {x3 : _} {x4 : _} {x5 : _} {x6 : _} {x7 : _} : Keeps s (applyWrite x0 x1 x2 x3 x4 x5 x6 x7 s) := by
  have h := Keeps.refl s
  unfold applyWrite; try dsimp only
  repeat' first | with_reducible assumption | with_reducible exact Keeps.refl _ | with_reducible apply Keeps.ite | with_reducible apply Keeps.still still_withResult | with_reducible apply Keeps.step keeps_writeBlob | with_reducible apply Keeps.step keeps_writeInt | with_reducible apply Keeps.step keeps_writeProtected | intro _ | split

theorem keeps_applyEntry {x0 : _} {x1 : _} : Keeps s (applyEntry x0 x1 s) := by
  have h := Keeps.refl s
  unfold applyEntry; try dsimp only
  repeat' first | with_reducible assumption | with_reducible exact Keeps.refl _ | with_reducible apply Keeps.ite | with_reducible apply Keeps.step keeps_applyWrite | with_reducible apply Keeps.still still_withResult | intro _ | split

theorem keeps_arriveRefused {x0 : _} : Keeps s (arriveRefused x0 s) := by
  have h := Keeps.refl s
  unfold arriveRefused; try dsimp only
  repeat' first | with_reducible assumption | with_reducible exact Keeps.refl _ | with_reducible apply Keeps.ite | with_reducible apply Keeps.still still_setN | with_reducible apply Keeps.step keeps_takerAtC0 | intro _ | split

theorem keeps_autoResume : Keeps s (autoResume s) := by
  have h := Keeps.refl s
  unfold autoResume; try dsimp only
  repeat' first | with_reducible assumption | with_reducible exact Keeps.refl _ | with_reducible apply Keeps.ite | with_reducible apply Keeps.each | with_reducible apply Keeps.step keeps_resume | with_reducible apply Keeps.still still_setN | intro _ | split

theorem keeps_jobBlock : Keeps s (jobBlock s) := by
  have h := Keeps.refl s
  unfold jobBlock; try dsimp only
  repeat' first | with_reducible assumption | with_reducible exact Keeps.refl _ | with_reducible apply Keeps.ite | with_reducible apply Keeps.still still_addN | with_reducible apply Keeps.step keeps_dramWrite | with_reducible apply Keeps.still still_setN | intro _ | split | with_reducible apply Keeps.upd

theorem keeps_blockCoded : Keeps s (blockCoded s) := by
  have h := Keeps.refl s
  unfold blockCoded; try dsimp only
  repeat' first | with_reducible assumption | with_reducible exact Keeps.refl _ | with_reducible apply Keeps.ite | with_reducible apply Keeps.step keeps_codeNext | with_reducible apply Keeps.step keeps_jobBlock | intro _ | split

theorem keeps_bolBoot {x0 : _} : Keeps s (bolBoot x0 s) := by
  have h := Keeps.refl s
  unfold bolBoot; try dsimp only
  repeat' first | with_reducible assumption | with_reducible exact Keeps.refl _ | with_reducible apply Keeps.ite | with_reducible apply Keeps.each | with_reducible apply Keeps.still still_bolInputs | with_reducible apply Keeps.step keeps_bolLatch | intro _ | split

theorem keeps_budgetWaitTimeout {x0 : _} : Keeps s (budgetWaitTimeout x0 s) := by
  have h := Keeps.refl s
  unfold budgetWaitTimeout; try dsimp only
  repeat' first | with_reducible assumption | with_reducible exact Keeps.refl _ | with_reducible apply Keeps.ite | with_reducible apply Keeps.still still_setResume | with_reducible apply Keeps.step keeps_stopped | intro _ | split

theorem keeps_budgetWithdrawal {x0 : _} : Keeps s (budgetWithdrawal x0 s) := by
  have h := Keeps.refl s
  unfold budgetWithdrawal; try dsimp only
  repeat' first | with_reducible assumption | with_reducible exact Keeps.refl _ | with_reducible apply Keeps.ite | with_reducible apply Keeps.still still_addN | with_reducible apply Keeps.step keeps_harbourEntry | with_reducible apply Keeps.still still_modBerth | with_reducible apply Keeps.still still_noticeObj | with_reducible apply Keeps.step keeps_stopBerth | intro _ | split | with_reducible apply Keeps.upd

theorem keeps_feedSegment {x0 : _} {x1 : _} : Keeps s (feedSegment x0 x1 s) := by
  have h := Keeps.refl s
  unfold feedSegment; try dsimp only
  repeat' first | with_reducible assumption | with_reducible exact Keeps.refl _ | with_reducible apply Keeps.ite | with_reducible apply Keeps.still still_modLast | with_reducible apply Keeps.step keeps_refill | intro _ | split

theorem keeps_openSegment {x0 : _} {x1 : _} {x2 : _} : Keeps s (openSegment x0 x1 x2 s) := by
  have h := Keeps.refl s
  unfold openSegment; try dsimp only
  repeat' first | with_reducible assumption | with_reducible exact Keeps.refl _ | with_reducible apply Keeps.ite | with_reducible apply Keeps.step keeps_endSegment | with_reducible apply Keeps.still still_modStream | with_reducible apply Keeps.step keeps_startSegment | intro _ | split

theorem keeps_bufferClosed : Keeps s (bufferClosed s) := by
  have h := Keeps.refl s
  unfold bufferClosed; try dsimp only
  repeat' first | with_reducible assumption | with_reducible exact Keeps.refl _ | with_reducible apply Keeps.ite | with_reducible apply Keeps.step keeps_feedSegment | with_reducible apply Keeps.still still_modBuffer | with_reducible apply Keeps.step keeps_openSegment | intro _ | split | with_reducible apply Keeps.upd

theorem keeps_bulkComplete {x0 : _} {x1 : _} {x2 : _} : Keeps s (bulkComplete x0 x1 x2 s) := by
  have h := Keeps.refl s
  unfold bulkComplete; try dsimp only
  repeat' first | with_reducible assumption | with_reducible exact Keeps.refl _ | with_reducible apply Keeps.ite | with_reducible apply Keeps.step keeps_applyWrite | with_reducible apply Keeps.still still_bulkEnd | with_reducible apply Keeps.still still_setN | with_reducible apply Keeps.still still_withResult | intro _ | split

theorem keeps_bulkBegin {x0 : _} {x1 : _} {x2 : _} : Keeps s (bulkBegin x0 x1 x2 s) := by
  have h := Keeps.refl s
  unfold bulkBegin; try dsimp only
  repeat' first | with_reducible assumption | with_reducible exact Keeps.refl _ | with_reducible apply Keeps.ite | with_reducible apply Keeps.step keeps_bulkComplete | with_reducible apply Keeps.still still_bulkSend | with_reducible apply Keeps.still still_modBulks | with_reducible apply Keeps.still still_reply | with_reducible apply Keeps.still still_setN | intro _ | split

theorem keeps_pieceTaken {x0 : _} {x1 : _} {x2 : _} {x3 : _} {x4 : _} : Keeps s (pieceTaken x0 x1 x2 x3 x4 s) := by
  have h := Keeps.refl s
  unfold pieceTaken; try dsimp only
  repeat' first | with_reducible assumption | with_reducible exact Keeps.refl _ | with_reducible apply Keeps.ite | with_reducible apply Keeps.still still_ackOut | with_reducible apply Keeps.step keeps_bulkComplete | with_reducible apply Keeps.still still_modBulks | intro _ | split

theorem keeps_placePiece {x0 : _} {x1 : _} {x2 : _} : Keeps s (placePiece x0 x1 x2 s) := by
  have h := Keeps.refl s
  unfold placePiece; try dsimp only
  repeat' first | with_reducible assumption | with_reducible exact Keeps.refl _ | with_reducible apply Keeps.ite | with_reducible apply Keeps.still still_clearPoison | with_reducible apply Keeps.step keeps_dramWrite | intro _ | split

theorem keeps_bulkData {x0 : _} {x1 : _} {x2 : _} {x3 : _} : Keeps s (bulkData x0 x1 x2 x3 s) := by
  have h := Keeps.refl s
  unfold bulkData; try dsimp only
  repeat' first | with_reducible assumption | with_reducible exact Keeps.refl _ | with_reducible apply Keeps.ite | with_reducible apply Keeps.still still_bulkEnd | with_reducible apply Keeps.step keeps_pieceTaken | with_reducible apply Keeps.step keeps_placePiece | intro _ | split | with_reducible exact Keeps.still (still_loadPiece ‹_›) h

theorem keeps_storeChart {x0 : _} {x1 : _} {x2 : _} : Keeps s (storeChart x0 x1 x2 s) := by
  have h := Keeps.refl s
  unfold storeChart; try dsimp only
  repeat' first | with_reducible assumption | with_reducible exact Keeps.refl _ | with_reducible apply Keeps.ite | with_reducible apply Keeps.step keeps_dramFresh | intro _ | split

theorem keeps_chartCommit {x0 : _} {x1 : _} : Keeps s (chartCommit x0 x1 s) := by
  have h := Keeps.refl s
  unfold chartCommit; try dsimp only
  repeat' first | with_reducible assumption | with_reducible exact Keeps.refl _ | with_reducible apply Keeps.ite | with_reducible apply Keeps.still still_modBuffer | with_reducible apply Keeps.still still_setN | with_reducible apply Keeps.step keeps_storeChart | intro _ | split | with_reducible apply Keeps.upd

theorem keeps_storeCell {x0 : _} {x1 : _} {x2 : _} : Keeps s (storeCell x0 x1 x2 s) := by
  have h := Keeps.refl s
  unfold storeCell; try dsimp only
  repeat' first | with_reducible assumption | with_reducible exact Keeps.refl _ | with_reducible apply Keeps.ite | with_reducible apply Keeps.step keeps_storeChart | intro _ | split

theorem keeps_chartInto {x0 : _} {x1 : _} : Keeps s (chartInto x0 x1 s) := by
  have h := Keeps.refl s
  unfold chartInto; try dsimp only
  repeat' first | with_reducible assumption | with_reducible exact Keeps.refl _ | with_reducible apply Keeps.ite | with_reducible apply Keeps.still still_addN | with_reducible apply Keeps.still still_modBuffer | with_reducible apply Keeps.step keeps_storeCell | intro _ | split

theorem keeps_untouch {x0 : _} {x1 : _} : Keeps s (untouch x0 x1 s) := by
  have h := Keeps.refl s
  unfold untouch; try dsimp only
  repeat' first | with_reducible assumption | with_reducible exact Keeps.refl _ | with_reducible apply Keeps.ite | with_reducible apply Keeps.still still_modBuffer | with_reducible apply Keeps.step keeps_storeChart | intro _ | split

theorem keeps_chartPoisoned {x0 : _} : Keeps s (chartPoisoned x0 s) := by
  have h := Keeps.refl s
  unfold chartPoisoned; try dsimp only
  repeat' first | with_reducible assumption | with_reducible exact Keeps.refl _ | with_reducible apply Keeps.ite | with_reducible apply Keeps.still still_notice | with_reducible apply Keeps.step keeps_untouch | intro _ | split | with_reducible apply Keeps.upd

theorem keeps_writeEntry {x0 : _} {x1 : _} : Keeps s ((writeEntry x0 x1 s).2) := by
  have h := Keeps.refl s
  unfold writeEntry; try dsimp only
  repeat' first | with_reducible assumption | with_reducible exact Keeps.refl _ | with_reducible apply Keeps.ite | with_reducible apply Keeps.step keeps_applyEntry | with_reducible apply Keeps.still still_withResult | intro _ | split

theorem keeps_runEntries {x0 : _} {x1 : _} {x2 : _} : Keeps s ((runEntries x0 x1 x2 s).2) := by
  induction x1 generalizing s x2 with
  | nil =>
    have h := Keeps.refl s
    simp only [runEntries]
    repeat' first | with_reducible assumption | with_reducible exact Keeps.refl _ | with_reducible apply Keeps.ite | with_reducible apply Keeps.still still_readEntry | with_reducible apply Keeps.step keeps_writeEntry | intro _ | split | with_reducible apply Keeps.upd
  | cons e l ih =>
    have h := Keeps.refl s
    simp only [runEntries]
    repeat' first | with_reducible apply Keeps.step (ih ..) | with_reducible assumption | with_reducible exact Keeps.refl _ | with_reducible apply Keeps.ite | with_reducible apply Keeps.still still_readEntry | with_reducible apply Keeps.step keeps_writeEntry | intro _ | split | with_reducible apply Keeps.upd

theorem keeps_settle {x0 : _} {x1 : _} : Keeps s (settle x0 x1 s) := by
  have h := Keeps.refl s
  unfold settle; try dsimp only
  repeat' first | with_reducible assumption | with_reducible exact Keeps.refl _ | with_reducible apply Keeps.ite | with_reducible apply Keeps.still still_modSess | with_reducible apply Keeps.still still_partsReply | with_reducible apply Keeps.step keeps_runEntries | intro _ | split

theorem keeps_request {x0 : _} {x1 : _} {x2 : _} : Keeps s (request x0 x1 x2 s) := by
  have h := Keeps.refl s
  unfold request; try dsimp only
  repeat' first | with_reducible assumption | with_reducible exact Keeps.refl _ | with_reducible apply Keeps.ite | with_reducible apply Keeps.step keeps_bulkBegin | with_reducible apply Keeps.still still_closeNow | with_reducible apply Keeps.still still_errorReply | with_reducible apply Keeps.still still_reply | with_reducible apply Keeps.step keeps_settle | with_reducible apply Keeps.still still_signProof | with_reducible apply Keeps.still still_subscribe | intro _ | split

theorem keeps_runRequest {x0 : _} {x1 : _} {x2 : _} : Keeps s (runRequest x0 x1 x2 s) := by
  have h := Keeps.refl s
  unfold runRequest; try dsimp only
  repeat' first | with_reducible assumption | with_reducible exact Keeps.refl _ | with_reducible apply Keeps.ite | with_reducible apply Keeps.still still_modSess | with_reducible apply Keeps.step keeps_request | intro _ | split

theorem keeps_runHeld {x0 : _} {x1 : _} : Keeps s (runHeld x0 x1 s) := by
  induction x1 generalizing s with
  | zero =>
    have h := Keeps.refl s
    simp only [runHeld]
    repeat' first | with_reducible assumption | with_reducible exact Keeps.refl _ | with_reducible apply Keeps.ite | with_reducible apply Keeps.still still_modSess | with_reducible apply Keeps.step keeps_runRequest | intro _ | split | with_reducible apply Keeps.upd
  | succ k ih =>
    have h := Keeps.refl s
    simp only [runHeld]
    repeat' first | with_reducible apply Keeps.step (ih ..) | with_reducible assumption | with_reducible exact Keeps.refl _ | with_reducible apply Keeps.ite | with_reducible apply Keeps.still still_modSess | with_reducible apply Keeps.step keeps_runRequest | intro _ | split | with_reducible apply Keeps.upd

theorem keeps_goOn {x0 : _} : Keeps s (goOn x0 s) := by
  have h := Keeps.refl s
  unfold goOn; try dsimp only
  repeat' first | with_reducible assumption | with_reducible exact Keeps.refl _ | with_reducible apply Keeps.ite | with_reducible apply Keeps.still still_modSess | with_reducible apply Keeps.step keeps_runHeld | with_reducible apply Keeps.step keeps_settle | intro _ | split

theorem keeps_damageRecord {x0 : _} {x1 : _} : Keeps s (damageRecord x0 x1 s) := by
  have h := Keeps.refl s
  unfold damageRecord; try dsimp only
  repeat' first | with_reducible assumption | with_reducible exact Keeps.refl _ | with_reducible apply Keeps.ite | with_reducible apply Keeps.step keeps_faultStop | with_reducible apply Keeps.still still_modBerth | with_reducible apply Keeps.still still_noticeObj | with_reducible apply Keeps.still still_setN | with_reducible apply Keeps.still still_setSlot | with_reducible apply Keeps.still still_stopForDamage | intro _ | split

theorem keeps_manifestDamage {x0 : _} : Keeps s (manifestDamage x0 s) := by
  have h := Keeps.refl s
  unfold manifestDamage; try dsimp only
  repeat' first | with_reducible assumption | with_reducible exact Keeps.refl _ | with_reducible apply Keeps.ite | with_reducible apply Keeps.step keeps_damageRecord | intro _ | split

theorem keeps_poisonedFor {x0 : _} {x1 : _} : Keeps s (poisonedFor x0 x1 s) := by
  have h := Keeps.refl s
  unfold poisonedFor; try dsimp only
  repeat' first | with_reducible assumption | with_reducible exact Keeps.refl _ | with_reducible apply Keeps.ite | with_reducible apply Keeps.each | with_reducible apply Keeps.still still_bulkPoisoned | with_reducible apply Keeps.step keeps_chartPoisoned | with_reducible apply Keeps.still still_framePoisoned | with_reducible apply Keeps.step keeps_goOn | with_reducible apply Keeps.step keeps_manifestDamage | with_reducible apply Keeps.still still_quayPoisoned | with_reducible apply Keeps.still still_recordPoisoned | with_reducible apply Keeps.step keeps_warmReset | intro _ | split

theorem keeps_clientRead {x0 : _} : Keeps s (clientRead x0 s) := by
  have h := Keeps.refl s
  unfold clientRead; try dsimp only
  repeat' first | with_reducible assumption | with_reducible exact Keeps.refl _ | with_reducible apply Keeps.ite | with_reducible apply Keeps.still still_eccCheck | with_reducible apply Keeps.still still_emit | with_reducible apply Keeps.step keeps_poisonedFor | with_reducible apply Keeps.still still_readBurst | with_reducible apply Keeps.folded | intro _ | split

theorem keeps_clientWrite {x0 : _} : Keeps s (clientWrite x0 s) := by
  have h := Keeps.refl s
  unfold clientWrite; try dsimp only
  repeat' first | with_reducible assumption | with_reducible exact Keeps.refl _ | with_reducible apply Keeps.ite | with_reducible apply Keeps.still still_clearPoison | with_reducible apply Keeps.step keeps_dramWrite | with_reducible apply Keeps.still still_eccCheck | with_reducible apply Keeps.still still_queueWrite | with_reducible apply Keeps.still still_readBurst | with_reducible apply Keeps.folded | intro _ | split

theorem keeps_cold {x : Tab Val} : Keeps s (cold x s) :=
  ⟨rfl, fun _ => ⟨rfl, fun _ h => nomatch h⟩, rfl, rfl⟩

theorem keeps_commandMissed {x0 : _} {x1 : _} : Keeps s (commandMissed x0 x1 s) := by
  have h := Keeps.refl s
  unfold commandMissed; try dsimp only
  repeat' first | with_reducible assumption | with_reducible exact Keeps.refl _ | with_reducible apply Keeps.ite | with_reducible apply Keeps.still still_addN | with_reducible apply Keeps.step keeps_headLost | with_reducible apply Keeps.still still_modLink | intro _ | split

theorem keeps_fireCommit {x0 : _} : Keeps s (fireCommit x0 s) := by
  have h := Keeps.refl s
  unfold fireCommit; try dsimp only
  repeat' first | with_reducible assumption | with_reducible exact Keeps.refl _ | with_reducible apply Keeps.ite | with_reducible apply Keeps.each | with_reducible apply Keeps.still still_armBerth | with_reducible apply Keeps.step keeps_chartCommit | with_reducible apply Keeps.still still_clearAnnexes | with_reducible apply Keeps.step keeps_harbourEntry | with_reducible apply Keeps.step keeps_openSegment | with_reducible apply Keeps.still still_reportLoad | with_reducible apply Keeps.still still_reportShadowLoad | with_reducible apply Keeps.still still_setN | with_reducible apply Keeps.still still_setTime | with_reducible apply Keeps.still still_storeBreakwater | with_reducible apply Keeps.still still_takeGroup | with_reducible apply Keeps.still still_wakeBegin | with_reducible apply Keeps.folded | intro _ | split | with_reducible apply Keeps.upd

theorem keeps_commitHere {x0 : _} : Keeps s (commitHere x0 s) := by
  have h := Keeps.refl s
  unfold commitHere; try dsimp only
  repeat' first | with_reducible assumption | with_reducible exact Keeps.refl _ | with_reducible apply Keeps.ite | with_reducible apply Keeps.still still_endCommit | with_reducible apply Keeps.step keeps_fireCommit | with_reducible apply Keeps.still still_noteMissing | with_reducible apply Keeps.still still_setMissing | with_reducible apply Keeps.still still_startTogether | intro _ | split

theorem keeps_deliverFeature {x0 : _} {x1 : _} : Keeps s (deliverFeature x0 x1 s) := by
  have h := Keeps.refl s
  unfold deliverFeature; try dsimp only
  repeat' first | with_reducible assumption | with_reducible exact Keeps.refl _ | with_reducible apply Keeps.ite | with_reducible apply Keeps.step keeps_berthEntry | with_reducible apply Keeps.still still_modLoop | with_reducible apply Keeps.still still_queueFeature | with_reducible apply Keeps.still still_setB | intro _ | split

theorem keeps_imageFrame {x0 : _} {x1 : _} {x2 : _} {x3 : _} {x4 : _} {x5 : _} : Keeps s (imageFrame x0 x1 x2 x3 x4 x5 s) := by
  have h := Keeps.refl s
  unfold imageFrame; try dsimp only
  repeat' first | with_reducible assumption | with_reducible exact Keeps.refl _ | with_reducible apply Keeps.ite | with_reducible apply Keeps.step keeps_berthEntry | with_reducible apply Keeps.still still_dropInput | with_reducible apply Keeps.step keeps_gapEntry | with_reducible apply Keeps.step keeps_harbourEntry | with_reducible apply Keeps.still still_modLast | with_reducible apply Keeps.step keeps_ringStage | intro _ | split

theorem keeps_completeFrame {x0 : _} {x1 : _} : Keeps s (completeFrame x0 x1 s) := by
  have h := Keeps.refl s
  unfold completeFrame; try dsimp only
  repeat' first | with_reducible assumption | with_reducible exact Keeps.refl _ | with_reducible apply Keeps.ite | with_reducible apply Keeps.still still_addN | with_reducible apply Keeps.still still_calFrame | with_reducible apply Keeps.still still_countBacklog | with_reducible apply Keeps.step keeps_deliverFeature | with_reducible apply Keeps.still still_drawn | with_reducible apply Keeps.still still_dropFrame | with_reducible apply Keeps.step keeps_imageFrame | with_reducible apply Keeps.still still_setB | intro _ | split

theorem keeps_fillPart {x0 : _} {x1 : _} {x2 : _} {x3 : _} {x4 : _} : Keeps s (fillPart x0 x1 x2 x3 x4 s) := by
  have h := Keeps.refl s
  unfold fillPart; try dsimp only
  repeat' first | with_reducible assumption | with_reducible exact Keeps.refl _ | with_reducible apply Keeps.ite | with_reducible apply Keeps.step keeps_goOn | with_reducible apply Keeps.still still_modSess | intro _ | split

theorem keeps_configDone {x0 : _} {x1 : _} {x2 : _} {x3 : _} : Keeps s (configDone x0 x1 x2 x3 s) := by
  have h := Keeps.refl s
  unfold configDone; try dsimp only
  repeat' first | with_reducible assumption | with_reducible exact Keeps.refl _ | with_reducible apply Keeps.ite | with_reducible apply Keeps.still still_emit | with_reducible apply Keeps.step keeps_fillPart | with_reducible apply Keeps.still still_modLink | with_reducible apply Keeps.still still_spiDone | with_reducible apply Keeps.still still_withResult | intro _ | split

theorem keeps_configReply {x0 : _} {x1 : _} : Keeps s (configReply x0 x1 s) := by
  have h := Keeps.refl s
  unfold configReply; try dsimp only
  repeat' first | with_reducible assumption | with_reducible exact Keeps.refl _ | with_reducible apply Keeps.ite | with_reducible apply Keeps.step keeps_configDone | intro _ | split

theorem keeps_configTimeout {x0 : _} : Keeps s (configTimeout x0 s) := by
  have h := Keeps.refl s
  unfold configTimeout; try dsimp only
  repeat' first | with_reducible assumption | with_reducible exact Keeps.refl _ | with_reducible apply Keeps.ite | with_reducible apply Keeps.step keeps_configDone | with_reducible apply Keeps.still still_configFrame | with_reducible apply Keeps.still still_modLink | with_reducible apply Keeps.still still_notice | intro _ | split

theorem keeps_frameEndPacket {x0 : _} : Keeps s (frameEndPacket x0 s) := by
  have h := Keeps.refl s
  unfold frameEndPacket; try dsimp only
  repeat' first | with_reducible assumption | with_reducible exact Keeps.refl _ | with_reducible apply Keeps.ite | with_reducible apply Keeps.step keeps_completeFrame | with_reducible apply Keeps.still still_corruptFrame | with_reducible apply Keeps.still still_modCtx | with_reducible apply Keeps.still still_modFrame | with_reducible apply Keeps.still still_watchOverload | intro _ | split

theorem keeps_storeRow {x0 : _} {x1 : _} {x2 : _} {x3 : _} {x4 : _} : Keeps s (storeRow x0 x1 x2 x3 x4 s) := by
  have h := Keeps.refl s
  unfold storeRow; try dsimp only
  repeat' first | with_reducible assumption | with_reducible exact Keeps.refl _ | with_reducible apply Keeps.ite | with_reducible apply Keeps.step keeps_dramFresh | intro _ | split

theorem keeps_linePacket {x0 : _} {x1 : _} {x2 : _} : Keeps s (linePacket x0 x1 x2 s) := by
  have h := Keeps.refl s
  unfold linePacket; try dsimp only
  repeat' first | with_reducible assumption | with_reducible exact Keeps.refl _ | with_reducible apply Keeps.ite | with_reducible apply Keeps.still still_modFrame | with_reducible apply Keeps.still still_recount | with_reducible apply Keeps.step keeps_storeRow | intro _ | split

theorem keeps_csiPacket {x0 : _} {x1 : _} : Keeps s (csiPacket x0 x1 s) := by
  have h := Keeps.refl s
  unfold csiPacket; try dsimp only
  repeat' first | with_reducible assumption | with_reducible exact Keeps.refl _ | with_reducible apply Keeps.ite | with_reducible apply Keeps.still still_addN | with_reducible apply Keeps.step keeps_frameEndPacket | with_reducible apply Keeps.still still_frameStartPacket | with_reducible apply Keeps.step keeps_linePacket | with_reducible apply Keeps.still still_modFrame | intro _ | split

theorem keeps_enterWarning {x0 : _} : Keeps s (enterWarning x0 s) := by
  have h := Keeps.refl s
  unfold enterWarning; try dsimp only
  repeat' first | with_reducible assumption | with_reducible exact Keeps.refl _ | with_reducible apply Keeps.ite | with_reducible apply Keeps.each | with_reducible apply Keeps.still still_addN | with_reducible apply Keeps.still still_calStop | with_reducible apply Keeps.step keeps_faultStop | with_reducible apply Keeps.still still_mainsNote | with_reducible apply Keeps.still still_modMains | with_reducible apply Keeps.still still_setMains | with_reducible apply Keeps.still still_setN | intro _ | split

theorem keeps_dwell {x0 : _} {x1 : _} : Keeps s (dwell x0 x1 s) := by
  have h := Keeps.refl s
  unfold dwell; try dsimp only
  repeat' first | with_reducible assumption | with_reducible exact Keeps.refl _ | with_reducible apply Keeps.ite | with_reducible apply Keeps.step keeps_enterWarning | with_reducible apply Keeps.still still_modMains | intro _ | split

theorem keeps_loopTrip {x0 : _} {x1 : _} : Keeps s (loopTrip x0 x1 s) := by
  have h := Keeps.refl s
  unfold loopTrip; try dsimp only
  repeat' first | with_reducible assumption | with_reducible exact Keeps.refl _ | with_reducible apply Keeps.ite | with_reducible apply Keeps.still still_countLoop | with_reducible apply Keeps.step keeps_faultStop | with_reducible apply Keeps.still still_loopFlag | with_reducible apply Keeps.still still_noticeObj | with_reducible apply Keeps.still still_setN | intro _ | split

theorem keeps_loopSample {x0 : _} {x1 : _} {x2 : _} : Keeps s (loopSample x0 x1 x2 s) := by
  have h := Keeps.refl s
  unfold loopSample; try dsimp only
  repeat' first | with_reducible assumption | with_reducible exact Keeps.refl _ | with_reducible apply Keeps.ite | with_reducible apply Keeps.still still_addN | with_reducible apply Keeps.still still_loopCompute | with_reducible apply Keeps.still still_loopFlag | with_reducible apply Keeps.still still_loopLaw | with_reducible apply Keeps.step keeps_loopTrip | with_reducible apply Keeps.still still_modLoop | with_reducible apply Keeps.still still_modelStep | with_reducible apply Keeps.still still_setI | intro _ | split

theorem keeps_loopDue {x0 : _} {x1 : _} {x2 : _} : Keeps s (loopDue x0 x1 x2 s) := by
  have h := Keeps.refl s
  unfold loopDue; try dsimp only
  repeat' first | with_reducible assumption | with_reducible exact Keeps.refl _ | with_reducible apply Keeps.ite | with_reducible apply Keeps.step keeps_loopSample | with_reducible apply Keeps.still still_modBerth | intro _ | split

theorem keeps_loopSamples : Keeps s (loopSamples s) := by
  have h := Keeps.refl s
  unfold loopSamples; try dsimp only
  repeat' first | with_reducible assumption | with_reducible exact Keeps.refl _ | with_reducible apply Keeps.ite | with_reducible apply Keeps.each | with_reducible apply Keeps.step keeps_loopDue | with_reducible apply Keeps.still still_photoStep | intro _ | split

theorem keeps_sampleSet {x0 : _} {x1 : _} : Keeps s (sampleSet x0 x1 s) := by
  have h := Keeps.refl s
  unfold sampleSet; try dsimp only
  repeat' first | with_reducible assumption | with_reducible exact Keeps.refl _ | with_reducible apply Keeps.ite | with_reducible apply Keeps.still still_dropInput | with_reducible apply Keeps.still still_modLast | with_reducible apply Keeps.still still_modStream | with_reducible apply Keeps.step keeps_ringStage | with_reducible apply Keeps.step keeps_writeAnchor | intro _ | split

theorem keeps_takeSampleSet {x0 : _} : Keeps s (takeSampleSet x0 s) := by
  have h := Keeps.refl s
  unfold takeSampleSet; try dsimp only
  repeat' first | with_reducible assumption | with_reducible exact Keeps.refl _ | with_reducible apply Keeps.ite | with_reducible apply Keeps.step keeps_sampleSet | intro _ | split

theorem keeps_endBerths : Keeps s (endBerths s) := by
  have h := Keeps.refl s
  unfold endBerths; try dsimp only
  repeat' first | with_reducible assumption | with_reducible exact Keeps.refl _ | with_reducible apply Keeps.ite | with_reducible apply Keeps.each | with_reducible apply Keeps.still still_latchFrames | with_reducible apply Keeps.step keeps_loopSamples | with_reducible apply Keeps.still still_modBerth | with_reducible apply Keeps.still still_setN | with_reducible apply Keeps.step keeps_takeSampleSet | intro _ | split

theorem keeps_errorChars {x0 : _} {x1 : _} : Keeps s (errorChars x0 x1 s) := by
  have h := Keeps.refl s
  unfold errorChars; try dsimp only
  repeat' first | with_reducible assumption | with_reducible exact Keeps.refl _ | with_reducible apply Keeps.ite | with_reducible apply Keeps.still still_addN | with_reducible apply Keeps.step keeps_linkLost | intro _ | split

theorem keeps_endErrors {x0 : _} : Keeps s (endErrors x0 s) := by
  have h := Keeps.refl s
  unfold endErrors; try dsimp only
  repeat' first | with_reducible assumption | with_reducible exact Keeps.refl _ | with_reducible apply Keeps.ite | with_reducible apply Keeps.each | with_reducible apply Keeps.still still_addN | with_reducible apply Keeps.step keeps_errorChars | intro _ | split

theorem keeps_entryAction {x0 : _} {x1 : _} {x3 : _} : Keeps s (entryAction x0 x1 s x3) := by
  have h := Keeps.refl s
  unfold entryAction; try dsimp only
  repeat' first | with_reducible assumption | with_reducible exact Keeps.refl _ | with_reducible apply Keeps.ite | with_reducible apply Keeps.step keeps_berthEntry | with_reducible apply Keeps.still still_manifestBank | with_reducible apply Keeps.still still_manifestMode | intro _ | split

theorem keeps_nextRun {x0 : _} {x1 : _} {x2 : _} : Keeps s (nextRun x0 x1 x2 s) := by
  have h := Keeps.refl s
  unfold nextRun; try dsimp only
  repeat' first | with_reducible assumption | with_reducible exact Keeps.refl _ | with_reducible apply Keeps.ite | with_reducible apply Keeps.step keeps_endRun | with_reducible apply Keeps.still still_modBerth | intro _ | split

theorem keeps_fireGate {x0 : _} {x1 : _} {x2 : _} : Keeps s (fireGate x0 x1 x2 s) := by
  have h := Keeps.refl s
  unfold fireGate; try dsimp only
  repeat' first | with_reducible assumption | with_reducible exact Keeps.refl _ | with_reducible apply Keeps.ite | with_reducible apply Keeps.still still_addN | with_reducible apply Keeps.still still_caught | with_reducible apply Keeps.still still_modBerth | with_reducible apply Keeps.step keeps_nextRun | with_reducible apply Keeps.still still_updateGate | intro _ | split

theorem keeps_stopAtC0 {x0 : _} {x1 : _} {x2 : _} : Keeps s (stopAtC0 x0 x1 x2 s) := by
  have h := Keeps.refl s
  unfold stopAtC0; try dsimp only
  repeat' first | with_reducible assumption | with_reducible exact Keeps.refl _ | with_reducible apply Keeps.ite | with_reducible apply Keeps.still still_decelerate | with_reducible apply Keeps.still still_setResume | with_reducible apply Keeps.still still_setTime | with_reducible apply Keeps.step keeps_stopped | intro _ | split

theorem keeps_fireGroup {x0 : _} {x1 : _} {x2 : _} : Keeps s (fireGroup x0 x1 x2 s) := by
  have h := Keeps.refl s
  unfold fireGroup; try dsimp only
  repeat' first | with_reducible assumption | with_reducible exact Keeps.refl _ | with_reducible apply Keeps.ite | with_reducible apply Keeps.still still_addN | with_reducible apply Keeps.step keeps_entryAction | with_reducible apply Keeps.step keeps_fireGate | with_reducible apply Keeps.still still_modBerth | with_reducible apply Keeps.step keeps_stopAtC0 | with_reducible apply Keeps.still still_updateLen | with_reducible apply Keeps.still still_wakeHold | with_reducible apply Keeps.folded | intro _ | split

theorem keeps_eventGroup {x0 : _} : Keeps s (eventGroup x0 s) := by
  have h := Keeps.refl s
  unfold eventGroup; try dsimp only
  repeat' first | with_reducible assumption | with_reducible exact Keeps.refl _ | with_reducible apply Keeps.ite | with_reducible apply Keeps.still still_finaliseTo | with_reducible apply Keeps.step keeps_fireGroup | with_reducible apply Keeps.still still_modBerth | intro _ | split

theorem keeps_firePast {x0 : _} {x1 : _} {x2 : _} : Keeps s (firePast x0 x1 x2 s) := by
  induction x2 generalizing s with
  | zero =>
    have h := Keeps.refl s
    simp only [firePast]
    repeat' first | with_reducible assumption | with_reducible exact Keeps.refl _ | with_reducible apply Keeps.ite | with_reducible apply Keeps.step keeps_eventGroup | intro _ | split | with_reducible apply Keeps.upd
  | succ k ih =>
    have h := Keeps.refl s
    simp only [firePast]
    repeat' first | with_reducible apply Keeps.step (ih ..) | with_reducible assumption | with_reducible exact Keeps.refl _ | with_reducible apply Keeps.ite | with_reducible apply Keeps.step keeps_eventGroup | intro _ | split | with_reducible apply Keeps.upd

theorem keeps_fireUpTo {x0 : _} {x1 : _} : Keeps s (fireUpTo x0 x1 s) := by
  have h := Keeps.refl s
  unfold fireUpTo; try dsimp only
  repeat' first | with_reducible assumption | with_reducible exact Keeps.refl _ | with_reducible apply Keeps.ite | with_reducible apply Keeps.still still_finaliseTo | with_reducible apply Keeps.step keeps_firePast | intro _ | split

theorem keeps_endReached {x0 : _} : Keeps s (endReached x0 s) := by
  have h := Keeps.refl s
  unfold endReached; try dsimp only
  repeat' first | with_reducible assumption | with_reducible exact Keeps.refl _ | with_reducible apply Keeps.ite | with_reducible apply Keeps.step keeps_closeWindow | with_reducible apply Keeps.still still_comeToRest | with_reducible apply Keeps.step keeps_endRun | with_reducible apply Keeps.still still_enterState | with_reducible apply Keeps.step keeps_fireUpTo | with_reducible apply Keeps.still still_modBerth | with_reducible apply Keeps.step keeps_quiet | with_reducible apply Keeps.still still_setGate | with_reducible apply Keeps.still still_setN | with_reducible apply Keeps.still still_startAnnex | intro _ | split

theorem keeps_enterReset {x0 : _} : Keeps s (enterReset x0 s) := by
  have h := Keeps.refl s
  unfold enterReset; try dsimp only
  repeat' first | with_reducible assumption | with_reducible exact Keeps.refl _ | with_reducible apply Keeps.ite | with_reducible apply Keeps.still still_addN | with_reducible apply Keeps.step keeps_faultStop | with_reducible apply Keeps.still still_mainsNote | with_reducible apply Keeps.still still_modMains | with_reducible apply Keeps.still still_setMains | with_reducible apply Keeps.still still_setN | intro _ | split

theorem keeps_judgeLevel {x0 : _} {x1 : _} : Keeps s (judgeLevel x0 x1 s) := by
  have h := Keeps.refl s
  unfold judgeLevel; try dsimp only
  repeat' first | with_reducible assumption | with_reducible exact Keeps.refl _ | with_reducible apply Keeps.ite | with_reducible apply Keeps.still still_dipLogged | with_reducible apply Keeps.step keeps_dwell | with_reducible apply Keeps.still still_enterRecovering | with_reducible apply Keeps.step keeps_enterReset | with_reducible apply Keeps.step keeps_enterWarning | with_reducible apply Keeps.still still_setMains | with_reducible apply Keeps.still still_setN | intro _ | split

theorem keeps_evaluationPoint {x0 : _} : Keeps s (evaluationPoint x0 s) := by
  have h := Keeps.refl s
  unfold evaluationPoint; try dsimp only
  repeat' first | with_reducible assumption | with_reducible exact Keeps.refl _ | with_reducible apply Keeps.ite | with_reducible apply Keeps.each | with_reducible apply Keeps.step keeps_judgeLevel | with_reducible apply Keeps.still still_phaseFigures | with_reducible apply Keeps.still still_setN | intro _ | split

theorem keeps_receive {x0 : _} {x1 : _} {x2 : _} : Keeps s (receive x0 x1 x2 s) := by
  have h := Keeps.refl s
  unfold receive; try dsimp only
  repeat' first | with_reducible assumption | with_reducible exact Keeps.refl _ | with_reducible apply Keeps.ite | with_reducible apply Keeps.still still_datagram | with_reducible apply Keeps.still still_modSess | with_reducible apply Keeps.still still_replay | with_reducible apply Keeps.step keeps_runHeld | with_reducible apply Keeps.step keeps_runRequest | intro _ | split

theorem keeps_featureCharted : Keeps s (featureCharted s) := by
  have h := Keeps.refl s
  unfold featureCharted; try dsimp only
  repeat' first | with_reducible assumption | with_reducible exact Keeps.refl _ | with_reducible apply Keeps.ite | with_reducible apply Keeps.still still_addN | with_reducible apply Keeps.step keeps_chartInto | intro _ | split | with_reducible apply Keeps.upd

theorem keeps_lateralGuard {x0 : _} {x1 : _} : Keeps s (lateralGuard x0 x1 s) := by
  have h := Keeps.refl s
  unfold lateralGuard; try dsimp only
  repeat' first | with_reducible assumption | with_reducible exact Keeps.refl _ | with_reducible apply Keeps.ite | with_reducible apply Keeps.step keeps_faultStop | intro _ | split

theorem keeps_overspeed {x0 : _} : Keeps s (overspeed x0 s) := by
  have h := Keeps.refl s
  unfold overspeed; try dsimp only
  repeat' first | with_reducible assumption | with_reducible exact Keeps.refl _ | with_reducible apply Keeps.ite | with_reducible apply Keeps.step keeps_faultStop | intro _ | split

theorem keeps_feedbackSample {x0 : _} {x1 : _} {x2 : _} : Keeps s (feedbackSample x0 x1 x2 s) := by
  have h := Keeps.refl s
  unfold feedbackSample; try dsimp only
  repeat' first | with_reducible assumption | with_reducible exact Keeps.refl _ | with_reducible apply Keeps.ite | with_reducible apply Keeps.still still_finaliseBerth | with_reducible apply Keeps.step keeps_lateralGuard | with_reducible apply Keeps.still still_modBerth | with_reducible apply Keeps.step keeps_overspeed | with_reducible apply Keeps.still still_setI | intro _ | split

theorem keeps_feedbackGood {x0 : _} {x1 : _} : Keeps s (feedbackGood x0 x1 s) := by
  have h := Keeps.refl s
  unfold feedbackGood; try dsimp only
  repeat' first | with_reducible assumption | with_reducible exact Keeps.refl _ | with_reducible apply Keeps.ite | with_reducible apply Keeps.step keeps_commandMissed | with_reducible apply Keeps.step keeps_feedbackSample | with_reducible apply Keeps.still still_modLink | with_reducible apply Keeps.still still_standAtHead | intro _ | split

theorem keeps_feedback {x0 : _} {x1 : _} : Keeps s (feedback x0 x1 s) := by
  have h := Keeps.refl s
  unfold feedback; try dsimp only
  repeat' first | with_reducible assumption | with_reducible exact Keeps.refl _ | with_reducible apply Keeps.ite | with_reducible apply Keeps.step keeps_feedbackGood | intro _ | split

theorem keeps_feedbackMissing {x0 : _} : Keeps s (feedbackMissing x0 s) := by
  have h := Keeps.refl s
  unfold feedbackMissing; try dsimp only
  repeat' first | with_reducible assumption | with_reducible exact Keeps.refl _ | with_reducible apply Keeps.ite | with_reducible apply Keeps.still still_addN | with_reducible apply Keeps.step keeps_headLost | with_reducible apply Keeps.still still_modLink | with_reducible apply Keeps.step keeps_overspeed | intro _ | split

theorem keeps_holdOffComplete : Keeps s (holdOffComplete s) := by
  have h := Keeps.refl s
  unfold holdOffComplete; try dsimp only
  repeat' first | with_reducible assumption | with_reducible exact Keeps.refl _ | with_reducible apply Keeps.ite | with_reducible apply Keeps.step keeps_autoResume | with_reducible apply Keeps.still still_setMains | with_reducible apply Keeps.still still_setN | with_reducible apply Keeps.step keeps_warmReset | intro _ | split

theorem keeps_hostSilence : Keeps s (hostSilence s) := by
  have h := Keeps.refl s
  unfold hostSilence; try dsimp only
  repeat' first | with_reducible assumption | with_reducible exact Keeps.refl _ | with_reducible apply Keeps.ite | with_reducible apply Keeps.still still_addN | with_reducible apply Keeps.step keeps_faultStop | with_reducible apply Keeps.still still_noticeObj | with_reducible apply Keeps.still still_setN | intro _ | split

theorem keeps_inputFault {x0 : _} : Keeps s (inputFault x0 s) := by
  have h := Keeps.refl s
  unfold inputFault; try dsimp only
  repeat' first | with_reducible assumption | with_reducible exact Keeps.refl _ | with_reducible apply Keeps.ite | with_reducible apply Keeps.still still_modMains | with_reducible apply Keeps.step keeps_notMonitored | with_reducible apply Keeps.still still_setN | with_reducible apply Keeps.still still_setNotice | intro _ | split

theorem keeps_lockGateCommit : Keeps s (lockGateCommit s) := by
  have h := Keeps.refl s
  unfold lockGateCommit; try dsimp only
  repeat' first | with_reducible assumption | with_reducible exact Keeps.refl _ | with_reducible apply Keeps.ite | with_reducible apply Keeps.step keeps_commitHere | with_reducible apply Keeps.still still_storeBreakwater | intro _ | split

theorem keeps_lockTimeout : Keeps s (lockTimeout s) := by
  have h := Keeps.refl s
  unfold lockTimeout; try dsimp only
  repeat' first | with_reducible assumption | with_reducible exact Keeps.refl _ | with_reducible apply Keeps.ite | with_reducible apply Keeps.still still_drawn | with_reducible apply Keeps.still still_endCommit | with_reducible apply Keeps.step keeps_harbourEntry | with_reducible apply Keeps.still still_noteMissing | with_reducible apply Keeps.still still_storeBreakwater | intro _ | split

theorem keeps_harbourIssue {x1 : _} : Keeps s (harbourIssue s x1) := by
  have h := Keeps.refl s
  unfold harbourIssue; try dsimp only
  repeat' first | with_reducible assumption | with_reducible exact Keeps.refl _ | with_reducible apply Keeps.ite | with_reducible apply Keeps.each | with_reducible apply Keeps.step keeps_resume | with_reducible apply Keeps.step keeps_stopBerth | intro _ | split

theorem keeps_hmCommands : Keeps s (hmCommands s) := by
  have h := Keeps.refl s
  unfold hmCommands; try dsimp only
  repeat' first | with_reducible assumption | with_reducible exact Keeps.refl _ | with_reducible apply Keeps.ite | with_reducible apply Keeps.step keeps_harbourIssue | with_reducible apply Keeps.folded | intro _ | split | with_reducible apply Keeps.upd

theorem keeps_noteConflict {x0 : _} : Keeps s (noteConflict x0 s) := by
  have h := Keeps.refl s
  unfold noteConflict; try dsimp only
  repeat' first | with_reducible assumption | with_reducible exact Keeps.refl _ | with_reducible apply Keeps.ite | with_reducible apply Keeps.still still_addN | with_reducible apply Keeps.step keeps_harbourEntry | intro _ | split

theorem keeps_loseClearance {x0 : _} {x1 : _} {x2 : _} : Keeps s (loseClearance x0 x1 x2 s) := by
  have h := Keeps.refl s
  unfold loseClearance; try dsimp only
  repeat' first | with_reducible assumption | with_reducible exact Keeps.refl _ | with_reducible apply Keeps.ite | with_reducible apply Keeps.still still_modBerth | with_reducible apply Keeps.step keeps_stopBerth | intro _ | split

theorem keeps_pairStops {x0 : _} {x1 : _} {x2 : _} {x3 : _} : Keeps s (pairStops x0 x1 x2 x3 s) := by
  have h := Keeps.refl s
  unfold pairStops; try dsimp only
  repeat' first | with_reducible assumption | with_reducible exact Keeps.refl _ | with_reducible apply Keeps.ite | with_reducible apply Keeps.step keeps_handoverRefused | with_reducible apply Keeps.step keeps_stopPair | intro _ | split

theorem keeps_partnerLost {x0 : _} : Keeps s (partnerLost x0 s) := by
  have h := Keeps.refl s
  unfold partnerLost; try dsimp only
  repeat' first | with_reducible assumption | with_reducible exact Keeps.refl _ | with_reducible apply Keeps.ite | with_reducible apply Keeps.step keeps_pairStops | intro _ | split

theorem keeps_stopLosers {x0 : _} : Keeps s (stopLosers x0 s) := by
  have h := Keeps.refl s
  unfold stopLosers; try dsimp only
  repeat' first | with_reducible assumption | with_reducible exact Keeps.refl _ | with_reducible apply Keeps.ite | with_reducible apply Keeps.each | with_reducible apply Keeps.step keeps_loseClearance | with_reducible apply Keeps.step keeps_partnerLost | intro _ | split

theorem keeps_hmConflicts : Keeps s (hmConflicts s) := by
  have h := Keeps.refl s
  unfold hmConflicts; try dsimp only
  repeat' first | with_reducible assumption | with_reducible exact Keeps.refl _ | with_reducible apply Keeps.ite | with_reducible apply Keeps.still still_drawn | with_reducible apply Keeps.step keeps_noteConflict | with_reducible apply Keeps.step keeps_stopLosers | with_reducible apply Keeps.folded | intro _ | split

theorem keeps_followResume {x0 : _} : Keeps s (followResume x0 s) := by
  have h := Keeps.refl s
  unfold followResume; try dsimp only
  repeat' first | with_reducible assumption | with_reducible exact Keeps.refl _ | with_reducible apply Keeps.ite | with_reducible apply Keeps.step keeps_resumeHalf | intro _ | split

theorem keeps_takerRefused {x0 : _} {x1 : _} : Keeps s (takerRefused x0 x1 s) := by
  have h := Keeps.refl s
  unfold takerRefused; try dsimp only
  repeat' first | with_reducible assumption | with_reducible exact Keeps.refl _ | with_reducible apply Keeps.ite | with_reducible apply Keeps.still still_modBerth | with_reducible apply Keeps.step keeps_takerAtC0 | intro _ | split

theorem keeps_launchRefused {x0 : _} {x1 : _} {x2 : _} {x3 : _} : Keeps s (launchRefused x0 x1 x2 x3 s) := by
  have h := Keeps.refl s
  unfold launchRefused; try dsimp only
  repeat' first | with_reducible assumption | with_reducible exact Keeps.refl _ | with_reducible apply Keeps.ite | with_reducible apply Keeps.still still_giverToC0 | with_reducible apply Keeps.step keeps_handoverRefused | with_reducible apply Keeps.still still_modBerth | with_reducible apply Keeps.step keeps_takerRefused | intro _ | split

theorem keeps_launchAway {x0 : _} {x1 : _} : Keeps s (launchAway x0 x1 s) := by
  have h := Keeps.refl s
  unfold launchAway; try dsimp only
  repeat' first | with_reducible assumption | with_reducible exact Keeps.refl _ | with_reducible apply Keeps.ite | with_reducible apply Keeps.still still_drawn | with_reducible apply Keeps.step keeps_launchRefused | with_reducible apply Keeps.still still_openGiver | intro _ | split

theorem keeps_launchHere {x0 : _} {x1 : _} {x2 : _} : Keeps s (launchHere x0 x1 x2 s) := by
  have h := Keeps.refl s
  unfold launchHere; try dsimp only
  repeat' first | with_reducible assumption | with_reducible exact Keeps.refl _ | with_reducible apply Keeps.ite | with_reducible apply Keeps.step keeps_launchRefused | with_reducible apply Keeps.still still_launchTaker | with_reducible apply Keeps.still still_openGiver | intro _ | split

theorem keeps_hmLaunch {x0 : _} : Keeps s (hmLaunch x0 s) := by
  have h := Keeps.refl s
  unfold hmLaunch; try dsimp only
  repeat' first | with_reducible assumption | with_reducible exact Keeps.refl _ | with_reducible apply Keeps.ite | with_reducible apply Keeps.step keeps_launchAway | with_reducible apply Keeps.step keeps_launchHere | intro _ | split

theorem keeps_hmRemoteLaunch {x0 : _} : Keeps s (hmRemoteLaunch x0 s) := by
  have h := Keeps.refl s
  unfold hmRemoteLaunch; try dsimp only
  repeat' first | with_reducible assumption | with_reducible exact Keeps.refl _ | with_reducible apply Keeps.ite | with_reducible apply Keeps.still still_drawn | with_reducible apply Keeps.step keeps_handoverRefused | with_reducible apply Keeps.still still_launchTaker | with_reducible apply Keeps.step keeps_takerRefused | intro _ | split

theorem keeps_hmWindow {x0 : _} : Keeps s (hmWindow x0 s) := by
  have h := Keeps.refl s
  unfold hmWindow; try dsimp only
  repeat' first | with_reducible assumption | with_reducible exact Keeps.refl _ | with_reducible apply Keeps.ite | with_reducible apply Keeps.step keeps_closeWindow | with_reducible apply Keeps.still still_followGiver | with_reducible apply Keeps.still still_modBerth | with_reducible apply Keeps.step keeps_pairStops | intro _ | split

theorem keeps_hmHandovers : Keeps s (hmHandovers s) := by
  have h := Keeps.refl s
  unfold hmHandovers; try dsimp only
  repeat' first | with_reducible assumption | with_reducible exact Keeps.refl _ | with_reducible apply Keeps.ite | with_reducible apply Keeps.each | with_reducible apply Keeps.step keeps_arriveRefused | with_reducible apply Keeps.step keeps_followResume | with_reducible apply Keeps.step keeps_hmLaunch | with_reducible apply Keeps.step keeps_hmRemoteLaunch | with_reducible apply Keeps.step keeps_hmWindow | intro _ | split

theorem keeps_hmTick : Keeps s (hmTick s) := by
  have h := Keeps.refl s
  unfold hmTick; try dsimp only
  repeat' first | with_reducible assumption | with_reducible exact Keeps.refl _ | with_reducible apply Keeps.ite | with_reducible apply Keeps.still still_hmBudget | with_reducible apply Keeps.step keeps_hmCommands | with_reducible apply Keeps.step keeps_hmConflicts | with_reducible apply Keeps.step keeps_hmHandovers | with_reducible apply Keeps.still still_hmRecords | with_reducible apply Keeps.still still_trackRests | intro _ | split

theorem keeps_startBerths {x0 : _} : Keeps s (startBerths x0 s) := by
  have h := Keeps.refl s
  unfold startBerths; try dsimp only
  repeat' first | with_reducible assumption | with_reducible exact Keeps.refl _ | with_reducible apply Keeps.ite | with_reducible apply Keeps.each | with_reducible apply Keeps.still still_biasTick | with_reducible apply Keeps.still still_commitTick | with_reducible apply Keeps.step keeps_hmTick | with_reducible apply Keeps.still still_loopLatch | with_reducible apply Keeps.still still_oldSets | with_reducible apply Keeps.still still_setN | with_reducible apply Keeps.still still_startExposing | with_reducible apply Keeps.still still_takeLevels | intro _ | split

theorem holds_loopFrame {x0 : _} : Holds s (loopFrame x0 s) := by
  have h := Holds.refl s
  unfold loopFrame; try dsimp only
  repeat' first | with_reducible assumption | with_reducible exact Holds.refl _ | with_reducible apply Holds.ite | with_reducible apply Holds.step holds_advanceTime | with_reducible apply Holds.still still_beaconTick | with_reducible apply Holds.still still_bolInputs | with_reducible apply Holds.keeps keeps_endBerths | with_reducible apply Holds.keeps keeps_endErrors | with_reducible apply Holds.still still_endLinks | with_reducible apply Holds.keeps keeps_startBerths | with_reducible apply Holds.still still_startChamber | with_reducible apply Holds.still still_tideFrame | intro _ | split

theorem keeps_memoryRequest {x0 : _} : Keeps s (memoryRequest x0 s) := by
  have h := Keeps.refl s
  unfold memoryRequest; try dsimp only
  repeat' first | with_reducible assumption | with_reducible exact Keeps.refl _ | with_reducible apply Keeps.ite | with_reducible apply Keeps.step keeps_clientRead | with_reducible apply Keeps.step keeps_clientWrite | with_reducible apply Keeps.still still_wakeChannel | with_reducible apply Keeps.folded | intro _ | split

theorem holds_wholeReset {x0 : _} {x1 : _} {x2 : _} {x3 : _} {x4 : _} : Holds s (wholeReset x0 x1 x2 x3 x4 s) := by
  unfold wholeReset; dsimp only
  have h : ∀ u o f l p, Holds s { pending := s.pending, out := u, result := s.result, free := s.free, now := x1, frame := x2, obj := o, flash := f, log := l, pilot := p } :=
    fun _ _ _ _ _ => ⟨rfl, fun _ => ⟨rfl, fun _ h => nomatch h⟩⟩
  repeat' first | with_reducible exact h _ _ _ _ _ | with_reducible assumption | with_reducible exact Holds.refl _ | with_reducible apply Holds.ite | with_reducible apply Holds.keeps keeps_bolBoot | with_reducible apply Holds.still still_boot | with_reducible apply Holds.still still_floatAll | with_reducible apply Holds.still still_keepObjects | with_reducible apply Holds.still still_loadStored | with_reducible apply Holds.still still_resetNote | with_reducible apply Holds.still still_setN | with_reducible apply Holds.still still_strapNode | with_reducible apply Holds.still still_tideUp | intro _ | split | with_reducible apply Holds.upd | with_reducible apply Holds.upd

theorem keeps_scrubFound {x0 : _} : Keeps s (scrubFound x0 s) := by
  have h := Keeps.refl s
  unfold scrubFound; try dsimp only
  repeat' first | with_reducible assumption | with_reducible exact Keeps.refl _ | with_reducible apply Keeps.ite | with_reducible apply Keeps.step keeps_manifestDamage | with_reducible apply Keeps.still still_modBerth | with_reducible apply Keeps.still still_notice | with_reducible apply Keeps.still still_setN | with_reducible apply Keeps.still still_setSlot | intro _ | split

theorem keeps_patrolScrub {x0 : _} : Keeps s (patrolScrub x0 s) := by
  have h := Keeps.refl s
  unfold patrolScrub; try dsimp only
  repeat' first | with_reducible assumption | with_reducible exact Keeps.refl _ | with_reducible apply Keeps.ite | with_reducible apply Keeps.still still_addN | with_reducible apply Keeps.still still_eccCheck | with_reducible apply Keeps.still still_issueBurst | with_reducible apply Keeps.step keeps_scrubFound | with_reducible apply Keeps.still still_setN | intro _ | split | with_reducible apply Keeps.upd

theorem keeps_giveRun {x0 : _} {x2 : _} : Keeps s (giveRun x0 s x2) := by
  have h := Keeps.refl s
  unfold giveRun; try dsimp only
  repeat' first | with_reducible assumption | with_reducible exact Keeps.refl _ | with_reducible apply Keeps.ite | with_reducible apply Keeps.still still_addN | with_reducible apply Keeps.step keeps_berthEntry | with_reducible apply Keeps.still still_modBerth | with_reducible apply Keeps.still still_notice | intro _ | split

theorem keeps_reassignRuns {x0 : _} : Keeps s (reassignRuns x0 s) := by
  have h := Keeps.refl s
  unfold reassignRuns; try dsimp only
  repeat' first | with_reducible assumption | with_reducible exact Keeps.refl _ | with_reducible apply Keeps.ite | with_reducible apply Keeps.step keeps_giveRun | with_reducible apply Keeps.still still_skipResume | with_reducible apply Keeps.folded | intro _ | split

theorem keeps_recordMissing {x0 : _} : Keeps s (recordMissing x0 s) := by
  have h := Keeps.refl s
  unfold recordMissing; try dsimp only
  repeat' first | with_reducible assumption | with_reducible exact Keeps.refl _ | with_reducible apply Keeps.ite | with_reducible apply Keeps.still still_addN | with_reducible apply Keeps.step keeps_quayLost | intro _ | split

theorem keeps_resumeRepaired {x0 : _} : Keeps s (resumeRepaired x0 s) := by
  have h := Keeps.refl s
  unfold resumeRepaired; try dsimp only
  repeat' first | with_reducible assumption | with_reducible exact Keeps.refl _ | with_reducible apply Keeps.ite | with_reducible apply Keeps.still still_modBerth | with_reducible apply Keeps.step keeps_resume | with_reducible apply Keeps.still still_withResult | intro _ | split

theorem keeps_repairComplete {x0 : _} {x1 : _} : Keeps s (repairComplete x0 x1 s) := by
  have h := Keeps.refl s
  unfold repairComplete; try dsimp only
  repeat' first | with_reducible assumption | with_reducible exact Keeps.refl _ | with_reducible apply Keeps.ite | with_reducible apply Keeps.still still_modBerth | with_reducible apply Keeps.step keeps_resumeRepaired | with_reducible apply Keeps.still still_setN | with_reducible apply Keeps.still still_setSlot | intro _ | split

theorem keeps_holdAtSafe {x0 : _} {x1 : _} {x2 : _} {x3 : _} : Keeps s (holdAtSafe x0 x1 x2 x3 s) := by
  have h := Keeps.refl s
  unfold holdAtSafe; try dsimp only
  repeat' first | with_reducible assumption | with_reducible exact Keeps.refl _ | with_reducible apply Keeps.ite | with_reducible apply Keeps.still still_decelerate | with_reducible apply Keeps.still still_setResume | with_reducible apply Keeps.step keeps_stopped | intro _ | split

theorem keeps_safePointReached {x0 : _} : Keeps s (safePointReached x0 s) := by
  have h := Keeps.refl s
  unfold safePointReached; try dsimp only
  repeat' first | with_reducible assumption | with_reducible exact Keeps.refl _ | with_reducible apply Keeps.ite | with_reducible apply Keeps.step keeps_fireUpTo | with_reducible apply Keeps.step keeps_holdAtSafe | with_reducible apply Keeps.still still_passSafe | intro _ | split

theorem keeps_spiWriteEntry {x0 : _} : Keeps s (spiWriteEntry x0 s) := by
  have h := Keeps.refl s
  unfold spiWriteEntry; try dsimp only
  repeat' first | with_reducible assumption | with_reducible exact Keeps.refl _ | with_reducible apply Keeps.ite | with_reducible apply Keeps.still still_spiAnswer | with_reducible apply Keeps.step keeps_writeEntry | intro _ | split

theorem keeps_temperaturePause {x0 : _} {x1 : _} {x2 : _} : Keeps s (temperaturePause x0 x1 x2 s) := by
  have h := Keeps.refl s
  unfold temperaturePause; try dsimp only
  repeat' first | with_reducible assumption | with_reducible exact Keeps.refl _ | with_reducible apply Keeps.ite | with_reducible apply Keeps.step keeps_faultStop | intro _ | split

theorem keeps_temperatureReport {x0 : _} {x1 : _} : Keeps s (temperatureReport x0 x1 s) := by
  have h := Keeps.refl s
  unfold temperatureReport; try dsimp only
  repeat' first | with_reducible assumption | with_reducible exact Keeps.refl _ | with_reducible apply Keeps.ite | with_reducible apply Keeps.each | with_reducible apply Keeps.still still_calStop | with_reducible apply Keeps.still still_modBerth | with_reducible apply Keeps.still still_setI | with_reducible apply Keeps.still still_setNotice | with_reducible apply Keeps.step keeps_temperaturePause | intro _ | split

theorem keeps_status {x0 : _} {x1 : _} : Keeps s (status x0 x1 s) := by
  have h := Keeps.refl s
  unfold status; try dsimp only
  repeat' first | with_reducible assumption | with_reducible exact Keeps.refl _ | with_reducible apply Keeps.ite | with_reducible apply Keeps.still still_modLink | with_reducible apply Keeps.still still_notice | with_reducible apply Keeps.step keeps_temperatureReport | intro _ | split

theorem keeps_streamResume {x0 : _} : Keeps s (streamResume x0 s) := by
  have h := Keeps.refl s
  unfold streamResume; try dsimp only
  repeat' first | with_reducible assumption | with_reducible exact Keeps.refl _ | with_reducible apply Keeps.ite | with_reducible apply Keeps.step keeps_drainSegs | with_reducible apply Keeps.still still_setN | intro _ | split

theorem keeps_temperatureTimeout {x0 : _} : Keeps s (temperatureTimeout x0 s) := by
  have h := Keeps.refl s
  unfold temperatureTimeout; try dsimp only
  repeat' first | with_reducible assumption | with_reducible exact Keeps.refl _ | with_reducible apply Keeps.ite | with_reducible apply Keeps.still still_setNotice | with_reducible apply Keeps.step keeps_temperaturePause | intro _ | split

theorem keeps_storeTile {x0 : _} {x1 : _} {x2 : _} {x3 : _} : Keeps s (storeTile x0 x1 x2 x3 s) := by
  have h := Keeps.refl s
  unfold storeTile; try dsimp only
  repeat' first | with_reducible assumption | with_reducible exact Keeps.refl _ | with_reducible apply Keeps.ite | with_reducible apply Keeps.each | with_reducible apply Keeps.step keeps_storeRow | intro _ | split

theorem keeps_placeTile {x0 : _} {x1 : _} : Keeps s (placeTile x0 x1 s) := by
  have h := Keeps.refl s
  unfold placeTile; try dsimp only
  repeat' first | with_reducible assumption | with_reducible exact Keeps.refl _ | with_reducible apply Keeps.ite | with_reducible apply Keeps.still still_modFrame | with_reducible apply Keeps.still still_recount | with_reducible apply Keeps.still still_startFrame | with_reducible apply Keeps.step keeps_storeTile | intro _ | split

theorem keeps_tile {x0 : _} {x1 : _} : Keeps s (tile x0 x1 s) := by
  have h := Keeps.refl s
  unfold tile; try dsimp only
  repeat' first | with_reducible assumption | with_reducible exact Keeps.refl _ | with_reducible apply Keeps.ite | with_reducible apply Keeps.still still_addN | with_reducible apply Keeps.still still_askTiles | with_reducible apply Keeps.still still_modLink | with_reducible apply Keeps.step keeps_placeTile | intro _ | split

theorem keeps_tileProcessed {x0 : _} : Keeps s (tileProcessed x0 s) := by
  have h := Keeps.refl s
  unfold tileProcessed; try dsimp only
  repeat' first | with_reducible assumption | with_reducible exact Keeps.refl _ | with_reducible apply Keeps.ite | with_reducible apply Keeps.step keeps_completeFrame | with_reducible apply Keeps.still still_corruptFrame | with_reducible apply Keeps.still still_countBacklog | with_reducible apply Keeps.still still_modFrame | with_reducible apply Keeps.still still_watchOverload | intro _ | split | with_reducible apply Keeps.upd

theorem keeps_waitTimeout {x0 : _} : Keeps s (waitTimeout x0 s) := by
  have h := Keeps.refl s
  unfold waitTimeout; try dsimp only
  repeat' first | with_reducible assumption | with_reducible exact Keeps.refl _ | with_reducible apply Keeps.ite | with_reducible apply Keeps.still still_setResume | with_reducible apply Keeps.step keeps_stopped | intro _ | split

theorem keeps_restart {l : Tab Val} {h : Harbour} {m : MemCtl} : Keeps s { cold l s with dram := s.dram, hm := h, mem := m } :=
  ⟨rfl, id, rfl, rfl⟩
theorem keeps_exitP4 : Keeps s (exitP4 s) := by
  unfold exitP4; dsimp only
  with_reducible apply Keeps.step keeps_bolBoot
  with_reducible apply Keeps.ite <;> intro _
  · with_reducible apply Keeps.still still_enableDomains
    with_reducible apply Keeps.still still_driveLens
    with_reducible apply Keeps.still still_restoreShown
    with_reducible apply Keeps.still still_logScan
    with_reducible apply Keeps.still still_loadBreakwater
    with_reducible apply Keeps.still still_tideUp
    exact keeps_restart
  · with_reducible apply Keeps.still still_enterAnchorage
    with_reducible apply Keeps.still still_driveLens
    with_reducible apply Keeps.still still_restoreShown
    with_reducible apply Keeps.still still_logScan
    with_reducible apply Keeps.still still_loadBreakwater
    with_reducible apply Keeps.still still_tideUp
    exact keeps_restart

theorem keeps_exitP5 : Keeps s (exitP5 s) := by
  have h := Keeps.refl s
  unfold exitP5; try dsimp only
  repeat' first | with_reducible assumption | with_reducible exact Keeps.refl _ | with_reducible apply Keeps.ite | with_reducible apply Keeps.step keeps_bolBoot | with_reducible apply Keeps.still still_boot | with_reducible apply Keeps.step keeps_cold | with_reducible apply Keeps.still still_loadStored | with_reducible apply Keeps.still still_setN | with_reducible apply Keeps.still still_tideUp | intro _ | split | with_reducible apply Keeps.upd

theorem keeps_wakeUp {x0 : _} {x1 : _} : Keeps s (wakeUp x0 x1 s) := by
  have h := Keeps.refl s
  unfold wakeUp; try dsimp only
  repeat' first | with_reducible assumption | with_reducible exact Keeps.refl _ | with_reducible apply Keeps.ite | with_reducible apply Keeps.step keeps_exitP4 | with_reducible apply Keeps.step keeps_exitP5 | with_reducible apply Keeps.still still_goUp | with_reducible apply Keeps.still still_rungNote | with_reducible apply Keeps.still still_setN | intro _ | split

end Sys2Proof.Machine
end

