-- ==== Sys2Proof/Laws/Commands.lean ====
section
/-!
SUPPORT. Sys2Proof/Laws/Commands.lean: what each command leaves alone: the queue always, DRAM and harbour time where its lemma says `Still`.
-/
namespace Sys2Proof.Machine

variable {s t : State}

theorem still_execAcknowledge {x0 : _} (h : execAcknowledge x0 s = .next t) : Still s t := by
  refine still_gated (fun s => ?_) h
  have h := Still.refl s
  repeat' first | with_reducible assumption | with_reducible exact Still.refl _ | with_reducible apply Still.ite | with_reducible apply Still.step still_acknowledge | intro _ | split

theorem still_execActivate (h : execActivate s = .next t) : Still s t := by
  refine still_gated (fun s => ?_) h
  have h := Still.refl s
  repeat' first | with_reducible assumption | with_reducible exact Still.refl _ | with_reducible apply Still.ite | with_reducible apply Still.step still_activateImage | intro _ | split

theorem keeps_execActiveLevel {x0 : _} (h : execActiveLevel x0 s = .next t) : Keeps s t := by
  refine keeps_gated (fun s => ?_) h
  have h := Keeps.refl s
  repeat' first | with_reducible assumption | with_reducible exact Keeps.refl _ | with_reducible apply Keeps.ite | with_reducible apply Keeps.step keeps_activeLevel | intro _ | split

theorem still_execAnnounce {x0 : _} (h : execAnnounce x0 s = .next t) : Still s t := by
  refine still_gated (fun s => ?_) h
  have h := Still.refl s
  repeat' first | with_reducible assumption | with_reducible exact Still.refl _ | with_reducible apply Still.ite | with_reducible apply Still.step still_announce | intro _ | split

theorem still_execAnnounceInterval (h : execAnnounceInterval s = .next t) : Still s t := by
  refine still_gated (fun s => ?_) h
  have h := Still.refl s
  repeat' first | with_reducible assumption | with_reducible exact Still.refl _ | with_reducible apply Still.ite | with_reducible apply Still.step still_emit | with_reducible apply Still.step still_nextSeq | intro _ | split

theorem still_execAnnounceReceiptTimeout (h : execAnnounceReceiptTimeout s = .next t) : Still s t := by
  refine still_gated (fun s => ?_) h
  have h := Still.refl s
  repeat' first | with_reducible assumption | with_reducible exact Still.refl _ | with_reducible apply Still.ite | with_reducible apply Still.step still_announceReceiptTimeout | intro _ | split

theorem still_execApply (h : execApply s = .next t) : Still s t := by
  refine still_gated (fun s => ?_) h
  have h := Still.refl s
  repeat' first | with_reducible assumption | with_reducible exact Still.refl _ | with_reducible apply Still.ite | with_reducible apply Still.step still_calApply | intro _ | split

theorem still_execBackOffComplete {x0 : _} (h : execBackOffComplete x0 s = .next t) : Still s t := by
  refine still_gated (fun s => ?_) h
  have h := Still.refl s
  repeat' first | with_reducible assumption | with_reducible exact Still.refl _ | with_reducible apply Still.ite | with_reducible apply Still.step still_backOffComplete | intro _ | split

theorem still_execBankSelect {x0 : _} {x1 : _} (h : execBankSelect x0 x1 s = .next t) : Still s t := by
  refine still_gated (fun s => ?_) h
  have h := Still.refl s
  repeat' first | with_reducible assumption | with_reducible exact Still.refl _ | with_reducible apply Still.ite | with_reducible apply Still.step still_bankSelect | intro _ | split

theorem keeps_execBerthReset {x0 : _} {x1 : _} (h : execBerthReset x0 x1 s = .next t) : Keeps s t := by
  refine keeps_gated (fun s => ?_) h
  have h := Keeps.refl s
  repeat' first | with_reducible assumption | with_reducible exact Keeps.refl _ | with_reducible apply Keeps.ite | with_reducible apply Keeps.step keeps_berthReset | with_reducible apply Keeps.still still_calStop | intro _ | split

theorem keeps_execBlockCoded (h : execBlockCoded s = .next t) : Keeps s t := by
  refine keeps_gated (fun s => ?_) h
  have h := Keeps.refl s
  repeat' first | with_reducible assumption | with_reducible exact Keeps.refl _ | with_reducible apply Keeps.ite | with_reducible apply Keeps.step keeps_blockCoded | intro _ | split

theorem still_execBlockEraseComplete (h : execBlockEraseComplete s = .next t) : Still s t := by
  refine still_gated (fun s => ?_) h
  have h := Still.refl s
  repeat' first | with_reducible assumption | with_reducible exact Still.refl _ | with_reducible apply Still.ite | with_reducible apply Still.step still_blockEraseComplete | intro _ | split

theorem keeps_execBollardLatch {x0 : _} {x1 : _} (h : execBollardLatch x0 x1 s = .next t) : Keeps s t := by
  refine keeps_gated (fun s => ?_) h
  have h := Keeps.refl s
  repeat' first | with_reducible assumption | with_reducible exact Keeps.refl _ | with_reducible apply Keeps.ite | with_reducible apply Keeps.step keeps_bolLatch | intro _ | split

theorem still_execBreakwaterSet {x0 : _} {x1 : _} {x2 : _} (h : execBreakwaterSet x0 x1 x2 s = .next t) : Still s t := by
  refine still_gated (fun s => ?_) h
  have h := Still.refl s
  repeat' first | with_reducible assumption | with_reducible exact Still.refl _ | with_reducible apply Still.ite | with_reducible apply still_rwpWrite | with_reducible apply Still.step still_breakwaterTake | intro _ | split

theorem keeps_execBudgetWaitTimeout {x0 : _} (h : execBudgetWaitTimeout x0 s = .next t) : Keeps s t := by
  refine keeps_gated (fun s => ?_) h
  have h := Keeps.refl s
  repeat' first | with_reducible assumption | with_reducible exact Keeps.refl _ | with_reducible apply Keeps.ite | with_reducible apply Keeps.step keeps_budgetWaitTimeout | intro _ | split

theorem keeps_execBudgetWithdrawal {x0 : _} (h : execBudgetWithdrawal x0 s = .next t) : Keeps s t := by
  refine keeps_gated (fun s => ?_) h
  have h := Keeps.refl s
  repeat' first | with_reducible assumption | with_reducible exact Keeps.refl _ | with_reducible apply Keeps.ite | with_reducible apply Keeps.step keeps_budgetWithdrawal | intro _ | split

theorem keeps_execBufferClosed (h : execBufferClosed s = .next t) : Keeps s t := by
  refine keeps_gated (fun s => ?_) h
  have h := Keeps.refl s
  repeat' first | with_reducible assumption | with_reducible exact Keeps.refl _ | with_reducible apply Keeps.ite | with_reducible apply Keeps.step keeps_bufferClosed | intro _ | split

theorem still_execBulkAck {x0 : _} {x1 : _} {x2 : _} (h : execBulkAck x0 x1 x2 s = .next t) : Still s t := by
  refine still_gated (fun s => ?_) h
  have h := Still.refl s
  repeat' first | with_reducible assumption | with_reducible exact Still.refl _ | with_reducible apply Still.ite | with_reducible apply Still.step still_bulkAck | with_reducible apply Still.step still_datagram | intro _ | split

theorem still_execBulkAckInterval {x0 : _} {x1 : _} (h : execBulkAckInterval x0 x1 s = .next t) : Still s t := by
  refine still_gated (fun s => ?_) h
  have h := Still.refl s
  repeat' first | with_reducible assumption | with_reducible exact Still.refl _ | with_reducible apply Still.ite | with_reducible apply Still.step still_bulkAckInterval | intro _ | split

theorem keeps_execBulkBegin {x0 : _} {x1 : _} {x2 : _} (h : execBulkBegin x0 x1 x2 s = .next t) : Keeps s t := by
  refine keeps_gated (fun s => ?_) h
  have h := Keeps.refl s
  repeat' first | with_reducible assumption | with_reducible exact Keeps.refl _ | with_reducible apply Keeps.ite | with_reducible apply Keeps.step keeps_receive | intro _ | split

theorem keeps_execBulkData {x0 : _} {x1 : _} {x2 : _} {x3 : _} (h : execBulkData x0 x1 x2 x3 s = .next t) : Keeps s t := by
  refine keeps_gated (fun s => ?_) h
  have h := Keeps.refl s
  repeat' first | with_reducible assumption | with_reducible exact Keeps.refl _ | with_reducible apply Keeps.ite | with_reducible apply Keeps.step keeps_bulkData | with_reducible apply Keeps.still still_datagram | with_reducible apply Keeps.step keeps_goOn | intro _ | split

theorem still_execBulkResendTimeout {x0 : _} {x1 : _} (h : execBulkResendTimeout x0 x1 s = .next t) : Still s t := by
  refine still_gated (fun s => ?_) h
  have h := Still.refl s
  repeat' first | with_reducible assumption | with_reducible exact Still.refl _ | with_reducible apply Still.ite | with_reducible apply Still.step still_bulkResend | intro _ | split

theorem keeps_execBulkTimeout {x0 : _} {x1 : _} (h : execBulkTimeout x0 x1 s = .next t) : Keeps s t := by
  refine keeps_gated (fun s => ?_) h
  have h := Keeps.refl s
  repeat' first | with_reducible assumption | with_reducible exact Keeps.refl _ | with_reducible apply Keeps.ite | with_reducible apply Keeps.still still_bulkTimeout | with_reducible apply Keeps.step keeps_goOn | intro _ | split

theorem still_execCalibrationAbort (h : execCalibrationAbort s = .next t) : Still s t := by
  refine still_gated (fun s => ?_) h
  have h := Still.refl s
  repeat' first | with_reducible assumption | with_reducible exact Still.refl _ | with_reducible apply Still.ite | with_reducible apply Still.step still_calAbort | with_reducible apply Still.step still_withResult | intro _ | split

theorem still_execCalibrationDiscard (h : execCalibrationDiscard s = .next t) : Still s t := by
  refine still_gated (fun s => ?_) h
  have h := Still.refl s
  repeat' first | with_reducible assumption | with_reducible exact Still.refl _ | with_reducible apply Still.ite | with_reducible apply Still.step still_calibrationDiscard | intro _ | split

theorem still_execCalibrationStart (h : execCalibrationStart s = .next t) : Still s t := by
  refine still_gated (fun s => ?_) h
  have h := Still.refl s
  repeat' first | with_reducible assumption | with_reducible exact Still.refl _ | with_reducible apply Still.ite | with_reducible apply Still.step still_calibrationStart | intro _ | split

theorem still_execCaps {x0 : _} {x1 : _} (h : execCaps x0 x1 s = .next t) : Still s t := by
  refine still_gated (fun s => ?_) h
  have h := Still.refl s
  repeat' first | with_reducible assumption | with_reducible exact Still.refl _ | with_reducible apply Still.ite | with_reducible apply still_hearFrame | with_reducible apply Still.step still_caps | intro _ | split

theorem still_execChannelDiagnosis {x0 : _} (h : execChannelDiagnosis x0 s = .next t) : Still s t := by
  refine still_gated (fun s => ?_) h
  have h := Still.refl s
  repeat' first | with_reducible assumption | with_reducible exact Still.refl _ | with_reducible apply Still.ite | with_reducible apply Still.step still_channelDiagnosis | intro _ | split

theorem still_execClear {x0 : _} (h : execClear x0 s = .next t) : Still s t := by
  refine still_gated (fun s => ?_) h
  have h := Still.refl s
  repeat' first | with_reducible assumption | with_reducible exact Still.refl _ | with_reducible apply Still.ite | with_reducible apply Still.step still_logClear | intro _ | split

theorem still_execCloseLength {x0 : _} {x1 : _} (h : execCloseLength x0 x1 s = .next t) : Still s t := by
  refine still_gated (fun s => ?_) h
  have h := Still.refl s
  repeat' first | with_reducible assumption | with_reducible exact Still.refl _ | with_reducible apply Still.ite | with_reducible apply Still.step still_closeLength | intro _ | split

theorem keeps_execCloseSession {x0 : _} {x1 : _} (h : execCloseSession x0 x1 s = .next t) : Keeps s t := by
  refine keeps_gated (fun s => ?_) h
  have h := Keeps.refl s
  repeat' first | with_reducible assumption | with_reducible exact Keeps.refl _ | with_reducible apply Keeps.ite | with_reducible apply Keeps.step keeps_receive | intro _ | split

theorem still_execCommaAligned {x0 : _} {x1 : _} (h : execCommaAligned x0 x1 s = .next t) : Still s t := by
  refine still_gated (fun s => ?_) h
  have h := Still.refl s
  repeat' first | with_reducible assumption | with_reducible exact Still.refl _ | with_reducible apply Still.ite | with_reducible apply Still.step still_commaAligned | intro _ | split

theorem still_execCommitAbort (h : execCommitAbort s = .next t) : Still s t := by
  refine still_gated (fun s => ?_) h
  have h := Still.refl s
  repeat' first | with_reducible assumption | with_reducible exact Still.refl _ | with_reducible apply Still.ite | with_reducible apply Still.step still_commitAbort | intro _ | split

theorem still_execCommitRequest {x0 : _} (h : execCommitRequest x0 s = .next t) : Still s t := by
  refine still_gated (fun s => ?_) h
  have h := Still.refl s
  repeat' first | with_reducible assumption | with_reducible exact Still.refl _ | with_reducible apply Still.ite | with_reducible apply Still.step still_commitRequest | intro _ | split

theorem still_execConfigRead {x0 : _} {x1 : _} (h : execConfigRead x0 x1 s = .next t) : Still s t := by
  refine still_gated (fun s => ?_) h
  have h := Still.refl s
  repeat' first | with_reducible assumption | with_reducible exact Still.refl _ | with_reducible apply Still.ite | with_reducible apply Still.step still_configRead | intro _ | split

theorem keeps_execConfigReply {x0 : _} {x1 : _} (h : execConfigReply x0 x1 s = .next t) : Keeps s t := by
  refine keeps_gated (fun s => ?_) h
  have h := Keeps.refl s
  repeat' first | with_reducible assumption | with_reducible exact Keeps.refl _ | with_reducible apply Keeps.ite | with_reducible apply keeps_hearFrame | with_reducible apply Keeps.step keeps_configReply | intro _ | split

theorem keeps_execConfigTimeout {x0 : _} (h : execConfigTimeout x0 s = .next t) : Keeps s t := by
  refine keeps_gated (fun s => ?_) h
  have h := Keeps.refl s
  repeat' first | with_reducible assumption | with_reducible exact Keeps.refl _ | with_reducible apply Keeps.ite | with_reducible apply Keeps.step keeps_configTimeout | intro _ | split

theorem still_execConfigWrite {x0 : _} {x1 : _} {x2 : _} (h : execConfigWrite x0 x1 x2 s = .next t) : Still s t := by
  refine still_gated (fun s => ?_) h
  have h := Still.refl s
  repeat' first | with_reducible assumption | with_reducible exact Still.refl _ | with_reducible apply Still.ite | with_reducible apply Still.step still_configWrite | intro _ | split

theorem still_execConfirm (h : execConfirm s = .next t) : Still s t := by
  refine still_gated (fun s => ?_) h
  have h := Still.refl s
  repeat' first | with_reducible assumption | with_reducible exact Still.refl _ | with_reducible apply Still.ite | with_reducible apply Still.step still_setBootRecord | intro _ | split

theorem still_execContextEnable {x0 : _} {x1 : _} (h : execContextEnable x0 x1 s = .next t) : Still s t := by
  refine still_gated (fun s => ?_) h
  have h := Still.refl s
  repeat' first | with_reducible assumption | with_reducible exact Still.refl _ | with_reducible apply Still.ite | with_reducible apply Still.step still_contextEnable | intro _ | split

theorem still_execCountSet {x0 : _} {x1 : _} (h : execCountSet x0 x1 s = .next t) : Still s t := by
  refine still_gated (fun s => ?_) h
  have h := Still.refl s
  repeat' first | with_reducible assumption | with_reducible exact Still.refl _ | with_reducible apply Still.ite | with_reducible apply Still.step still_countSet | intro _ | split

theorem still_execCounterStandstill {x0 : _} (h : execCounterStandstill x0 s = .next t) : Still s t := by
  refine still_gated (fun s => ?_) h
  have h := Still.refl s
  repeat' first | with_reducible assumption | with_reducible exact Still.refl _ | with_reducible apply Still.ite | with_reducible apply Still.step still_counterStandstill | intro _ | split

theorem keeps_execCsiPacket {x0 : _} {x1 : _} (h : execCsiPacket x0 x1 s = .next t) : Keeps s t := by
  refine keeps_gated (fun s => ?_) h
  have h := Keeps.refl s
  repeat' first | with_reducible assumption | with_reducible exact Keeps.refl _ | with_reducible apply Keeps.ite | with_reducible apply Keeps.step keeps_csiPacket | intro _ | split

theorem still_execData {x0 : _} {x1 : _} (h : execData x0 x1 s = .next t) : Still s t := by
  refine still_gated (fun s => ?_) h
  have h := Still.refl s
  repeat' first | with_reducible assumption | with_reducible exact Still.refl _ | with_reducible apply Still.ite | with_reducible apply still_hearFrame | with_reducible apply Still.step still_dataFrame | intro _ | split

theorem still_execDecelerationComplete {x0 : _} (h : execDecelerationComplete x0 s = .next t) : Still s t := by
  refine still_gated (fun s => ?_) h
  have h := Still.refl s
  repeat' first | with_reducible assumption | with_reducible exact Still.refl _ | with_reducible apply Still.ite | with_reducible apply Still.step still_comeToRest | intro _ | split

theorem still_execDelayReq {x0 : _} (h : execDelayReq x0 s = .next t) : Still s t := by
  refine still_gated (fun s => ?_) h
  have h := Still.refl s
  repeat' first | with_reducible assumption | with_reducible exact Still.refl _ | with_reducible apply Still.ite | with_reducible apply Still.step still_delayReq | intro _ | split

theorem still_execDelayResp {x0 : _} (h : execDelayResp x0 s = .next t) : Still s t := by
  refine still_gated (fun s => ?_) h
  have h := Still.refl s
  repeat' first | with_reducible assumption | with_reducible exact Still.refl _ | with_reducible apply Still.ite | with_reducible apply Still.step still_delayResp | intro _ | split

theorem still_execDieTemperature {x0 : _} (h : execDieTemperature x0 s = .next t) : Still s t := by
  refine still_gated (fun s => ?_) h
  have h := Still.refl s
  repeat' first | with_reducible assumption | with_reducible exact Still.refl _ | with_reducible apply Still.ite | with_reducible apply Still.step still_dieTemperature | intro _ | split

theorem still_execDiscover (h : execDiscover s = .next t) : Still s t := by
  refine still_gated (fun s => ?_) h
  have h := Still.refl s
  repeat' first | with_reducible assumption | with_reducible exact Still.refl _ | with_reducible apply Still.ite | with_reducible apply Still.step still_datagram | with_reducible apply Still.step still_presenceOut | intro _ | split

theorem still_execDqsOscillatorCheck {x0 : _} (h : execDqsOscillatorCheck x0 s = .next t) : Still s t := by
  refine still_gated (fun s => ?_) h
  have h := Still.refl s
  repeat' first | with_reducible assumption | with_reducible exact Still.refl _ | with_reducible apply Still.ite | intro _ | split | with_reducible apply Still.upd

theorem still_execEchoReply {x0 : _} {x1 : _} {x2 : _} {x3 : _} (h : execEchoReply x0 x1 x2 x3 s = .next t) : Still s t := by
  refine still_gated (fun s => ?_) h
  have h := Still.refl s
  repeat' first | with_reducible assumption | with_reducible exact Still.refl _ | with_reducible apply Still.ite | with_reducible apply still_hearFrame | with_reducible apply Still.step still_echoReply | intro _ | split

theorem still_execEchoReplyTimeout {x0 : _} {x1 : _} (h : execEchoReplyTimeout x0 x1 s = .next t) : Still s t := by
  refine still_gated (fun s => ?_) h
  have h := Still.refl s
  repeat' first | with_reducible assumption | with_reducible exact Still.refl _ | with_reducible apply Still.ite | with_reducible apply Still.step still_echoReplyTimeout | intro _ | split

theorem still_execEncoderEdge {x0 : _} {x1 : _} {x2 : _} {x3 : _} (h : execEncoderEdge x0 x1 x2 x3 s = .next t) : Still s t := by
  refine still_gated (fun s => ?_) h
  have h := Still.refl s
  repeat' first | with_reducible assumption | with_reducible exact Still.refl _ | with_reducible apply Still.ite | with_reducible apply Still.step still_encoderEdge | intro _ | split

theorem keeps_execEndReached {x0 : _} (h : execEndReached x0 s = .next t) : Keeps s t := by
  refine keeps_gated (fun s => ?_) h
  have h := Keeps.refl s
  repeat' first | with_reducible assumption | with_reducible exact Keeps.refl _ | with_reducible apply Keeps.ite | with_reducible apply Keeps.step keeps_endReached | intro _ | split

theorem still_execEnergiseComplete {x0 : _} (h : execEnergiseComplete x0 s = .next t) : Still s t := by
  refine still_gated (fun s => ?_) h
  have h := Still.refl s
  repeat' first | with_reducible assumption | with_reducible exact Still.refl _ | with_reducible apply Still.ite | with_reducible apply Still.step still_energiseComplete | intro _ | split

theorem still_execEqualiseComplete {x0 : _} {x1 : _} (h : execEqualiseComplete x0 x1 s = .next t) : Still s t := by
  refine still_gated (fun s => ?_) h
  have h := Still.refl s
  repeat' first | with_reducible assumption | with_reducible exact Still.refl _ | with_reducible apply Still.ite | with_reducible apply Still.step still_equaliseComplete | intro _ | split

theorem still_execEthernetFrame {x0 : _} {x1 : _} (h : execEthernetFrame x0 x1 s = .next t) : Still s t := by
  refine still_gated (fun s => ?_) h
  have h := Still.refl s
  repeat' first | with_reducible assumption | with_reducible exact Still.refl _ | with_reducible apply Still.ite | with_reducible apply Still.step still_ethernetFrame | intro _ | split

theorem keeps_execEvaluationPoint {x0 : _} (h : execEvaluationPoint x0 s = .next t) : Keeps s t := by
  refine keeps_gated (fun s => ?_) h
  have h := Keeps.refl s
  repeat' first | with_reducible assumption | with_reducible exact Keeps.refl _ | with_reducible apply Keeps.ite | with_reducible apply Keeps.step keeps_evaluationPoint | intro _ | split

theorem keeps_execEventGroup {x0 : _} (h : execEventGroup x0 s = .next t) : Keeps s t := by
  refine keeps_gated (fun s => ?_) h
  have h := Keeps.refl s
  repeat' first | with_reducible assumption | with_reducible exact Keeps.refl _ | with_reducible apply Keeps.ite | with_reducible apply Keeps.step keeps_eventGroup | intro _ | split

theorem still_execExportLayer {x0 : _} (h : execExportLayer x0 s = .next t) : Still s t := by
  refine still_gated (fun s => ?_) h
  have h := Still.refl s
  repeat' first | with_reducible assumption | with_reducible exact Still.refl _ | with_reducible apply Still.ite | with_reducible apply Still.step still_exportLayer | intro _ | split

theorem still_execExposingStart (h : execExposingStart s = .next t) : Still s t := by
  refine still_gated (fun s => ?_) h
  have h := Still.refl s
  repeat' first | with_reducible assumption | with_reducible exact Still.refl _ | with_reducible apply Still.ite | with_reducible apply Still.each | with_reducible apply Still.step still_exposeOne | intro _ | split

theorem still_execEyeMargin {x0 : _} {x1 : _} (h : execEyeMargin x0 x1 s = .next t) : Still s t := by
  refine still_gated (fun s => ?_) h
  have h := Still.refl s
  repeat' first | with_reducible assumption | with_reducible exact Still.refl _ | with_reducible apply Still.ite | with_reducible apply Still.step still_eyeMargin | intro _ | split

theorem keeps_execFeatureCharted (h : execFeatureCharted s = .next t) : Keeps s t := by
  refine keeps_gated (fun s => ?_) h
  have h := Keeps.refl s
  repeat' first | with_reducible assumption | with_reducible exact Keeps.refl _ | with_reducible apply Keeps.ite | with_reducible apply Keeps.step keeps_featureCharted | intro _ | split

theorem keeps_execFeedback {x0 : _} {x1 : _} (h : execFeedback x0 x1 s = .next t) : Keeps s t := by
  refine keeps_gated (fun s => ?_) h
  have h := Keeps.refl s
  repeat' first | with_reducible assumption | with_reducible exact Keeps.refl _ | with_reducible apply Keeps.ite | with_reducible apply keeps_hearFrame | with_reducible apply Keeps.step keeps_feedback | intro _ | split

theorem keeps_execFeedbackMissing {x0 : _} (h : execFeedbackMissing x0 s = .next t) : Keeps s t := by
  refine keeps_gated (fun s => ?_) h
  have h := Keeps.refl s
  repeat' first | with_reducible assumption | with_reducible exact Keeps.refl _ | with_reducible apply Keeps.ite | with_reducible apply Keeps.step keeps_feedbackMissing | intro _ | split

theorem still_execFence {x0 : _} (h : execFence x0 s = .next t) : Still s t := by
  refine still_gated (fun s => ?_) h
  have h := Still.refl s
  repeat' first | with_reducible assumption | with_reducible exact Still.refl _ | with_reducible apply Still.ite | with_reducible apply Still.step still_withResult | intro _ | split

theorem still_execFenceComplete {x0 : _} (h : execFenceComplete x0 s = .next t) : Still s t := by
  refine still_gated (fun s => ?_) h
  have h := Still.refl s
  repeat' first | with_reducible assumption | with_reducible exact Still.refl _ | with_reducible apply Still.ite | with_reducible apply Still.step still_fenceComplete | intro _ | split

theorem still_execFetchNotices (h : execFetchNotices s = .next t) : Still s t := by
  refine still_gated (fun s => ?_) h
  have h := Still.refl s
  repeat' first | with_reducible assumption | with_reducible exact Still.refl _ | with_reducible apply Still.ite | with_reducible apply Still.step still_fetchNotices | intro _ | split

theorem still_execFetchReply (h : execFetchReply s = .next t) : Still s t := by
  refine still_gated (fun s => ?_) h
  have h := Still.refl s
  repeat' first | with_reducible assumption | with_reducible exact Still.refl _ | with_reducible apply Still.ite | with_reducible apply Still.step still_spiOut | with_reducible apply Still.step still_spiSeen | intro _ | split

theorem still_execFlush (h : execFlush s = .next t) : Still s t := by
  refine still_gated (fun s => ?_) h
  have h := Still.refl s
  repeat' first | with_reducible assumption | with_reducible exact Still.refl _ | with_reducible apply Still.ite | with_reducible apply Still.step still_logFlush | intro _ | split

theorem still_execFollowUp {x0 : _} (h : execFollowUp x0 s = .next t) : Still s t := by
  refine still_gated (fun s => ?_) h
  have h := Still.refl s
  repeat' first | with_reducible assumption | with_reducible exact Still.refl _ | with_reducible apply Still.ite | with_reducible apply Still.step still_followUp | intro _ | split

theorem still_execFrameTimeout {x0 : _} (h : execFrameTimeout x0 s = .next t) : Still s t := by
  refine still_gated (fun s => ?_) h
  have h := Still.refl s
  repeat' first | with_reducible assumption | with_reducible exact Still.refl _ | with_reducible apply Still.ite | with_reducible apply Still.step still_frameTimeout | intro _ | split

theorem keeps_execGapEntry {x0 : _} (h : execGapEntry x0 s = .next t) : Keeps s t := by
  refine keeps_gated (fun s => ?_) h
  have h := Keeps.refl s
  repeat' first | with_reducible assumption | with_reducible exact Keeps.refl _ | with_reducible apply Keeps.ite | with_reducible apply Keeps.step keeps_gapEntry | intro _ | split

theorem still_execHarbourPauseAtSafePoint (h : execHarbourPauseAtSafePoint s = .next t) : Still s t := by
  refine still_gated (fun s => ?_) h
  have h := Still.refl s
  repeat' first | with_reducible assumption | with_reducible exact Still.refl _ | with_reducible apply Still.ite | with_reducible apply Still.step still_harbourCommand | intro _ | split

theorem still_execHarbourPauseNow (h : execHarbourPauseNow s = .next t) : Still s t := by
  refine still_gated (fun s => ?_) h
  have h := Still.refl s
  repeat' first | with_reducible assumption | with_reducible exact Still.refl _ | with_reducible apply Still.ite | with_reducible apply Still.step still_harbourCommand | intro _ | split

theorem still_execHarbourResume (h : execHarbourResume s = .next t) : Still s t := by
  refine still_gated (fun s => ?_) h
  have h := Still.refl s
  repeat' first | with_reducible assumption | with_reducible exact Still.refl _ | with_reducible apply Still.ite | with_reducible apply Still.step still_harbourCommand | intro _ | split

theorem keeps_execHoldOffComplete (h : execHoldOffComplete s = .next t) : Keeps s t := by
  refine keeps_gated (fun s => ?_) h
  have h := Keeps.refl s
  repeat' first | with_reducible assumption | with_reducible exact Keeps.refl _ | with_reducible apply Keeps.ite | with_reducible apply Keeps.step keeps_holdOffComplete | intro _ | split

theorem still_execHome {x0 : _} (h : execHome x0 s = .next t) : Still s t := by
  refine still_gated (fun s => ?_) h
  have h := Still.refl s
  repeat' first | with_reducible assumption | with_reducible exact Still.refl _ | with_reducible apply Still.ite | with_reducible apply Still.step still_home | intro _ | split

theorem still_execHomingTravelLimit {x0 : _} (h : execHomingTravelLimit x0 s = .next t) : Still s t := by
  refine still_gated (fun s => ?_) h
  have h := Still.refl s
  repeat' first | with_reducible assumption | with_reducible exact Still.refl _ | with_reducible apply Still.ite | with_reducible apply Still.step still_homingTravelLimit | intro _ | split

theorem keeps_execHostSilence (h : execHostSilence s = .next t) : Keeps s t := by
  refine keeps_gated (fun s => ?_) h
  have h := Keeps.refl s
  repeat' first | with_reducible assumption | with_reducible exact Keeps.refl _ | with_reducible apply Keeps.ite | with_reducible apply Keeps.step keeps_hostSilence | intro _ | split

theorem still_execHostTrigger {x0 : _} {x1 : _} (h : execHostTrigger x0 x1 s = .next t) : Still s t := by
  refine still_gated (fun s => ?_) h
  have h := Still.refl s
  repeat' first | with_reducible assumption | with_reducible exact Still.refl _ | with_reducible apply Still.ite | with_reducible apply Still.step still_hostTrigger | intro _ | split

theorem still_execIdleAction {x0 : _} (h : execIdleAction x0 s = .next t) : Still s t := by
  refine still_gated (fun s => ?_) h
  have h := Still.refl s
  repeat' first | with_reducible assumption | with_reducible exact Still.refl _ | with_reducible apply Still.ite | with_reducible apply Still.step still_idleAction | intro _ | split

theorem still_execImageData {x0 : _} {x1 : _} (h : execImageData x0 x1 s = .next t) : Still s t := by
  refine still_gated (fun s => ?_) h
  have h := Still.refl s
  repeat' first | with_reducible assumption | with_reducible exact Still.refl _ | with_reducible apply Still.ite | with_reducible apply Still.step still_imageData | intro _ | split

theorem still_execIndexPulse {x0 : _} {x1 : _} {x2 : _} {x3 : _} (h : execIndexPulse x0 x1 x2 x3 s = .next t) : Still s t := by
  refine still_gated (fun s => ?_) h
  have h := Still.refl s
  repeat' first | with_reducible assumption | with_reducible exact Still.refl _ | with_reducible apply Still.ite | with_reducible apply Still.step still_indexPulse | intro _ | split

theorem keeps_execInputFault {x0 : _} (h : execInputFault x0 s = .next t) : Keeps s t := by
  refine keeps_gated (fun s => ?_) h
  have h := Keeps.refl s
  repeat' first | with_reducible assumption | with_reducible exact Keeps.refl _ | with_reducible apply Keeps.ite | with_reducible apply Keeps.step keeps_inputFault | intro _ | split

theorem still_execInputFaultClear {x0 : _} (h : execInputFaultClear x0 s = .next t) : Still s t := by
  refine still_gated (fun s => ?_) h
  have h := Still.refl s
  repeat' first | with_reducible assumption | with_reducible exact Still.refl _ | with_reducible apply Still.ite | with_reducible apply Still.step still_setN | intro _ | split

theorem still_execJobAbort (h : execJobAbort s = .next t) : Still s t := by
  refine still_gated (fun s => ?_) h
  have h := Still.refl s
  repeat' first | with_reducible assumption | with_reducible exact Still.refl _ | with_reducible apply Still.ite | with_reducible apply Still.step still_jobAbort | intro _ | split

theorem still_execJobResume (h : execJobResume s = .next t) : Still s t := by
  refine still_gated (fun s => ?_) h
  have h := Still.refl s
  repeat' first | with_reducible assumption | with_reducible exact Still.refl _ | with_reducible apply Still.ite | with_reducible apply Still.step still_jobResume | intro _ | split

theorem still_execJobSaveState (h : execJobSaveState s = .next t) : Still s t := by
  refine still_gated (fun s => ?_) h
  have h := Still.refl s
  repeat' first | with_reducible assumption | with_reducible exact Still.refl _ | with_reducible apply Still.ite | with_reducible apply Still.step still_jobSaveState | intro _ | split

theorem still_execJobStart (h : execJobStart s = .next t) : Still s t := by
  refine still_gated (fun s => ?_) h
  have h := Still.refl s
  repeat' first | with_reducible assumption | with_reducible exact Still.refl _ | with_reducible apply Still.ite | with_reducible apply Still.step still_jobStart | intro _ | split

theorem keeps_execKeepalive {x0 : _} {x1 : _} (h : execKeepalive x0 x1 s = .next t) : Keeps s t := by
  refine keeps_gated (fun s => ?_) h
  have h := Keeps.refl s
  repeat' first | with_reducible assumption | with_reducible exact Keeps.refl _ | with_reducible apply Keeps.ite | with_reducible apply Keeps.step keeps_receive | intro _ | split

theorem still_execKeySlotProgram {x0 : _} {x1 : _} {x2 : _} (h : execKeySlotProgram x0 x1 x2 s = .next t) : Still s t := by
  refine still_gated (fun s => ?_) h
  have h := Still.refl s
  repeat' first | with_reducible assumption | with_reducible exact Still.refl _ | with_reducible apply Still.ite | with_reducible apply Still.step still_keyProgram | intro _ | split

theorem still_execKeySlotRevoke {x0 : _} {x1 : _} {x2 : _} (h : execKeySlotRevoke x0 x1 x2 s = .next t) : Still s t := by
  refine still_gated (fun s => ?_) h
  have h := Still.refl s
  repeat' first | with_reducible assumption | with_reducible exact Still.refl _ | with_reducible apply Still.ite | with_reducible apply Still.step still_keyRevoke | intro _ | split

theorem still_execLampBoardTimeout {x0 : _} (h : execLampBoardTimeout x0 s = .next t) : Still s t := by
  refine still_gated (fun s => ?_) h
  have h := Still.refl s
  repeat' first | with_reducible assumption | with_reducible exact Still.refl _ | with_reducible apply Still.ite | with_reducible apply Still.step still_lampBoardTimeout | intro _ | split

theorem still_execLampTemperatureRead {x0 : _} (h : execLampTemperatureRead x0 s = .next t) : Still s t := by
  refine still_gated (fun s => ?_) h
  have h := Still.refl s
  repeat' first | with_reducible assumption | with_reducible exact Still.refl _ | with_reducible apply Still.ite | with_reducible apply Still.step still_lampTemperatureRead | intro _ | split

theorem still_execLanesDeskewed {x0 : _} {x1 : _} {x2 : _} (h : execLanesDeskewed x0 x1 x2 s = .next t) : Still s t := by
  refine still_gated (fun s => ?_) h
  have h := Still.refl s
  repeat' first | with_reducible assumption | with_reducible exact Still.refl _ | with_reducible apply Still.ite | with_reducible apply Still.step still_lanesDeskewed | intro _ | split

theorem keeps_execLinkDisable {x0 : _} (h : execLinkDisable x0 s = .next t) : Keeps s t := by
  refine keeps_gated (fun s => ?_) h
  have h := Keeps.refl s
  repeat' first | with_reducible assumption | with_reducible exact Keeps.refl _ | with_reducible apply Keeps.ite | with_reducible apply Keeps.step keeps_linkDisable | intro _ | split

theorem still_execLinkEnable {x0 : _} (h : execLinkEnable x0 s = .next t) : Still s t := by
  refine still_gated (fun s => ?_) h
  have h := Still.refl s
  repeat' first | with_reducible assumption | with_reducible exact Still.refl _ | with_reducible apply Still.ite | with_reducible apply Still.step still_linkEnable | intro _ | split

theorem keeps_execLoadData {x0 : _} {x1 : _} (h : execLoadData x0 x1 s = .next t) : Keeps s t := by
  refine keeps_gated (fun s => ?_) h
  have h := Keeps.refl s
  repeat' first | with_reducible assumption | with_reducible exact Keeps.refl _ | with_reducible apply Keeps.ite | with_reducible apply Keeps.step keeps_loadData | intro _ | split

theorem keeps_execLockGateCommit (h : execLockGateCommit s = .next t) : Keeps s t := by
  refine keeps_gated (fun s => ?_) h
  have h := Keeps.refl s
  repeat' first | with_reducible assumption | with_reducible exact Keeps.refl _ | with_reducible apply Keeps.ite | with_reducible apply Keeps.step keeps_lockGateCommit | intro _ | split

theorem keeps_execLockOrAlignmentLost {x0 : _} (h : execLockOrAlignmentLost x0 s = .next t) : Keeps s t := by
  refine keeps_gated (fun s => ?_) h
  have h := Keeps.refl s
  repeat' first | with_reducible assumption | with_reducible exact Keeps.refl _ | with_reducible apply Keeps.ite | with_reducible apply Keeps.step keeps_linkLost | intro _ | split

theorem keeps_execLockTimeout (h : execLockTimeout s = .next t) : Keeps s t := by
  refine keeps_gated (fun s => ?_) h
  have h := Keeps.refl s
  repeat' first | with_reducible assumption | with_reducible exact Keeps.refl _ | with_reducible apply Keeps.ite | with_reducible apply Keeps.step keeps_lockTimeout | intro _ | split

theorem still_execLockWindowOpen (h : execLockWindowOpen s = .next t) : Still s t := by
  refine still_gated (fun s => ?_) h
  have h := Still.refl s
  repeat' first | with_reducible assumption | with_reducible exact Still.refl _ | with_reducible apply Still.ite | with_reducible apply Still.step still_lockWindowOpen | intro _ | split

theorem still_execLogbookFlushTimer (h : execLogbookFlushTimer s = .next t) : Still s t := by
  refine still_gated (fun s => ?_) h
  have h := Still.refl s
  repeat' first | with_reducible assumption | with_reducible exact Still.refl _ | with_reducible apply Still.ite | with_reducible apply Still.step still_logFlush | intro _ | split

theorem holds_execLoopFrame {x0 : _} (h : execLoopFrame x0 s = .next t) : Holds s t := by
  refine holds_gated (fun s => ?_) h
  have h := Holds.refl s
  repeat' first | with_reducible assumption | with_reducible exact Holds.refl _ | with_reducible apply Holds.ite | with_reducible apply Holds.step holds_loopFrame | intro _ | split

theorem still_execLoopMode {x0 : _} {x1 : _} (h : execLoopMode x0 x1 s = .next t) : Still s t := by
  refine still_gated (fun s => ?_) h
  have h := Still.refl s
  repeat' first | with_reducible assumption | with_reducible exact Still.refl _ | with_reducible apply Still.ite | with_reducible apply Still.step still_loopMode | intro _ | split

theorem still_execMeasurementComplete {x0 : _} (h : execMeasurementComplete x0 s = .next t) : Still s t := by
  refine still_gated (fun s => ?_) h
  have h := Still.refl s
  repeat' first | with_reducible assumption | with_reducible exact Still.refl _ | with_reducible apply Still.ite | with_reducible apply Still.step still_measurementComplete | intro _ | split

theorem still_execMeasurementInterval {x0 : _} (h : execMeasurementInterval x0 s = .next t) : Still s t := by
  refine still_gated (fun s => ?_) h
  have h := Still.refl s
  repeat' first | with_reducible assumption | with_reducible exact Still.refl _ | with_reducible apply Still.ite | with_reducible apply Still.step still_modLink | intro _ | split

theorem keeps_execMemoryRequest {x0 : _} (h : execMemoryRequest x0 s = .next t) : Keeps s t := by
  unfold execMemoryRequest at h
  split at h
  · cases h
  · exact keeps_gated (fun _ => keeps_memoryRequest) h

theorem still_execMinimumDelayInterval (h : execMinimumDelayInterval s = .next t) : Still s t := by
  refine still_gated (fun s => ?_) h
  have h := Still.refl s
  repeat' first | with_reducible assumption | with_reducible exact Still.refl _ | with_reducible apply Still.ite | with_reducible apply Still.step still_minimumDelayInterval | intro _ | split

theorem still_execMotionHoldClear (h : execMotionHoldClear s = .next t) : Still s t := by
  refine still_gated (fun s => ?_) h
  have h := Still.refl s
  repeat' first | with_reducible assumption | with_reducible exact Still.refl _ | with_reducible apply Still.ite | with_reducible apply Still.step still_setN | intro _ | split

theorem keeps_execNoHostCopy {x0 : _} (h : execNoHostCopy x0 s = .next t) : Keeps s t := by
  refine keeps_gated (fun s => ?_) h
  have h := Keeps.refl s
  repeat' first | with_reducible assumption | with_reducible exact Keeps.refl _ | with_reducible apply Keeps.ite | with_reducible apply Keeps.step keeps_noHostCopy | intro _ | split

theorem still_execNoticeBatch {x0 : _} (h : execNoticeBatch x0 s = .next t) : Still s t := by
  refine still_gated (fun s => ?_) h
  have h := Still.refl s
  repeat' first | with_reducible assumption | with_reducible exact Still.refl _ | with_reducible apply Still.ite | with_reducible apply Still.step still_sendNotices | intro _ | split

theorem holds_execNrst {x0 : _} (h : execNrst x0 s = .next t) : Holds s t := by
  refine holds_gated (fun s => ?_) h
  have h := Holds.refl s
  repeat' first | with_reducible assumption | with_reducible exact Holds.refl _ | with_reducible apply Holds.ite | with_reducible apply Holds.step holds_wholeReset | intro _ | split

theorem keeps_execObjectWrite {x0 : _} {x1 : _} {x2 : _} {x3 : _} (h : execObjectWrite x0 x1 x2 x3 s = .next t) : Keeps s t := by
  refine keeps_gated (fun s => ?_) h
  have h := Keeps.refl s
  repeat' first | with_reducible assumption | with_reducible exact Keeps.refl _ | with_reducible apply Keeps.ite | with_reducible apply Keeps.step keeps_applyWrite | intro _ | split

theorem still_execOpenSession {x0 : _} (h : execOpenSession x0 s = .next t) : Still s t := by
  refine still_gated (fun s => ?_) h
  have h := Still.refl s
  repeat' first | with_reducible assumption | with_reducible exact Still.refl _ | with_reducible apply Still.ite | with_reducible apply Still.step still_openSession | intro _ | split

theorem still_execOverload (h : execOverload s = .next t) : Still s t := by
  refine still_gated (fun s => ?_) h
  have h := Still.refl s
  repeat' first | with_reducible assumption | with_reducible exact Still.refl _ | with_reducible apply Still.ite | with_reducible apply Still.step still_overload | intro _ | split

theorem still_execPageIdleClose {x0 : _} {x1 : _} (h : execPageIdleClose x0 x1 s = .next t) : Still s t := by
  refine still_gated (fun s => ?_) h
  have h := Still.refl s
  repeat' first | with_reducible assumption | with_reducible exact Still.refl _ | with_reducible apply Still.ite | with_reducible apply Still.step still_modBank | intro _ | split

theorem keeps_execPatrolScrub {x0 : _} (h : execPatrolScrub x0 s = .next t) : Keeps s t := by
  refine keeps_gated (fun s => ?_) h
  have h := Keeps.refl s
  repeat' first | with_reducible assumption | with_reducible exact Keeps.refl _ | with_reducible apply Keeps.ite | with_reducible apply Keeps.step keeps_patrolScrub | intro _ | split

theorem keeps_execPauseAtSafePoint {x0 : _} (h : execPauseAtSafePoint x0 s = .next t) : Keeps s t := by
  refine keeps_gated (fun s => ?_) h
  have h := Keeps.refl s
  repeat' first | with_reducible assumption | with_reducible exact Keeps.refl _ | with_reducible apply Keeps.ite | with_reducible apply Keeps.step keeps_stopBerth | intro _ | split

theorem keeps_execPauseNow {x0 : _} {x1 : _} (h : execPauseNow x0 x1 s = .next t) : Keeps s t := by
  refine keeps_gated (fun s => ?_) h
  have h := Keeps.refl s
  repeat' first | with_reducible assumption | with_reducible exact Keeps.refl _ | with_reducible apply Keeps.ite | with_reducible apply Keeps.step keeps_stopBerth | intro _ | split

theorem still_execPdelayReq {x0 : _} (h : execPdelayReq x0 s = .next t) : Still s t := by
  refine still_gated (fun s => ?_) h
  have h := Still.refl s
  repeat' first | with_reducible assumption | with_reducible exact Still.refl _ | with_reducible apply Still.ite | with_reducible apply Still.step still_pdelayReq | intro _ | split

theorem still_execPdelayResp {x0 : _} (h : execPdelayResp x0 s = .next t) : Still s t := by
  refine still_gated (fun s => ?_) h
  have h := Still.refl s
  repeat' first | with_reducible assumption | with_reducible exact Still.refl _ | with_reducible apply Still.ite | with_reducible apply Still.step still_pdelayResp | intro _ | split

theorem still_execPortLinkDown {x0 : _} (h : execPortLinkDown x0 s = .next t) : Still s t := by
  refine still_gated (fun s => ?_) h
  have h := Still.refl s
  repeat' first | with_reducible assumption | with_reducible exact Still.refl _ | with_reducible apply Still.ite | with_reducible apply Still.step still_portBit | intro _ | split

theorem still_execPortLinkUp {x0 : _} (h : execPortLinkUp x0 s = .next t) : Still s t := by
  refine still_gated (fun s => ?_) h
  have h := Still.refl s
  repeat' first | with_reducible assumption | with_reducible exact Still.refl _ | with_reducible apply Still.ite | with_reducible apply Still.step still_portLinkUp | intro _ | split

theorem still_execPositiveGoingZeroCrossing (h : execPositiveGoingZeroCrossing s = .next t) : Still s t := by
  refine still_gated (fun s => ?_) h
  have h := Still.refl s
  repeat' first | with_reducible assumption | with_reducible exact Still.refl _ | with_reducible apply Still.ite | with_reducible apply Still.step still_modMains | with_reducible apply Still.step still_setN | intro _ | split

theorem holds_execPowerOnReset {x0 : _} (h : execPowerOnReset x0 s = .next t) : Holds s t := by
  refine holds_gated (fun s => ?_) h
  have h := Holds.refl s
  repeat' first | with_reducible assumption | with_reducible exact Holds.refl _ | with_reducible apply Holds.ite | with_reducible apply Holds.step holds_wholeReset | intro _ | split

theorem still_execPowerSample {x0 : _} {x1 : _} (h : execPowerSample x0 x1 s = .next t) : Still s t := by
  refine still_gated (fun s => ?_) h
  have h := Still.refl s
  repeat' first | with_reducible assumption | with_reducible exact Still.refl _ | with_reducible apply Still.ite | with_reducible apply Still.step still_powerSample | intro _ | split

theorem still_execPresence {x0 : _} (h : execPresence x0 s = .next t) : Still s t := by
  refine still_gated (fun s => ?_) h
  have h := Still.refl s
  repeat' first | with_reducible assumption | with_reducible exact Still.refl _ | with_reducible apply Still.ite | with_reducible apply Still.step still_presence | intro _ | split

theorem still_execProjectorEntry (h : execProjectorEntry s = .next t) : Still s t := by
  refine still_gated (fun s => ?_) h
  have h := Still.refl s
  repeat' first | with_reducible assumption | with_reducible exact Still.refl _ | with_reducible apply Still.ite | with_reducible apply Still.step still_projectorEntry | intro _ | split

theorem still_execProjectorStartTime (h : execProjectorStartTime s = .next t) : Still s t := by
  refine still_gated (fun s => ?_) h
  have h := Still.refl s
  repeat' first | with_reducible assumption | with_reducible exact Still.refl _ | with_reducible apply Still.ite | with_reducible apply Still.step still_projectorStart | intro _ | split

theorem still_execQtime {x0 : _} {x1 : _} (h : execQtime x0 x1 s = .next t) : Still s t := by
  refine still_gated (fun s => ?_) h
  have h := Still.refl s
  repeat' first | with_reducible assumption | with_reducible exact Still.refl _ | with_reducible apply Still.ite | with_reducible apply still_hearFrame | with_reducible apply Still.step still_qtime | intro _ | split

theorem keeps_execRead {x0 : _} {x1 : _} {x2 : _} (h : execRead x0 x1 x2 s = .next t) : Keeps s t := by
  refine keeps_gated (fun s => ?_) h
  have h := Keeps.refl s
  repeat' first | with_reducible assumption | with_reducible exact Keeps.refl _ | with_reducible apply Keeps.ite | with_reducible apply Keeps.step keeps_receive | intro _ | split

theorem still_execReadPointer {x0 : _} {x1 : _} (h : execReadPointer x0 x1 s = .next t) : Still s t := by
  refine still_gated (fun s => ?_) h
  have h := Still.refl s
  repeat' first | with_reducible assumption | with_reducible exact Still.refl _ | with_reducible apply Still.ite | with_reducible apply Still.step still_readPointer | intro _ | split

theorem still_execReassignBerth {x0 : _} (h : execReassignBerth x0 s = .next t) : Still s t := by
  refine still_gated (fun s => ?_) h
  have h := Still.refl s
  repeat' first | with_reducible assumption | with_reducible exact Still.refl _ | with_reducible apply Still.ite | with_reducible apply Still.step still_reassignBerth | intro _ | split

theorem keeps_execReassignment (h : execReassignment s = .next t) : Keeps s t := by
  refine keeps_gated (fun s => ?_) h
  have h := Keeps.refl s
  repeat' first | with_reducible assumption | with_reducible exact Keeps.refl _ | with_reducible apply Keeps.ite | with_reducible apply Keeps.each | with_reducible apply Keeps.step keeps_reassignRuns | intro _ | split | with_reducible apply Keeps.upd

theorem keeps_execRecordMissing {x0 : _} (h : execRecordMissing x0 s = .next t) : Keeps s t := by
  refine keeps_gated (fun s => ?_) h
  have h := Keeps.refl s
  repeat' first | with_reducible assumption | with_reducible exact Keeps.refl _ | with_reducible apply Keeps.ite | with_reducible apply Keeps.step keeps_recordMissing | intro _ | split

theorem still_execReferenceArm {x0 : _} (h : execReferenceArm x0 s = .next t) : Still s t := by
  refine still_gated (fun s => ?_) h
  have h := Still.refl s
  repeat' first | with_reducible assumption | with_reducible exact Still.refl _ | with_reducible apply Still.ite | with_reducible apply Still.step still_referenceArm | intro _ | split

theorem still_execRefresh {x0 : _} {x1 : _} (h : execRefresh x0 x1 s = .next t) : Still s t := by
  refine still_gated (fun s => ?_) h
  have h := Still.refl s
  repeat' first | with_reducible assumption | with_reducible exact Still.refl _ | with_reducible apply Still.ite | with_reducible apply Still.step still_refresh | intro _ | split

theorem still_execRelease {x0 : _} (h : execRelease x0 s = .next t) : Still s t := by
  refine still_gated (fun s => ?_) h
  have h := Still.refl s
  repeat' first | with_reducible assumption | with_reducible exact Still.refl _ | with_reducible apply Still.ite | with_reducible apply Still.step still_release | intro _ | split

theorem keeps_execRepairComplete {x0 : _} {x1 : _} (h : execRepairComplete x0 x1 s = .next t) : Keeps s t := by
  refine keeps_gated (fun s => ?_) h
  have h := Keeps.refl s
  repeat' first | with_reducible assumption | with_reducible exact Keeps.refl _ | with_reducible apply Keeps.ite | with_reducible apply Keeps.step keeps_repairComplete | intro _ | split

theorem still_execReportPeriod {x0 : _} {x1 : _} (h : execReportPeriod x0 x1 s = .next t) : Still s t := by
  refine still_gated (fun s => ?_) h
  have h := Still.refl s
  repeat' first | with_reducible assumption | with_reducible exact Still.refl _ | with_reducible apply Still.ite | with_reducible apply Still.step still_sendReport | intro _ | split

theorem still_execRestoreDefaults (h : execRestoreDefaults s = .next t) : Still s t := by
  refine still_gated (fun s => ?_) h
  have h := Still.refl s
  repeat' first | with_reducible assumption | with_reducible exact Still.refl _ | with_reducible apply Still.ite | with_reducible apply Still.step still_restoreDefaults | intro _ | split

theorem keeps_execResume {x0 : _} {x1 : _} (h : execResume x0 x1 s = .next t) : Keeps s t := by
  refine keeps_gated (fun s => ?_) h
  have h := Keeps.refl s
  repeat' first | with_reducible assumption | with_reducible exact Keeps.refl _ | with_reducible apply Keeps.ite | with_reducible apply Keeps.step keeps_resume | intro _ | split

theorem still_execRetrain {x0 : _} (h : execRetrain x0 s = .next t) : Still s t := by
  refine still_gated (fun s => ?_) h
  have h := Still.refl s
  repeat' first | with_reducible assumption | with_reducible exact Still.refl _ | with_reducible apply Still.ite | with_reducible apply Still.step still_retrain | intro _ | split

theorem still_execRetrainStart {x0 : _} (h : execRetrainStart x0 s = .next t) : Still s t := by
  refine still_gated (fun s => ?_) h
  have h := Still.refl s
  repeat' first | with_reducible assumption | with_reducible exact Still.refl _ | with_reducible apply Still.ite | with_reducible apply Still.step still_retrainStart | intro _ | split

theorem still_execRetryInterval {x0 : _} (h : execRetryInterval x0 s = .next t) : Still s t := by
  refine still_gated (fun s => ?_) h
  have h := Still.refl s
  repeat' first | with_reducible assumption | with_reducible exact Still.refl _ | with_reducible apply Still.ite | with_reducible apply Still.step still_enterDetect | intro _ | split

theorem still_execRunComplete (h : execRunComplete s = .next t) : Still s t := by
  refine still_gated (fun s => ?_) h
  have h := Still.refl s
  repeat' first | with_reducible assumption | with_reducible exact Still.refl _ | with_reducible apply Still.ite | with_reducible apply Still.step still_runComplete | intro _ | split

theorem keeps_execRungRequest {x0 : _} (h : execRungRequest x0 s = .next t) : Keeps s t := by
  refine keeps_gated (fun s => ?_) h
  have h := Keeps.refl s
  repeat' first | with_reducible assumption | with_reducible exact Keeps.refl _ | with_reducible apply Keeps.ite | with_reducible apply Keeps.step keeps_rungRequest | intro _ | split

theorem keeps_execSafePointReached {x0 : _} (h : execSafePointReached x0 s = .next t) : Keeps s t := by
  refine keeps_gated (fun s => ?_) h
  have h := Keeps.refl s
  repeat' first | with_reducible assumption | with_reducible exact Keeps.refl _ | with_reducible apply Keeps.ite | with_reducible apply Keeps.step keeps_safePointReached | intro _ | split

theorem keeps_execSampleAnchor {x0 : _} (h : execSampleAnchor x0 s = .next t) : Keeps s t := by
  refine keeps_gated (fun s => ?_) h
  have h := Keeps.refl s
  repeat' first | with_reducible assumption | with_reducible exact Keeps.refl _ | with_reducible apply Keeps.ite | with_reducible apply Keeps.step keeps_writeAnchor | intro _ | split

theorem still_execSeal {x0 : _} {x1 : _} {x2 : _} {x3 : _} (h : execSeal x0 x1 x2 x3 s = .next t) : Still s t := by
  refine still_gated (fun s => ?_) h
  have h := Still.refl s
  repeat' first | with_reducible assumption | with_reducible exact Still.refl _ | with_reducible apply Still.ite | with_reducible apply still_sealWrite | with_reducible apply Still.step still_sealGroup | intro _ | split

theorem still_execSeat {x0 : _} {x1 : _} (h : execSeat x0 x1 s = .next t) : Still s t := by
  refine still_gated (fun s => ?_) h
  have h := Still.refl s
  repeat' first | with_reducible assumption | with_reducible exact Still.refl _ | with_reducible apply Still.ite | with_reducible apply still_hearFrame | with_reducible apply Still.step still_seat | intro _ | split

theorem keeps_execSeatFrameMissing {x0 : _} (h : execSeatFrameMissing x0 s = .next t) : Keeps s t := by
  refine keeps_gated (fun s => ?_) h
  have h := Keeps.refl s
  repeat' first | with_reducible assumption | with_reducible exact Keeps.refl _ | with_reducible apply Keeps.ite | with_reducible apply Keeps.step keeps_quayLost | intro _ | split

theorem still_execSelfRefreshEntry {x0 : _} (h : execSelfRefreshEntry x0 s = .next t) : Still s t := by
  refine still_gated (fun s => ?_) h
  have h := Still.refl s
  repeat' first | with_reducible assumption | with_reducible exact Still.refl _ | with_reducible apply Still.ite | with_reducible apply Still.step still_selfRefreshEntry | intro _ | split

theorem still_execSequenceStart (h : execSequenceStart s = .next t) : Still s t := by
  refine still_gated (fun s => ?_) h
  have h := Still.refl s
  repeat' first | with_reducible assumption | with_reducible exact Still.refl _ | with_reducible apply Still.ite | with_reducible apply Still.step still_sequenceStart | intro _ | split

theorem still_execSequenceStop (h : execSequenceStop s = .next t) : Still s t := by
  refine still_gated (fun s => ?_) h
  have h := Still.refl s
  repeat' first | with_reducible assumption | with_reducible exact Still.refl _ | with_reducible apply Still.ite | with_reducible apply Still.step still_stopSequence | intro _ | split

theorem still_execServoLocked (h : execServoLocked s = .next t) : Still s t := by
  refine still_gated (fun s => ?_) h
  have h := Still.refl s
  repeat' first | with_reducible assumption | with_reducible exact Still.refl _ | with_reducible apply Still.ite | with_reducible apply Still.step still_setN | intro _ | split

theorem still_execSessionTimeout {x0 : _} (h : execSessionTimeout x0 s = .next t) : Still s t := by
  refine still_gated (fun s => ?_) h
  have h := Still.refl s
  repeat' first | with_reducible assumption | with_reducible exact Still.refl _ | with_reducible apply Still.ite | with_reducible apply Still.step still_closeNow | intro _ | split

theorem still_execSettleTime {x0 : _} (h : execSettleTime x0 s = .next t) : Still s t := by
  refine still_gated (fun s => ?_) h
  have h := Still.refl s
  repeat' first | with_reducible assumption | with_reducible exact Still.refl _ | with_reducible apply Still.ite | with_reducible apply Still.step still_settleTime | intro _ | split

theorem keeps_execSignProof {x0 : _} {x1 : _} {x2 : _} {x3 : _} (h : execSignProof x0 x1 x2 x3 s = .next t) : Keeps s t := by
  refine keeps_gated (fun s => ?_) h
  have h := Keeps.refl s
  repeat' first | with_reducible assumption | with_reducible exact Keeps.refl _ | with_reducible apply Keeps.ite | with_reducible apply Keeps.step keeps_receive | intro _ | split

theorem still_execSignalDetected {x0 : _} (h : execSignalDetected x0 s = .next t) : Still s t := by
  refine still_gated (fun s => ?_) h
  have h := Still.refl s
  repeat' first | with_reducible assumption | with_reducible exact Still.refl _ | with_reducible apply Still.ite | with_reducible apply Still.step still_setLinkState | intro _ | split

theorem still_execSignedLockoutEnd (h : execSignedLockoutEnd s = .next t) : Still s t := by
  refine still_gated (fun s => ?_) h
  have h := Still.refl s
  repeat' first | with_reducible assumption | with_reducible exact Still.refl _ | with_reducible apply Still.ite | with_reducible apply Still.step still_setN | intro _ | split

theorem still_execSlotClear {x0 : _} {x1 : _} (h : execSlotClear x0 x1 s = .next t) : Still s t := by
  refine still_gated (fun s => ?_) h
  have h := Still.refl s
  repeat' first | with_reducible assumption | with_reducible exact Still.refl _ | with_reducible apply Still.ite | with_reducible apply Still.step still_slotClear | intro _ | split

theorem still_execSpiReadRequest {x0 : _} {x1 : _} {x2 : _} {x3 : _} {x4 : _} (h : execSpiReadRequest x0 x1 x2 x3 x4 s = .next t) : Still s t := by
  refine still_gated (fun s => ?_) h
  have h := Still.refl s
  repeat' first | with_reducible assumption | with_reducible exact Still.refl _ | with_reducible apply Still.ite | with_reducible apply still_spiRequest | with_reducible apply Still.step still_spiRead | intro _ | split

theorem still_execSpiStatus (h : execSpiStatus s = .next t) : Still s t := by
  refine still_gated (fun s => ?_) h
  have h := Still.refl s
  repeat' first | with_reducible assumption | with_reducible exact Still.refl _ | with_reducible apply Still.ite | with_reducible apply Still.step still_spiOut | with_reducible apply Still.step still_spiSeen | intro _ | split

theorem keeps_execSpiWrite {x0 : _} {x1 : _} (h : execSpiWrite x0 x1 s = .next t) : Keeps s t := by
  refine keeps_gated (fun s => ?_) h
  have h := Keeps.refl s
  repeat' first | with_reducible assumption | with_reducible exact Keeps.refl _ | with_reducible apply Keeps.ite | with_reducible apply keeps_spiRequest | with_reducible apply Keeps.step keeps_spiWriteEntry | intro _ | split

theorem keeps_execSpiWriteFenced {x0 : _} {x1 : _} (h : execSpiWriteFenced x0 x1 s = .next t) : Keeps s t := by
  refine keeps_gated (fun s => ?_) h
  have h := Keeps.refl s
  repeat' first | with_reducible assumption | with_reducible exact Keeps.refl _ | with_reducible apply Keeps.ite | with_reducible apply keeps_spiRequest | with_reducible apply Keeps.step keeps_spiWriteEntry | intro _ | split

theorem still_execSpot {x0 : _} {x1 : _} (h : execSpot x0 x1 s = .next t) : Still s t := by
  refine still_gated (fun s => ?_) h
  have h := Still.refl s
  repeat' first | with_reducible assumption | with_reducible exact Still.refl _ | with_reducible apply Still.ite | with_reducible apply still_hearFrame | with_reducible apply Still.step still_spot | intro _ | split

theorem still_execSsiFrame {x0 : _} {x1 : _} {x2 : _} {x3 : _} {x4 : _} (h : execSsiFrame x0 x1 x2 x3 x4 s = .next t) : Still s t := by
  refine still_gated (fun s => ?_) h
  have h := Still.refl s
  repeat' first | with_reducible assumption | with_reducible exact Still.refl _ | with_reducible apply Still.ite | with_reducible apply Still.step still_ssiFrame | intro _ | split

theorem still_execStall {x0 : _} (h : execStall x0 s = .next t) : Still s t := by
  refine still_gated (fun s => ?_) h
  have h := Still.refl s
  repeat' first | with_reducible assumption | with_reducible exact Still.refl _ | with_reducible apply Still.ite | with_reducible apply Still.step still_stall | intro _ | split

theorem still_execStallClear {x0 : _} (h : execStallClear x0 s = .next t) : Still s t := by
  refine still_gated (fun s => ?_) h
  have h := Still.refl s
  repeat' first | with_reducible assumption | with_reducible exact Still.refl _ | with_reducible apply Still.ite | with_reducible apply Still.step still_stallClear | intro _ | split

theorem still_execStandstillDelay {x0 : _} (h : execStandstillDelay x0 s = .next t) : Still s t := by
  refine still_gated (fun s => ?_) h
  have h := Still.refl s
  repeat' first | with_reducible assumption | with_reducible exact Still.refl _ | with_reducible apply Still.ite | with_reducible apply Still.step still_standstillDelay | intro _ | split

theorem keeps_execStatus {x0 : _} {x1 : _} (h : execStatus x0 x1 s = .next t) : Keeps s t := by
  refine keeps_gated (fun s => ?_) h
  have h := Keeps.refl s
  repeat' first | with_reducible assumption | with_reducible exact Keeps.refl _ | with_reducible apply Keeps.ite | with_reducible apply keeps_hearFrame | with_reducible apply Keeps.step keeps_status | intro _ | split

theorem still_execStopDecelerate {x0 : _} (h : execStopDecelerate x0 s = .next t) : Still s t := by
  refine still_gated (fun s => ?_) h
  have h := Still.refl s
  repeat' first | with_reducible assumption | with_reducible exact Still.refl _ | with_reducible apply Still.ite | with_reducible apply Still.step still_stopDecelerate | intro _ | split

theorem still_execStopFreeze {x0 : _} (h : execStopFreeze x0 s = .next t) : Still s t := by
  refine still_gated (fun s => ?_) h
  have h := Still.refl s
  repeat' first | with_reducible assumption | with_reducible exact Still.refl _ | with_reducible apply Still.ite | with_reducible apply Still.step still_stopFreeze | intro _ | split

theorem still_execStore (h : execStore s = .next t) : Still s t := by
  refine still_gated (fun s => ?_) h
  have h := Still.refl s
  repeat' first | with_reducible assumption | with_reducible exact Still.refl _ | with_reducible apply Still.ite | with_reducible apply Still.step still_storeStart | intro _ | split

theorem still_execStoreComplete {x0 : _} (h : execStoreComplete x0 s = .next t) : Still s t := by
  refine still_gated (fun s => ?_) h
  have h := Still.refl s
  repeat' first | with_reducible assumption | with_reducible exact Still.refl _ | with_reducible apply Still.ite | with_reducible apply Still.step still_storeComplete | intro _ | split

theorem keeps_execStreamResume {x0 : _} (h : execStreamResume x0 s = .next t) : Keeps s t := by
  refine keeps_gated (fun s => ?_) h
  have h := Keeps.refl s
  repeat' first | with_reducible assumption | with_reducible exact Keeps.refl _ | with_reducible apply Keeps.ite | with_reducible apply Keeps.step keeps_streamResume | intro _ | split

theorem still_execStrokeEnd {x0 : _} (h : execStrokeEnd x0 s = .next t) : Still s t := by
  refine still_gated (fun s => ?_) h
  have h := Still.refl s
  repeat' first | with_reducible assumption | with_reducible exact Still.refl _ | with_reducible apply Still.ite | with_reducible apply Still.step still_axisStand | intro _ | split

theorem keeps_execSubscribe {x0 : _} {x1 : _} {x2 : _} (h : execSubscribe x0 x1 x2 s = .next t) : Keeps s t := by
  refine keeps_gated (fun s => ?_) h
  have h := Keeps.refl s
  repeat' first | with_reducible assumption | with_reducible exact Keeps.refl _ | with_reducible apply Keeps.ite | with_reducible apply Keeps.step keeps_receive | intro _ | split

theorem still_execSync {x0 : _} (h : execSync x0 s = .next t) : Still s t := by
  refine still_gated (fun s => ?_) h
  have h := Still.refl s
  repeat' first | with_reducible assumption | with_reducible exact Still.refl _ | with_reducible apply Still.ite | with_reducible apply Still.step still_sync | intro _ | split

theorem still_execSyncInterval (h : execSyncInterval s = .next t) : Still s t := by
  refine still_gated (fun s => ?_) h
  have h := Still.refl s
  repeat' first | with_reducible assumption | with_reducible exact Still.refl _ | with_reducible apply Still.ite | with_reducible apply Still.step still_syncInterval | intro _ | split

theorem still_execTarget {x0 : _} {x1 : _} (h : execTarget x0 x1 s = .next t) : Still s t := by
  refine still_gated (fun s => ?_) h
  have h := Still.refl s
  repeat' first | with_reducible assumption | with_reducible exact Still.refl _ | with_reducible apply Still.ite | with_reducible apply Still.step still_target | intro _ | split

theorem keeps_execTemperatureReportTimeout {x0 : _} (h : execTemperatureReportTimeout x0 s = .next t) : Keeps s t := by
  refine keeps_gated (fun s => ?_) h
  have h := Keeps.refl s
  repeat' first | with_reducible assumption | with_reducible exact Keeps.refl _ | with_reducible apply Keeps.ite | with_reducible apply Keeps.step keeps_temperatureTimeout | intro _ | split

theorem keeps_execTideEnable {x0 : _} (h : execTideEnable x0 s = .next t) : Keeps s t := by
  refine keeps_gated (fun s => ?_) h
  have h := Keeps.refl s
  repeat' first | with_reducible assumption | with_reducible exact Keeps.refl _ | with_reducible apply Keeps.ite | with_reducible apply Keeps.step keeps_tideEnable | intro _ | split

theorem still_execTideLock (h : execTideLock s = .next t) : Still s t := by
  refine still_gated (fun s => ?_) h
  have h := Still.refl s
  repeat' first | with_reducible assumption | with_reducible exact Still.refl _ | with_reducible apply Still.ite | with_reducible apply Still.step still_setN | intro _ | split

theorem still_execTideLockLost (h : execTideLockLost s = .next t) : Still s t := by
  refine still_gated (fun s => ?_) h
  have h := Still.refl s
  repeat' first | with_reducible assumption | with_reducible exact Still.refl _ | with_reducible apply Still.ite | with_reducible apply Still.step still_setN | intro _ | split

theorem keeps_execTile {x0 : _} {x1 : _} (h : execTile x0 x1 s = .next t) : Keeps s t := by
  refine keeps_gated (fun s => ?_) h
  have h := Keeps.refl s
  repeat' first | with_reducible assumption | with_reducible exact Keeps.refl _ | with_reducible apply Keeps.ite | with_reducible apply keeps_hearFrame | with_reducible apply Keeps.still still_askTiles | with_reducible apply Keeps.still still_crcError | with_reducible apply Keeps.step keeps_tile | intro _ | split

theorem still_execTileFrameTimeout {x0 : _} (h : execTileFrameTimeout x0 s = .next t) : Still s t := by
  refine still_gated (fun s => ?_) h
  have h := Still.refl s
  repeat' first | with_reducible assumption | with_reducible exact Still.refl _ | with_reducible apply Still.ite | with_reducible apply Still.step still_frameTimeout | intro _ | split

theorem keeps_execTileProcessed {x0 : _} (h : execTileProcessed x0 s = .next t) : Keeps s t := by
  refine keeps_gated (fun s => ?_) h
  have h := Keeps.refl s
  repeat' first | with_reducible assumption | with_reducible exact Keeps.refl _ | with_reducible apply Keeps.ite | with_reducible apply Keeps.step keeps_tileProcessed | intro _ | split

theorem still_execTimeSet {x0 : _} (h : execTimeSet x0 s = .next t) : Still s t := by
  refine still_gated (fun s => ?_) h
  have h := Still.refl s
  repeat' first | with_reducible assumption | with_reducible exact Still.refl _ | with_reducible apply Still.ite | with_reducible apply Still.step still_timeSet | intro _ | split

theorem still_execTrainingComplete {x0 : _} (h : execTrainingComplete x0 s = .next t) : Still s t := by
  refine still_gated (fun s => ?_) h
  have h := Still.refl s
  repeat' first | with_reducible assumption | with_reducible exact Still.refl _ | with_reducible apply Still.ite | with_reducible apply Still.step still_trainingComplete | intro _ | split

theorem still_execTrainingTimeout {x0 : _} (h : execTrainingTimeout x0 s = .next t) : Still s t := by
  refine still_gated (fun s => ?_) h
  have h := Still.refl s
  repeat' first | with_reducible assumption | with_reducible exact Still.refl _ | with_reducible apply Still.ite | with_reducible apply Still.step still_attemptFails | intro _ | split

theorem still_execTripClear {x0 : _} (h : execTripClear x0 s = .next t) : Still s t := by
  refine still_gated (fun s => ?_) h
  have h := Still.refl s
  repeat' first | with_reducible assumption | with_reducible exact Still.refl _ | with_reducible apply Still.ite | with_reducible apply Still.step still_tripClear | intro _ | split

theorem still_execUnseal {x0 : _} {x1 : _} {x2 : _} (h : execUnseal x0 x1 x2 s = .next t) : Still s t := by
  refine still_gated (fun s => ?_) h
  have h := Still.refl s
  repeat' first | with_reducible assumption | with_reducible exact Still.refl _ | with_reducible apply Still.ite | with_reducible apply still_sealWrite | with_reducible apply Still.step still_unsealGroup | intro _ | split

theorem still_execUpdateDiscard (h : execUpdateDiscard s = .next t) : Still s t := by
  refine still_gated (fun s => ?_) h
  have h := Still.refl s
  repeat' first | with_reducible assumption | with_reducible exact Still.refl _ | with_reducible apply Still.ite | with_reducible apply Still.step still_updateDiscard | intro _ | split

theorem still_execUpdateReady {x0 : _} (h : execUpdateReady x0 s = .next t) : Still s t := by
  refine still_gated (fun s => ?_) h
  have h := Still.refl s
  repeat' first | with_reducible assumption | with_reducible exact Still.refl _ | with_reducible apply Still.ite | with_reducible apply Still.step still_updateReady | intro _ | split

theorem still_execValidationComplete {x0 : _} {x1 : _} (h : execValidationComplete x0 x1 s = .next t) : Still s t := by
  refine still_gated (fun s => ?_) h
  have h := Still.refl s
  repeat' first | with_reducible assumption | with_reducible exact Still.refl _ | with_reducible apply Still.ite | with_reducible apply Still.step still_validationComplete | intro _ | split

theorem still_execVerifyAndWrite (h : execVerifyAndWrite s = .next t) : Still s t := by
  refine still_gated (fun s => ?_) h
  have h := Still.refl s
  repeat' first | with_reducible assumption | with_reducible exact Still.refl _ | with_reducible apply Still.ite | with_reducible apply Still.step still_verifyAndWrite | intro _ | split

theorem still_execWaitComplete {x0 : _} (h : execWaitComplete x0 s = .next t) : Still s t := by
  refine still_gated (fun s => ?_) h
  have h := Still.refl s
  repeat' first | with_reducible assumption | with_reducible exact Still.refl _ | with_reducible apply Still.ite | with_reducible apply Still.step still_waitComplete | intro _ | split

theorem keeps_execWaitTimeout {x0 : _} (h : execWaitTimeout x0 s = .next t) : Keeps s t := by
  refine keeps_gated (fun s => ?_) h
  have h := Keeps.refl s
  repeat' first | with_reducible assumption | with_reducible exact Keeps.refl _ | with_reducible apply Keeps.ite | with_reducible apply Keeps.step keeps_waitTimeout | intro _ | split

theorem keeps_execWake {x0 : _} {x1 : _} (h : execWake x0 x1 s = .next t) : Keeps s t := by
  refine keeps_gated (fun s => ?_) h
  have h := Keeps.refl s
  repeat' first | with_reducible assumption | with_reducible exact Keeps.refl _ | with_reducible apply Keeps.ite | with_reducible apply Keeps.step keeps_wakeUp | intro _ | split

theorem still_execWakeRelease (h : execWakeRelease s = .next t) : Still s t := by
  refine still_gated (fun s => ?_) h
  have h := Still.refl s
  repeat' first | with_reducible assumption | with_reducible exact Still.refl _ | with_reducible apply Still.ite | with_reducible apply Still.step still_wakeRelease | intro _ | split

theorem still_execWakeResume {x0 : _} (h : execWakeResume x0 s = .next t) : Still s t := by
  refine still_gated (fun s => ?_) h
  have h := Still.refl s
  repeat' first | with_reducible assumption | with_reducible exact Still.refl _ | with_reducible apply Still.ite | with_reducible apply Still.step still_wakeResume | intro _ | split

theorem keeps_execWarmReset (h : execWarmReset s = .next t) : Keeps s t := by
  refine keeps_gated (fun s => ?_) h
  have h := Keeps.refl s
  repeat' first | with_reducible assumption | with_reducible exact Keeps.refl _ | with_reducible apply Keeps.ite | with_reducible apply Keeps.step keeps_warmReset | intro _ | split

theorem keeps_execWatchdog (h : execWatchdog s = .next t) : Keeps s t := by
  refine keeps_gated (fun s => ?_) h
  have h := Keeps.refl s
  repeat' first | with_reducible assumption | with_reducible exact Keeps.refl _ | with_reducible apply Keeps.ite | with_reducible apply Keeps.step keeps_warmReset | intro _ | split

theorem still_execWindow {x0 : _} (h : execWindow x0 s = .next t) : Still s t := by
  refine still_gated (fun s => ?_) h
  have h := Still.refl s
  repeat' first | with_reducible assumption | with_reducible exact Still.refl _ | with_reducible apply Still.ite | with_reducible apply Still.step still_emit | with_reducible apply Still.step still_logWindow | intro _ | split

theorem keeps_execWrite {x0 : _} {x1 : _} {x2 : _} (h : execWrite x0 x1 x2 s = .next t) : Keeps s t := by
  refine keeps_gated (fun s => ?_) h
  have h := Keeps.refl s
  repeat' first | with_reducible assumption | with_reducible exact Keeps.refl _ | with_reducible apply Keeps.ite | with_reducible apply Keeps.step keeps_receive | intro _ | split

theorem keeps_execWriteFenced {x0 : _} {x1 : _} {x2 : _} (h : execWriteFenced x0 x1 x2 s = .next t) : Keeps s t := by
  refine keeps_gated (fun s => ?_) h
  have h := Keeps.refl s
  repeat' first | with_reducible assumption | with_reducible exact Keeps.refl _ | with_reducible apply Keeps.ite | with_reducible apply Keeps.step keeps_receive | intro _ | split

end Sys2Proof.Machine
end

