-- ==== Sys2Proof/Laws/State.lean ====
section
/-!
SUPPORT. Sys2Proof/Laws/State.lean: what each named update of the state changes and leaves alone, one lemma per field and update,
and what an object or record reads after an update.
-/
namespace Sys2Proof.Machine

theorem setI_eq (i k : Nat) (v : Int) (s : State) : setI i k v s = setV i k (.int v) s := rfl
theorem setN_eq (i k v : Nat) (s : State) : setN i k v s = setV i k (.int v) s := rfl
theorem setB_eq (i k : Nat) (v : List Byte) (s : State) : setB i k v s = setV i k (.blob v) s := rfl
theorem getI_eq (i k : Nat) (s : State) : getI i k s = asInt (getV i k s) := rfl
theorem getN_eq (i k : Nat) (s : State) : getN i k s = (asInt (getV i k s)).toNat := rfl
theorem getB_eq (i k : Nat) (s : State) : getB i k s = asBytes (getV i k s) := rfl

@[simp] theorem setV_pending (i k : Nat) (v : Val) (s : State) : (setV i k v s).pending = s.pending := rfl
@[simp] theorem setV_out (i k : Nat) (v : Val) (s : State) : (setV i k v s).out = s.out := rfl
@[simp] theorem setV_result (i k : Nat) (v : Val) (s : State) : (setV i k v s).result = s.result := rfl
@[simp] theorem setV_free (i k : Nat) (v : Val) (s : State) : (setV i k v s).free = s.free := rfl
@[simp] theorem setV_now (i k : Nat) (v : Val) (s : State) : (setV i k v s).now = s.now := rfl
@[simp] theorem setV_frame (i k : Nat) (v : Val) (s : State) : (setV i k v s).frame = s.frame := rfl
@[simp] theorem setV_timeSet (i k : Nat) (v : Val) (s : State) : (setV i k v s).timeSet = s.timeSet := rfl
@[simp] theorem setV_shadow (i k : Nat) (v : Val) (s : State) : (setV i k v s).shadow = s.shadow := rfl
@[simp] theorem setV_dram (i k : Nat) (v : Val) (s : State) : (setV i k v s).dram = s.dram := rfl
@[simp] theorem setV_berths (i k : Nat) (v : Val) (s : State) : (setV i k v s).berths = s.berths := rfl
@[simp] theorem setV_loops (i k : Nat) (v : Val) (s : State) : (setV i k v s).loops = s.loops := rfl
@[simp] theorem setV_ctxs (i k : Nat) (v : Val) (s : State) : (setV i k v s).ctxs = s.ctxs := rfl
@[simp] theorem setV_links (i k : Nat) (v : Val) (s : State) : (setV i k v s).links = s.links := rfl
@[simp] theorem setV_axes (i k : Nat) (v : Val) (s : State) : (setV i k v s).axes = s.axes := rfl
@[simp] theorem setV_ctrs (i k : Nat) (v : Val) (s : State) : (setV i k v s).ctrs = s.ctrs := rfl
@[simp] theorem setV_hm (i k : Nat) (v : Val) (s : State) : (setV i k v s).hm = s.hm := rfl
@[simp] theorem setV_commit (i k : Nat) (v : Val) (s : State) : (setV i k v s).commit = s.commit := rfl
@[simp] theorem setV_vision (i k : Nat) (v : Val) (s : State) : (setV i k v s).vision = s.vision := rfl
@[simp] theorem setV_chart (i k : Nat) (v : Val) (s : State) : (setV i k v s).chart = s.chart := rfl
@[simp] theorem setV_bw (i k : Nat) (v : Val) (s : State) : (setV i k v s).bw = s.bw := rfl
@[simp] theorem setV_rcd (i k : Nat) (v : Val) (s : State) : (setV i k v s).rcd = s.rcd := rfl
@[simp] theorem setV_wake (i k : Nat) (v : Val) (s : State) : (setV i k v s).wake = s.wake := rfl
@[simp] theorem setV_net (i k : Nat) (v : Val) (s : State) : (setV i k v s).net = s.net := rfl
@[simp] theorem setV_ptp (i k : Nat) (v : Val) (s : State) : (setV i k v s).ptp = s.ptp := rfl
@[simp] theorem setV_mem (i k : Nat) (v : Val) (s : State) : (setV i k v s).mem = s.mem := rfl
@[simp] theorem setV_mains (i k : Nat) (v : Val) (s : State) : (setV i k v s).mains = s.mains := rfl
@[simp] theorem setV_flash (i k : Nat) (v : Val) (s : State) : (setV i k v s).flash = s.flash := rfl
@[simp] theorem setV_pilot (i k : Nat) (v : Val) (s : State) : (setV i k v s).pilot = s.pilot := rfl
@[simp] theorem setV_log (i k : Nat) (v : Val) (s : State) : (setV i k v s).log = s.log := rfl
@[simp] theorem setV_cal (i k : Nat) (v : Val) (s : State) : (setV i k v s).cal = s.cal := rfl

@[simp] theorem setShadow_pending (i k : Nat) (v : Val) (s : State) : (setShadow i k v s).pending = s.pending := rfl
@[simp] theorem setShadow_out (i k : Nat) (v : Val) (s : State) : (setShadow i k v s).out = s.out := rfl
@[simp] theorem setShadow_result (i k : Nat) (v : Val) (s : State) : (setShadow i k v s).result = s.result := rfl
@[simp] theorem setShadow_free (i k : Nat) (v : Val) (s : State) : (setShadow i k v s).free = s.free := rfl
@[simp] theorem setShadow_now (i k : Nat) (v : Val) (s : State) : (setShadow i k v s).now = s.now := rfl
@[simp] theorem setShadow_frame (i k : Nat) (v : Val) (s : State) : (setShadow i k v s).frame = s.frame := rfl
@[simp] theorem setShadow_timeSet (i k : Nat) (v : Val) (s : State) : (setShadow i k v s).timeSet = s.timeSet := rfl
@[simp] theorem setShadow_obj (i k : Nat) (v : Val) (s : State) : (setShadow i k v s).obj = s.obj := rfl
@[simp] theorem setShadow_dram (i k : Nat) (v : Val) (s : State) : (setShadow i k v s).dram = s.dram := rfl
@[simp] theorem setShadow_berths (i k : Nat) (v : Val) (s : State) : (setShadow i k v s).berths = s.berths := rfl
@[simp] theorem setShadow_loops (i k : Nat) (v : Val) (s : State) : (setShadow i k v s).loops = s.loops := rfl
@[simp] theorem setShadow_ctxs (i k : Nat) (v : Val) (s : State) : (setShadow i k v s).ctxs = s.ctxs := rfl
@[simp] theorem setShadow_links (i k : Nat) (v : Val) (s : State) : (setShadow i k v s).links = s.links := rfl
@[simp] theorem setShadow_axes (i k : Nat) (v : Val) (s : State) : (setShadow i k v s).axes = s.axes := rfl
@[simp] theorem setShadow_ctrs (i k : Nat) (v : Val) (s : State) : (setShadow i k v s).ctrs = s.ctrs := rfl
@[simp] theorem setShadow_hm (i k : Nat) (v : Val) (s : State) : (setShadow i k v s).hm = s.hm := rfl
@[simp] theorem setShadow_commit (i k : Nat) (v : Val) (s : State) : (setShadow i k v s).commit = s.commit := rfl
@[simp] theorem setShadow_vision (i k : Nat) (v : Val) (s : State) : (setShadow i k v s).vision = s.vision := rfl
@[simp] theorem setShadow_chart (i k : Nat) (v : Val) (s : State) : (setShadow i k v s).chart = s.chart := rfl
@[simp] theorem setShadow_bw (i k : Nat) (v : Val) (s : State) : (setShadow i k v s).bw = s.bw := rfl
@[simp] theorem setShadow_rcd (i k : Nat) (v : Val) (s : State) : (setShadow i k v s).rcd = s.rcd := rfl
@[simp] theorem setShadow_wake (i k : Nat) (v : Val) (s : State) : (setShadow i k v s).wake = s.wake := rfl
@[simp] theorem setShadow_net (i k : Nat) (v : Val) (s : State) : (setShadow i k v s).net = s.net := rfl
@[simp] theorem setShadow_ptp (i k : Nat) (v : Val) (s : State) : (setShadow i k v s).ptp = s.ptp := rfl
@[simp] theorem setShadow_mem (i k : Nat) (v : Val) (s : State) : (setShadow i k v s).mem = s.mem := rfl
@[simp] theorem setShadow_mains (i k : Nat) (v : Val) (s : State) : (setShadow i k v s).mains = s.mains := rfl
@[simp] theorem setShadow_flash (i k : Nat) (v : Val) (s : State) : (setShadow i k v s).flash = s.flash := rfl
@[simp] theorem setShadow_pilot (i k : Nat) (v : Val) (s : State) : (setShadow i k v s).pilot = s.pilot := rfl
@[simp] theorem setShadow_log (i k : Nat) (v : Val) (s : State) : (setShadow i k v s).log = s.log := rfl
@[simp] theorem setShadow_cal (i k : Nat) (v : Val) (s : State) : (setShadow i k v s).cal = s.cal := rfl

@[simp] theorem modBerth_pending (b : Nat) (f : Berth → Berth) (s : State) : (modBerth b f s).pending = s.pending := rfl
@[simp] theorem modBerth_out (b : Nat) (f : Berth → Berth) (s : State) : (modBerth b f s).out = s.out := rfl
@[simp] theorem modBerth_result (b : Nat) (f : Berth → Berth) (s : State) : (modBerth b f s).result = s.result := rfl
@[simp] theorem modBerth_free (b : Nat) (f : Berth → Berth) (s : State) : (modBerth b f s).free = s.free := rfl
@[simp] theorem modBerth_now (b : Nat) (f : Berth → Berth) (s : State) : (modBerth b f s).now = s.now := rfl
@[simp] theorem modBerth_frame (b : Nat) (f : Berth → Berth) (s : State) : (modBerth b f s).frame = s.frame := rfl
@[simp] theorem modBerth_timeSet (b : Nat) (f : Berth → Berth) (s : State) : (modBerth b f s).timeSet = s.timeSet := rfl
@[simp] theorem modBerth_obj (b : Nat) (f : Berth → Berth) (s : State) : (modBerth b f s).obj = s.obj := rfl
@[simp] theorem modBerth_shadow (b : Nat) (f : Berth → Berth) (s : State) : (modBerth b f s).shadow = s.shadow := rfl
@[simp] theorem modBerth_dram (b : Nat) (f : Berth → Berth) (s : State) : (modBerth b f s).dram = s.dram := rfl
@[simp] theorem modBerth_loops (b : Nat) (f : Berth → Berth) (s : State) : (modBerth b f s).loops = s.loops := rfl
@[simp] theorem modBerth_ctxs (b : Nat) (f : Berth → Berth) (s : State) : (modBerth b f s).ctxs = s.ctxs := rfl
@[simp] theorem modBerth_links (b : Nat) (f : Berth → Berth) (s : State) : (modBerth b f s).links = s.links := rfl
@[simp] theorem modBerth_axes (b : Nat) (f : Berth → Berth) (s : State) : (modBerth b f s).axes = s.axes := rfl
@[simp] theorem modBerth_ctrs (b : Nat) (f : Berth → Berth) (s : State) : (modBerth b f s).ctrs = s.ctrs := rfl
@[simp] theorem modBerth_hm (b : Nat) (f : Berth → Berth) (s : State) : (modBerth b f s).hm = s.hm := rfl
@[simp] theorem modBerth_commit (b : Nat) (f : Berth → Berth) (s : State) : (modBerth b f s).commit = s.commit := rfl
@[simp] theorem modBerth_vision (b : Nat) (f : Berth → Berth) (s : State) : (modBerth b f s).vision = s.vision := rfl
@[simp] theorem modBerth_chart (b : Nat) (f : Berth → Berth) (s : State) : (modBerth b f s).chart = s.chart := rfl
@[simp] theorem modBerth_bw (b : Nat) (f : Berth → Berth) (s : State) : (modBerth b f s).bw = s.bw := rfl
@[simp] theorem modBerth_rcd (b : Nat) (f : Berth → Berth) (s : State) : (modBerth b f s).rcd = s.rcd := rfl
@[simp] theorem modBerth_wake (b : Nat) (f : Berth → Berth) (s : State) : (modBerth b f s).wake = s.wake := rfl
@[simp] theorem modBerth_net (b : Nat) (f : Berth → Berth) (s : State) : (modBerth b f s).net = s.net := rfl
@[simp] theorem modBerth_ptp (b : Nat) (f : Berth → Berth) (s : State) : (modBerth b f s).ptp = s.ptp := rfl
@[simp] theorem modBerth_mem (b : Nat) (f : Berth → Berth) (s : State) : (modBerth b f s).mem = s.mem := rfl
@[simp] theorem modBerth_mains (b : Nat) (f : Berth → Berth) (s : State) : (modBerth b f s).mains = s.mains := rfl
@[simp] theorem modBerth_flash (b : Nat) (f : Berth → Berth) (s : State) : (modBerth b f s).flash = s.flash := rfl
@[simp] theorem modBerth_pilot (b : Nat) (f : Berth → Berth) (s : State) : (modBerth b f s).pilot = s.pilot := rfl
@[simp] theorem modBerth_log (b : Nat) (f : Berth → Berth) (s : State) : (modBerth b f s).log = s.log := rfl
@[simp] theorem modBerth_cal (b : Nat) (f : Berth → Berth) (s : State) : (modBerth b f s).cal = s.cal := rfl

@[simp] theorem modLoop_pending (n : Nat) (f : Loop → Loop) (s : State) : (modLoop n f s).pending = s.pending := rfl
@[simp] theorem modLoop_out (n : Nat) (f : Loop → Loop) (s : State) : (modLoop n f s).out = s.out := rfl
@[simp] theorem modLoop_result (n : Nat) (f : Loop → Loop) (s : State) : (modLoop n f s).result = s.result := rfl
@[simp] theorem modLoop_free (n : Nat) (f : Loop → Loop) (s : State) : (modLoop n f s).free = s.free := rfl
@[simp] theorem modLoop_now (n : Nat) (f : Loop → Loop) (s : State) : (modLoop n f s).now = s.now := rfl
@[simp] theorem modLoop_frame (n : Nat) (f : Loop → Loop) (s : State) : (modLoop n f s).frame = s.frame := rfl
@[simp] theorem modLoop_timeSet (n : Nat) (f : Loop → Loop) (s : State) : (modLoop n f s).timeSet = s.timeSet := rfl
@[simp] theorem modLoop_obj (n : Nat) (f : Loop → Loop) (s : State) : (modLoop n f s).obj = s.obj := rfl
@[simp] theorem modLoop_shadow (n : Nat) (f : Loop → Loop) (s : State) : (modLoop n f s).shadow = s.shadow := rfl
@[simp] theorem modLoop_dram (n : Nat) (f : Loop → Loop) (s : State) : (modLoop n f s).dram = s.dram := rfl
@[simp] theorem modLoop_berths (n : Nat) (f : Loop → Loop) (s : State) : (modLoop n f s).berths = s.berths := rfl
@[simp] theorem modLoop_ctxs (n : Nat) (f : Loop → Loop) (s : State) : (modLoop n f s).ctxs = s.ctxs := rfl
@[simp] theorem modLoop_links (n : Nat) (f : Loop → Loop) (s : State) : (modLoop n f s).links = s.links := rfl
@[simp] theorem modLoop_axes (n : Nat) (f : Loop → Loop) (s : State) : (modLoop n f s).axes = s.axes := rfl
@[simp] theorem modLoop_ctrs (n : Nat) (f : Loop → Loop) (s : State) : (modLoop n f s).ctrs = s.ctrs := rfl
@[simp] theorem modLoop_hm (n : Nat) (f : Loop → Loop) (s : State) : (modLoop n f s).hm = s.hm := rfl
@[simp] theorem modLoop_commit (n : Nat) (f : Loop → Loop) (s : State) : (modLoop n f s).commit = s.commit := rfl
@[simp] theorem modLoop_vision (n : Nat) (f : Loop → Loop) (s : State) : (modLoop n f s).vision = s.vision := rfl
@[simp] theorem modLoop_chart (n : Nat) (f : Loop → Loop) (s : State) : (modLoop n f s).chart = s.chart := rfl
@[simp] theorem modLoop_bw (n : Nat) (f : Loop → Loop) (s : State) : (modLoop n f s).bw = s.bw := rfl
@[simp] theorem modLoop_rcd (n : Nat) (f : Loop → Loop) (s : State) : (modLoop n f s).rcd = s.rcd := rfl
@[simp] theorem modLoop_wake (n : Nat) (f : Loop → Loop) (s : State) : (modLoop n f s).wake = s.wake := rfl
@[simp] theorem modLoop_net (n : Nat) (f : Loop → Loop) (s : State) : (modLoop n f s).net = s.net := rfl
@[simp] theorem modLoop_ptp (n : Nat) (f : Loop → Loop) (s : State) : (modLoop n f s).ptp = s.ptp := rfl
@[simp] theorem modLoop_mem (n : Nat) (f : Loop → Loop) (s : State) : (modLoop n f s).mem = s.mem := rfl
@[simp] theorem modLoop_mains (n : Nat) (f : Loop → Loop) (s : State) : (modLoop n f s).mains = s.mains := rfl
@[simp] theorem modLoop_flash (n : Nat) (f : Loop → Loop) (s : State) : (modLoop n f s).flash = s.flash := rfl
@[simp] theorem modLoop_pilot (n : Nat) (f : Loop → Loop) (s : State) : (modLoop n f s).pilot = s.pilot := rfl
@[simp] theorem modLoop_log (n : Nat) (f : Loop → Loop) (s : State) : (modLoop n f s).log = s.log := rfl
@[simp] theorem modLoop_cal (n : Nat) (f : Loop → Loop) (s : State) : (modLoop n f s).cal = s.cal := rfl

@[simp] theorem modCtx_pending (c : Nat) (f : Context → Context) (s : State) : (modCtx c f s).pending = s.pending := rfl
@[simp] theorem modCtx_out (c : Nat) (f : Context → Context) (s : State) : (modCtx c f s).out = s.out := rfl
@[simp] theorem modCtx_result (c : Nat) (f : Context → Context) (s : State) : (modCtx c f s).result = s.result := rfl
@[simp] theorem modCtx_free (c : Nat) (f : Context → Context) (s : State) : (modCtx c f s).free = s.free := rfl
@[simp] theorem modCtx_now (c : Nat) (f : Context → Context) (s : State) : (modCtx c f s).now = s.now := rfl
@[simp] theorem modCtx_frame (c : Nat) (f : Context → Context) (s : State) : (modCtx c f s).frame = s.frame := rfl
@[simp] theorem modCtx_timeSet (c : Nat) (f : Context → Context) (s : State) : (modCtx c f s).timeSet = s.timeSet := rfl
@[simp] theorem modCtx_obj (c : Nat) (f : Context → Context) (s : State) : (modCtx c f s).obj = s.obj := rfl
@[simp] theorem modCtx_shadow (c : Nat) (f : Context → Context) (s : State) : (modCtx c f s).shadow = s.shadow := rfl
@[simp] theorem modCtx_dram (c : Nat) (f : Context → Context) (s : State) : (modCtx c f s).dram = s.dram := rfl
@[simp] theorem modCtx_berths (c : Nat) (f : Context → Context) (s : State) : (modCtx c f s).berths = s.berths := rfl
@[simp] theorem modCtx_loops (c : Nat) (f : Context → Context) (s : State) : (modCtx c f s).loops = s.loops := rfl
@[simp] theorem modCtx_links (c : Nat) (f : Context → Context) (s : State) : (modCtx c f s).links = s.links := rfl
@[simp] theorem modCtx_axes (c : Nat) (f : Context → Context) (s : State) : (modCtx c f s).axes = s.axes := rfl
@[simp] theorem modCtx_ctrs (c : Nat) (f : Context → Context) (s : State) : (modCtx c f s).ctrs = s.ctrs := rfl
@[simp] theorem modCtx_hm (c : Nat) (f : Context → Context) (s : State) : (modCtx c f s).hm = s.hm := rfl
@[simp] theorem modCtx_commit (c : Nat) (f : Context → Context) (s : State) : (modCtx c f s).commit = s.commit := rfl
@[simp] theorem modCtx_vision (c : Nat) (f : Context → Context) (s : State) : (modCtx c f s).vision = s.vision := rfl
@[simp] theorem modCtx_chart (c : Nat) (f : Context → Context) (s : State) : (modCtx c f s).chart = s.chart := rfl
@[simp] theorem modCtx_bw (c : Nat) (f : Context → Context) (s : State) : (modCtx c f s).bw = s.bw := rfl
@[simp] theorem modCtx_rcd (c : Nat) (f : Context → Context) (s : State) : (modCtx c f s).rcd = s.rcd := rfl
@[simp] theorem modCtx_wake (c : Nat) (f : Context → Context) (s : State) : (modCtx c f s).wake = s.wake := rfl
@[simp] theorem modCtx_net (c : Nat) (f : Context → Context) (s : State) : (modCtx c f s).net = s.net := rfl
@[simp] theorem modCtx_ptp (c : Nat) (f : Context → Context) (s : State) : (modCtx c f s).ptp = s.ptp := rfl
@[simp] theorem modCtx_mem (c : Nat) (f : Context → Context) (s : State) : (modCtx c f s).mem = s.mem := rfl
@[simp] theorem modCtx_mains (c : Nat) (f : Context → Context) (s : State) : (modCtx c f s).mains = s.mains := rfl
@[simp] theorem modCtx_flash (c : Nat) (f : Context → Context) (s : State) : (modCtx c f s).flash = s.flash := rfl
@[simp] theorem modCtx_pilot (c : Nat) (f : Context → Context) (s : State) : (modCtx c f s).pilot = s.pilot := rfl
@[simp] theorem modCtx_log (c : Nat) (f : Context → Context) (s : State) : (modCtx c f s).log = s.log := rfl
@[simp] theorem modCtx_cal (c : Nat) (f : Context → Context) (s : State) : (modCtx c f s).cal = s.cal := rfl

@[simp] theorem modLink_pending (l : Nat) (f : Link → Link) (s : State) : (modLink l f s).pending = s.pending := rfl
@[simp] theorem modLink_out (l : Nat) (f : Link → Link) (s : State) : (modLink l f s).out = s.out := rfl
@[simp] theorem modLink_result (l : Nat) (f : Link → Link) (s : State) : (modLink l f s).result = s.result := rfl
@[simp] theorem modLink_free (l : Nat) (f : Link → Link) (s : State) : (modLink l f s).free = s.free := rfl
@[simp] theorem modLink_now (l : Nat) (f : Link → Link) (s : State) : (modLink l f s).now = s.now := rfl
@[simp] theorem modLink_frame (l : Nat) (f : Link → Link) (s : State) : (modLink l f s).frame = s.frame := rfl
@[simp] theorem modLink_timeSet (l : Nat) (f : Link → Link) (s : State) : (modLink l f s).timeSet = s.timeSet := rfl
@[simp] theorem modLink_obj (l : Nat) (f : Link → Link) (s : State) : (modLink l f s).obj = s.obj := rfl
@[simp] theorem modLink_shadow (l : Nat) (f : Link → Link) (s : State) : (modLink l f s).shadow = s.shadow := rfl
@[simp] theorem modLink_dram (l : Nat) (f : Link → Link) (s : State) : (modLink l f s).dram = s.dram := rfl
@[simp] theorem modLink_berths (l : Nat) (f : Link → Link) (s : State) : (modLink l f s).berths = s.berths := rfl
@[simp] theorem modLink_loops (l : Nat) (f : Link → Link) (s : State) : (modLink l f s).loops = s.loops := rfl
@[simp] theorem modLink_ctxs (l : Nat) (f : Link → Link) (s : State) : (modLink l f s).ctxs = s.ctxs := rfl
@[simp] theorem modLink_axes (l : Nat) (f : Link → Link) (s : State) : (modLink l f s).axes = s.axes := rfl
@[simp] theorem modLink_ctrs (l : Nat) (f : Link → Link) (s : State) : (modLink l f s).ctrs = s.ctrs := rfl
@[simp] theorem modLink_hm (l : Nat) (f : Link → Link) (s : State) : (modLink l f s).hm = s.hm := rfl
@[simp] theorem modLink_commit (l : Nat) (f : Link → Link) (s : State) : (modLink l f s).commit = s.commit := rfl
@[simp] theorem modLink_vision (l : Nat) (f : Link → Link) (s : State) : (modLink l f s).vision = s.vision := rfl
@[simp] theorem modLink_chart (l : Nat) (f : Link → Link) (s : State) : (modLink l f s).chart = s.chart := rfl
@[simp] theorem modLink_bw (l : Nat) (f : Link → Link) (s : State) : (modLink l f s).bw = s.bw := rfl
@[simp] theorem modLink_rcd (l : Nat) (f : Link → Link) (s : State) : (modLink l f s).rcd = s.rcd := rfl
@[simp] theorem modLink_wake (l : Nat) (f : Link → Link) (s : State) : (modLink l f s).wake = s.wake := rfl
@[simp] theorem modLink_net (l : Nat) (f : Link → Link) (s : State) : (modLink l f s).net = s.net := rfl
@[simp] theorem modLink_ptp (l : Nat) (f : Link → Link) (s : State) : (modLink l f s).ptp = s.ptp := rfl
@[simp] theorem modLink_mem (l : Nat) (f : Link → Link) (s : State) : (modLink l f s).mem = s.mem := rfl
@[simp] theorem modLink_mains (l : Nat) (f : Link → Link) (s : State) : (modLink l f s).mains = s.mains := rfl
@[simp] theorem modLink_flash (l : Nat) (f : Link → Link) (s : State) : (modLink l f s).flash = s.flash := rfl
@[simp] theorem modLink_pilot (l : Nat) (f : Link → Link) (s : State) : (modLink l f s).pilot = s.pilot := rfl
@[simp] theorem modLink_log (l : Nat) (f : Link → Link) (s : State) : (modLink l f s).log = s.log := rfl
@[simp] theorem modLink_cal (l : Nat) (f : Link → Link) (s : State) : (modLink l f s).cal = s.cal := rfl

@[simp] theorem modAxis_pending (m : Nat) (f : Axis → Axis) (s : State) : (modAxis m f s).pending = s.pending := rfl
@[simp] theorem modAxis_out (m : Nat) (f : Axis → Axis) (s : State) : (modAxis m f s).out = s.out := rfl
@[simp] theorem modAxis_result (m : Nat) (f : Axis → Axis) (s : State) : (modAxis m f s).result = s.result := rfl
@[simp] theorem modAxis_free (m : Nat) (f : Axis → Axis) (s : State) : (modAxis m f s).free = s.free := rfl
@[simp] theorem modAxis_now (m : Nat) (f : Axis → Axis) (s : State) : (modAxis m f s).now = s.now := rfl
@[simp] theorem modAxis_frame (m : Nat) (f : Axis → Axis) (s : State) : (modAxis m f s).frame = s.frame := rfl
@[simp] theorem modAxis_timeSet (m : Nat) (f : Axis → Axis) (s : State) : (modAxis m f s).timeSet = s.timeSet := rfl
@[simp] theorem modAxis_obj (m : Nat) (f : Axis → Axis) (s : State) : (modAxis m f s).obj = s.obj := rfl
@[simp] theorem modAxis_shadow (m : Nat) (f : Axis → Axis) (s : State) : (modAxis m f s).shadow = s.shadow := rfl
@[simp] theorem modAxis_dram (m : Nat) (f : Axis → Axis) (s : State) : (modAxis m f s).dram = s.dram := rfl
@[simp] theorem modAxis_berths (m : Nat) (f : Axis → Axis) (s : State) : (modAxis m f s).berths = s.berths := rfl
@[simp] theorem modAxis_loops (m : Nat) (f : Axis → Axis) (s : State) : (modAxis m f s).loops = s.loops := rfl
@[simp] theorem modAxis_ctxs (m : Nat) (f : Axis → Axis) (s : State) : (modAxis m f s).ctxs = s.ctxs := rfl
@[simp] theorem modAxis_links (m : Nat) (f : Axis → Axis) (s : State) : (modAxis m f s).links = s.links := rfl
@[simp] theorem modAxis_ctrs (m : Nat) (f : Axis → Axis) (s : State) : (modAxis m f s).ctrs = s.ctrs := rfl
@[simp] theorem modAxis_hm (m : Nat) (f : Axis → Axis) (s : State) : (modAxis m f s).hm = s.hm := rfl
@[simp] theorem modAxis_commit (m : Nat) (f : Axis → Axis) (s : State) : (modAxis m f s).commit = s.commit := rfl
@[simp] theorem modAxis_vision (m : Nat) (f : Axis → Axis) (s : State) : (modAxis m f s).vision = s.vision := rfl
@[simp] theorem modAxis_chart (m : Nat) (f : Axis → Axis) (s : State) : (modAxis m f s).chart = s.chart := rfl
@[simp] theorem modAxis_bw (m : Nat) (f : Axis → Axis) (s : State) : (modAxis m f s).bw = s.bw := rfl
@[simp] theorem modAxis_rcd (m : Nat) (f : Axis → Axis) (s : State) : (modAxis m f s).rcd = s.rcd := rfl
@[simp] theorem modAxis_wake (m : Nat) (f : Axis → Axis) (s : State) : (modAxis m f s).wake = s.wake := rfl
@[simp] theorem modAxis_net (m : Nat) (f : Axis → Axis) (s : State) : (modAxis m f s).net = s.net := rfl
@[simp] theorem modAxis_ptp (m : Nat) (f : Axis → Axis) (s : State) : (modAxis m f s).ptp = s.ptp := rfl
@[simp] theorem modAxis_mem (m : Nat) (f : Axis → Axis) (s : State) : (modAxis m f s).mem = s.mem := rfl
@[simp] theorem modAxis_mains (m : Nat) (f : Axis → Axis) (s : State) : (modAxis m f s).mains = s.mains := rfl
@[simp] theorem modAxis_flash (m : Nat) (f : Axis → Axis) (s : State) : (modAxis m f s).flash = s.flash := rfl
@[simp] theorem modAxis_pilot (m : Nat) (f : Axis → Axis) (s : State) : (modAxis m f s).pilot = s.pilot := rfl
@[simp] theorem modAxis_log (m : Nat) (f : Axis → Axis) (s : State) : (modAxis m f s).log = s.log := rfl
@[simp] theorem modAxis_cal (m : Nat) (f : Axis → Axis) (s : State) : (modAxis m f s).cal = s.cal := rfl

@[simp] theorem modCtr_pending (i : Nat) (f : Counter → Counter) (s : State) : (modCtr i f s).pending = s.pending := rfl
@[simp] theorem modCtr_out (i : Nat) (f : Counter → Counter) (s : State) : (modCtr i f s).out = s.out := rfl
@[simp] theorem modCtr_result (i : Nat) (f : Counter → Counter) (s : State) : (modCtr i f s).result = s.result := rfl
@[simp] theorem modCtr_free (i : Nat) (f : Counter → Counter) (s : State) : (modCtr i f s).free = s.free := rfl
@[simp] theorem modCtr_now (i : Nat) (f : Counter → Counter) (s : State) : (modCtr i f s).now = s.now := rfl
@[simp] theorem modCtr_frame (i : Nat) (f : Counter → Counter) (s : State) : (modCtr i f s).frame = s.frame := rfl
@[simp] theorem modCtr_timeSet (i : Nat) (f : Counter → Counter) (s : State) : (modCtr i f s).timeSet = s.timeSet := rfl
@[simp] theorem modCtr_obj (i : Nat) (f : Counter → Counter) (s : State) : (modCtr i f s).obj = s.obj := rfl
@[simp] theorem modCtr_shadow (i : Nat) (f : Counter → Counter) (s : State) : (modCtr i f s).shadow = s.shadow := rfl
@[simp] theorem modCtr_dram (i : Nat) (f : Counter → Counter) (s : State) : (modCtr i f s).dram = s.dram := rfl
@[simp] theorem modCtr_berths (i : Nat) (f : Counter → Counter) (s : State) : (modCtr i f s).berths = s.berths := rfl
@[simp] theorem modCtr_loops (i : Nat) (f : Counter → Counter) (s : State) : (modCtr i f s).loops = s.loops := rfl
@[simp] theorem modCtr_ctxs (i : Nat) (f : Counter → Counter) (s : State) : (modCtr i f s).ctxs = s.ctxs := rfl
@[simp] theorem modCtr_links (i : Nat) (f : Counter → Counter) (s : State) : (modCtr i f s).links = s.links := rfl
@[simp] theorem modCtr_axes (i : Nat) (f : Counter → Counter) (s : State) : (modCtr i f s).axes = s.axes := rfl
@[simp] theorem modCtr_hm (i : Nat) (f : Counter → Counter) (s : State) : (modCtr i f s).hm = s.hm := rfl
@[simp] theorem modCtr_commit (i : Nat) (f : Counter → Counter) (s : State) : (modCtr i f s).commit = s.commit := rfl
@[simp] theorem modCtr_vision (i : Nat) (f : Counter → Counter) (s : State) : (modCtr i f s).vision = s.vision := rfl
@[simp] theorem modCtr_chart (i : Nat) (f : Counter → Counter) (s : State) : (modCtr i f s).chart = s.chart := rfl
@[simp] theorem modCtr_bw (i : Nat) (f : Counter → Counter) (s : State) : (modCtr i f s).bw = s.bw := rfl
@[simp] theorem modCtr_rcd (i : Nat) (f : Counter → Counter) (s : State) : (modCtr i f s).rcd = s.rcd := rfl
@[simp] theorem modCtr_wake (i : Nat) (f : Counter → Counter) (s : State) : (modCtr i f s).wake = s.wake := rfl
@[simp] theorem modCtr_net (i : Nat) (f : Counter → Counter) (s : State) : (modCtr i f s).net = s.net := rfl
@[simp] theorem modCtr_ptp (i : Nat) (f : Counter → Counter) (s : State) : (modCtr i f s).ptp = s.ptp := rfl
@[simp] theorem modCtr_mem (i : Nat) (f : Counter → Counter) (s : State) : (modCtr i f s).mem = s.mem := rfl
@[simp] theorem modCtr_mains (i : Nat) (f : Counter → Counter) (s : State) : (modCtr i f s).mains = s.mains := rfl
@[simp] theorem modCtr_flash (i : Nat) (f : Counter → Counter) (s : State) : (modCtr i f s).flash = s.flash := rfl
@[simp] theorem modCtr_pilot (i : Nat) (f : Counter → Counter) (s : State) : (modCtr i f s).pilot = s.pilot := rfl
@[simp] theorem modCtr_log (i : Nat) (f : Counter → Counter) (s : State) : (modCtr i f s).log = s.log := rfl
@[simp] theorem modCtr_cal (i : Nat) (f : Counter → Counter) (s : State) : (modCtr i f s).cal = s.cal := rfl

@[simp] theorem modSess_pending (n : Nat) (f : Session → Session) (s : State) : (modSess n f s).pending = s.pending := rfl
@[simp] theorem modSess_out (n : Nat) (f : Session → Session) (s : State) : (modSess n f s).out = s.out := rfl
@[simp] theorem modSess_result (n : Nat) (f : Session → Session) (s : State) : (modSess n f s).result = s.result := rfl
@[simp] theorem modSess_free (n : Nat) (f : Session → Session) (s : State) : (modSess n f s).free = s.free := rfl
@[simp] theorem modSess_now (n : Nat) (f : Session → Session) (s : State) : (modSess n f s).now = s.now := rfl
@[simp] theorem modSess_frame (n : Nat) (f : Session → Session) (s : State) : (modSess n f s).frame = s.frame := rfl
@[simp] theorem modSess_timeSet (n : Nat) (f : Session → Session) (s : State) : (modSess n f s).timeSet = s.timeSet := rfl
@[simp] theorem modSess_obj (n : Nat) (f : Session → Session) (s : State) : (modSess n f s).obj = s.obj := rfl
@[simp] theorem modSess_shadow (n : Nat) (f : Session → Session) (s : State) : (modSess n f s).shadow = s.shadow := rfl
@[simp] theorem modSess_dram (n : Nat) (f : Session → Session) (s : State) : (modSess n f s).dram = s.dram := rfl
@[simp] theorem modSess_berths (n : Nat) (f : Session → Session) (s : State) : (modSess n f s).berths = s.berths := rfl
@[simp] theorem modSess_loops (n : Nat) (f : Session → Session) (s : State) : (modSess n f s).loops = s.loops := rfl
@[simp] theorem modSess_ctxs (n : Nat) (f : Session → Session) (s : State) : (modSess n f s).ctxs = s.ctxs := rfl
@[simp] theorem modSess_links (n : Nat) (f : Session → Session) (s : State) : (modSess n f s).links = s.links := rfl
@[simp] theorem modSess_axes (n : Nat) (f : Session → Session) (s : State) : (modSess n f s).axes = s.axes := rfl
@[simp] theorem modSess_ctrs (n : Nat) (f : Session → Session) (s : State) : (modSess n f s).ctrs = s.ctrs := rfl
@[simp] theorem modSess_hm (n : Nat) (f : Session → Session) (s : State) : (modSess n f s).hm = s.hm := rfl
@[simp] theorem modSess_commit (n : Nat) (f : Session → Session) (s : State) : (modSess n f s).commit = s.commit := rfl
@[simp] theorem modSess_vision (n : Nat) (f : Session → Session) (s : State) : (modSess n f s).vision = s.vision := rfl
@[simp] theorem modSess_chart (n : Nat) (f : Session → Session) (s : State) : (modSess n f s).chart = s.chart := rfl
@[simp] theorem modSess_bw (n : Nat) (f : Session → Session) (s : State) : (modSess n f s).bw = s.bw := rfl
@[simp] theorem modSess_rcd (n : Nat) (f : Session → Session) (s : State) : (modSess n f s).rcd = s.rcd := rfl
@[simp] theorem modSess_wake (n : Nat) (f : Session → Session) (s : State) : (modSess n f s).wake = s.wake := rfl
@[simp] theorem modSess_ptp (n : Nat) (f : Session → Session) (s : State) : (modSess n f s).ptp = s.ptp := rfl
@[simp] theorem modSess_mem (n : Nat) (f : Session → Session) (s : State) : (modSess n f s).mem = s.mem := rfl
@[simp] theorem modSess_mains (n : Nat) (f : Session → Session) (s : State) : (modSess n f s).mains = s.mains := rfl
@[simp] theorem modSess_flash (n : Nat) (f : Session → Session) (s : State) : (modSess n f s).flash = s.flash := rfl
@[simp] theorem modSess_pilot (n : Nat) (f : Session → Session) (s : State) : (modSess n f s).pilot = s.pilot := rfl
@[simp] theorem modSess_log (n : Nat) (f : Session → Session) (s : State) : (modSess n f s).log = s.log := rfl
@[simp] theorem modSess_cal (n : Nat) (f : Session → Session) (s : State) : (modSess n f s).cal = s.cal := rfl

@[simp] theorem modStream_pending (n : Nat) (f : Stream → Stream) (s : State) : (modStream n f s).pending = s.pending := rfl
@[simp] theorem modStream_out (n : Nat) (f : Stream → Stream) (s : State) : (modStream n f s).out = s.out := rfl
@[simp] theorem modStream_result (n : Nat) (f : Stream → Stream) (s : State) : (modStream n f s).result = s.result := rfl
@[simp] theorem modStream_free (n : Nat) (f : Stream → Stream) (s : State) : (modStream n f s).free = s.free := rfl
@[simp] theorem modStream_now (n : Nat) (f : Stream → Stream) (s : State) : (modStream n f s).now = s.now := rfl
@[simp] theorem modStream_frame (n : Nat) (f : Stream → Stream) (s : State) : (modStream n f s).frame = s.frame := rfl
@[simp] theorem modStream_timeSet (n : Nat) (f : Stream → Stream) (s : State) : (modStream n f s).timeSet = s.timeSet := rfl
@[simp] theorem modStream_obj (n : Nat) (f : Stream → Stream) (s : State) : (modStream n f s).obj = s.obj := rfl
@[simp] theorem modStream_shadow (n : Nat) (f : Stream → Stream) (s : State) : (modStream n f s).shadow = s.shadow := rfl
@[simp] theorem modStream_dram (n : Nat) (f : Stream → Stream) (s : State) : (modStream n f s).dram = s.dram := rfl
@[simp] theorem modStream_berths (n : Nat) (f : Stream → Stream) (s : State) : (modStream n f s).berths = s.berths := rfl
@[simp] theorem modStream_loops (n : Nat) (f : Stream → Stream) (s : State) : (modStream n f s).loops = s.loops := rfl
@[simp] theorem modStream_ctxs (n : Nat) (f : Stream → Stream) (s : State) : (modStream n f s).ctxs = s.ctxs := rfl
@[simp] theorem modStream_links (n : Nat) (f : Stream → Stream) (s : State) : (modStream n f s).links = s.links := rfl
@[simp] theorem modStream_axes (n : Nat) (f : Stream → Stream) (s : State) : (modStream n f s).axes = s.axes := rfl
@[simp] theorem modStream_ctrs (n : Nat) (f : Stream → Stream) (s : State) : (modStream n f s).ctrs = s.ctrs := rfl
@[simp] theorem modStream_hm (n : Nat) (f : Stream → Stream) (s : State) : (modStream n f s).hm = s.hm := rfl
@[simp] theorem modStream_commit (n : Nat) (f : Stream → Stream) (s : State) : (modStream n f s).commit = s.commit := rfl
@[simp] theorem modStream_vision (n : Nat) (f : Stream → Stream) (s : State) : (modStream n f s).vision = s.vision := rfl
@[simp] theorem modStream_chart (n : Nat) (f : Stream → Stream) (s : State) : (modStream n f s).chart = s.chart := rfl
@[simp] theorem modStream_bw (n : Nat) (f : Stream → Stream) (s : State) : (modStream n f s).bw = s.bw := rfl
@[simp] theorem modStream_wake (n : Nat) (f : Stream → Stream) (s : State) : (modStream n f s).wake = s.wake := rfl
@[simp] theorem modStream_net (n : Nat) (f : Stream → Stream) (s : State) : (modStream n f s).net = s.net := rfl
@[simp] theorem modStream_ptp (n : Nat) (f : Stream → Stream) (s : State) : (modStream n f s).ptp = s.ptp := rfl
@[simp] theorem modStream_mem (n : Nat) (f : Stream → Stream) (s : State) : (modStream n f s).mem = s.mem := rfl
@[simp] theorem modStream_mains (n : Nat) (f : Stream → Stream) (s : State) : (modStream n f s).mains = s.mains := rfl
@[simp] theorem modStream_flash (n : Nat) (f : Stream → Stream) (s : State) : (modStream n f s).flash = s.flash := rfl
@[simp] theorem modStream_pilot (n : Nat) (f : Stream → Stream) (s : State) : (modStream n f s).pilot = s.pilot := rfl
@[simp] theorem modStream_log (n : Nat) (f : Stream → Stream) (s : State) : (modStream n f s).log = s.log := rfl
@[simp] theorem modStream_cal (n : Nat) (f : Stream → Stream) (s : State) : (modStream n f s).cal = s.cal := rfl

@[simp] theorem emit_pending (o : Out) (s : State) : (emit o s).pending = s.pending := rfl
@[simp] theorem emit_result (o : Out) (s : State) : (emit o s).result = s.result := rfl
@[simp] theorem emit_free (o : Out) (s : State) : (emit o s).free = s.free := rfl
@[simp] theorem emit_now (o : Out) (s : State) : (emit o s).now = s.now := rfl
@[simp] theorem emit_frame (o : Out) (s : State) : (emit o s).frame = s.frame := rfl
@[simp] theorem emit_timeSet (o : Out) (s : State) : (emit o s).timeSet = s.timeSet := rfl
@[simp] theorem emit_obj (o : Out) (s : State) : (emit o s).obj = s.obj := rfl
@[simp] theorem emit_shadow (o : Out) (s : State) : (emit o s).shadow = s.shadow := rfl
@[simp] theorem emit_dram (o : Out) (s : State) : (emit o s).dram = s.dram := rfl
@[simp] theorem emit_berths (o : Out) (s : State) : (emit o s).berths = s.berths := rfl
@[simp] theorem emit_loops (o : Out) (s : State) : (emit o s).loops = s.loops := rfl
@[simp] theorem emit_ctxs (o : Out) (s : State) : (emit o s).ctxs = s.ctxs := rfl
@[simp] theorem emit_links (o : Out) (s : State) : (emit o s).links = s.links := rfl
@[simp] theorem emit_axes (o : Out) (s : State) : (emit o s).axes = s.axes := rfl
@[simp] theorem emit_ctrs (o : Out) (s : State) : (emit o s).ctrs = s.ctrs := rfl
@[simp] theorem emit_hm (o : Out) (s : State) : (emit o s).hm = s.hm := rfl
@[simp] theorem emit_commit (o : Out) (s : State) : (emit o s).commit = s.commit := rfl
@[simp] theorem emit_vision (o : Out) (s : State) : (emit o s).vision = s.vision := rfl
@[simp] theorem emit_chart (o : Out) (s : State) : (emit o s).chart = s.chart := rfl
@[simp] theorem emit_bw (o : Out) (s : State) : (emit o s).bw = s.bw := rfl
@[simp] theorem emit_rcd (o : Out) (s : State) : (emit o s).rcd = s.rcd := rfl
@[simp] theorem emit_wake (o : Out) (s : State) : (emit o s).wake = s.wake := rfl
@[simp] theorem emit_net (o : Out) (s : State) : (emit o s).net = s.net := rfl
@[simp] theorem emit_ptp (o : Out) (s : State) : (emit o s).ptp = s.ptp := rfl
@[simp] theorem emit_mem (o : Out) (s : State) : (emit o s).mem = s.mem := rfl
@[simp] theorem emit_mains (o : Out) (s : State) : (emit o s).mains = s.mains := rfl
@[simp] theorem emit_flash (o : Out) (s : State) : (emit o s).flash = s.flash := rfl
@[simp] theorem emit_pilot (o : Out) (s : State) : (emit o s).pilot = s.pilot := rfl
@[simp] theorem emit_log (o : Out) (s : State) : (emit o s).log = s.log := rfl
@[simp] theorem emit_cal (o : Out) (s : State) : (emit o s).cal = s.cal := rfl

@[simp] theorem withResult_pending (r : Nat) (s : State) : (withResult r s).pending = s.pending := rfl
@[simp] theorem withResult_out (r : Nat) (s : State) : (withResult r s).out = s.out := rfl
@[simp] theorem withResult_free (r : Nat) (s : State) : (withResult r s).free = s.free := rfl
@[simp] theorem withResult_now (r : Nat) (s : State) : (withResult r s).now = s.now := rfl
@[simp] theorem withResult_frame (r : Nat) (s : State) : (withResult r s).frame = s.frame := rfl
@[simp] theorem withResult_timeSet (r : Nat) (s : State) : (withResult r s).timeSet = s.timeSet := rfl
@[simp] theorem withResult_obj (r : Nat) (s : State) : (withResult r s).obj = s.obj := rfl
@[simp] theorem withResult_shadow (r : Nat) (s : State) : (withResult r s).shadow = s.shadow := rfl
@[simp] theorem withResult_dram (r : Nat) (s : State) : (withResult r s).dram = s.dram := rfl
@[simp] theorem withResult_berths (r : Nat) (s : State) : (withResult r s).berths = s.berths := rfl
@[simp] theorem withResult_loops (r : Nat) (s : State) : (withResult r s).loops = s.loops := rfl
@[simp] theorem withResult_ctxs (r : Nat) (s : State) : (withResult r s).ctxs = s.ctxs := rfl
@[simp] theorem withResult_links (r : Nat) (s : State) : (withResult r s).links = s.links := rfl
@[simp] theorem withResult_axes (r : Nat) (s : State) : (withResult r s).axes = s.axes := rfl
@[simp] theorem withResult_ctrs (r : Nat) (s : State) : (withResult r s).ctrs = s.ctrs := rfl
@[simp] theorem withResult_hm (r : Nat) (s : State) : (withResult r s).hm = s.hm := rfl
@[simp] theorem withResult_commit (r : Nat) (s : State) : (withResult r s).commit = s.commit := rfl
@[simp] theorem withResult_vision (r : Nat) (s : State) : (withResult r s).vision = s.vision := rfl
@[simp] theorem withResult_chart (r : Nat) (s : State) : (withResult r s).chart = s.chart := rfl
@[simp] theorem withResult_bw (r : Nat) (s : State) : (withResult r s).bw = s.bw := rfl
@[simp] theorem withResult_rcd (r : Nat) (s : State) : (withResult r s).rcd = s.rcd := rfl
@[simp] theorem withResult_wake (r : Nat) (s : State) : (withResult r s).wake = s.wake := rfl
@[simp] theorem withResult_net (r : Nat) (s : State) : (withResult r s).net = s.net := rfl
@[simp] theorem withResult_ptp (r : Nat) (s : State) : (withResult r s).ptp = s.ptp := rfl
@[simp] theorem withResult_mem (r : Nat) (s : State) : (withResult r s).mem = s.mem := rfl
@[simp] theorem withResult_mains (r : Nat) (s : State) : (withResult r s).mains = s.mains := rfl
@[simp] theorem withResult_flash (r : Nat) (s : State) : (withResult r s).flash = s.flash := rfl
@[simp] theorem withResult_pilot (r : Nat) (s : State) : (withResult r s).pilot = s.pilot := rfl
@[simp] theorem withResult_log (r : Nat) (s : State) : (withResult r s).log = s.log := rfl
@[simp] theorem withResult_cal (r : Nat) (s : State) : (withResult r s).cal = s.cal := rfl

@[simp] theorem drawn_pending (s : State) : (drawn s).pending = s.pending := rfl
@[simp] theorem drawn_out (s : State) : (drawn s).out = s.out := rfl
@[simp] theorem drawn_result (s : State) : (drawn s).result = s.result := rfl
@[simp] theorem drawn_now (s : State) : (drawn s).now = s.now := rfl
@[simp] theorem drawn_frame (s : State) : (drawn s).frame = s.frame := rfl
@[simp] theorem drawn_timeSet (s : State) : (drawn s).timeSet = s.timeSet := rfl
@[simp] theorem drawn_obj (s : State) : (drawn s).obj = s.obj := rfl
@[simp] theorem drawn_shadow (s : State) : (drawn s).shadow = s.shadow := rfl
@[simp] theorem drawn_dram (s : State) : (drawn s).dram = s.dram := rfl
@[simp] theorem drawn_berths (s : State) : (drawn s).berths = s.berths := rfl
@[simp] theorem drawn_loops (s : State) : (drawn s).loops = s.loops := rfl
@[simp] theorem drawn_ctxs (s : State) : (drawn s).ctxs = s.ctxs := rfl
@[simp] theorem drawn_links (s : State) : (drawn s).links = s.links := rfl
@[simp] theorem drawn_axes (s : State) : (drawn s).axes = s.axes := rfl
@[simp] theorem drawn_ctrs (s : State) : (drawn s).ctrs = s.ctrs := rfl
@[simp] theorem drawn_hm (s : State) : (drawn s).hm = s.hm := rfl
@[simp] theorem drawn_commit (s : State) : (drawn s).commit = s.commit := rfl
@[simp] theorem drawn_vision (s : State) : (drawn s).vision = s.vision := rfl
@[simp] theorem drawn_chart (s : State) : (drawn s).chart = s.chart := rfl
@[simp] theorem drawn_bw (s : State) : (drawn s).bw = s.bw := rfl
@[simp] theorem drawn_rcd (s : State) : (drawn s).rcd = s.rcd := rfl
@[simp] theorem drawn_wake (s : State) : (drawn s).wake = s.wake := rfl
@[simp] theorem drawn_net (s : State) : (drawn s).net = s.net := rfl
@[simp] theorem drawn_ptp (s : State) : (drawn s).ptp = s.ptp := rfl
@[simp] theorem drawn_mem (s : State) : (drawn s).mem = s.mem := rfl
@[simp] theorem drawn_mains (s : State) : (drawn s).mains = s.mains := rfl
@[simp] theorem drawn_flash (s : State) : (drawn s).flash = s.flash := rfl
@[simp] theorem drawn_pilot (s : State) : (drawn s).pilot = s.pilot := rfl
@[simp] theorem drawn_log (s : State) : (drawn s).log = s.log := rfl
@[simp] theorem drawn_cal (s : State) : (drawn s).cal = s.cal := rfl

@[simp] theorem dramWrite_pending (a : Nat) (l : List Byte) (s : State) : (dramWrite a l s).pending = s.pending := rfl
@[simp] theorem dramWrite_out (a : Nat) (l : List Byte) (s : State) : (dramWrite a l s).out = s.out := rfl
@[simp] theorem dramWrite_result (a : Nat) (l : List Byte) (s : State) : (dramWrite a l s).result = s.result := rfl
@[simp] theorem dramWrite_free (a : Nat) (l : List Byte) (s : State) : (dramWrite a l s).free = s.free := rfl
@[simp] theorem dramWrite_now (a : Nat) (l : List Byte) (s : State) : (dramWrite a l s).now = s.now := rfl
@[simp] theorem dramWrite_frame (a : Nat) (l : List Byte) (s : State) : (dramWrite a l s).frame = s.frame := rfl
@[simp] theorem dramWrite_timeSet (a : Nat) (l : List Byte) (s : State) : (dramWrite a l s).timeSet = s.timeSet := rfl
@[simp] theorem dramWrite_obj (a : Nat) (l : List Byte) (s : State) : (dramWrite a l s).obj = s.obj := rfl
@[simp] theorem dramWrite_shadow (a : Nat) (l : List Byte) (s : State) : (dramWrite a l s).shadow = s.shadow := rfl
@[simp] theorem dramWrite_berths (a : Nat) (l : List Byte) (s : State) : (dramWrite a l s).berths = s.berths := rfl
@[simp] theorem dramWrite_loops (a : Nat) (l : List Byte) (s : State) : (dramWrite a l s).loops = s.loops := rfl
@[simp] theorem dramWrite_ctxs (a : Nat) (l : List Byte) (s : State) : (dramWrite a l s).ctxs = s.ctxs := rfl
@[simp] theorem dramWrite_links (a : Nat) (l : List Byte) (s : State) : (dramWrite a l s).links = s.links := rfl
@[simp] theorem dramWrite_axes (a : Nat) (l : List Byte) (s : State) : (dramWrite a l s).axes = s.axes := rfl
@[simp] theorem dramWrite_ctrs (a : Nat) (l : List Byte) (s : State) : (dramWrite a l s).ctrs = s.ctrs := rfl
@[simp] theorem dramWrite_hm (a : Nat) (l : List Byte) (s : State) : (dramWrite a l s).hm = s.hm := rfl
@[simp] theorem dramWrite_commit (a : Nat) (l : List Byte) (s : State) : (dramWrite a l s).commit = s.commit := rfl
@[simp] theorem dramWrite_vision (a : Nat) (l : List Byte) (s : State) : (dramWrite a l s).vision = s.vision := rfl
@[simp] theorem dramWrite_chart (a : Nat) (l : List Byte) (s : State) : (dramWrite a l s).chart = s.chart := rfl
@[simp] theorem dramWrite_bw (a : Nat) (l : List Byte) (s : State) : (dramWrite a l s).bw = s.bw := rfl
@[simp] theorem dramWrite_rcd (a : Nat) (l : List Byte) (s : State) : (dramWrite a l s).rcd = s.rcd := rfl
@[simp] theorem dramWrite_wake (a : Nat) (l : List Byte) (s : State) : (dramWrite a l s).wake = s.wake := rfl
@[simp] theorem dramWrite_net (a : Nat) (l : List Byte) (s : State) : (dramWrite a l s).net = s.net := rfl
@[simp] theorem dramWrite_ptp (a : Nat) (l : List Byte) (s : State) : (dramWrite a l s).ptp = s.ptp := rfl
@[simp] theorem dramWrite_mem (a : Nat) (l : List Byte) (s : State) : (dramWrite a l s).mem = s.mem := rfl
@[simp] theorem dramWrite_mains (a : Nat) (l : List Byte) (s : State) : (dramWrite a l s).mains = s.mains := rfl
@[simp] theorem dramWrite_flash (a : Nat) (l : List Byte) (s : State) : (dramWrite a l s).flash = s.flash := rfl
@[simp] theorem dramWrite_pilot (a : Nat) (l : List Byte) (s : State) : (dramWrite a l s).pilot = s.pilot := rfl
@[simp] theorem dramWrite_log (a : Nat) (l : List Byte) (s : State) : (dramWrite a l s).log = s.log := rfl
@[simp] theorem dramWrite_cal (a : Nat) (l : List Byte) (s : State) : (dramWrite a l s).cal = s.cal := rfl

@[simp] theorem getV_setShadow (i' k' : Nat) (i k : Nat) (v : Val) (s : State) :
    getV i' k' (setShadow i k v s) = getV i' k' s := rfl
@[simp] theorem getV_modBerth (i' k' : Nat) (b : Nat) (f : Berth → Berth) (s : State) :
    getV i' k' (modBerth b f s) = getV i' k' s := rfl
@[simp] theorem getV_modLoop (i' k' : Nat) (n : Nat) (f : Loop → Loop) (s : State) :
    getV i' k' (modLoop n f s) = getV i' k' s := rfl
@[simp] theorem getV_modCtx (i' k' : Nat) (c : Nat) (f : Context → Context) (s : State) :
    getV i' k' (modCtx c f s) = getV i' k' s := rfl
@[simp] theorem getV_modLink (i' k' : Nat) (l : Nat) (f : Link → Link) (s : State) :
    getV i' k' (modLink l f s) = getV i' k' s := rfl
@[simp] theorem getV_modAxis (i' k' : Nat) (m : Nat) (f : Axis → Axis) (s : State) :
    getV i' k' (modAxis m f s) = getV i' k' s := rfl
@[simp] theorem getV_modCtr (i' k' : Nat) (i : Nat) (f : Counter → Counter) (s : State) :
    getV i' k' (modCtr i f s) = getV i' k' s := rfl
@[simp] theorem getV_modSess (i' k' : Nat) (n : Nat) (f : Session → Session) (s : State) :
    getV i' k' (modSess n f s) = getV i' k' s := rfl
@[simp] theorem getV_modStream (i' k' : Nat) (n : Nat) (f : Stream → Stream) (s : State) :
    getV i' k' (modStream n f s) = getV i' k' s := rfl
@[simp] theorem getV_emit (i' k' : Nat) (o : Out) (s : State) : getV i' k' (emit o s) = getV i' k' s := rfl
@[simp] theorem getV_withResult (i' k' : Nat) (r : Nat) (s : State) : getV i' k' (withResult r s) = getV i' k' s := rfl
@[simp] theorem getV_drawn (i' k' : Nat) (s : State) : getV i' k' (drawn s) = getV i' k' s := rfl
@[simp] theorem getV_dramWrite (i' k' : Nat) (a : Nat) (l : List Byte) (s : State) :
    getV i' k' (dramWrite a l s) = getV i' k' s := rfl

@[simp] theorem berth_setV (b' : Nat) (i k : Nat) (v : Val) (s : State) : berth b' (setV i k v s) = berth b' s := rfl
@[simp] theorem berth_setShadow (b' : Nat) (i k : Nat) (v : Val) (s : State) : berth b' (setShadow i k v s) = berth b' s := rfl
@[simp] theorem berth_modLoop (b' : Nat) (n : Nat) (f : Loop → Loop) (s : State) : berth b' (modLoop n f s) = berth b' s := rfl
@[simp] theorem berth_modCtx (b' : Nat) (c : Nat) (f : Context → Context) (s : State) :
    berth b' (modCtx c f s) = berth b' s := rfl
@[simp] theorem berth_modLink (b' : Nat) (l : Nat) (f : Link → Link) (s : State) : berth b' (modLink l f s) = berth b' s := rfl
@[simp] theorem berth_modAxis (b' : Nat) (m : Nat) (f : Axis → Axis) (s : State) : berth b' (modAxis m f s) = berth b' s := rfl
@[simp] theorem berth_modCtr (b' : Nat) (i : Nat) (f : Counter → Counter) (s : State) :
    berth b' (modCtr i f s) = berth b' s := rfl
@[simp] theorem berth_modSess (b' : Nat) (n : Nat) (f : Session → Session) (s : State) :
    berth b' (modSess n f s) = berth b' s := rfl
@[simp] theorem berth_modStream (b' : Nat) (n : Nat) (f : Stream → Stream) (s : State) :
    berth b' (modStream n f s) = berth b' s := rfl
@[simp] theorem berth_emit (b' : Nat) (o : Out) (s : State) : berth b' (emit o s) = berth b' s := rfl
@[simp] theorem berth_withResult (b' : Nat) (r : Nat) (s : State) : berth b' (withResult r s) = berth b' s := rfl
@[simp] theorem berth_drawn (b' : Nat) (s : State) : berth b' (drawn s) = berth b' s := rfl
@[simp] theorem berth_dramWrite (b' : Nat) (a : Nat) (l : List Byte) (s : State) : berth b' (dramWrite a l s) = berth b' s := rfl

@[simp] theorem loop_setV (n' : Nat) (i k : Nat) (v : Val) (s : State) : loop n' (setV i k v s) = loop n' s := rfl
@[simp] theorem loop_setShadow (n' : Nat) (i k : Nat) (v : Val) (s : State) : loop n' (setShadow i k v s) = loop n' s := rfl
@[simp] theorem loop_modBerth (n' : Nat) (b : Nat) (f : Berth → Berth) (s : State) : loop n' (modBerth b f s) = loop n' s := rfl
@[simp] theorem loop_modCtx (n' : Nat) (c : Nat) (f : Context → Context) (s : State) : loop n' (modCtx c f s) = loop n' s := rfl
@[simp] theorem loop_modLink (n' : Nat) (l : Nat) (f : Link → Link) (s : State) : loop n' (modLink l f s) = loop n' s := rfl
@[simp] theorem loop_modAxis (n' : Nat) (m : Nat) (f : Axis → Axis) (s : State) : loop n' (modAxis m f s) = loop n' s := rfl
@[simp] theorem loop_modCtr (n' : Nat) (i : Nat) (f : Counter → Counter) (s : State) : loop n' (modCtr i f s) = loop n' s := rfl
@[simp] theorem loop_modSess (n' : Nat) (n : Nat) (f : Session → Session) (s : State) : loop n' (modSess n f s) = loop n' s := rfl
@[simp] theorem loop_modStream (n' : Nat) (n : Nat) (f : Stream → Stream) (s : State) :
    loop n' (modStream n f s) = loop n' s := rfl
@[simp] theorem loop_emit (n' : Nat) (o : Out) (s : State) : loop n' (emit o s) = loop n' s := rfl
@[simp] theorem loop_withResult (n' : Nat) (r : Nat) (s : State) : loop n' (withResult r s) = loop n' s := rfl
@[simp] theorem loop_drawn (n' : Nat) (s : State) : loop n' (drawn s) = loop n' s := rfl
@[simp] theorem loop_dramWrite (n' : Nat) (a : Nat) (l : List Byte) (s : State) : loop n' (dramWrite a l s) = loop n' s := rfl

@[simp] theorem ctx_setV (c' : Nat) (i k : Nat) (v : Val) (s : State) : ctx c' (setV i k v s) = ctx c' s := rfl
@[simp] theorem ctx_setShadow (c' : Nat) (i k : Nat) (v : Val) (s : State) : ctx c' (setShadow i k v s) = ctx c' s := rfl
@[simp] theorem ctx_modBerth (c' : Nat) (b : Nat) (f : Berth → Berth) (s : State) : ctx c' (modBerth b f s) = ctx c' s := rfl
@[simp] theorem ctx_modLoop (c' : Nat) (n : Nat) (f : Loop → Loop) (s : State) : ctx c' (modLoop n f s) = ctx c' s := rfl
@[simp] theorem ctx_modLink (c' : Nat) (l : Nat) (f : Link → Link) (s : State) : ctx c' (modLink l f s) = ctx c' s := rfl
@[simp] theorem ctx_modAxis (c' : Nat) (m : Nat) (f : Axis → Axis) (s : State) : ctx c' (modAxis m f s) = ctx c' s := rfl
@[simp] theorem ctx_modCtr (c' : Nat) (i : Nat) (f : Counter → Counter) (s : State) : ctx c' (modCtr i f s) = ctx c' s := rfl
@[simp] theorem ctx_modSess (c' : Nat) (n : Nat) (f : Session → Session) (s : State) : ctx c' (modSess n f s) = ctx c' s := rfl
@[simp] theorem ctx_modStream (c' : Nat) (n : Nat) (f : Stream → Stream) (s : State) : ctx c' (modStream n f s) = ctx c' s := rfl
@[simp] theorem ctx_emit (c' : Nat) (o : Out) (s : State) : ctx c' (emit o s) = ctx c' s := rfl
@[simp] theorem ctx_withResult (c' : Nat) (r : Nat) (s : State) : ctx c' (withResult r s) = ctx c' s := rfl
@[simp] theorem ctx_drawn (c' : Nat) (s : State) : ctx c' (drawn s) = ctx c' s := rfl
@[simp] theorem ctx_dramWrite (c' : Nat) (a : Nat) (l : List Byte) (s : State) : ctx c' (dramWrite a l s) = ctx c' s := rfl

@[simp] theorem link_setV (l' : Nat) (i k : Nat) (v : Val) (s : State) : link l' (setV i k v s) = link l' s := rfl
@[simp] theorem link_setShadow (l' : Nat) (i k : Nat) (v : Val) (s : State) : link l' (setShadow i k v s) = link l' s := rfl
@[simp] theorem link_modBerth (l' : Nat) (b : Nat) (f : Berth → Berth) (s : State) : link l' (modBerth b f s) = link l' s := rfl
@[simp] theorem link_modLoop (l' : Nat) (n : Nat) (f : Loop → Loop) (s : State) : link l' (modLoop n f s) = link l' s := rfl
@[simp] theorem link_modCtx (l' : Nat) (c : Nat) (f : Context → Context) (s : State) : link l' (modCtx c f s) = link l' s := rfl
@[simp] theorem link_modAxis (l' : Nat) (m : Nat) (f : Axis → Axis) (s : State) : link l' (modAxis m f s) = link l' s := rfl
@[simp] theorem link_modCtr (l' : Nat) (i : Nat) (f : Counter → Counter) (s : State) : link l' (modCtr i f s) = link l' s := rfl
@[simp] theorem link_modSess (l' : Nat) (n : Nat) (f : Session → Session) (s : State) : link l' (modSess n f s) = link l' s := rfl
@[simp] theorem link_modStream (l' : Nat) (n : Nat) (f : Stream → Stream) (s : State) :
    link l' (modStream n f s) = link l' s := rfl
@[simp] theorem link_emit (l' : Nat) (o : Out) (s : State) : link l' (emit o s) = link l' s := rfl
@[simp] theorem link_withResult (l' : Nat) (r : Nat) (s : State) : link l' (withResult r s) = link l' s := rfl
@[simp] theorem link_drawn (l' : Nat) (s : State) : link l' (drawn s) = link l' s := rfl
@[simp] theorem link_dramWrite (l' : Nat) (a : Nat) (l : List Byte) (s : State) : link l' (dramWrite a l s) = link l' s := rfl

@[simp] theorem axis_setV (m' : Nat) (i k : Nat) (v : Val) (s : State) : axis m' (setV i k v s) = axis m' s := rfl
@[simp] theorem axis_setShadow (m' : Nat) (i k : Nat) (v : Val) (s : State) : axis m' (setShadow i k v s) = axis m' s := rfl
@[simp] theorem axis_modBerth (m' : Nat) (b : Nat) (f : Berth → Berth) (s : State) : axis m' (modBerth b f s) = axis m' s := rfl
@[simp] theorem axis_modLoop (m' : Nat) (n : Nat) (f : Loop → Loop) (s : State) : axis m' (modLoop n f s) = axis m' s := rfl
@[simp] theorem axis_modCtx (m' : Nat) (c : Nat) (f : Context → Context) (s : State) : axis m' (modCtx c f s) = axis m' s := rfl
@[simp] theorem axis_modLink (m' : Nat) (l : Nat) (f : Link → Link) (s : State) : axis m' (modLink l f s) = axis m' s := rfl
@[simp] theorem axis_modCtr (m' : Nat) (i : Nat) (f : Counter → Counter) (s : State) : axis m' (modCtr i f s) = axis m' s := rfl
@[simp] theorem axis_modSess (m' : Nat) (n : Nat) (f : Session → Session) (s : State) : axis m' (modSess n f s) = axis m' s := rfl
@[simp] theorem axis_modStream (m' : Nat) (n : Nat) (f : Stream → Stream) (s : State) :
    axis m' (modStream n f s) = axis m' s := rfl
@[simp] theorem axis_emit (m' : Nat) (o : Out) (s : State) : axis m' (emit o s) = axis m' s := rfl
@[simp] theorem axis_withResult (m' : Nat) (r : Nat) (s : State) : axis m' (withResult r s) = axis m' s := rfl
@[simp] theorem axis_drawn (m' : Nat) (s : State) : axis m' (drawn s) = axis m' s := rfl
@[simp] theorem axis_dramWrite (m' : Nat) (a : Nat) (l : List Byte) (s : State) : axis m' (dramWrite a l s) = axis m' s := rfl

@[simp] theorem ctr_setV (i' : Nat) (i k : Nat) (v : Val) (s : State) : ctr i' (setV i k v s) = ctr i' s := rfl
@[simp] theorem ctr_setShadow (i' : Nat) (i k : Nat) (v : Val) (s : State) : ctr i' (setShadow i k v s) = ctr i' s := rfl
@[simp] theorem ctr_modBerth (i' : Nat) (b : Nat) (f : Berth → Berth) (s : State) : ctr i' (modBerth b f s) = ctr i' s := rfl
@[simp] theorem ctr_modLoop (i' : Nat) (n : Nat) (f : Loop → Loop) (s : State) : ctr i' (modLoop n f s) = ctr i' s := rfl
@[simp] theorem ctr_modCtx (i' : Nat) (c : Nat) (f : Context → Context) (s : State) : ctr i' (modCtx c f s) = ctr i' s := rfl
@[simp] theorem ctr_modLink (i' : Nat) (l : Nat) (f : Link → Link) (s : State) : ctr i' (modLink l f s) = ctr i' s := rfl
@[simp] theorem ctr_modAxis (i' : Nat) (m : Nat) (f : Axis → Axis) (s : State) : ctr i' (modAxis m f s) = ctr i' s := rfl
@[simp] theorem ctr_modSess (i' : Nat) (n : Nat) (f : Session → Session) (s : State) : ctr i' (modSess n f s) = ctr i' s := rfl
@[simp] theorem ctr_modStream (i' : Nat) (n : Nat) (f : Stream → Stream) (s : State) : ctr i' (modStream n f s) = ctr i' s := rfl
@[simp] theorem ctr_emit (i' : Nat) (o : Out) (s : State) : ctr i' (emit o s) = ctr i' s := rfl
@[simp] theorem ctr_withResult (i' : Nat) (r : Nat) (s : State) : ctr i' (withResult r s) = ctr i' s := rfl
@[simp] theorem ctr_drawn (i' : Nat) (s : State) : ctr i' (drawn s) = ctr i' s := rfl
@[simp] theorem ctr_dramWrite (i' : Nat) (a : Nat) (l : List Byte) (s : State) : ctr i' (dramWrite a l s) = ctr i' s := rfl

@[simp] theorem sess_setV (n' : Nat) (i k : Nat) (v : Val) (s : State) : sess n' (setV i k v s) = sess n' s := rfl
@[simp] theorem sess_setShadow (n' : Nat) (i k : Nat) (v : Val) (s : State) : sess n' (setShadow i k v s) = sess n' s := rfl
@[simp] theorem sess_modBerth (n' : Nat) (b : Nat) (f : Berth → Berth) (s : State) : sess n' (modBerth b f s) = sess n' s := rfl
@[simp] theorem sess_modLoop (n' : Nat) (n : Nat) (f : Loop → Loop) (s : State) : sess n' (modLoop n f s) = sess n' s := rfl
@[simp] theorem sess_modCtx (n' : Nat) (c : Nat) (f : Context → Context) (s : State) : sess n' (modCtx c f s) = sess n' s := rfl
@[simp] theorem sess_modLink (n' : Nat) (l : Nat) (f : Link → Link) (s : State) : sess n' (modLink l f s) = sess n' s := rfl
@[simp] theorem sess_modAxis (n' : Nat) (m : Nat) (f : Axis → Axis) (s : State) : sess n' (modAxis m f s) = sess n' s := rfl
@[simp] theorem sess_modCtr (n' : Nat) (i : Nat) (f : Counter → Counter) (s : State) : sess n' (modCtr i f s) = sess n' s := rfl
@[simp] theorem sess_modStream (n' : Nat) (n : Nat) (f : Stream → Stream) (s : State) :
    sess n' (modStream n f s) = sess n' s := rfl
@[simp] theorem sess_emit (n' : Nat) (o : Out) (s : State) : sess n' (emit o s) = sess n' s := rfl
@[simp] theorem sess_withResult (n' : Nat) (r : Nat) (s : State) : sess n' (withResult r s) = sess n' s := rfl
@[simp] theorem sess_drawn (n' : Nat) (s : State) : sess n' (drawn s) = sess n' s := rfl
@[simp] theorem sess_dramWrite (n' : Nat) (a : Nat) (l : List Byte) (s : State) : sess n' (dramWrite a l s) = sess n' s := rfl

@[simp] theorem stream_setV (n' : Nat) (i k : Nat) (v : Val) (s : State) : stream n' (setV i k v s) = stream n' s := rfl
@[simp] theorem stream_setShadow (n' : Nat) (i k : Nat) (v : Val) (s : State) : stream n' (setShadow i k v s) = stream n' s := rfl
@[simp] theorem stream_modBerth (n' : Nat) (b : Nat) (f : Berth → Berth) (s : State) :
    stream n' (modBerth b f s) = stream n' s := rfl
@[simp] theorem stream_modLoop (n' : Nat) (n : Nat) (f : Loop → Loop) (s : State) : stream n' (modLoop n f s) = stream n' s := rfl
@[simp] theorem stream_modCtx (n' : Nat) (c : Nat) (f : Context → Context) (s : State) :
    stream n' (modCtx c f s) = stream n' s := rfl
@[simp] theorem stream_modLink (n' : Nat) (l : Nat) (f : Link → Link) (s : State) : stream n' (modLink l f s) = stream n' s := rfl
@[simp] theorem stream_modAxis (n' : Nat) (m : Nat) (f : Axis → Axis) (s : State) : stream n' (modAxis m f s) = stream n' s := rfl
@[simp] theorem stream_modCtr (n' : Nat) (i : Nat) (f : Counter → Counter) (s : State) :
    stream n' (modCtr i f s) = stream n' s := rfl
@[simp] theorem stream_modSess (n' : Nat) (n : Nat) (f : Session → Session) (s : State) :
    stream n' (modSess n f s) = stream n' s := rfl
@[simp] theorem stream_emit (n' : Nat) (o : Out) (s : State) : stream n' (emit o s) = stream n' s := rfl
@[simp] theorem stream_withResult (n' : Nat) (r : Nat) (s : State) : stream n' (withResult r s) = stream n' s := rfl
@[simp] theorem stream_drawn (n' : Nat) (s : State) : stream n' (drawn s) = stream n' s := rfl
@[simp] theorem stream_dramWrite (n' : Nat) (a : Nat) (l : List Byte) (s : State) :
    stream n' (dramWrite a l s) = stream n' s := rfl

/-- An object reads the value put in force. -/
@[simp] theorem getV_setV_self (i k : Nat) (v : Val) (s : State) : getV i k (setV i k v s) = v := by
  simp [getV, setV, Tab.find_put_self]

/-- Another object reads what it read. -/
theorem getV_setV_ne {i k i' k' : Nat} (v : Val) (s : State) (h : key i' k' ≠ key i k) :
    getV i' k' (setV i k v s) = getV i' k' s := by
  simp [getV, setV, Tab.find_put_ne _ _ h]

@[simp] theorem getI_setI_self (i k : Nat) (v : Int) (s : State) : getI i k (setI i k v s) = v := by
  simp [getI, setI, asInt]
@[simp] theorem getI_setN_self (i k v : Nat) (s : State) : getI i k (setN i k v s) = v := by simp [getI, setN, asInt]
@[simp] theorem getN_setN_self (i k v : Nat) (s : State) : getN i k (setN i k v s) = v := by simp [getN]
@[simp] theorem getN_setI_self (i k : Nat) (v : Int) (s : State) : getN i k (setI i k v s) = v.toNat := by simp [getN]
@[simp] theorem getB_setB_self (i k : Nat) (v : List Byte) (s : State) : getB i k (setB i k v s) = v := by
  simp [getB, setB, asBytes]

theorem getN_setN_ne {i k i' k' : Nat} (v : Nat) (s : State) (h : key i' k' ≠ key i k) :
    getN i' k' (setN i k v s) = getN i' k' s := by simp [getN, getI, setN, getV_setV_ne _ _ h]
theorem getN_setI_ne {i k i' k' : Nat} (v : Int) (s : State) (h : key i' k' ≠ key i k) :
    getN i' k' (setI i k v s) = getN i' k' s := by simp [getN, getI, setI, getV_setV_ne _ _ h]

@[simp] theorem key_inj {i k i' k' : Nat} (h : k < 256) (h' : k' < 256) : key i k = key i' k' ↔ i = i' ∧ k = k' := by
  unfold key; omega

@[simp] theorem berth_modBerth_self (b : Nat) (f : Berth → Berth) (s : State) :
    berth b (modBerth b f s) = f (berth b s) := by simp [berth, modBerth]
theorem berth_modBerth_ne (b : Nat) (f : Berth → Berth) {j : Nat} (s : State) (h :
    j ≠ b) : berth j (modBerth b f s) = berth j s := by
  simp [berth, modBerth, h]
@[simp] theorem loop_modLoop_self (n : Nat) (f : Loop → Loop) (s : State) :
    loop n (modLoop n f s) = f (loop n s) := by simp [loop, modLoop]
theorem loop_modLoop_ne (n : Nat) (f : Loop → Loop) {j : Nat} (s : State) (h : j ≠ n) : loop j (modLoop n f s) = loop j s := by
  simp [loop, modLoop, h]
@[simp] theorem ctx_modCtx_self (c : Nat) (f : Context → Context) (s : State) :
    ctx c (modCtx c f s) = f (ctx c s) := by simp [ctx, modCtx]
theorem ctx_modCtx_ne (c : Nat) (f : Context → Context) {j : Nat} (s : State) (h : j ≠ c) : ctx j (modCtx c f s) = ctx j s := by
  simp [ctx, modCtx, h]
@[simp] theorem link_modLink_self (l : Nat) (f : Link → Link) (s : State) :
    link l (modLink l f s) = f (link l s) := by simp [link, modLink]
theorem link_modLink_ne (l : Nat) (f : Link → Link) {j : Nat} (s : State) (h : j ≠ l) : link j (modLink l f s) = link j s := by
  simp [link, modLink, h]
@[simp] theorem axis_modAxis_self (m : Nat) (f : Axis → Axis) (s : State) :
    axis m (modAxis m f s) = f (axis m s) := by simp [axis, modAxis]
theorem axis_modAxis_ne (m : Nat) (f : Axis → Axis) {j : Nat} (s : State) (h : j ≠ m) : axis j (modAxis m f s) = axis j s := by
  simp [axis, modAxis, h]
@[simp] theorem ctr_modCtr_self (i : Nat) (f : Counter → Counter) (s : State) :
    ctr i (modCtr i f s) = f (ctr i s) := by simp [ctr, modCtr]
theorem ctr_modCtr_ne (i : Nat) (f : Counter → Counter) {j : Nat} (s : State) (h : j ≠ i) : ctr j (modCtr i f s) = ctr j s := by
  simp [ctr, modCtr, h]
@[simp] theorem sess_modSess_self (n : Nat) (f : Session → Session) (s : State) : sess n (modSess n f s) = f (sess n s) := by
  simp [sess, modSess]
theorem sess_modSess_ne (n : Nat) (f : Session → Session) {j : Nat} (s : State) (h : j ≠ n) :
    sess j (modSess n f s) = sess j s := by simp [sess, modSess, h]
@[simp] theorem stream_modStream_self (n : Nat) (f : Stream → Stream) (s : State) :
    stream n (modStream n f s) = f (stream n s) := by simp [stream, modStream]
theorem stream_modStream_ne (n : Nat) (f : Stream → Stream) {j : Nat} (s : State) (h : j ≠ n) :
    stream j (modStream n f s) = stream j s := by simp [stream, modStream, h]

end Sys2Proof.Machine
end

