-- ==== Sys2Proof/Laws/Notice.lean ====
section
/-!
SUPPORT. Sys2Proof/Laws/Notice.lean: what raising a notice or a logbook record leaves alone: every object but the logbook's and
the counter of dropped notices, and every part of the state but the sessions' queues, the logbook and the flash.
-/
namespace Sys2Proof.Machine

/-- The objects a notice or a logbook record may change: 0x0500:01, :02, :06, :07 and 0x0805:04. -/
def noticeKey (n : Nat) : Prop :=
  n = key 0x0500 1 ∨ n = key 0x0500 2 ∨ n = key 0x0500 6 ∨ n = key 0x0500 7 ∨ n = key 0x0805 4

/-- Nothing changed but what notices and logbook records change. -/
structure Quiet (s t : State) : Prop where
  obj : ∀ i k, ¬ noticeKey (key i k) → getV i k t = getV i k s
  pending : t.pending = s.pending
  out : t.out = s.out
  result : t.result = s.result
  free : t.free = s.free
  now : t.now = s.now
  frame : t.frame = s.frame
  timeSet : t.timeSet = s.timeSet
  shadow : t.shadow = s.shadow
  dram : t.dram = s.dram
  berths : t.berths = s.berths
  loops : t.loops = s.loops
  ctxs : t.ctxs = s.ctxs
  links : t.links = s.links
  axes : t.axes = s.axes
  ctrs : t.ctrs = s.ctrs
  hm : t.hm = s.hm
  commit : t.commit = s.commit
  vision : t.vision = s.vision
  chart : t.chart = s.chart
  bw : t.bw = s.bw
  rcd : t.rcd = s.rcd
  wake : t.wake = s.wake
  ptp : t.ptp = s.ptp
  mem : t.mem = s.mem
  mains : t.mains = s.mains
  pilot : t.pilot = s.pilot
  cal : t.cal = s.cal
  sessions : ∀ n, (sess n t).opened = (sess n s).opened ∧ (sess n t).cls = (sess n s).cls ∧
    (sess n t).watched = (sess n s).watched ∧ (sess n t).proven = (sess n s).proven ∧ (sess n t).last = (sess n s).last ∧
    (sess n t).rwp = (sess n s).rwp ∧ (sess n t).mask = (sess n s).mask ∧ (sess n t).bulks = (sess n s).bulks
  spiState : t.net.spiState = s.net.spiState
  failures : t.net.failures = s.net.failures

variable {s t u : State}

theorem Quiet.refl (s : State) : Quiet s s :=
  { obj := fun _ _ _ => rfl, sessions := fun _ => ⟨rfl, rfl, rfl, rfl, rfl, rfl, rfl, rfl⟩, spiState := rfl, failures := rfl,
    pending := rfl, out := rfl, result := rfl, free := rfl, now := rfl, frame := rfl, timeSet := rfl, shadow := rfl, dram := rfl,
    berths := rfl, loops := rfl, ctxs := rfl, links := rfl, axes := rfl, ctrs := rfl, hm := rfl, commit := rfl, vision := rfl,
    chart := rfl, bw := rfl, rcd := rfl, wake := rfl, ptp := rfl, mem := rfl, mains := rfl, pilot := rfl, cal := rfl }
theorem Quiet.trans (h : Quiet s t) (h' : Quiet t u) : Quiet s u :=
  { obj := fun i k n => (h'.obj i k n).trans (h.obj i k n), sessions := fun n =>
      let a := h.sessions n
      let b := h'.sessions n
      ⟨b.1.trans a.1, b.2.1.trans a.2.1, b.2.2.1.trans a.2.2.1, b.2.2.2.1.trans a.2.2.2.1, b.2.2.2.2.1.trans a.2.2.2.2.1,
        b.2.2.2.2.2.1.trans a.2.2.2.2.2.1, b.2.2.2.2.2.2.1.trans a.2.2.2.2.2.2.1, b.2.2.2.2.2.2.2.trans a.2.2.2.2.2.2.2⟩,
    spiState := h'.spiState.trans h.spiState, failures := h'.failures.trans h.failures, pending := h'.pending.trans h.pending,
    out := h'.out.trans h.out, result := h'.result.trans h.result, free := h'.free.trans h.free, now := h'.now.trans h.now, frame
    := h'.frame.trans h.frame, timeSet := h'.timeSet.trans h.timeSet, shadow := h'.shadow.trans h.shadow,
    dram := h'.dram.trans h.dram, berths := h'.berths.trans h.berths, loops := h'.loops.trans h.loops,
    ctxs := h'.ctxs.trans h.ctxs, links :=
    h'.links.trans h.links, axes := h'.axes.trans h.axes, ctrs := h'.ctrs.trans h.ctrs, hm := h'.hm.trans h.hm, commit :=
    h'.commit.trans h.commit, vision := h'.vision.trans h.vision, chart := h'.chart.trans h.chart, bw := h'.bw.trans h.bw, rcd :=
    h'.rcd.trans h.rcd, wake := h'.wake.trans h.wake, ptp := h'.ptp.trans h.ptp, mem := h'.mem.trans h.mem, mains :=
    h'.mains.trans h.mains, pilot := h'.pilot.trans h.pilot, cal := h'.cal.trans h.cal }

theorem Quiet.getN (h : Quiet s t) {i k : Nat} (hk : ¬ noticeKey (key i k)) : Machine.getN i k t = Machine.getN i k s := by
  simp [Machine.getN, getI, h.obj i k hk]
theorem Quiet.getI (h : Quiet s t) {i k : Nat} (hk : ¬ noticeKey (key i k)) : Machine.getI i k t = Machine.getI i k s := by
  simp [Machine.getI, h.obj i k hk]

theorem Quiet.setN {i k v : Nat} (hk : noticeKey (key i k)) : Quiet s (setN i k v s) :=
  { Quiet.refl s with
    obj := fun i' k' h => getV_setV_ne _ _ fun e => h (by rw [e]; exact hk)
    sessions := fun _ => ⟨rfl, rfl, rfl, rfl, rfl, rfl, rfl, rfl⟩ }

theorem Quiet.addN {i k w n : Nat} (hk : noticeKey (key i k)) : Quiet s (addN i k w n s) := Quiet.setN hk

theorem Quiet.logFlash {l : Logbook} {f : Flash} : Quiet s { s with log := l, flash := f } := { Quiet.refl s with }

theorem quiet_logProgram (r : LogRecord) : Quiet s (logProgram r s) := by
  unfold logProgram
  split
  · exact .logFlash
  · split <;> exact .logFlash

theorem quiet_logDrain (l : List LogRecord) : Quiet s (logDrain l s) := by
  induction l generalizing s with
  | nil => exact .logFlash
  | cons r l ih =>
    unfold logDrain
    split
    · exact .logFlash
    · exact (quiet_logProgram r).trans ih

theorem quiet_logStage (cls num code : Nat) (d : List Byte) (t : Time) : Quiet s (logStage cls num code d t s) := by
  unfold logStage
  exact Quiet.trans .logFlash (.addN (.inl rfl))

theorem quiet_logCount : Quiet s (logCount s) := by
  unfold logCount
  dsimp only
  refine Quiet.trans ?_ (.setN (.inr (.inr (.inl rfl))))
  have h : ∀ o, Quiet s (if getN 0x0500 2 s = o then s else setN 0x0500 2 o s) := fun o => by
    split
    · exact .refl _
    · exact .setN (.inr (.inl rfl))
  exact h _

theorem quiet_logLostNote : Quiet s (logLostNote s) := by
  unfold logLostNote
  split
  · exact Quiet.trans .logFlash (quiet_logStage ..)
  · exact .refl _

theorem quiet_logFlush : Quiet s (logFlush s) :=
  ((quiet_logDrain _).trans quiet_logLostNote).trans quiet_logCount

theorem quiet_logAdd (cls num code : Nat) (d : List Byte) (t : Time) : Quiet s (logAdd cls num code d t s) := by
  unfold logAdd
  split
  · dsimp only
    split
    · exact (quiet_logStage ..).trans quiet_logFlush
    · exact (quiet_logStage ..).trans quiet_logCount
  · exact Quiet.trans .logFlash (.addN (.inr (.inr (.inr (.inl rfl)))))

theorem Quiet.modSess {n : Nat} {f : Session → Session} (h : ∀ x, (f x).opened = x.opened ∧ (f x).cls = x.cls ∧
    (f x).watched = x.watched ∧ (f x).proven = x.proven ∧ (f x).last = x.last ∧ (f x).rwp = x.rwp ∧ (f x).mask = x.mask ∧
    (f x).bulks = x.bulks) : Quiet s (modSess n f s) :=
  { Quiet.refl s with
    sessions := fun m => if e : m = n then by subst e; simpa using h _ else by simp [sess_modSess_ne _ _ _ e] }

theorem quiet_queueNotice (n : Notice) (k : Nat) : Quiet s (queueNotice n k s) := by
  unfold queueNotice
  dsimp only
  split
  · split
    · exact .modSess fun _ => ⟨rfl, rfl, rfl, rfl, rfl, rfl, rfl, rfl⟩
    · refine Quiet.trans ?_ (.addN (.inr (.inr (.inr (.inr rfl)))))
      exact .modSess fun _ => ⟨rfl, rfl, rfl, rfl, rfl, rfl, rfl, rfl⟩
  · exact .refl _

theorem quiet_each {l : List Nat} {f : Nat → State → State} (h : ∀ n s, Quiet s (f n s)) : Quiet s (each l f s) := by
  unfold each
  induction l generalizing s with
  | nil => exact .refl _
  | cons n l ih => exact (h n s).trans ih

/-- A notice leaves all but the notices' own places alone. -/
theorem quiet_noticeAt (cls num code : Nat) (d : List Byte) (t : Time) : Quiet s (noticeAt cls num code d t s) := by
  have h : ∀ q, Quiet s { s with net := { s.net with seqs := q } } := fun _ => { Quiet.refl s with }
  unfold noticeAt
  dsimp only
  split
  · exact ((h _).trans (quiet_each fun k _ => quiet_queueNotice _ k)).trans (quiet_logAdd ..)
  · exact (h _).trans (quiet_each fun k _ => quiet_queueNotice _ k)

theorem quiet_noticeLogAt (cls num code : Nat) (d : List Byte) (t : Time) : Quiet s (noticeLogAt cls num code d t s) := by
  unfold noticeLogAt
  dsimp only
  split
  · exact quiet_noticeAt ..
  · exact (quiet_noticeAt ..).trans (quiet_logAdd ..)

theorem quiet_notice (cls num code : Nat) (d : List Byte) : Quiet s (notice cls num code d s) := quiet_noticeAt ..
theorem quiet_noticeLog (cls num code : Nat) (d : List Byte) : Quiet s (noticeLog cls num code d s) := quiet_noticeLogAt ..
theorem quiet_noticeObj (cls num i k : Nat) (old : Int) : Quiet s (noticeObj cls num i k old s) := quiet_notice ..

end Sys2Proof.Machine
end

