-- ==== Sys2Proof/Laws/PerInstr.lean ====
section
/-!
SUPPORT. Sys2Proof/Laws/PerInstr.lean: what every command says of its operands as syntax, one lemma per constructor: a berth or head that
a well-formed command names is one of the part's 24 (R4), and its domain is one the running rule knows (R341).
-/
namespace Sys2Proof.Laws.Operands

set_option Elab.async false

/-- The berth, or the head of a berth, that a command names. -/
def berthOf : Instr → Option Nat
  | .pauseAtSafePoint b | .pauseNow b _ | .resume b _ | .berthReset b _ | .safePointReached b | .decelerationComplete b
  | .loadData b _ | .closeLength b _ | .validationComplete b _ | .repairComplete b _ | .slotClear b _ | .noHostCopy b
  | .endReached b | .waitComplete b | .waitTimeout b | .eventGroup b | .powerSample b _ | .temperatureReportTimeout b
  | .budgetWaitTimeout b | .reassignBerth b | .sampleAnchor b | .wakeResume b | .settleTime b => some b
  | .feedback h _ | .status h _ | .tile h _ | .caps h _ | .feedbackMissing h | .measurementInterval h | .echoReply h _ _ _
  | .configWrite _ h _ | .configRead _ h | .configReply h _ | .configTimeout h | .echoReplyTimeout h _ => some h
  | _ => none

/-- A berth that a well-formed command names exists, and its domain is one of those of the running rule. -/
def Statement (i : Instr) : Prop := (i.wf = true → ∀ b, berthOf i = some b → b < 24) ∧ Machine.commandDomain i ≤ 11

/-- A command that names no berth. -/
theorem of_none (i : Instr) (h : berthOf i = none) (d : Machine.commandDomain i ≤ 11) : Statement i :=
  ⟨fun _ b hb => by rw [h] at hb; exact (nomatch hb), d⟩

/-- A command that names berth b, whose well-formedness bounds it. -/
theorem of_some (i : Instr) (b : Nat) (h : berthOf i = some b) (w : i.wf = true → b < 24) (d : Machine.commandDomain i ≤ 11) : Statement i :=
  ⟨fun hw c hc => by rw [h] at hc; injection hc with e; exact e ▸ w hw, d⟩

theorem pauseAtSafePoint (b : Nat) : Statement (.pauseAtSafePoint b) :=
  of_some _ b rfl (fun w => by simp [Instr.wf, berthOk] at w; omega) (Nat.le_of_ble_eq_true rfl)
theorem pauseNow (b off : Nat) : Statement (.pauseNow b off) :=
  of_some _ b rfl (fun w => by simp [Instr.wf, berthOk] at w; omega) (Nat.le_of_ble_eq_true rfl)
theorem resume (b off : Nat) : Statement (.resume b off) :=
  of_some _ b rfl (fun w => by simp [Instr.wf, berthOk] at w; omega) (Nat.le_of_ble_eq_true rfl)
theorem berthReset (b off : Nat) : Statement (.berthReset b off) :=
  of_some _ b rfl (fun w => by simp [Instr.wf, berthOk] at w; omega) (Nat.le_of_ble_eq_true rfl)
theorem harbourPauseAtSafePoint : Statement .harbourPauseAtSafePoint := of_none _ rfl (Nat.le_of_ble_eq_true rfl)
theorem harbourPauseNow : Statement .harbourPauseNow := of_none _ rfl (Nat.le_of_ble_eq_true rfl)
theorem harbourResume : Statement .harbourResume := of_none _ rfl (Nat.le_of_ble_eq_true rfl)
theorem safePointReached (b : Nat) : Statement (.safePointReached b) :=
  of_some _ b rfl (fun w => by simp [Instr.wf, berthOk] at w; omega) (Nat.le_of_ble_eq_true rfl)
theorem decelerationComplete (b : Nat) : Statement (.decelerationComplete b) :=
  of_some _ b rfl (fun w => by simp [Instr.wf, berthOk] at w; omega) (Nat.le_of_ble_eq_true rfl)
theorem fence (sess : Nat) : Statement (.fence sess) := of_none _ rfl (Nat.le_of_ble_eq_true rfl)
theorem objectWrite (sess idx sub : Nat) (v : Val) : Statement (.objectWrite sess idx sub v) := of_none _ rfl (Nat.le_of_ble_eq_true rfl)
theorem loadData (b : Nat) (data : List Byte) : Statement (.loadData b data) :=
  of_some _ b rfl (fun w => by simp [Instr.wf, berthOk] at w; omega) (Nat.le_of_ble_eq_true rfl)
theorem closeLength (b len : Nat) : Statement (.closeLength b len) :=
  of_some _ b rfl (fun w => by simp [Instr.wf, berthOk] at w; omega) (Nat.le_of_ble_eq_true rfl)
theorem validationComplete (b slot : Nat) : Statement (.validationComplete b slot) :=
  of_some _ b rfl (fun w => by simp [Instr.wf, berthOk] at w; omega) (Nat.le_of_ble_eq_true rfl)
theorem repairComplete (b slot : Nat) : Statement (.repairComplete b slot) :=
  of_some _ b rfl (fun w => by simp [Instr.wf, berthOk] at w; omega) (Nat.le_of_ble_eq_true rfl)
theorem slotClear (b slot : Nat) : Statement (.slotClear b slot) :=
  of_some _ b rfl (fun w => by simp [Instr.wf, berthOk] at w; omega) (Nat.le_of_ble_eq_true rfl)
theorem noHostCopy (b : Nat) : Statement (.noHostCopy b) :=
  of_some _ b rfl (fun w => by simp [Instr.wf, berthOk] at w; omega) (Nat.le_of_ble_eq_true rfl)
theorem groupSeal (sess group layer : Nat) (sig : List Byte) : Statement (.groupSeal sess group layer sig) :=
  of_none _ rfl (Nat.le_of_ble_eq_true rfl)
theorem groupUnseal (sess group : Nat) (sig : List Byte) : Statement (.groupUnseal sess group sig) :=
  of_none _ rfl (Nat.le_of_ble_eq_true rfl)
theorem commitRequest (layer : Nat) : Statement (.commitRequest layer) := of_none _ rfl (Nat.le_of_ble_eq_true rfl)
theorem lockWindowOpen : Statement .lockWindowOpen := of_none _ rfl (Nat.le_of_ble_eq_true rfl)
theorem lockGateCommit : Statement .lockGateCommit := of_none _ rfl (Nat.le_of_ble_eq_true rfl)
theorem lockTimeout : Statement .lockTimeout := of_none _ rfl (Nat.le_of_ble_eq_true rfl)
theorem commitAbort : Statement .commitAbort := of_none _ rfl (Nat.le_of_ble_eq_true rfl)
theorem exposingStart : Statement .exposingStart := of_none _ rfl (Nat.le_of_ble_eq_true rfl)
theorem endReached (b : Nat) : Statement (.endReached b) :=
  of_some _ b rfl (fun w => by simp [Instr.wf, berthOk] at w; omega) (Nat.le_of_ble_eq_true rfl)
theorem fenceComplete (id : Nat) : Statement (.fenceComplete id) := of_none _ rfl (Nat.le_of_ble_eq_true rfl)
theorem waitComplete (b : Nat) : Statement (.waitComplete b) :=
  of_some _ b rfl (fun w => by simp [Instr.wf, berthOk] at w; omega) (Nat.le_of_ble_eq_true rfl)
theorem waitTimeout (b : Nat) : Statement (.waitTimeout b) :=
  of_some _ b rfl (fun w => by simp [Instr.wf, berthOk] at w; omega) (Nat.le_of_ble_eq_true rfl)
theorem loopFrame (inp : FrameIn) : Statement (.loopFrame inp) := of_none _ rfl (Nat.le_of_ble_eq_true rfl)
theorem feedback (h : Nat) (w : WireFrame) : Statement (.feedback h w) :=
  of_some _ h rfl (fun w => by simp [Instr.wf, berthOk] at w; omega) (Nat.le_of_ble_eq_true rfl)
theorem eventGroup (b : Nat) : Statement (.eventGroup b) :=
  of_some _ b rfl (fun w => by simp [Instr.wf, berthOk] at w; omega) (Nat.le_of_ble_eq_true rfl)
theorem powerSample (b j : Nat) : Statement (.powerSample b j) :=
  of_some _ b rfl (fun w => by simp [Instr.wf, berthOk] at w; omega) (Nat.le_of_ble_eq_true rfl)
theorem status (h : Nat) (w : WireFrame) : Statement (.status h w) :=
  of_some _ h rfl (fun w => by simp [Instr.wf, berthOk] at w; omega) (Nat.le_of_ble_eq_true rfl)
theorem temperatureReportTimeout (b : Nat) : Statement (.temperatureReportTimeout b) :=
  of_some _ b rfl (fun w => by simp [Instr.wf, berthOk] at w; omega) (Nat.le_of_ble_eq_true rfl)
theorem recordMissing (k : Nat) : Statement (.recordMissing k) := of_none _ rfl (Nat.le_of_ble_eq_true rfl)
theorem budgetWaitTimeout (b : Nat) : Statement (.budgetWaitTimeout b) :=
  of_some _ b rfl (fun w => by simp [Instr.wf, berthOk] at w; omega) (Nat.le_of_ble_eq_true rfl)
theorem budgetWithdrawal (phase : Nat) : Statement (.budgetWithdrawal phase) := of_none _ rfl (Nat.le_of_ble_eq_true rfl)
theorem reassignBerth (b : Nat) : Statement (.reassignBerth b) :=
  of_some _ b rfl (fun w => by simp [Instr.wf, berthOk] at w; omega) (Nat.le_of_ble_eq_true rfl)
theorem reassignment : Statement .reassignment := of_none _ rfl (Nat.le_of_ble_eq_true rfl)
theorem bankSelect (n v : Nat) : Statement (.bankSelect n v) := of_none _ rfl (Nat.le_of_ble_eq_true rfl)
theorem loopMode (n v : Nat) : Statement (.loopMode n v) := of_none _ rfl (Nat.le_of_ble_eq_true rfl)
theorem tripClear (n : Nat) : Statement (.tripClear n) := of_none _ rfl (Nat.le_of_ble_eq_true rfl)
theorem hostTrigger (c off : Nat) : Statement (.hostTrigger c off) := of_none _ rfl (Nat.le_of_ble_eq_true rfl)
theorem contextEnable (c : Nat) (v : Bool) : Statement (.contextEnable c v) := of_none _ rfl (Nat.le_of_ble_eq_true rfl)
theorem tile (h : Nat) (w : WireFrame) : Statement (.tile h w) :=
  of_some _ h rfl (fun w => by simp [Instr.wf, berthOk] at w; omega) (Nat.le_of_ble_eq_true rfl)
theorem csiPacket (port : Nat) (p : CsiPacket) : Statement (.csiPacket port p) := of_none _ rfl (Nat.le_of_ble_eq_true rfl)
theorem tileFrameTimeout (c : Nat) : Statement (.tileFrameTimeout c) := of_none _ rfl (Nat.le_of_ble_eq_true rfl)
theorem frameTimeout (c : Nat) : Statement (.frameTimeout c) := of_none _ rfl (Nat.le_of_ble_eq_true rfl)
theorem tileProcessed (c : Nat) : Statement (.tileProcessed c) := of_none _ rfl (Nat.le_of_ble_eq_true rfl)
theorem overload : Statement .overload := of_none _ rfl (Nat.le_of_ble_eq_true rfl)
theorem lampTemperatureRead (temps : List (Option Int)) : Statement (.lampTemperatureRead temps) :=
  of_none _ rfl (Nat.le_of_ble_eq_true rfl)
theorem lampBoardTimeout (d : Nat) : Statement (.lampBoardTimeout d) := of_none _ rfl (Nat.le_of_ble_eq_true rfl)
theorem channelDiagnosis (volts : List (Option Nat)) : Statement (.channelDiagnosis volts) := of_none _ rfl (Nat.le_of_ble_eq_true rfl)
theorem sequenceStart : Statement .sequenceStart := of_none _ rfl (Nat.le_of_ble_eq_true rfl)
theorem projectorStartTime : Statement .projectorStartTime := of_none _ rfl (Nat.le_of_ble_eq_true rfl)
theorem projectorEntry : Statement .projectorEntry := of_none _ rfl (Nat.le_of_ble_eq_true rfl)
theorem sequenceStop : Statement .sequenceStop := of_none _ rfl (Nat.le_of_ble_eq_true rfl)
theorem featureCharted : Statement .featureCharted := of_none _ rfl (Nat.le_of_ble_eq_true rfl)
theorem bufferClosed : Statement .bufferClosed := of_none _ rfl (Nat.le_of_ble_eq_true rfl)
theorem release (layer : Nat) : Statement (.release layer) := of_none _ rfl (Nat.le_of_ble_eq_true rfl)
theorem exportLayer (layer : Nat) : Statement (.exportLayer layer) := of_none _ rfl (Nat.le_of_ble_eq_true rfl)
theorem breakwaterSet (sess : Nat) (set sig : List Byte) : Statement (.breakwaterSet sess set sig) :=
  of_none _ rfl (Nat.le_of_ble_eq_true rfl)
theorem keySlotProgram (sess : Nat) (data sig : List Byte) : Statement (.keySlotProgram sess data sig) :=
  of_none _ rfl (Nat.le_of_ble_eq_true rfl)
theorem keySlotRevoke (sess slot : Nat) (sig : List Byte) : Statement (.keySlotRevoke sess slot sig) :=
  of_none _ rfl (Nat.le_of_ble_eq_true rfl)
theorem blockCoded : Statement .blockCoded := of_none _ rfl (Nat.le_of_ble_eq_true rfl)
theorem streamResume (st : Nat) : Statement (.streamResume st) := of_none _ rfl (Nat.le_of_ble_eq_true rfl)
theorem gapEntry (st : Nat) : Statement (.gapEntry st) := of_none _ rfl (Nat.le_of_ble_eq_true rfl)
theorem sampleAnchor (b : Nat) : Statement (.sampleAnchor b) :=
  of_some _ b rfl (fun w => by simp [Instr.wf, berthOk] at w; omega) (Nat.le_of_ble_eq_true rfl)
theorem readPointer (st v : Nat) : Statement (.readPointer st v) := of_none _ rfl (Nat.le_of_ble_eq_true rfl)
theorem jobStart : Statement .jobStart := of_none _ rfl (Nat.le_of_ble_eq_true rfl)
theorem jobResume : Statement .jobResume := of_none _ rfl (Nat.le_of_ble_eq_true rfl)
theorem jobAbort : Statement .jobAbort := of_none _ rfl (Nat.le_of_ble_eq_true rfl)
theorem jobSaveState : Statement .jobSaveState := of_none _ rfl (Nat.le_of_ble_eq_true rfl)
theorem linkEnable (l : Nat) : Statement (.linkEnable l) := of_none _ rfl (Nat.le_of_ble_eq_true rfl)
theorem linkDisable (l : Nat) : Statement (.linkDisable l) := of_none _ rfl (Nat.le_of_ble_eq_true rfl)
theorem signalDetected (l : Nat) : Statement (.signalDetected l) := of_none _ rfl (Nat.le_of_ble_eq_true rfl)
theorem commaAligned (l inverted : Nat) : Statement (.commaAligned l inverted) := of_none _ rfl (Nat.le_of_ble_eq_true rfl)
theorem lanesDeskewed (k : Nat) (order skews : List Nat) : Statement (.lanesDeskewed k order skews) :=
  of_none _ rfl (Nat.le_of_ble_eq_true rfl)
theorem equaliseComplete (l : Nat) (margins : List Nat) : Statement (.equaliseComplete l margins) :=
  of_none _ rfl (Nat.le_of_ble_eq_true rfl)
theorem caps (h : Nat) (w : WireFrame) : Statement (.caps h w) :=
  of_some _ h rfl (fun w => by simp [Instr.wf, berthOk] at w; omega) (Nat.le_of_ble_eq_true rfl)
theorem measurementComplete (l : Nat) : Statement (.measurementComplete l) := of_none _ rfl (Nat.le_of_ble_eq_true rfl)
theorem trainingTimeout (l : Nat) : Statement (.trainingTimeout l) := of_none _ rfl (Nat.le_of_ble_eq_true rfl)
theorem retryInterval (l : Nat) : Statement (.retryInterval l) := of_none _ rfl (Nat.le_of_ble_eq_true rfl)
theorem eyeMargin (l : Nat) (margins : List Nat) : Statement (.eyeMargin l margins) := of_none _ rfl (Nat.le_of_ble_eq_true rfl)
theorem retrain (l : Nat) : Statement (.retrain l) := of_none _ rfl (Nat.le_of_ble_eq_true rfl)
theorem retrainStart (l : Nat) : Statement (.retrainStart l) := of_none _ rfl (Nat.le_of_ble_eq_true rfl)
theorem feedbackMissing (h : Nat) : Statement (.feedbackMissing h) :=
  of_some _ h rfl (fun w => by simp [Instr.wf, berthOk] at w; omega) (Nat.le_of_ble_eq_true rfl)
theorem measurementInterval (h : Nat) : Statement (.measurementInterval h) :=
  of_some _ h rfl (fun w => by simp [Instr.wf, berthOk] at w; omega) (Nat.le_of_ble_eq_true rfl)
theorem echoReply (h : Nat) (bytes : List Byte) (bad : Bool) (trip : Nat) : Statement (.echoReply h bytes bad trip) :=
  of_some _ h rfl (fun w => by simp [Instr.wf, berthOk] at w; omega) (Nat.le_of_ble_eq_true rfl)
theorem configWrite (sess h : Nat) (data : List Byte) : Statement (.configWrite sess h data) :=
  of_some _ h rfl (fun w => by simp [Instr.wf, berthOk] at w; omega) (Nat.le_of_ble_eq_true rfl)
theorem configRead (sess h : Nat) : Statement (.configRead sess h) :=
  of_some _ h rfl (fun w => by simp [Instr.wf, berthOk] at w; omega) (Nat.le_of_ble_eq_true rfl)
theorem configReply (h : Nat) (w : WireFrame) : Statement (.configReply h w) :=
  of_some _ h rfl (fun w => by simp [Instr.wf, berthOk] at w; omega) (Nat.le_of_ble_eq_true rfl)
theorem configTimeout (h : Nat) : Statement (.configTimeout h) :=
  of_some _ h rfl (fun w => by simp [Instr.wf, berthOk] at w; omega) (Nat.le_of_ble_eq_true rfl)
theorem spot (k : Nat) (w : WireFrame) : Statement (.spot k w) := of_none _ rfl (Nat.le_of_ble_eq_true rfl)
theorem seat (k : Nat) (f : SeatIn) : Statement (.seat k f) := of_none _ rfl (Nat.le_of_ble_eq_true rfl)
theorem seatFrameMissing (k : Nat) : Statement (.seatFrameMissing k) := of_none _ rfl (Nat.le_of_ble_eq_true rfl)
theorem qtime (k : Nat) (f : QtimeIn) : Statement (.qtime k f) := of_none _ rfl (Nat.le_of_ble_eq_true rfl)
theorem data (k : Nat) (w : WireFrame) : Statement (.data k w) := of_none _ rfl (Nat.le_of_ble_eq_true rfl)
theorem target (m : Nat) (pos : Int) : Statement (.target m pos) := of_none _ rfl (Nat.le_of_ble_eq_true rfl)
theorem strokeEnd (m : Nat) : Statement (.strokeEnd m) := of_none _ rfl (Nat.le_of_ble_eq_true rfl)
theorem stopDecelerate (m : Nat) : Statement (.stopDecelerate m) := of_none _ rfl (Nat.le_of_ble_eq_true rfl)
theorem stopFreeze (m : Nat) : Statement (.stopFreeze m) := of_none _ rfl (Nat.le_of_ble_eq_true rfl)
theorem motionHoldClear : Statement .motionHoldClear := of_none _ rfl (Nat.le_of_ble_eq_true rfl)
theorem stall (m : Nat) : Statement (.stall m) := of_none _ rfl (Nat.le_of_ble_eq_true rfl)
theorem stallClear (m : Nat) : Statement (.stallClear m) := of_none _ rfl (Nat.le_of_ble_eq_true rfl)
theorem home (m : Nat) : Statement (.home m) := of_none _ rfl (Nat.le_of_ble_eq_true rfl)
theorem homingTravelLimit (m : Nat) : Statement (.homingTravelLimit m) := of_none _ rfl (Nat.le_of_ble_eq_true rfl)
theorem standstillDelay (m : Nat) : Statement (.standstillDelay m) := of_none _ rfl (Nat.le_of_ble_eq_true rfl)
theorem idleAction (m : Nat) : Statement (.idleAction m) := of_none _ rfl (Nat.le_of_ble_eq_true rfl)
theorem energiseComplete (m : Nat) : Statement (.energiseComplete m) := of_none _ rfl (Nat.le_of_ble_eq_true rfl)
theorem encoderEdge (i : Nat) (a bb : Bool) (off : Nat) : Statement (.encoderEdge i a bb off) := of_none _ rfl (Nat.le_of_ble_eq_true rfl)
theorem indexPulse (i : Nat) (a bb : Bool) (off : Nat) : Statement (.indexPulse i a bb off) := of_none _ rfl (Nat.le_of_ble_eq_true rfl)
theorem countSet (i : Nat) (v : Int) : Statement (.countSet i v) := of_none _ rfl (Nat.le_of_ble_eq_true rfl)
theorem referenceArm (i : Nat) : Statement (.referenceArm i) := of_none _ rfl (Nat.le_of_ble_eq_true rfl)
theorem ssiFrame (i word : Nat) (startLow endHigh : Bool) (off : Nat) : Statement (.ssiFrame i word startLow endHigh off) :=
  of_none _ rfl (Nat.le_of_ble_eq_true rfl)
theorem counterStandstill (i : Nat) : Statement (.counterStandstill i) := of_none _ rfl (Nat.le_of_ble_eq_true rfl)
theorem wakeRelease : Statement .wakeRelease := of_none _ rfl (Nat.le_of_ble_eq_true rfl)
theorem wakeResume (b : Nat) : Statement (.wakeResume b) :=
  of_some _ b rfl (fun w => by simp [Instr.wf, berthOk] at w; omega) (Nat.le_of_ble_eq_true rfl)
theorem openSession (r : OpenReq) : Statement (.openSession r) := of_none _ rfl (Nat.le_of_ble_eq_true rfl)
theorem closeSession (sess seq : Nat) : Statement (.closeSession sess seq) := of_none _ rfl (Nat.le_of_ble_eq_true rfl)
theorem sessionTimeout (sess : Nat) : Statement (.sessionTimeout sess) := of_none _ rfl (Nat.le_of_ble_eq_true rfl)
theorem discover : Statement .discover := of_none _ rfl (Nat.le_of_ble_eq_true rfl)
theorem presence (p : PresenceMsg) : Statement (.presence p) := of_none _ rfl (Nat.le_of_ble_eq_true rfl)
theorem keepalive (sess seq : Nat) : Statement (.keepalive sess seq) := of_none _ rfl (Nat.le_of_ble_eq_true rfl)
theorem read (sess seq : Nat) (es : List Entry) : Statement (.read sess seq es) := of_none _ rfl (Nat.le_of_ble_eq_true rfl)
theorem write (sess seq : Nat) (es : List Entry) : Statement (.write sess seq es) := of_none _ rfl (Nat.le_of_ble_eq_true rfl)
theorem writeFenced (sess seq : Nat) (es : List Entry) : Statement (.writeFenced sess seq es) := of_none _ rfl (Nat.le_of_ble_eq_true rfl)
theorem bulkBegin (sess seq : Nat) (r : BulkBegin) : Statement (.bulkBegin sess seq r) := of_none _ rfl (Nat.le_of_ble_eq_true rfl)
theorem bulkData (sess id offset : Nat) (data : List Byte) : Statement (.bulkData sess id offset data) :=
  of_none _ rfl (Nat.le_of_ble_eq_true rfl)
theorem bulkAck (sess id received : Nat) : Statement (.bulkAck sess id received) := of_none _ rfl (Nat.le_of_ble_eq_true rfl)
theorem bulkResendTimeout (sess id : Nat) : Statement (.bulkResendTimeout sess id) := of_none _ rfl (Nat.le_of_ble_eq_true rfl)
theorem bulkTimeout (sess id : Nat) : Statement (.bulkTimeout sess id) := of_none _ rfl (Nat.le_of_ble_eq_true rfl)
theorem subscribe (sess seq : Nat) (r : Subscription) : Statement (.subscribe sess seq r) := of_none _ rfl (Nat.le_of_ble_eq_true rfl)
theorem noticeBatch (sess : Nat) : Statement (.noticeBatch sess) := of_none _ rfl (Nat.le_of_ble_eq_true rfl)
theorem reportPeriod (sess set : Nat) : Statement (.reportPeriod sess set) := of_none _ rfl (Nat.le_of_ble_eq_true rfl)
theorem signProof (sess seq : Nat) (key sig : List Byte) : Statement (.signProof sess seq key sig) :=
  of_none _ rfl (Nat.le_of_ble_eq_true rfl)
theorem hostSilence : Statement .hostSilence := of_none _ rfl (Nat.le_of_ble_eq_true rfl)
theorem spiReadRequest (idx sub offset len : Nat) (crcOk : Bool) : Statement (.spiReadRequest idx sub offset len crcOk) :=
  of_none _ rfl (Nat.le_of_ble_eq_true rfl)
theorem spiWrite (e : Entry) (crcOk : Bool) : Statement (.spiWrite e crcOk) := of_none _ rfl (Nat.le_of_ble_eq_true rfl)
theorem spiWriteFenced (e : Entry) (crcOk : Bool) : Statement (.spiWriteFenced e crcOk) := of_none _ rfl (Nat.le_of_ble_eq_true rfl)
theorem spiStatus : Statement .spiStatus := of_none _ rfl (Nat.le_of_ble_eq_true rfl)
theorem fetchReply : Statement .fetchReply := of_none _ rfl (Nat.le_of_ble_eq_true rfl)
theorem fetchNotices : Statement .fetchNotices := of_none _ rfl (Nat.le_of_ble_eq_true rfl)
theorem store : Statement .store := of_none _ rfl (Nat.le_of_ble_eq_true rfl)
theorem storeComplete (ok : Bool) : Statement (.storeComplete ok) := of_none _ rfl (Nat.le_of_ble_eq_true rfl)
theorem restoreDefaults : Statement .restoreDefaults := of_none _ rfl (Nat.le_of_ble_eq_true rfl)
theorem ethernetFrame (port : Nat) (f : EthFrame) : Statement (.ethernetFrame port f) := of_none _ rfl (Nat.le_of_ble_eq_true rfl)
theorem portLinkUp (port : Nat) : Statement (.portLinkUp port) := of_none _ rfl (Nat.le_of_ble_eq_true rfl)
theorem sync (m : PtpMsg) : Statement (.sync m) := of_none _ rfl (Nat.le_of_ble_eq_true rfl)
theorem followUp (m : PtpMsg) : Statement (.followUp m) := of_none _ rfl (Nat.le_of_ble_eq_true rfl)
theorem delayReq (m : PtpMsg) : Statement (.delayReq m) := of_none _ rfl (Nat.le_of_ble_eq_true rfl)
theorem delayResp (m : PtpMsg) : Statement (.delayResp m) := of_none _ rfl (Nat.le_of_ble_eq_true rfl)
theorem pdelayReq (m : PtpMsg) : Statement (.pdelayReq m) := of_none _ rfl (Nat.le_of_ble_eq_true rfl)
theorem pdelayResp (m : PtpMsg) : Statement (.pdelayResp m) := of_none _ rfl (Nat.le_of_ble_eq_true rfl)
theorem announce (m : PtpMsg) : Statement (.announce m) := of_none _ rfl (Nat.le_of_ble_eq_true rfl)
theorem announceReceiptTimeout : Statement .announceReceiptTimeout := of_none _ rfl (Nat.le_of_ble_eq_true rfl)
theorem servoLocked : Statement .servoLocked := of_none _ rfl (Nat.le_of_ble_eq_true rfl)
theorem timeSet (ns : Nat) : Statement (.timeSet ns) := of_none _ rfl (Nat.le_of_ble_eq_true rfl)
theorem memoryRequest (r : MemReq) : Statement (.memoryRequest r) := of_none _ rfl (Nat.le_of_ble_eq_true rfl)
theorem trainingComplete (r : TrainingIn) : Statement (.trainingComplete r) := of_none _ rfl (Nat.le_of_ble_eq_true rfl)
theorem dqsOscillatorCheck (drift : Nat) : Statement (.dqsOscillatorCheck drift) := of_none _ rfl (Nat.le_of_ble_eq_true rfl)
theorem refresh (sc : Nat) (hot : Bool) : Statement (.refresh sc hot) := of_none _ rfl (Nat.le_of_ble_eq_true rfl)
theorem pageIdleClose (sc bank : Nat) : Statement (.pageIdleClose sc bank) := of_none _ rfl (Nat.le_of_ble_eq_true rfl)
theorem selfRefreshEntry (ch : Nat) : Statement (.selfRefreshEntry ch) := of_none _ rfl (Nat.le_of_ble_eq_true rfl)
theorem patrolScrub (errors : List Nat) : Statement (.patrolScrub errors) := of_none _ rfl (Nat.le_of_ble_eq_true rfl)
theorem evaluationPoint (r : MainsIn) : Statement (.evaluationPoint r) := of_none _ rfl (Nat.le_of_ble_eq_true rfl)
theorem holdOffComplete : Statement .holdOffComplete := of_none _ rfl (Nat.le_of_ble_eq_true rfl)
theorem tideEnable (v : Bool) : Statement (.tideEnable v) := of_none _ rfl (Nat.le_of_ble_eq_true rfl)
theorem inputFault (i : Nat) : Statement (.inputFault i) := of_none _ rfl (Nat.le_of_ble_eq_true rfl)
theorem inputFaultClear (i : Nat) : Statement (.inputFaultClear i) := of_none _ rfl (Nat.le_of_ble_eq_true rfl)
theorem tideLock : Statement .tideLock := of_none _ rfl (Nat.le_of_ble_eq_true rfl)
theorem tideLockLost : Statement .tideLockLost := of_none _ rfl (Nat.le_of_ble_eq_true rfl)
theorem bollardLatch (i off : Nat) : Statement (.bollardLatch i off) := of_none _ rfl (Nat.le_of_ble_eq_true rfl)
theorem acknowledge (mask : Nat) : Statement (.acknowledge mask) := of_none _ rfl (Nat.le_of_ble_eq_true rfl)
theorem activeLevel (mask : Nat) : Statement (.activeLevel mask) := of_none _ rfl (Nat.le_of_ble_eq_true rfl)
theorem rungRequest (n : Nat) : Statement (.rungRequest n) := of_none _ rfl (Nat.le_of_ble_eq_true rfl)
theorem wake (source exitUs : Nat) : Statement (.wake source exitUs) := of_none _ rfl (Nat.le_of_ble_eq_true rfl)
theorem powerOnReset (p : Straps) : Statement (.powerOnReset p) := of_none _ rfl (Nat.le_of_ble_eq_true rfl)
theorem nrst (p : Straps) : Statement (.nrst p) := of_none _ rfl (Nat.le_of_ble_eq_true rfl)
theorem watchdog : Statement .watchdog := of_none _ rfl (Nat.le_of_ble_eq_true rfl)
theorem warmReset : Statement .warmReset := of_none _ rfl (Nat.le_of_ble_eq_true rfl)
theorem imageData (offset : Nat) (data : List Byte) : Statement (.imageData offset data) := of_none _ rfl (Nat.le_of_ble_eq_true rfl)
theorem verifyAndWrite : Statement .verifyAndWrite := of_none _ rfl (Nat.le_of_ble_eq_true rfl)
theorem updateReady (flashOk : Bool) : Statement (.updateReady flashOk) := of_none _ rfl (Nat.le_of_ble_eq_true rfl)
theorem activate : Statement .activate := of_none _ rfl (Nat.le_of_ble_eq_true rfl)
theorem updateDiscard : Statement .updateDiscard := of_none _ rfl (Nat.le_of_ble_eq_true rfl)
theorem confirm : Statement .confirm := of_none _ rfl (Nat.le_of_ble_eq_true rfl)
theorem logbookFlushTimer : Statement .logbookFlushTimer := of_none _ rfl (Nat.le_of_ble_eq_true rfl)
theorem flush : Statement .flush := of_none _ rfl (Nat.le_of_ble_eq_true rfl)
theorem blockEraseComplete : Statement .blockEraseComplete := of_none _ rfl (Nat.le_of_ble_eq_true rfl)
theorem clear (v : Nat) : Statement (.clear v) := of_none _ rfl (Nat.le_of_ble_eq_true rfl)
theorem window (sess : Nat) : Statement (.window sess) := of_none _ rfl (Nat.le_of_ble_eq_true rfl)
theorem calibrationStart : Statement .calibrationStart := of_none _ rfl (Nat.le_of_ble_eq_true rfl)
theorem settleTime (b : Nat) : Statement (.settleTime b) :=
  of_some _ b rfl (fun w => by simp [Instr.wf, berthOk] at w; omega) (Nat.le_of_ble_eq_true rfl)
theorem runComplete : Statement .runComplete := of_none _ rfl (Nat.le_of_ble_eq_true rfl)
theorem calibrationAbort : Statement .calibrationAbort := of_none _ rfl (Nat.le_of_ble_eq_true rfl)
theorem apply : Statement .apply := of_none _ rfl (Nat.le_of_ble_eq_true rfl)
theorem calibrationDiscard : Statement .calibrationDiscard := of_none _ rfl (Nat.le_of_ble_eq_true rfl)
theorem dieTemperature (t : Int) : Statement (.dieTemperature t) := of_none _ rfl (Nat.le_of_ble_eq_true rfl)
theorem lockOrAlignmentLost (l : Nat) : Statement (.lockOrAlignmentLost l) := of_none _ rfl (Nat.le_of_ble_eq_true rfl)
theorem echoReplyTimeout (h token : Nat) : Statement (.echoReplyTimeout h token) :=
  of_some _ h rfl (fun w => by simp [Instr.wf, berthOk] at w; omega) (Nat.le_of_ble_eq_true rfl)
theorem backOffComplete (m : Nat) : Statement (.backOffComplete m) := of_none _ rfl (Nat.le_of_ble_eq_true rfl)
theorem syncInterval : Statement .syncInterval := of_none _ rfl (Nat.le_of_ble_eq_true rfl)
theorem announceInterval : Statement .announceInterval := of_none _ rfl (Nat.le_of_ble_eq_true rfl)
theorem minimumDelayInterval : Statement .minimumDelayInterval := of_none _ rfl (Nat.le_of_ble_eq_true rfl)
theorem signedLockoutEnd : Statement .signedLockoutEnd := of_none _ rfl (Nat.le_of_ble_eq_true rfl)
theorem bulkAckInterval (sess id : Nat) : Statement (.bulkAckInterval sess id) := of_none _ rfl (Nat.le_of_ble_eq_true rfl)
theorem portLinkDown (port : Nat) : Statement (.portLinkDown port) := of_none _ rfl (Nat.le_of_ble_eq_true rfl)
theorem positiveGoingZeroCrossing : Statement .positiveGoingZeroCrossing := of_none _ rfl (Nat.le_of_ble_eq_true rfl)

end Sys2Proof.Laws.Operands
end

