-- ==== Sys2Proof/Laws/Wire.lean ====
section
/-!
SUPPORT. Sys2Proof/Laws/Wire.lean: bytes and fields give back what they were formed of, and a frame as it is sent is good where it is
received, with its type and its payload (R221, R232, R244).
-/
namespace Sys2Proof.Machine

theorem ofLe_toLe (n w : Nat) : ofLe (toLe n w) = w % 256 ^ n := by
  induction n generalizing w with
  | zero => simp [toLe, ofLe, Nat.mod_one]
  | succ n ih => simp only [toLe, ofLe, ih, BitVec.toNat_ofNat, Nat.pow_succ']; exact (Nat.mod_mul).symm

@[simp] theorem toLe_length (n w : Nat) : (toLe n w).length = n := by
  induction n generalizing w with
  | zero => rfl
  | succ n ih => simp [toLe, ih]

/-- A slice of whole length is what stands there. -/
theorem slice_middle (a b c : List Byte) : slice (a ++ b ++ c) a.length b.length = b := by simp [slice]

theorem field_middle (a c : List Byte) (n w : Nat) : field (a ++ toLe n w ++ c) a.length n = w % 256 ^ n := by
  have h := slice_middle a (toLe n w) c
  rw [toLe_length] at h
  rw [field, h, ofLe_toLe]

theorem crcBit_lt {c : Nat} (h : c < 2 ^ 32) : crcBit c < 2 ^ 32 := by
  unfold crcBit
  split
  · exact Nat.xor_lt_two_pow (by omega) (by decide)
  · omega

theorem crcByte_lt {c : Nat} (b : Byte) (h : c < 2 ^ 32) : crcByte c b < 2 ^ 32 := by
  have : b.toNat < 2 ^ 32 := by omega
  unfold crcByte
  repeat apply crcBit_lt
  exact Nat.xor_lt_two_pow h this

theorem crc32c_lt (l : List Byte) : crc32c l < 2 ^ 32 := by
  have h : ∀ (l : List Byte) (c : Nat), c < 2 ^ 32 → l.foldl crcByte c < 2 ^ 32 := by
    intro l
    induction l with
    | nil => exact fun _ h => h
    | cons b l ih => exact fun c h => ih _ (crcByte_lt b h)
  exact Nat.xor_lt_two_pow (h l _ (by decide)) (by decide)

/-- The header of a frame. -/
theorem frameBytes_eq (ty seq : Nat) (p : List Byte) : frameBytes ty seq p = toLe 1 ty ++ toLe 1 seq ++ toLe 2 p.length ++ p
    ++ toLe 4 (crc32c (toLe 1 ty ++ toLe 1 seq ++ toLe 2 p.length ++ p)) := rfl

@[simp] theorem frameBytes_length (ty seq : Nat) (p : List Byte) : (frameBytes ty seq p).length = p.length + 8 := by
  simp [frameBytes]; omega

/-- The payload of a frame is what it was formed of. -/
@[simp] theorem payloadOf_frameBytes (ty seq : Nat) (p : List Byte) : payloadOf (frameBytes ty seq p) = p := by
  have h : frameBytes ty seq p = (toLe 1 ty ++ toLe 1 seq ++ toLe 2 p.length) ++ (p ++ toLe 4 (crc32c (toLe 1 ty ++ toLe 1 seq ++ toLe 2 p.length ++ p))) := by
    simp [frameBytes, List.append_assoc]
  have hd : (frameBytes ty seq p).drop 4 = p ++ toLe 4 (crc32c (toLe 1 ty ++ toLe 1 seq ++ toLe 2 p.length ++ p)) := by
    rw [h]; exact List.drop_left' (by simp)
  rw [payloadOf, hd, frameBytes_length]
  exact List.take_left' (by omega)

/-- A frame as it is sent is good where no error character came in it (R232). -/
theorem frameGood_frameBytes {ty : Nat} (seq : Nat) {p : List Byte} (ht : ty < 256) (hp : p.length ≤ 1016) (hl : lengthOk ty p = true) :
    frameGood ty (frameBytes ty seq p) false = true := by
  have h0 : field (frameBytes ty seq p) 0 1 = ty := by
    have h := field_middle [] (toLe 1 seq ++ toLe 2 p.length ++ p ++ toLe 4 (crc32c (toLe 1 ty ++ toLe 1 seq ++ toLe 2 p.length ++ p))) 1 ty
    simp only [List.nil_append, List.length_nil, ← List.append_assoc] at h
    rw [frameBytes_eq, h]; omega
  have h2 : field (frameBytes ty seq p) 2 2 = p.length := by
    have h := field_middle (toLe 1 ty ++ toLe 1 seq) (p ++ toLe 4 (crc32c (toLe 1 ty ++ toLe 1 seq ++ toLe 2 p.length ++ p))) 2 p.length
    simp only [List.length_append, toLe_length, ← List.append_assoc] at h
    rw [frameBytes_eq, h]; omega
  have hc : field (frameBytes ty seq p) (p.length + 4) 4 = crc32c (toLe 1 ty ++ toLe 1 seq ++ toLe 2 p.length ++ p) := by
    have h := field_middle (toLe 1 ty ++ toLe 1 seq ++ toLe 2 p.length ++ p) [] 4 (crc32c (toLe 1 ty ++ toLe 1 seq ++ toLe 2 p.length ++ p))
    simp only [List.length_append, toLe_length, List.append_nil] at h
    rw [frameBytes_eq, show p.length + 4 = 1 + 1 + 2 + p.length by omega, h]
    exact Nat.mod_eq_of_lt (crc32c_lt _)
  have hk : (frameBytes ty seq p).take (p.length + 4) = toLe 1 ty ++ toLe 1 seq ++ toLe 2 p.length ++ p := by
    rw [frameBytes_eq]; exact List.take_left' (by simp; omega)
  simp [frameGood, h0, h2, hl, hc, hk, show p.length + 8 - 4 = p.length + 4 by omega]
  omega

/-- The stream of a head link. -/
@[simp] theorem streamOf_head {l : Nat} (w : WireFrame) (s : State) (h : l < 24) : streamOf l w s = w.bytes := by simp [streamOf, h]

/-- One lane of a stream: every fourth byte. -/
theorem lane_eq (l : List Byte) (i : Nat) (hi : i < 4) : (List.range ((l.length + 3 - i) / 4)).filterMap (fun k => l[4 * k + i]?) =
    (List.range ((l.length + 3 - i) / 4)).map (fun k => l.getD (4 * k + i) 0#8) := by
  rw [← List.filterMap_eq_map]
  refine List.filterMap_congr fun k hk => ?_
  have : 4 * k + i < l.length := by have := List.mem_range.1 hk; omega
  simp [this]

theorem stripe_eq (l : List Byte) :
    stripe l = (List.range 4).map (fun i => (List.range ((l.length + 3 - i) / 4)).map (fun k => l.getD (4 * k + i) 0#8)) := by
  refine List.map_congr_left fun i hi => lane_eq l i (List.mem_range.1 hi)

/-- Four lanes bring back the stream that was striped over them, in either order of the lanes (R225, R244). -/
@[simp] theorem unstripe_stripe (l : List Byte) : unstripe false (stripe l) = l := by
  have hn : ((stripe l).map (·.length)).foldl (· + ·) 0 = l.length := by simp [stripe_eq, List.range_succ]; omega
  simp only [unstripe, Bool.false_eq_true, if_false, hn]
  refine List.ext_getElem (by simp) fun k _ hk => ?_
  have h4 : k % 4 < 4 := Nat.mod_lt _ (by decide)
  have hq : k / 4 < (l.length + 3 - k % 4) / 4 := by omega
  simp [stripe_eq, List.getD_eq_getElem?_getD, h4, hq, show 4 * (k / 4) + k % 4 = k by omega, hk]

@[simp] theorem unstripe_reverse (l : List (List Byte)) : unstripe true l.reverse = unstripe false l := by simp [unstripe]

end Sys2Proof.Machine
end

