-- ==== Sys2Proof/Tests/Slice0.lean ====
section
/-!
SUPPORT. Sys2Proof/Tests/Slice0.lean: ill-formed commands the checks refuse, commands on small states against results taken from
the rules, and for every clause of the statements a state and operands that meet its hypotheses.
-/
namespace Sys2Proof.Tests

open Sys2Proof Sys2Proof.Machine

set_option Elab.async false

/-- The state after reset with some objects at other values: (index, subindex, value). -/
def made (l : List (Nat × Nat × Int)) : State := l.foldl (fun s e => setI e.1 e.2.1 e.2.2 s) State.reset

/-- The first n bytes of a list of bytes, as numbers. -/
def bytes (l : List Nat) : List Byte := l.map (fun v => BitVec.ofNat 8 v)

/-- Berth 0 with its manifest slot 0 in force, the bytes of its records from record 0, and some objects. -/
def inForce (recs : List Nat) (l : List (Nat × Nat × Int)) : State :=
  dramWrite (768 * 2 ^ 20 + 64) (bytes recs) (made ((qi 0, 5, 5) :: l))

/-- A key of P-256 from its point. -/
def keyOf (x y : Nat) : List Byte := toBe 32 x ++ toBe 32 y

/-- A signature with r = s, as the digest of a message itself gives it for the key found for that message. -/
def sigOf (r : Nat) : List Byte := toBe 32 r ++ toBe 32 r

/-- Session 0 as a proven session of the signed class with a one-byte nonce. -/
def signed (nonce : Nat) (key : List Byte) : State :=
  modSess 0 (fun q => { q with opened := true, cls := 2, proven := true, key := key, nodeNonce := bytes [nonce] }) State.reset

/-- A chip alone with layer 1 ready to commit in an open window: slot 0 of berth 0, and the harbour group sealed for it. -/
def ready : State :=
  let s := made ([(0x8000, 8, 2), (0x8001, 1, 1), (0x8001, 2, 1), (0x8001, 3, 1), (0x8002, 1, 1), (0x1800, 4, -1000), (0x1800, 5, -1000),
    (0x1800, 6, 1000), (0x1800, 7, 1000), (0x5100, 8, 0), (qi 0, 5, 3), (qi 0, 9, 1), (bi 0 5, 1, 1), (0x0401, 8, 0), (lki 0, 2, 7)])
  let s := each ((List.range 192).drop 6) (fun n => setN (li n 0) 1 0) s
  dramWrite (768 * 2 ^ 20 + 0x28) (bytes [1]) { s with now := 1, commit := { layer := 1, openedAt := some 0 } }

/-- Berth 0 Holding with a portable run left, and berth 1 able to take it. -/
def source : State :=
  let s := made [(bi 0 0, 1, 3), (bi 0 1, 2, 1), (0x1806, 1, 1), (0x1807, 1, 2), (qi 0, 5, 5), (qi 1, 5, 5), (bi 1 4, 9, 0), (bi 1 5, 4, 100)]
  dramWrite (768 * 2 ^ 20 + 0x10) (bytes ([3] ++ List.replicate 47 0 ++ [1, 1] ++ List.replicate 30 0 ++ [1, 2] ++ List.replicate 30 0 ++ [2, 3]))
    { s with hm := { trigger := [0] } }

def aStart : CsiPacket := { vc := 0, dtype := 0, headerOk := true, crcOk := true, pixels := [] }
def anEnd : CsiPacket := { aStart with dtype := 1 }
/-- A frame of a head link that comes whole, and one that does not. -/
def wire (ty seq : Nat) (payload : List Byte) : WireFrame := { bytes := frameBytes ty seq payload, lanes := [], bad := false }

/-- A frame of a quay link, on its four lanes. -/
def lanes (ty seq : Nat) (payload : List Byte) : WireFrame := { bytes := [], lanes := stripe (frameBytes ty seq payload), bad := false }

def aTile (seq : Nat) : WireFrame := wire 0x83 0 (toLe 1 seq ++ [8#8] ++ List.replicate 262 0#8)
def aCaps : WireFrame := wire 0x85 0 (bytes [1, 0, 0, 0, 1, 0, 0, 0, 0x90, 1, 4, 1, 128, 0, 0, 0])
def aFeedback : WireFrame := wire 0x81 0 (List.replicate 36 0#8)
def aStatus : WireFrame := wire 0x82 0 (List.replicate 6 0#8 ++ bytes [0, 1, 5, 0, 0, 0, 0, 0, 0, 0])
def anEchoReply : WireFrame := wire 0x84 0 (bytes [0xFF, 0xFF, 0, 0, 0x20, 0x4E, 0, 0])
def aReply : WireFrame := wire 0x86 3 (bytes [0, 0, 4, 0, 0, 0, 0, 0, 1, 2, 3, 4])
def aSeat : WireFrame := lanes 0x12 0 (bytes ([1, 4] ++ List.replicate 18 0))
def aRecord : SpotRecord :=
  { hb := 191, state := 2, gate := false, gateAhead := false, window := false, budgetWait := false, priority := 0, phase := 3, group := 0,
    reserved := false, requested := false, x := 0, y := 0, vx := 0, vy := 0, draw := 1, reservation := 0, toSafe := 0, arc := 0 }
def aSpot : WireFrame :=
  lanes 0x11 0 (spotPayload { seat := 7, command := 0, hops := 0, frame := 0, records := [aRecord] })
def aQtime : WireFrame := lanes 0x13 0 (List.replicate 18 0#8 ++ [1#8] ++ List.replicate 13 0#8)
def aData : WireFrame := lanes 0x14 1 (bytes [0, 0, 0, 0, 7, 8, 9, 10])
def anOpen : OpenReq := { cls := 1, watched := false, nonce := List.replicate 16 0#8, port := 0, addr := [], seq := 0 }
def aReadEntry : Entry := { idx := 0x0500, sub := 9, part := false, offset := 0, len := 2, data := [], sig := [] }
def aWriteEntry : Entry := { idx := 0x0500, sub := 9, part := false, offset := 0, len := 2, data := [0xFF#8, 3#8], sig := [] }
def aBulk : BulkBegin := { idx := 0x1005, sub := 5, read := false, offset := 0, len := 199692, crc := 0, sig := [] }
def aSubscription : Subscription := { mask := 0x3FF, set := 3, period := 60000, objs := [(0x0500, 9)] }
def aPresence : PresenceMsg := { node := 5, mac := 8 }
def aFrame : EthFrame :=
  { dst := 1, src := 2, prio := 8, ethertype := 0x0800, len := 64, tagged := false, fcsOk := true, ptp := false, ptpType := 0, seqId := 0,
    source := 0, twoStep := false, correction := 0, stamp := 0, egress := 0 }
def aPtp : PtpMsg :=
  { source := 7, domain := 0, seqId := 0, twoStep := false, correction := 0, origin := 0, rx := 0, requester := 0, port := 0, gm := 1,
    prio1 := 1, cls := 6, accuracy := 0, variance := 0, prio2 := 0, steps := 254, ptpScale := true }
def aWrite : MemReq := { client := 6, write := true, addr := 0, len := 3, data := [1#8, 0#8, 2#8], errors := [], age := 0 }
def aTraining : TrainingIn := { ok := true, dense := false, ranks2 := false, supported := true, result := List.replicate 256 0#8 }
def aMains : MainsIn := { v2 := [1, 1, 1], i2 := [0, 0, 0], p := [0, 0, 0], freq := 50000, sequence := 1200 }
def aBoundary : FrameIn := { errors := [], repeated := [], deleted := [], bol := 0xFFFF, late := 0 }

/-- Berth 0 Exposing and waiting at a FENCE of ID 7 that names it alone. -/
def atFence : State :=
  modBerth 0 (fun x => { x with waitingAt := some (0, 5) }) (inForce [6, 0, 0xFF, 0xFF, 7, 0, 0, 0, 1] [(bi 0 0, 1, 2)])

/-- A segment with one block staged, and a stream that codes it. -/
def aSegment (out : Nat) : Segment := { outSize := out, stageSize := 4096, staging := List.replicate 128 0 }
def coding (st out : Nat) : State := modStream st (fun x => { x with segs := [aSegment out] }) (made [(ssi st 1, 1, 1)])
/-- Every berth, head and stream number has its bound (R4, R200). -/
theorem test_wf_berths : Instr.wf (.pauseAtSafePoint 24) = false ∧ Instr.wf (.resume 0 2500) = false ∧ Instr.wf (.berthReset 24 0) = false ∧
    Instr.wf (.loadData 24 []) = false ∧ Instr.wf (.closeLength 0 (2 ^ 32)) = false ∧ Instr.wf (.validationComplete 0 4) = false ∧
    Instr.wf (.powerSample 0 25) = false ∧ Instr.wf (.powerSample 24 0) = false ∧ Instr.wf (.caps 24 { bytes := [], lanes := [], bad := false }) = false ∧
    Instr.wf (.streamResume 0x18) = false ∧ Instr.wf (.gapEntry 0x38) = false ∧ Instr.wf (.readPointer 0x5A 0) = false ∧
    Instr.wf (.readPointer 0 (2 ^ 64)) = false := by decide

/-- The seal, the commit, the harbour and the loops (R56, R60, R93, R116, R124). -/
theorem test_wf_layer : Instr.wf (.groupSeal 0 28 1 []) = false ∧ Instr.wf (.groupSeal 0 0 0 []) = false ∧
    Instr.wf (.groupSeal 0 0 (2 ^ 32) []) = false ∧ Instr.wf (.groupSeal 0 2 1 [0#8]) = false ∧ Instr.wf (.groupUnseal 17 0 []) = false ∧
    Instr.wf (.commitRequest (2 ^ 32)) = false ∧ Instr.wf (.spot 2 { bytes := [], lanes := [], bad := false }) = false ∧
    Instr.wf (.budgetWithdrawal 3) = false ∧
    Instr.wf (.bankSelect 192 0) = false ∧ Instr.wf (.loopMode 0 256) = false ∧ Instr.wf (.tripClear 192) = false := by decide

/-- Cameras, lamps, keys and links (R148, R174, R175, R199, R223, R238, R240). -/
theorem test_wf_chamber : Instr.wf (.hostTrigger 23 0) = false ∧ Instr.wf (.hostTrigger 24 2500) = false ∧
    Instr.wf (.contextEnable 26 true) = false ∧ Instr.wf (.csiPacket 2 aStart) = false ∧ Instr.wf (.lampTemperatureRead []) = false ∧
    Instr.wf (.lampBoardTimeout 4) = false ∧ Instr.wf (.channelDiagnosis []) = false ∧ Instr.wf (.breakwaterSet 0 [] [0#8]) = false ∧
    Instr.wf (.keySlotProgram 0 [] [0#8]) = false ∧ Instr.wf (.keySlotRevoke 0 256 (List.replicate 64 0#8)) = false ∧
    Instr.wf (.linkEnable 26) = false ∧ Instr.wf (.commaAligned 0 16) = false ∧ Instr.wf (.lanesDeskewed 2 [] []) = false ∧
    Instr.wf (.echoReply 24 [] false 0) = false ∧
    Instr.wf (.echoReply 0 [] false (2 ^ 32)) = false ∧ Instr.wf (.echoReplyTimeout 0 65536) = false ∧
    Instr.wf (.echoReplyTimeout 24 0) = false ∧
    Instr.wf (.configWrite 0 0 []) = false ∧ Instr.wf (.configRead 17 0) = false := by decide

/-- Axes, counters and the network (R251, R259, R286, R287, R294). -/
theorem test_wf_host : Instr.wf (.target 4 0) = false ∧ Instr.wf (.target 0 (2 ^ 31)) = false ∧ Instr.wf (.home 4) = false ∧
    Instr.wf (.encoderEdge 6 true true 0) = false ∧ Instr.wf (.countSet 8 0) = false ∧ Instr.wf (.countSet 0 (-2 ^ 31 - 1)) = false ∧
    Instr.wf (.referenceArm 6) = false ∧ Instr.wf (.ssiFrame 5 0 true true 0) = false ∧ Instr.wf (.ssiFrame 6 (2 ^ 32) true true 0) = false ∧
    Instr.wf (.openSession { anOpen with nonce := [] }) = false ∧ Instr.wf (.openSession { anOpen with cls := 256 }) = false ∧
    Instr.wf (.closeSession 16 0) = false ∧ Instr.wf (.keepalive 0 (2 ^ 32)) = false ∧
    Instr.wf (.read 0 0 [{ aReadEntry with idx := 2 ^ 16 }]) = false ∧ Instr.wf (.write 0 0 [{ aWriteEntry with sig := [0#8] }]) = false ∧
    Instr.wf (.write 0 0 [{ aWriteEntry with offset := 2 ^ 32 }]) = false ∧ Instr.wf (.read 0 0 [{ aReadEntry with len := 2 ^ 16 }]) = false ∧
    Instr.wf (.signProof 0 0 [] []) = false ∧ Instr.wf (.bulkAck 0 (2 ^ 32) 0) = false ∧ Instr.wf (.reportPeriod 0 4) = false ∧
    Instr.wf (.sessionTimeout 16) = false ∧ Instr.wf (.fence 17) = false ∧ Instr.wf (.objectWrite 0 0 256 (.int 0)) = false ∧
    Instr.wf (.spiReadRequest 0 256 0 0 true) = false ∧ Instr.wf (.portLinkUp 2) = false ∧
    Instr.wf (.timeSet (2 ^ 48 * 1000000000)) = false := by decide

/-- Memory, mains, bollards, power, update and logbook (R302, R311, R321, R332, R342, R363, R372). -/
theorem test_wf_below : Instr.wf (.memoryRequest { aWrite with client := 7 }) = false ∧
    Instr.wf (.memoryRequest { aWrite with data := [] }) = false ∧ Instr.wf (.memoryRequest { aWrite with write := false, len := 4097 }) = false ∧
    Instr.wf (.refresh 4 false) = false ∧ Instr.wf (.pageIdleClose 4 0) = false ∧ Instr.wf (.selfRefreshEntry 2) = false ∧
    Instr.wf (.evaluationPoint { aMains with p := [] }) = false ∧ Instr.wf (.inputFault 6) = false ∧ Instr.wf (.bollardLatch 16 0) = false ∧
    Instr.wf (.acknowledge (2 ^ 16)) = false ∧ Instr.wf (.rungRequest 256) = false ∧ Instr.wf (.wake 256 0) = false ∧
    Instr.wf (.imageData (2 ^ 32) []) = false ∧ Instr.wf (.clear (2 ^ 32)) = false ∧ Instr.wf (.nrst { node := 1024, bol := 0 }) = false ∧
    Instr.wf (.powerOnReset { node := 0, bol := 2 ^ 16 }) = false := by decide

/-- A command that names nothing of the part does nothing: an event of a berth the part has not, an access to such a berth, and to an object
that no rule lists, whose result is 0x0001; the table gives no word (R288, log 2). -/
theorem test_ill_formed : exec (.endReached 24) State.reset = .next State.reset ∧
    exec (.pauseAtSafePoint 24) State.reset = .next { State.reset with result := 1 } ∧
    exec (.objectWrite 16 0 256 (.int 0)) State.reset = .next { State.reset with result := 1 } ∧ decodeTableWord 32 0 = none := by
  refine ⟨?_, ?_, ?_, rfl⟩
  · simp [exec, execEndReached, gated, Instr.wf, berthOk, illResult, isAccess]; decide
  · simp [exec, execPauseAtSafePoint, gated, Instr.wf, berthOk, illResult, isAccess]; decide
  · simp [exec, execObjectWrite, gated, Instr.wf, illResult, sessOk, objOk]; decide

/-- CRC-32C of "123456789" is 0xE3069283, and SHA-256 of no bytes begins 0xE3B0C442 (the standards' own check values; R42, R194). -/
theorem test_checks : crc32c (bytes [0x31, 0x32, 0x33, 0x34, 0x35, 0x36, 0x37, 0x38, 0x39]) = 0xE3069283 ∧
    ofBe (slice (sha256 []) 0 4) = 0xE3B0C442 := by decide +kernel

/-- The next state of a command, or the state itself where it stops. -/
def after (c : Instr) (s : State) : State :=
  match exec c s with
  | .next t => t
  | _ => s

/-- A step takes the front command off the queue and leaves the rest (log 1). -/
theorem test_step_takes_front : (match step { State.reset with pending := [.flush, .discover] } with
    | .next t => t.pending
    | _ => []) = [.discover] := by decide

/-- A pause at safe point of an Armed berth: Holding, cause 1, record 0, kind 1 (R31, R89). -/
theorem test_pause_armed : (let t := after (.pauseAtSafePoint 23) (made [(bi 23 0, 1, 1)])
    (bState 23 t, getN (bi 23 0) 6 t, getN (bi 23 1) 2 t, getN (bi 23 1) 8 t)) = (3, 1, 0, 1) := by decide +kernel

/-- A mode written to a loop is no mode above 1 (R128). -/
theorem test_mode_out_of_range : (after (.loopMode 0 2) State.reset).result = 3 := by decide +kernel

/-- Quadrature: the four edges of a turn forward each count one (R260). -/
theorem test_quadrature : (let s := made [(ei 0 0, 1, 1)]
    let s := after (.encoderEdge 0 true false 0) s
    let s := after (.encoderEdge 0 true true 0) s
    let s := after (.encoderEdge 0 false true 0) s
    getI (ei 0 1) 1 (after (.encoderEdge 0 false false 0) s)) = 4 := by decide +kernel

/-- Writing byte 0 removes the cell, so that equal memories are equal lists. -/
theorem test_memory_canonical : writeBytes 4 [0#8] (writeBytes 4 [7#8] []) = [] ∧ readBytes 4 2 (writeBytes 5 [7#8] []) = [0#8, 7#8] := by
  decide

/-- Load data moves the window offset by its length and leaves the slot Loading (R52). -/
theorem test_load_data : (let t := after (.loadData 0 [1#8, 0#8, 2#8]) State.reset
    (getN (qi 0) 2 t, slotState 0 0 t, dramRead (768 * 2 ^ 20) 3 t)) = (3, 1, [1#8, 0#8, 2#8]) := by decide

/-- A link frame of the wrong state changes nothing: SIGNAL_DETECTED in Down (R223). -/
theorem test_detect_in_down : linkState 3 (after (.signalDetected 3) State.reset) = 0 := by decide

/-- A loop frame advances harbour time by 2,500 ns and the frame number by one (R124, R276). -/
theorem test_loop_frame : (let t := after (.loopFrame aBoundary) (made [(0x0300, 2, 5)])
    (nsOf t.now, t.frame)) = (2500, 1) := by decide +kernel

/-- A logbook clear with the wrong index is refused (R372). -/
theorem test_clear_refused : (after (.clear 1) State.reset).result = 4 := by decide

/-- The first key of slot 0 enters over the SPI port unsigned; a second one does not (R199). -/
theorem test_first_key : (after (.keySlotProgram 16 (List.replicate 33 0#8) []) State.reset).result = 0 ∧
    (after (.keySlotProgram 16 (List.replicate 33 0#8) []) (made [(0x5101, 5, 1)])).result ≠ 0 := by decide +kernel

theorem meets_BerthsPause_1 : ∃ (b : Nat) (s : State), bState b s = 1 ∧ Ready (.pauseAtSafePoint b) s :=
  ⟨23, made [(bi 23 0, 1, 1)], by decide⟩

theorem meets_BerthsPause_2 : ∃ (b off : Nat) (s : State), bState b s = 1 ∧ Ready (.pauseNow b off) s :=
  ⟨23, 2499, made [(bi 23 0, 1, 1)], by decide⟩

theorem meets_BerthsPause_3 : ∃ (b off : Nat) (s : State), Ready (.pauseNow b off) s ∧ bState b s = 2 ∧
    (berth b s).handover.phase ≠ 2 :=
  ⟨0, 2499, made [(bi 0 0, 1, 2)], by decide⟩

theorem meets_BerthEndsResetsAndFires_1 : ∃ (b off : Nat) (s : State), Ready (.berthReset b off) s :=
  ⟨23, 0, State.reset, by decide⟩

theorem meets_BerthEndsResetsAndFires_2 : ∃ (b : Nat) (s : State), Ready (.decelerationComplete b) s ∧ (berth b s).halting = true :=
  ⟨0, modBerth 0 (fun x => { x with halting := true }) State.reset, by decide⟩

theorem meets_BerthEndsResetsAndFires_3 : ∃ (b : Nat) (s : State), Ready (.endReached b) s ∧ bState b s = 2 ∧
    (berth b s).annexes = [] ∧ (berth b s).handover.stopAtC0 = none :=
  ⟨0, made [(bi 0 0, 1, 2)], by decide⟩

theorem meets_BerthEndsResetsAndFires_4 : ∃ (b : Nat) (u : Time) (l rest : List FinalEvent) (s : State), Ready (.eventGroup b) s ∧
    bState b s = 2 ∧ nextGroup b s = some (u, l, rest) :=
  ⟨0, 7, [{ t := 7, group := 7 }], [], modBerth 0 (fun x => { x with finals := [{ t := 7, group := 7 }] }) (made [(bi 0 0, 1, 2)]), by decide⟩

theorem meets_BerthEndsResetsAndFires_5 : ∃ (b j : Nat) (s : State), Ready (.powerSample b j) s :=
  ⟨23, 24, State.reset, by decide⟩

theorem meets_BerthStartsAndResumes_1 : ∃ (b f : Nat) (s : State), Ready .exposingStart s ∧ b < 24 ∧ bState b s = 1 ∧
    (berth b s).startFrame = some f ∧ f ≤ s.frame :=
  ⟨5, 3, { modBerth 5 (fun x => { x with startFrame := some 3 }) (made [(bi 5 0, 1, 1)]) with frame := 3 }, by decide⟩

theorem meets_BerthStartsAndResumes_2 : ∃ (b off : Nat) (s : State), Ready (.resume b off) s ∧ (bState b s = 3 ∨ bState b s = 4) ∧
    resumesInPair b s = none ∧ resumeBar b s = none ∧ clearanceBar [b] (resumePath b none (timeAt off s) (withJoin b 0 (fresh s))) = none :=
  ⟨0, 2499, modBerth 0 (fun x => { x with standing := some {} }) (inForce [] [(bi 0 0, 1, 4), (bi 0 1, 8, 1), (lki 0, 2, 7),
    (0x0401, 8, 0)]), by decide +kernel⟩

theorem meets_BerthStartsAndResumes_3 : ∃ (b : Nat) (w : WakeHold) (s : State), Ready (.wakeResume b) s ∧
    (berth b s).wake = some w ∧ bState b s = 2 ∧ getN (bi b 0) 7 s = 1 ∧
    (getN 0x7300 0x0A s = 3 ∨ w.q + getI 0x7300 6 s ≤ wakeLine b s) :=
  ⟨0, {}, modBerth 0 (fun x => { x with wake := some {} }) (made [(bi 0 0, 1, 2), (bi 0 0, 7, 1), (0x7300, 0x0A, 3)]), by decide⟩

theorem meets_SafePointsAndWaits_1 : ∃ (b : Nat) (st : SafeStop) (s : State), Ready (.safePointReached b) s ∧ bState b s = 2 ∧
    (berth b s).stopAt = some st ∧ (∀ p, (safePoints b s)[(berth b s).stretch]? = some p → st.g ≤ p.2) ∧
    (berth b s).handover.stopAtC0 = none :=
  ⟨0, { cause := 1, ri := 2, g := 100 },
    modBerth 0 (fun x => { x with stopAt := some { cause := 1, ri := 2, g := 100 } }) (made [(bi 0 0, 1, 2)]), by decide,
    by decide, by decide, (by intro p h; have h : none = some p := h; cases h), by decide⟩

theorem meets_SafePointsAndWaits_2 : ∃ (b ri : Nat) (u : Time) (s : State), Ready (.waitTimeout b) s ∧ bState b s = 2 ∧
    (berth b s).waitingAt = some (ri, u) :=
  ⟨0, 9, 5, modBerth 0 (fun x => { x with waitingAt := some (9, 5) }) (made [(bi 0 0, 1, 2)]), by decide⟩

theorem meets_SafePointsAndWaits_3 : ∃ (b ri : Nat) (u : Time) (r : Rec) (c : Int) (s : State), Ready (.waitComplete b) s ∧ bState b s = 2 ∧
    (berth b s).waitingAt = some (ri, u) ∧ r = mfRec b ri s ∧ r.ty = 8 ∧ c = getI (ei (field r.raw 8 1) 1) 1 s ∧
    (field r.raw 9 1 = 0 → fieldI r.raw 4 4 ≤ c) ∧ (field r.raw 9 1 ≠ 0 → c ≤ fieldI r.raw 4 4) :=
  ⟨0, 0, 5, _, _, modBerth 0 (fun x => { x with waitingAt := some (0, 5) }) (inForce [8] [(bi 0 0, 1, 2)]), by decide, by decide, by decide,
    rfl, by decide +kernel, rfl, by decide +kernel⟩

theorem meets_SafePointsAndWaits_4 : ∃ (b ri id : Nat) (u : Time) (r : Rec) (s : State), Ready (.fenceComplete id) s ∧ b < 24 ∧
    bState b s = 2 ∧ (berth b s).waitingAt = some (ri, u) ∧ r = mfRec b ri s ∧ r.ty = 6 ∧ field r.raw 4 4 = id ∧
    (∀ h c, h < 192 → bit (field r.raw 8 24) h = true → localBerth h s = some c →
      ∃ q, waitsAt c 6 s = some q ∧ field q.raw 4 4 = id) :=
  ⟨0, 0, 7, 5, _, atFence, by decide, by decide, by decide, by decide, rfl, by decide +kernel, by decide +kernel, by
    intro h c hh hb hl
    have h0 : ∀ h, h < 192 → bit (field (mfRec 0 0 atFence).raw 8 24) h = true → h = 0 := by decide +kernel
    obtain rfl := h0 h hh hb
    obtain rfl : 0 = c := by simpa using (show some 0 = some c from (by decide +kernel : localBerth 0 atFence = some 0) ▸ hl)
    exact ⟨mfRec 0 0 atFence, by decide +kernel, by decide +kernel⟩⟩

theorem meets_ManifestSlots_1 : ∃ (b : Nat) (d : List Byte) (s : State), Ready (.loadData b d) s ∧ Memory.wf s.dram ∧
    memoryFailed s = false ∧ slotState b (slotSelect b s) s ≠ 2 ∧ slotState b (slotSelect b s) s ≠ 3 ∧
    slotState b (slotSelect b s) s ≠ 5 ∧ slotState b (slotSelect b s) s ≠ 6 ∧ slotSelect b s < 4 ∧
    getN (qi b) 2 s + d.length ≤ slotSize s :=
  ⟨23, [1#8, 0#8, 2#8], made [(qi 23, 1, 3), (qi 23, 2, 67108861)], by decide⟩

theorem meets_ManifestSlots_2 : ∃ (b len : Nat) (s : State), Ready (.closeLength b len) s ∧ slotSelect b s < 4 ∧
    slotState b (slotSelect b s) s ≠ 2 ∧ slotState b (slotSelect b s) s ≠ 3 ∧ slotState b (slotSelect b s) s ≠ 5 ∧ slotState b (slotSelect b s) s ≠ 6 :=
  ⟨23, 67108864, made [(qi 23, 1, 3)], by decide⟩

theorem meets_ManifestSlots_3 : ∃ (b k : Nat) (s : State), Ready (.validationComplete b k) s ∧ slotState b k s = 2 :=
  ⟨0, 3, made [(qi 0, 8, 2)], by decide⟩

theorem meets_ManifestSlots_4 : ∃ (b k len : Nat) (s : State), Ready (.repairComplete b k) s ∧ slotState b k s = 6 ∧
    (berth b s).closeLens.find k = some len ∧
    crc32c (dramRead (slotBase b k s + 64) (header (slotBase b k s) 0x24 4 s - 64) s) = header (slotBase b k s) 0x38 4 s :=
  ⟨0, 0, 64, dramWrite (768 * 2 ^ 20 + 0x24) [64#8] (modBerth 0 (fun x => { x with closeLens := [(0, 64)] }) (made [(qi 0, 5,
    6)])), by decide +kernel⟩

theorem meets_ManifestSlots_5 : ∃ (b k : Nat) (s : State), Ready (.slotClear b k) s ∧ slotState b k s ≠ 2 ∧ slotState b k s ≠ 5 ∧
    slotState b k s ≠ 6 ∧ reportedReady s = false :=
  ⟨0, 3, made [(qi 0, 8, 4)], by decide⟩

theorem meets_ManifestSlots_6 : ∃ (b k : Nat) (s : State), Ready (.noHostCopy b) s ∧ k < 4 ∧ slotState b k s = 6 :=
  ⟨0, 2, made [(qi 0, 7, 6)], by decide⟩

theorem meets_HarbourCommands_1 : ∃ (s : State), Ready .harbourPauseAtSafePoint s :=
  ⟨State.reset, by decide⟩

theorem meets_HarbourCommands_2 : ∃ (s : State), Ready .harbourPauseNow s :=
  ⟨State.reset, by decide⟩

theorem meets_HarbourCommands_3 : ∃ (s : State), Ready .harbourResume s :=
  ⟨State.reset, by decide⟩

theorem meets_HarbourCommands_4 : ∃ (b : Nat) (s : State), Ready (.budgetWaitTimeout b) s ∧ bState b s = 2 ∧
    (berth b s).waitSince.isSome :=
  ⟨0, modBerth 0 (fun x => { x with waitSince := some 0 }) (made [(bi 0 0, 1, 2)]), by decide⟩

theorem meets_HarbourCommands_5 : ∃ (p : Nat) (r : SpotRecord) (s : State), Ready (.budgetWithdrawal p) s ∧
    8 ≤ s.hm.excess.getD p 0 ∧ withdrawalBerth (p + 1) { fresh s with hm := { s.hm with excess := s.hm.excess.set p 0 } } = some r :=
  ⟨2, aRecord, { State.reset with hm := { excess := [0, 0, 8], own := [(0, aRecord)] } }, by decide⟩

theorem meets_HarbourCommands_6 : ∃ (b : Nat) (s : State), Ready (.reassignBerth b) s ∧ bState b s = 3 ∧ getN 0x1806 1 s ≠ 0 :=
  ⟨0, made [(bi 0 0, 1, 3), (0x1806, 1, 1)], by decide⟩

theorem meets_HarbourCommands_7 : ∃ (b c : Nat) (run : Nat × Nat) (s u : State), Ready .reassignment s ∧ s.hm.trigger = [b] ∧
    u = { fresh s with hm := { s.hm with trigger := [] } } ∧ bState b s = 3 ∧ getN 0x1806 1 s ≠ 0 ∧ remainingRuns b u = [run] ∧
    leastBy (fun t => (annexLoad t u).1) (berthList.filter (fun t => mayTake b run t u)) = some c :=
  ⟨0, 1, (1, 2), source, { source with hm := {} }, by decide +kernel⟩

theorem meets_GroupsAreSealed_1a : ∃ (n g l : Nat) (sig : List Byte) (s : State), Ready (.groupSeal n g l sig) s ∧ (g ≠ 2 →
    writeBar n s = 0) ∧ (g = 2 → (rwpCheck n 0x8002 (sealSub 2) 0 (toLe 4 l) sig (fresh s)).1 = 0) :=
  ⟨16, 27, 4294967295, [], State.reset, by decide⟩

theorem meets_GroupsAreSealed_1b : ∃ (n g l : Nat) (sig : List Byte) (s : State), Ready (.groupSeal n g l sig) s ∧ (g ≠ 2 →
    writeBar n s = 0) ∧ (g = 2 → (rwpCheck n 0x8002 (sealSub 2) 0 (toLe 4 l) sig (fresh s)).1 = 0) :=
  ⟨0, 2, 5, sigOf 0xcf9015a6fd52512b490bab19a23f13e14ab057fdca6af0bba6aada43b491df1c,
    signed 0 (keyOf 0x3547a8ac3c50c6a921cc83f4e3efde4273eca65e6652aabeec43851a342871ae 0xdcbf99c47f8f732cf416c4a0e664450f19eec3299b9ad755355199e21d27da7b),
    by decide +kernel⟩

theorem meets_GroupsAreSealed_2a : ∃ (n g : Nat) (sig : List Byte) (s : State), Ready (.groupUnseal n g sig) s ∧ (g ≠ 2 →
    writeBar n s = 0) ∧ (g = 2 → (rwpCheck n 0x8002 (sealSub 2) 0 (toLe 4 0) sig (fresh s)).1 = 0) ∧ reportedReady s = false :=
  ⟨16, 0, [], made [(0x8002, 1, 9)], by decide⟩

theorem meets_GroupsAreSealed_2b : ∃ (n g : Nat) (sig : List Byte) (s : State), Ready (.groupUnseal n g sig) s ∧ (g ≠ 2 →
    writeBar n s = 0) ∧ (g = 2 → (rwpCheck n 0x8002 (sealSub 2) 0 (toLe 4 0) sig (fresh s)).1 = 0) ∧ reportedReady s = false :=
  ⟨0, 2, sigOf 0xf45ae394c1a2f3e386595328f1ff20c0452a0b50121489bc43ef238f965b1f69,
    signed 1 (keyOf 0x7f999b5a3f1c2c2d64631395f4dc35928c04fa22b76c6f899f2677f422eef1b1 0xed678d81560b9aafdd10f51944a23b62b2247f227fb6ab973bf4ecf0942c3c1),
    by decide +kernel⟩

theorem meets_CommitRequestAndWindow_1a : ∃ (L : Nat) (s : State), Ready (.commitRequest L) s ∧ commitWaiting s = false ∧
    (s.hm.size = 1 ∨ s.hm.seatNo = 0) :=
  ⟨5, State.reset, by decide⟩

theorem meets_CommitRequestAndWindow_1b : ∃ (L : Nat) (s : State), Ready (.commitRequest L) s ∧ commitWaiting s = false ∧
    (s.hm.size = 1 ∨ s.hm.seatNo = 0) :=
  ⟨5, made [(0x8000, 2, 1), (0x8000, 8, 4)], by decide⟩

theorem meets_CommitRequestAndWindow_2a : ∃ (s : State), Ready .lockWindowOpen s ∧ getN 0x8000 8 s = 1 ∧ layerHeld s = false ∧
    (getN 0x8000 2 s = 1 ∧ openingMet s = true ∧ s.commit.met = false ∨ getN 0x8000 2 s = 2 ∧ openingDue s = true) :=
  ⟨made [(0x8000, 8, 1), (0x8000, 2, 1), (0x0401, 8, 0)], by decide⟩

theorem meets_CommitRequestAndWindow_2b : ∃ (s : State), Ready .lockWindowOpen s ∧ getN 0x8000 8 s = 1 ∧ layerHeld s = false ∧
    (getN 0x8000 2 s = 1 ∧ openingMet s = true ∧ s.commit.met = false ∨ getN 0x8000 2 s = 2 ∧ openingDue s = true) :=
  ⟨made [(0x8000, 8, 1), (0x8000, 2, 2), (0x0401, 8, 4)], by decide⟩

theorem meets_CommitRequestAndWindow_3 : ∃ (s : State), Ready .lockTimeout s ∧ getN 0x8000 8 s = 2 ∧ s.commit.decided = none ∧
    s.hm.size = 1 ∧ missing s.commit.layer s ≠ [] :=
  ⟨made [(0x8000, 8, 2)], by decide +kernel⟩

theorem meets_CommitRequestAndWindow_4 : ∃ (s : State), Ready .commitAbort s ∧ (s.hm.size = 1 ∨ s.hm.seatNo = 0) ∧
    commitWaiting s = true ∧ s.commit.decided = none :=
  ⟨made [(0x8000, 8, 1)], by decide⟩

theorem meets_LockGateCommitTakesTheLayer_1 : ∃ (u : Time) (s : State), Ready .lockGateCommit s ∧ s.hm.size = 1 ∧ s.hm.seatNo = 0 ∧
    layerHeld s = false ∧ getN 0x8000 8 s = 2 ∧ s.commit.openedAt = some u ∧ u < s.now ∧ missing s.commit.layer s = [] ∧
    committedAlready s.commit.layer s = false :=
  ⟨0, ready, by decide +kernel⟩

theorem meets_LockGateCommitTakesTheLayer_2 : ∃ (f : Nat) (s : State), Ready .lockGateCommit s ∧ s.hm.size ≠ 1 ∧ layerHeld s = false ∧
    s.commit.decided = some f ∧ f ≤ s.frame ∧ committedAlready s.commit.decidedLayer s = false :=
  ⟨7, { (made [(0x0401, 8, 0)]) with frame := 7, hm := { size := 2 }, commit := { decided := some 7, decidedLayer := 5 } }, by decide⟩

theorem meets_LockGateCommitTakesTheLayer_3 : ∃ (f : Nat) (s : State), Ready .lockGateCommit s ∧ s.hm.size ≠ 1 ∧ layerHeld s = false ∧
    s.commit.decided = some f ∧ f ≤ s.frame ∧ committedAlready s.commit.decidedLayer s = true :=
  ⟨7, { (made [(0x0401, 8, 0), (0x8000, 9, 5)]) with frame := 7, hm := { size := 2 }, commit := { decided := some 7, decidedLayer := 5, missed := [1] } },
    by decide⟩

theorem meets_LoopCommands_1 : ∃ (n v : Nat) (s : State), Ready (.bankSelect n v) s ∧ v ≤ 1 :=
  ⟨191, 1, State.reset, by decide⟩

theorem meets_LoopCommands_2 : ∃ (n v : Nat) (s : State), Ready (.loopMode n v) s ∧ v ≤ 1 ∧ (v = 1 → getN (li n 0) 1 s ≠ 0) :=
  ⟨0, 1, made [(li 0 0, 1, 1)], by decide⟩

theorem meets_LoopCommands_3 : ∃ (n : Nat) (s : State), Ready (.tripClear n) s ∧ tripPasses n s = true :=
  ⟨191, State.reset, by decide⟩

theorem meets_AxisStrokes_1 : ∃ (m : Nat) (pos : Int) (s : State), Ready (.target m pos) s ∧ axisState m s = 1 ∧
    motionHeld s = false ∧ axisBarred m s = false :=
  ⟨3, -2147483648, made [(mi 3 1, 8, 1)], by decide⟩

theorem meets_AxisStrokes_2 : ∃ (m : Nat) (s : State), Ready (.strokeEnd m) s ∧ axisState m s = 2 :=
  ⟨3, made [(mi 3 1, 8, 2)], by decide⟩

theorem meets_AxisStrokes_3 : ∃ (m : Nat) (s : State), Ready (.stopDecelerate m) s ∧ (axisState m s = 2 ∨ axisState m s = 3) :=
  ⟨3, made [(mi 3 1, 8, 3)], by decide⟩

theorem meets_AxisStrokes_4 : ∃ (m : Nat) (s : State), Ready (.stopFreeze m) s ∧ (axisState m s = 2 ∨ axisState m s = 3) :=
  ⟨3, made [(mi 3 1, 8, 2)], by decide⟩

theorem meets_AxisStrokes_5 : ∃ (s : State), Ready .motionHoldClear s :=
  ⟨made [(0x7080, 1, 1)], by decide⟩

theorem meets_AxisStallsHomingAndStandstill_1 : ∃ (m : Nat) (s : State), Ready (.stall m) s ∧ axisState m s = 2 ∧
    getN (mi m 2) 3 s ≤ (axisAt m s.now s).2.natAbs :=
  ⟨3, made [(mi 3 1, 8, 2), (mi 3 2, 3, 0)], by decide +kernel⟩

theorem meets_AxisStallsHomingAndStandstill_2 : ∃ (m : Nat) (s : State), Ready (.stall m) s ∧ axisState m s = 3 ∧
    (axis m s).homing = 1 ∧ getN (mi m 2) 0x0F s ≤ ((axisAt m s.now s).1 - (axis m s).homeStart).natAbs :=
  ⟨3, modAxis 3 (fun x => { x with homing := 1, start := 100, goal := 100 }) (made [(mi 3 1, 8, 3), (mi 3 2, 0x0F, 50), (mi 3 1, 6,
    100)]), by decide +kernel⟩

theorem meets_AxisStallsHomingAndStandstill_3 : ∃ (m : Nat) (s : State), Ready (.stallClear m) s ∧ axisState m s = 4 :=
  ⟨0, made [(mi 0 1, 8, 4)], by decide⟩

theorem meets_AxisStallsHomingAndStandstill_4 : ∃ (m : Nat) (s : State), Ready (.home m) s ∧
    (axisState m s = 1 ∨ axisState m s = 4 ∨ axisState m s = 5) ∧ motionHeld s = false ∧ axisBarred m s = false :=
  ⟨0, made [(mi 0 1, 8, 5)], by decide⟩

theorem meets_AxisStallsHomingAndStandstill_5 : ∃ (m : Nat) (s : State), Ready (.homingTravelLimit m) s ∧ axisState m s = 3 ∧
    (axis m s).homing = 1 :=
  ⟨0, modAxis 0 (fun x => { x with homing := 1 }) (made [(mi 0 1, 8, 3)]), by decide⟩

theorem meets_AxisStallsHomingAndStandstill_6 : ∃ (m : Nat) (s : State), Ready (.backOffComplete m) s ∧ axisState m s = 3 ∧
    (axis m s).homing = 2 :=
  ⟨0, modAxis 0 (fun x => { x with homing := 2 }) (made [(mi 0 1, 8, 3)]), by decide⟩

theorem meets_AxisStallsHomingAndStandstill_7 : ∃ (m : Nat) (s : State), Ready (.standstillDelay m) s ∧ axisState m s = 1 ∧
    (axis m s).hold = 0 :=
  ⟨0, made [(mi 0 1, 8, 1)], by decide⟩

theorem meets_AxisStallsHomingAndStandstill_8 : ∃ (m : Nat) (s : State), Ready (.idleAction m) s ∧ axisState m s = 1 ∧
    (axis m s).hold = 1 ∧ getN (mi m 2) 9 s ≠ 0 ∧ (getN (mi m 2) 8 s = 1 ∨ getN (mi m 2) 8 s = 2) :=
  ⟨0, modAxis 0 (fun x => { x with hold := 1 }) (made [(mi 0 1, 8, 1), (mi 0 2, 9, 10), (mi 0 2, 8, 2)]), by decide⟩

theorem meets_AxisStallsHomingAndStandstill_9 : ∃ (m : Nat) (s : State), Ready (.energiseComplete m) s ∧ (axis m s).hold = 3 :=
  ⟨0, modAxis 0 (fun x => { x with hold := 3 }) State.reset, by decide⟩

theorem meets_CountersAndWakeRelease_1 : ∃ (i off : Nat) (a b : Bool) (d : Int) (s : State), Ready (.encoderEdge i a b off) s ∧
    getN (ei i 0) 1 s ≠ 0 ∧ ((ctr i s).a ≠ a ∧ (ctr i s).b = b ∨ (ctr i s).a = a ∧ (ctr i s).b ≠ b) ∧
    d = quadStep (ctr i s).a (ctr i s).b a b * (if getN (ei i 0) 2 s = 1 then -1 else 1) ∧
    getI (ei i 0) 4 s ≤ getI (ei i 1) 1 s + d ∧ getI (ei i 1) 1 s + d ≤ getI (ei i 0) 5 s :=
  ⟨5, 0, true, false, 1, made [(ei 5 0, 1, 1)], by decide⟩

theorem meets_CountersAndWakeRelease_2 : ∃ (i off : Nat) (a b : Bool) (s : State), Ready (.indexPulse i a b off) s ∧
    getN (ei i 0) 1 s ≠ 0 ∧ (bit (getN (ei i 0) 9 s) 2 = true ∨ a = bit (getN (ei i 0) 9 s) 0 ∧ b = bit (getN (ei i 0) 9 s) 1) ∧
    (ctrHas i 5 s = true ∨ ctrHas i 0 s = false) :=
  ⟨5, 0, true, true, made [(ei 5 0, 1, 1), (ei 5 0, 9, 3)], by decide⟩

theorem meets_CountersAndWakeRelease_3 : ∃ (i : Nat) (v : Int) (s : State), Ready (.countSet i v) s :=
  ⟨7, 2147483647, State.reset, by decide⟩

theorem meets_CountersAndWakeRelease_4 : ∃ (i : Nat) (s : State), Ready (.referenceArm i) s :=
  ⟨5, State.reset, by decide⟩

theorem meets_CountersAndWakeRelease_5 : ∃ (i w off : Nat) (z c : Int) (s : State), Ready (.ssiFrame i w true true off) s ∧
    getN (ei i 0) 1 s ≠ 0 ∧
    z = ((if getN (ei i 0) 0x0D s = 1 then grayDecode (
    w % 2 ^ getN (ei i 0) 0x0C s) (getN (ei i 0) 0x0C s) else w % 2 ^ getN (ei i 0) 0x0C s : Nat) : Int) ∧
    c = clamp ((if getN (ei i 0) 2 s = 1 then -z else z) + getI (ei i 0) 0x0F s) (getI (ei i 0) 4 s) (getI (ei i 0) 5 s) :=
  ⟨7, 4294967295, 0, _, _, made [(ei 7 0, 1, 1), (ei 7 0, 0x0C, 25)], by decide, by decide, rfl, rfl⟩

theorem meets_CountersAndWakeRelease_6 : ∃ (i : Nat) (s : State), Ready (.counterStandstill i) s :=
  ⟨7, State.reset, by decide⟩

theorem meets_CountersAndWakeRelease_7 : ∃ (s : State), Ready .wakeRelease s ∧ getN 0x7300 0x0A s = 2 ∧ wakeCause s = 0 :=
  ⟨made [(0x7300, 0x0A, 2), (ei 0 1, 5, 1)], by decide⟩

theorem meets_ContextsAndTriggers_1 : ∃ (c off n : Nat) (s : State), Ready (.hostTrigger c off) s ∧ ctxOn c s = true ∧
    getN (ci c 0) 5 s = 0 ∧ (∀ u, (ctx c s).lastTrig = some u → u + getN (ci c 0) 7 s * nsT ≤ timeAt off s) ∧
    n = (if (ctx c s).firstTrigger then 0 else (getN (ci c 5) 1 s + 1) % 2 ^ 32) :=
  ⟨25, 2499, 0, made [(ci 25 0, 1, 1), (ci 25 0, 5, 0)], by decide, by decide, by decide,
    (by intro u h; have h : (none : Option Time) = some u := h; cases h), by decide⟩

theorem meets_ContextsAndTriggers_2 : ∃ (c a : Nat) (s : State), Ready (.contextEnable c true) s ∧ ctxOn c s = false ∧ (c < 24 →
    headAllows c s = true) ∧ firstFit (granulesFor c s) s = some a :=
  ⟨0, 0, State.reset, by decide +kernel⟩

theorem meets_ContextsAndTriggers_3 : ∃ (c : Nat) (s : State), Ready (.contextEnable c false) s ∧ ctxOn c s = true ∧
    (∀ e ∈ s.shadow, e.1 ≠ key (ci c 0) 1) :=
  ⟨0, made [(ci 0 0, 1, 1)], by decide⟩

theorem meets_FramesArriveAndAreProcessed_1a : ∃ (h : Nat) (w : WireFrame) (f : TileFrame) (s : State), Ready (.tile h w) s ∧ hears h s = true ∧
    frameGood 0x83 w.bytes w.bad = true ∧ f = tileOf (payloadOf w.bytes) ∧ f.seq = (link h s).tileNext :=
  ⟨0, aTile 0, _, made [(lki 0, 2, 7)], by decide, by decide, frameGood_frameBytes 0 (by decide) (by decide +kernel) (by decide +kernel), rfl, by decide +kernel⟩

theorem meets_FramesArriveAndAreProcessed_1b : ∃ (h : Nat) (w : WireFrame) (f : TileFrame) (s : State), Ready (.tile h w) s ∧ hears h s = true ∧
    frameGood 0x83 w.bytes w.bad = true ∧ f = tileOf (payloadOf w.bytes) ∧ f.seq ≠ (link h s).tileNext ∧ (link h s).retry = none :=
  ⟨23, aTile 255, _, made [(lki 23, 2, 7)], by decide, by decide, frameGood_frameBytes 0 (by decide) (by decide +kernel) (by decide +kernel), rfl, by decide +kernel, by decide⟩

theorem meets_FramesArriveAndAreProcessed_2 : ∃ (p : Nat) (k : CsiPacket) (f : Frame) (s : State), Ready (.csiPacket p k) s ∧
    ctxOn (24 + p) s = true ∧ k.headerOk = true ∧ k.vc = getN (ci (24 + p) 0) 0x0B s ∧ k.dtype = 0 ∧
    (ctx (24 + p) s).frames.find? (fun g => g.arriving && !g.started) = some f :=
  ⟨1, aStart, {}, modCtx 25 (fun x => { x with frames := [{}] }) (made [(ci 25 0, 1, 1)]), by decide⟩

theorem meets_FramesArriveAndAreProcessed_3 : ∃ (p : Nat) (k : CsiPacket) (s : State), Ready (.csiPacket p k) s ∧
    ctxOn (24 + p) s = true ∧ k.headerOk = true ∧ k.vc = getN (ci (24 + p) 0) 0x0B s ∧ k.dtype = 1 :=
  ⟨1, anEnd, made [(ci 25 0, 1, 1)], by decide⟩

theorem meets_FramesArriveAndAreProcessed_4 : ∃ (c : Nat) (f : Frame) (s : State), Ready (.tileFrameTimeout c) s ∧ c < 24 ∧
    (ctx c s).frames.find? (fun g => g.arriving) = some f :=
  ⟨23, {}, modCtx 23 (fun x => { x with frames := [{}] }) State.reset, by decide⟩

theorem meets_FramesArriveAndAreProcessed_5 : ∃ (c : Nat) (f : Frame) (s : State), Ready (.frameTimeout c) s ∧ 24 ≤ c ∧
    (ctx c s).frames.find? (fun g => g.arriving) = some f :=
  ⟨25, {}, modCtx 25 (fun x => { x with frames := [{}] }) State.reset, by decide⟩

theorem meets_FramesArriveAndAreProcessed_6 : ∃ (c n : Nat) (f : Frame) (s : State), Ready (.tileProcessed c) s ∧ nextTurn s = some (c, n) ∧
    readyFrame c s = some f ∧ f.arriving = true ∧ getN 0x4000 4 s ≠ 1 :=
  ⟨25, 0, { tiles := (List.range 16).map (fun y => (y, [])) },
    modCtx 25 (fun x => { x with frames := [{ tiles := (List.range 16).map (fun y => (y, [])) }] }) (made [(ci 25 0, 2, 16)]),
    by decide +kernel⟩

theorem meets_FramesArriveAndAreProcessed_7 : ∃ (s : State), Ready .overload s ∧ getN 0x4000 2 s < pendingWork s :=
  ⟨modCtx 0 (fun x => { x with frames := [{ tiles := [(0, [])] }] }) (made [(0x4000, 2, 0), (ci 0 5, 7, 256)]), by decide +kernel⟩

theorem meets_BeaconCommands_1 : ∃ (d : Nat) (v : Int) (temps : List (Option Int)) (s : State),
    Ready (.lampTemperatureRead temps) s ∧ d < 4 ∧ d < getN 0x4806 1 s ∧ temps.getD d none = some v :=
  ⟨3, 256, [none, none, none, some 256], made [(0x4806, 1, 4)], by decide⟩

theorem meets_BeaconCommands_2 : ∃ (d : Nat) (s : State), Ready (.lampBoardTimeout d) s ∧ (board d s).lostAt.isSome :=
  ⟨3, modBoard 3 (fun x => { x with lostAt := some 0 }) State.reset, by decide⟩

theorem meets_BeaconCommands_3 : ∃ (c mv : Nat) (volts : List (Option Nat)) (s : State), Ready (.channelDiagnosis volts) s ∧
    getN 0x4800 1 s ≠ 0 ∧ getN 0x4800 3 s ≠ 1 ∧ c < 16 ∧ bit s.vision.tested c = true ∧ getN 0x4801 (c + 1) s ≠ 0 ∧ volts.getD c none = some mv :=
  ⟨15, 5000, List.replicate 15 none ++ [some 5000], { made [(0x4800, 1, 2), (0x4801, 16, 100)] with vision := { tested := 0x8000 } }, by decide +kernel⟩

theorem meets_BeaconCommands_4a : ∃ (s : State), Ready .sequenceStart s ∧ getN 0x4800 1 s = 1 ∧ getN 0x4808 6 s ≠ 2 :=
  ⟨made [(0x4800, 1, 1)], by decide⟩

theorem meets_BeaconCommands_4b : ∃ (s : State), Ready .sequenceStart s ∧ getN 0x4800 1 s = 1 ∧ getN 0x4808 6 s ≠ 2 :=
  ⟨made [(0x4800, 1, 1), (0x4808, 2, 2)], by decide⟩

theorem meets_BeaconCommands_5 : ∃ (s : State), Ready .projectorStartTime s ∧ getN 0x4808 2 s = 2 ∧ getN 0x4800 1 s = 1 ∧
    getN 0x4808 6 s ≠ 2 :=
  ⟨made [(0x4800, 1, 1), (0x4808, 2, 2), (0x4808, 6, 1)], by decide⟩

theorem meets_BeaconCommands_6a : ∃ (k fl : Nat) (s : State), Ready .projectorEntry s ∧ getN 0x4808 6 s = 2 ∧ getN 0x4808 7 s = k ∧
    fl = field (getB 0x4808 8 s) (8 * k + 6) 1 :=
  ⟨255, 8, setB 0x4808 8 (List.replicate 2046 0#8 ++ [8#8, 0#8]) (made [(0x4808, 6, 2), (0x4808, 7, 255)]), by decide +kernel⟩

theorem meets_BeaconCommands_6b : ∃ (k fl : Nat) (s : State), Ready .projectorEntry s ∧ getN 0x4808 6 s = 2 ∧ getN 0x4808 7 s = k ∧
    fl = field (getB 0x4808 8 s) (8 * k + 6) 1 :=
  ⟨254, 0, made [(0x4808, 6, 2), (0x4808, 7, 254)], by decide +kernel⟩

theorem meets_BeaconCommands_6c : ∃ (k fl : Nat) (s : State), Ready .projectorEntry s ∧ getN 0x4808 6 s = 2 ∧ getN 0x4808 7 s = k ∧
    fl = field (getB 0x4808 8 s) (8 * k + 6) 1 :=
  ⟨0, 24, setB 0x4808 8 (bytes [0, 0, 0, 0, 0, 0, 24, 0]) (made [(0x4808, 6, 2), (0x4808, 7, 0)]), by decide +kernel⟩

theorem meets_BeaconCommands_7 : ∃ (s : State), Ready .sequenceStop s :=
  ⟨State.reset, by decide⟩

theorem meets_ChartBuffers_1 : ∃ (f : Feature) (l : List Feature) (k : Nat) (b : Buffer) (s : State), Ready .featureCharted s ∧
    s.chart.queue = f :: l ∧ s.commit.instant ≤ f.trig ∧ bufferIn 1 s = some k ∧ b = buffer k s ∧ (b.policy = 1 →
    bit f.flags 2 = false) ∧ 0 ≤ ((placeFeature b.mode f).1 - b.originX) / b.cell ∧
    ((placeFeature b.mode f).1 - b.originX) / b.cell < b.cols ∧ 0 ≤ ((placeFeature b.mode f).2 - b.originY) / b.cell ∧
    ((placeFeature b.mode f).2 - b.originY) / b.cell < b.rows :=
  ⟨{}, [], 3, { state := 1, cell := 1, cols := 1, rows := 1 },
    { State.reset with chart := { buffers := [(3, { state := 1, cell := 1, cols := 1, rows := 1 })], queue := [{}] } }, by decide⟩

theorem meets_ChartBuffers_2 : ∃ (k : Nat) (s : State), Ready .bufferClosed s ∧ nextClosing s = some k :=
  ⟨3, { State.reset with chart := { buffers := [(3, { state := 2 })] } }, by decide⟩

theorem meets_ChartBuffers_3 : ∃ (k l : Nat) (s : State), Ready (.release l) s ∧
    (List.range 4).find? (fun j => (buffer j s).state == 3 && (buffer j s).layer == l) = some k :=
  ⟨3, 4294967295, { State.reset with chart := { buffers := [(3, { state := 3, layer := 4294967295 })] } }, by decide⟩

theorem meets_ChartBuffers_4 : ∃ (k l : Nat) (s : State), Ready (.exportLayer l) s ∧ k < 4 ∧ (buffer k s).state ≠ 0 ∧
    (buffer k s).layer = l :=
  ⟨3, 5, { State.reset with chart := { buffers := [(3, { state := 3, layer := 5 })] } }, by decide⟩

theorem meets_BreakwaterAndKeys_1 : ∃ (n : Nat) (l sig : List Byte) (s : State), Ready (.breakwaterSet n l sig) s ∧
    (rwpCheck n 0x5100 1 0 l sig (fresh s)).1 = 0 ∧ sealOf 2 s = 0 :=
  ⟨0, [], sigOf 0xc785e3cfef5e6c430583dcc1c88f2cfbe6ee5eb1f7a949d4063cfb4aec5cc26e,
    signed 0 (keyOf 0xb47972e16846d8e6c113f7bc62abf7760a7922175cdb5ddaee198c1492099947 0xd41cc4040f2e22eaf7870c67bda310a76aa1865db82e22d36a2021d1e4a1594d),
    by decide +kernel⟩

theorem meets_BreakwaterAndKeys_2 : ∃ (n : Nat) (d sig : List Byte) (s : State), Ready (.keySlotProgram n d sig) s ∧ (n = 16 ∧
    getN 0x5101 5 s = 0 ∧ field d 0 1 = 0 ∨ (rwpCheck n 0x5101 6 0 d sig (fresh s)).1 = 0) ∧ d.length = 33 ∧ field d 0 1 < 4 ∧
    bit (getN 0x5101 5 s) (field d 0 1) = false :=
  ⟨16, List.replicate 33 0#8, [], State.reset, by decide +kernel⟩

theorem meets_BreakwaterAndKeys_3 : ∃ (n i : Nat) (sig : List Byte) (s : State), Ready (.keySlotRevoke n i sig) s ∧
    (rwpCheck n 0x5101 7 0 (toLe 1 i) sig (fresh s)).1 = 0 ∧ i < 4 ∧ slotLive i s = true ∧ 2 ≤ ([0, 1, 2,
    3].filter (fun j => slotLive j s)).length ∧ getB 0x5101 (i + 1) s ≠ sha256 (sess n s).key :=
  ⟨0, 1, sigOf 0x17a341c58a5ee73cf7eebcc40305f52faa5a13bd094e72d794a9c5828253d22d,
    setN 0x5101 5 3 (
    signed 0 (keyOf 0x85916c5774b2428fdb2bf6e68d327281a4e2595e93a7fb3c3789792f3471a184 0x7be3fdad458f41a1fe555d22ed16f7cca7f1885f479496770d87087bedab3578)),
    by decide +kernel⟩

theorem meets_RecordStreamsAndJobs_1a : ∃ (st : Nat) (g : Segment) (s : State), Ready .blockCoded s ∧ getN 0x5801 8 s ≠ 1 ∧ served s = some st ∧
    headSeg st s = some g ∧ blockElems st ≤ g.staging.length ∧ blockMost g.mode ≤ outFree st s ∧ g.feed = [] :=
  ⟨0, aSegment 1024, coding 0 1024, by decide +kernel⟩

theorem meets_RecordStreamsAndJobs_1b : ∃ (st : Nat) (g : Segment) (s : State), Ready .blockCoded s ∧ getN 0x5801 8 s ≠ 1 ∧ served s = some st ∧
    headSeg st s = some g ∧ blockElems st ≤ g.staging.length ∧ outFree st s < blockMost g.mode :=
  ⟨0x61, aSegment 0, coding 0x61 0, by decide +kernel⟩

theorem meets_RecordStreamsAndJobs_2 : ∃ (st : Nat) (g : Segment) (s : State), Ready (.streamResume st) s ∧ getN (ssi st 1) 1 s = 2 ∧
    headSeg st s = some g ∧ g.ended = false ∧ g.resume ≤ outFree st s :=
  ⟨0x61, { resume := 5, outSize := 5 }, modStream 0x61 (fun x => { x with segs := [{ resume := 5, outSize := 5 }] }) (made [(ssi 0x61 1, 1, 2)]),
    by decide⟩

theorem meets_RecordStreamsAndJobs_3 : ∃ (st : Nat) (s : State), Ready (.gapEntry st) s ∧ (stream st s).lost ≠ 0 ∧ roomAgain st s = true ∧
    (gapTarget st < 24 → (stream (sampleStream (gapTarget st)) s).anchors = []) ∧ hasRoom (gapTarget st) 32 s = true :=
  ⟨0x20, modStream 0 (fun x => { x with segs := [{ stageSize := 32 }] }) (modStream 0x20 (fun x => { x with lost := 1 }) State.reset),
    by decide +kernel⟩

theorem meets_RecordStreamsAndJobs_4 : ∃ (b : Nat) (a : Anchor) (s : State), Ready (.sampleAnchor b) s ∧
    (stream (sampleStream b) s).anchors = [a] ∧ a.lost = 0 ∧ hasRoom (eventStream b) 32 s = true :=
  ⟨23, { index := 5, frame := 6 },
    modStream 23 (fun x => { x with segs := [{ stageSize := 32 }] }) (
    modStream (sampleStream 23) (fun x => { x with anchors := [{ index := 5, frame := 6 }] }) State.reset), by decide +kernel⟩

theorem meets_RecordStreamsAndJobs_5 : ∃ (st v : Nat) (s : State), Ready (.readPointer st v) s ∧ v ≤ getN (ssi st 1) 3 s :=
  ⟨0, 100, made [(ssi 0 1, 3, 100)], by decide⟩

theorem meets_RecordStreamsAndJobs_6 : ∃ (s : State), Ready .jobStart s ∧ getN 0x5801 8 s ≠ 1 ∧ getN 0x5801 2 s % 128 = 0 ∧
    getN 0x5801 0x0D s ≠ 1 :=
  ⟨made [(0x5801, 2, 256)], by decide⟩

theorem meets_RecordStreamsAndJobs_7 : ∃ (s : State), Ready .blockCoded s ∧ getN 0x5801 8 s = 1 ∧
    streamList.any (fun j => decide (stageSize j s < 2 * stagedBytes j s)) = false ∧ blockMost (getN 0x5801 5 s) ≤ s.rcd.jobRoom :=
  ⟨{ (made [(0x5801, 8, 1)]) with rcd := { jobRoom := 130 } }, by decide +kernel⟩

theorem meets_RecordStreamsAndJobs_8 : ∃ (s : State), Ready .jobResume s ∧ getN 0x5801 8 s = 3 :=
  ⟨made [(0x5801, 8, 3)], by decide⟩

theorem meets_RecordStreamsAndJobs_9 : ∃ (s : State), Ready .jobAbort s ∧ (getN 0x5801 8 s = 1 ∨ getN 0x5801 8 s = 3) :=
  ⟨made [(0x5801, 8, 3)], by decide⟩

theorem meets_RecordStreamsAndJobs_10 : ∃ (s : State), Ready .jobSaveState s :=
  ⟨State.reset, by decide⟩

theorem meets_LinksStartStopAndFail_1a : ∃ (l : Nat) (s : State), Ready (.linkEnable l) s ∧
    (linkState l s = 8 ∨ (getN (lki l) 1 s = 0 ∧ linkState l s = 0)) :=
  ⟨25, made [(lki 25, 1, 0)], by decide⟩

theorem meets_LinksStartStopAndFail_1b : ∃ (l : Nat) (s : State), Ready (.linkEnable l) s ∧
    (linkState l s = 8 ∨ (getN (lki l) 1 s = 0 ∧ linkState l s = 0)) :=
  ⟨0, made [(lki 0, 2, 8)], by decide⟩

theorem meets_LinksStartStopAndFail_2 : ∃ (l : Nat) (s : State), Ready (.linkDisable l) s ∧ linkState l s ≠ 0 ∧ linkState l s ≠ 8 :=
  ⟨25, made [(lki 25, 2, 7)], by decide⟩

theorem meets_LinksStartStopAndFail_3 : ∃ (l : Nat) (s : State), Ready (.trainingTimeout l) s ∧ 1 ≤ linkState l s ∧
    linkState l s ≤ 6 :=
  ⟨0, made [(lki 0, 2, 6)], by decide⟩

theorem meets_LinksStartStopAndFail_4 : ∃ (l : Nat) (s : State), Ready (.retryInterval l) s ∧ linkState l s = 0 ∧
    getN (lki l) 1 s = 1 :=
  ⟨0, made [(lki 0, 1, 1)], by decide⟩

theorem meets_LinkTraining_1 : ∃ (l : Nat) (s : State), Ready (.signalDetected l) s ∧ linkState l s = 1 :=
  ⟨25, made [(lki 25, 2, 1)], by decide⟩

theorem meets_LinkTraining_2a : ∃ (l inv : Nat) (s : State), Ready (.commaAligned l inv) s ∧ linkState l s = 2 :=
  ⟨23, 1, made [(lki 23, 2, 2)], by decide⟩

theorem meets_LinkTraining_2b : ∃ (l inv : Nat) (s : State), Ready (.commaAligned l inv) s ∧ linkState l s = 2 :=
  ⟨24, 15, made [(lki 24, 2, 2)], by decide⟩

theorem meets_LinkTraining_3 : ∃ (k : Nat) (order skews : List Nat) (s : State), Ready (.lanesDeskewed k order skews) s ∧
    linkState (24 + k) s = 3 ∧ (order = [0, 1, 2, 3] ∨ order = [3, 2, 1, 0]) ∧ (∀ x ∈ skews, ∀ y ∈ skews, x ≤ y + 24) :=
  ⟨1, [3, 2, 1, 0], [0, 24, 3, 9], made [(lki 25, 2, 3)], by decide⟩

theorem meets_LinkTraining_4 : ∃ (l : Nat) (m : List Nat) (s : State), Ready (.equaliseComplete l m) s ∧ linkState l s = 4 ∧
    (∀ x ∈ laneMargins l m, getN (lki l) (lsub l 0x0C 0x08) s + 10 ≤ x) :=
  ⟨25, [255, 255, 255, 255], made [(lki 25, 2, 4)], by decide⟩

theorem meets_LinkTraining_5 : ∃ (h : Nat) (w : WireFrame) (f : CapsFrame) (s : State), Ready (.caps h w) s ∧ linkState h s = 5 ∧
    frameGood 0x85 w.bytes w.bad = true ∧ f = capsOf (payloadOf w.bytes) ∧ f.major = 1 ∧ f.replyOffset ≤ 400 :=
  ⟨23, aCaps, _, made [(lki 23, 2, 5)], by decide, by decide, by decide +kernel, rfl, by decide +kernel, by decide +kernel⟩

theorem meets_LinkTraining_6 : ∃ (h : Nat) (s : State), Ready (.measurementComplete h) s ∧ h < 24 ∧ linkState h s = 6 ∧
    burstEnded (link h s).burst = true ∧ (link h s).burst.got ≠ [] ∧
    spread ((link h s).burst.got.map (fun g => (g.1 : Int) - g.2)) ≤ 64 :=
  ⟨23, modLink 23 (fun x => { x with burst := { got := [(100, 36), (90, 90)] } }) (made [(lki 23, 2, 6)]), by decide⟩

theorem meets_LinkTraining_7 : ∃ (l : Nat) (s : State), Ready (.measurementComplete l) s ∧ 24 ≤ l ∧ linkState l s = 6 ∧
    (link l s).thetas.length = 16 ∧ spread (link l s).thetas ≤ 32768 :=
  ⟨24, modLink 24 (fun x => { x with thetas := List.replicate 15 0 ++ [32768] }) (made [(lki 24, 2, 6)]), by decide⟩

theorem meets_LinksAdaptAndRetrain_1a : ∃ (l i : Nat) (m : List Nat) (s : State), Ready (.eyeMargin l m) s ∧ linkState l s = 7 ∧
    i < laneCount l ∧ m.getD i 0 % 256 < getN (lki l) (lsub l 0x0C 0x08) s ∧ 9 ≤ ((link l s).lanes.getD i {}).low :=
  ⟨25, 3, [255, 255, 255, 0], modLink 25 (fun x => { x with lanes := [{}, {}, {}, { low := 9 }] }) (made [(lki 25, 2, 7)]), by decide⟩

theorem meets_LinksAdaptAndRetrain_1b : ∃ (l i : Nat) (m : List Nat) (s : State), Ready (.eyeMargin l m) s ∧ linkState l s = 7 ∧
    i < laneCount l ∧ l < 24 ∧ getN (lki l) (lsub l 0x0C 0x08) s ≤ m.getD i 0 % 256 :=
  ⟨23, 0, [255], made [(lki 23, 2, 7)], by decide⟩

theorem meets_LinksAdaptAndRetrain_2 : ∃ (l : Nat) (s : State), Ready (.retrain l) s ∧ (link l s).retrainPending = false :=
  ⟨25, State.reset, by decide⟩

theorem meets_LinksAdaptAndRetrain_3 : ∃ (l : Nat) (s : State), Ready (.retrainStart l) s ∧ linkState l s = 7 ∧
    (link l s).retrainPending = true ∧ retrainAllowed l s = true :=
  ⟨0, modLink 0 (fun x => { x with retrainPending := true }) (made [(lki 0, 2, 7)]), by decide⟩

theorem meets_LinksAreLost_1 : ∃ (h : Nat) (s : State), Ready (.lockOrAlignmentLost h) s ∧ h < 24 ∧ linkState h s = 7 ∧
    bState h s = 1 :=
  ⟨23, made [(lki 23, 2, 7), (bi 23 0, 1, 1)], by decide⟩

theorem meets_LinksAreLost_2 : ∃ (h : Nat) (s : State), Ready (.feedbackMissing h) s ∧ linkState h s = 7 ∧
    (link h s).fbFrame ≠ s.frame :=
  ⟨0, { (made [(lki 0, 2, 7)]) with frame := 1 }, by decide⟩

theorem meets_LinksAreLost_3 : ∃ (k : Nat) (s : State), Ready (.seatFrameMissing k) s ∧ linkState (24 + k) s = 7 :=
  ⟨1, made [(lki 25, 2, 7)], by decide⟩

theorem meets_LinksAreLost_4 : ∃ (k : Nat) (s : State), Ready (.recordMissing k) s ∧ linkState (24 + k) s = 7 :=
  ⟨1, made [(lki 25, 2, 7)], by decide⟩

theorem meets_HeadReportsArrive_1 : ∃ (h : Nat) (w : WireFrame) (f : FeedbackFrame) (s : State), Ready (.feedback h w) s ∧ linkState h s = 7 ∧
    frameGood 0x81 w.bytes w.bad = true ∧ f = feedbackOf (payloadOf w.bytes) ∧ f.frame = s.frame % 2 ^ 32 ∧ bit f.status 0 = false :=
  ⟨0, aFeedback, _, made [(lki 0, 2, 7)], by decide, by decide, by decide +kernel, rfl, by decide +kernel, by decide +kernel⟩

theorem meets_HeadReportsArrive_2 : ∃ (h : Nat) (w : WireFrame) (s : State), Ready (.feedback h w) s ∧ hears h s = true ∧
    frameGood 0x81 w.bytes w.bad = false :=
  ⟨0, { aFeedback with bad := true }, made [(lki 0, 2, 5)], by decide⟩

theorem meets_HeadReportsArrive_3 : ∃ (h k : Nat) (w : WireFrame) (f : StatusFrame) (s : State), Ready (.status h w) s ∧ hears h s = true ∧
    frameGood 0x82 w.bytes w.bad = true ∧ f = statusOf (payloadOf w.bytes) ∧ k < 4 :=
  ⟨0, 3, aStatus, _, made [(lki 0, 2, 7)], by decide, by decide, by decide +kernel, rfl, by decide⟩

theorem meets_HeadReportsArrive_4 : ∃ (b : Nat) (s : State), Ready (.temperatureReportTimeout b) s ∧ getN (bi b 4) 9 s ≠ 3 :=
  ⟨0, State.reset, by decide⟩

theorem meets_EchoesMeasureLatency_1 : ∃ (h : Nat) (s : State), Ready (.measurementInterval h) s ∧ linkState h s = 7 :=
  ⟨0, made [(lki 0, 2, 7)], by decide⟩

theorem meets_EchoesMeasureLatency_2 : ∃ (h tok trip turn : Nat) (w : List Byte) (bad : Bool) (s : State), Ready (.echoReply h w bad trip) s ∧ hears h s = true ∧
    frameGood 0x84 w bad = true ∧ echoOf (payloadOf w) = (tok, turn) ∧
    (link h s).burst.waiting.any (fun e => e.1 == tok) = true ∧ linkState h s ≠ 7 :=
  ⟨0, 65535, 40000, 20000, anEchoReply.bytes, false, modLink 0 (fun x => { x with burst := { waiting := [(65535, 0)] } }) (made [(lki 0, 2, 6)]),
    by decide +kernel⟩

theorem meets_EchoesMeasureLatency_3 : ∃ (h tok : Nat) (s : State), Ready (.echoReplyTimeout h tok) s ∧
    (link h s).burst.waiting.any (fun w => w.1 == tok) = true :=
  ⟨0, 255, modLink 0 (fun x => { x with burst := { waiting := [(255, 0)] } }) State.reset, by decide⟩

theorem meets_HeadConfiguration_1 : ∃ (n h : Nat) (d : List Byte) (s : State), Ready (.configWrite n h d) s ∧ linkState h s = 7 ∧
    (link h s).cfg = none :=
  ⟨16, 23, List.replicate 240 1#8, made [(lki 23, 2, 7)], by decide +kernel⟩

theorem meets_HeadConfiguration_2 : ∃ (n h : Nat) (s : State), Ready (.configRead n h) s ∧ linkState h s = 7 ∧
    (link h s).cfg = none :=
  ⟨16, 23, made [(lki 23, 2, 7)], by decide⟩

theorem meets_HeadConfiguration_3 : ∃ (h : Nat) (w : WireFrame) (f : ConfigReply) (a : ConfigAccess) (s : State), Ready (.configReply h w) s ∧
    hears h s = true ∧ frameGood 0x86 w.bytes w.bad = true ∧ f = configReplyOf w.bytes ∧ (link h s).cfg = some a ∧ f.seq = a.seq ∧
    (sess a.sess s).deferred = none ∧ a.sess ≠ 16 ∧ f.result = 0 :=
  ⟨0, aReply, _, { seq := 3 }, modLink 0 (fun x => { x with cfg := some { seq := 3 } }) (made [(lki 0, 2, 7)]), by decide, by decide,
    by decide +kernel, rfl, by decide, by decide +kernel, by decide, by decide, by decide +kernel⟩

theorem meets_HeadConfiguration_4 : ∃ (h : Nat) (a : ConfigAccess) (s : State), Ready (.configTimeout h) s ∧
    (link h s).cfg = some a ∧ a.sends < 3 ∧ linkState h s = 7 :=
  ⟨0, { sends := 2 }, modLink 0 (fun x => { x with cfg := some { sends := 2 } }) (made [(lki 0, 2, 7)]), by decide⟩

theorem meets_HeadConfiguration_5 : ∃ (h : Nat) (a : ConfigAccess) (s : State), Ready (.configTimeout h) s ∧
    (link h s).cfg = some a ∧ 3 ≤ a.sends ∧ (sess a.sess s).deferred = none ∧ a.sess ≠ 16 :=
  ⟨0, { sends := 3 }, modLink 0 (fun x => { x with cfg := some { sends := 3 } }) State.reset, by decide⟩

theorem meets_QuayFramesArrive_1 : ∃ (k : Nat) (w : SeatIn) (l : List Byte) (f : SeatFrame) (s : State),
    Ready (.seat k w) s ∧ l = streamOf (24 + k) w.frame s ∧ frameGood 0x12 l w.frame.bad = true ∧ f = seatOf (payloadOf l) ∧
    f.seat ≠ s.hm.seatNo ∧ linkState (24 + k) s = 5 ∧ w.size = s.hm.size ∧ (w.topology = 1 ↔ s.hm.ring = true) ∧
    adjacent k s.hm.seatNo f.seat s = true :=
  ⟨1, { frame := aSeat, size := 2, topology := 0 }, _, _, { (made [(lki 25, 2, 5)]) with hm := { size := 2 } }, by decide, rfl, by decide +kernel, rfl, by decide +kernel,
    by decide, by decide, by decide, by decide +kernel⟩

theorem meets_QuayFramesArrive_2 : ∃ (k : Nat) (w : SeatIn) (l : List Byte) (f : SeatFrame) (s : State),
    Ready (.seat k w) s ∧ l = streamOf (24 + k) w.frame s ∧ frameGood 0x12 l w.frame.bad = true ∧ f = seatOf (payloadOf l) ∧
    f.seat ≠ s.hm.seatNo ∧ linkState (24 + k) s = 7 :=
  ⟨1, { frame := aSeat, size := 2, topology := 0 }, _, _, { (made [(lki 25, 2, 7)]) with hm := { size := 2 } }, by decide, rfl, by decide +kernel, rfl, by decide +kernel,
    by decide⟩

theorem meets_QuayFramesArrive_3 : ∃ (k : Nat) (w : WireFrame) (l : List Byte) (f : SpotFrame) (r : SpotRecord) (s : State), Ready (.spot k w) s ∧
    linkState (24 + k) s = 7 ∧ l = streamOf (24 + k) w s ∧ frameGood 0x11 l w.bad = true ∧ f = spotFrameOf (payloadOf l) ∧ f.records = [r] :=
  ⟨1, aSpot, _, _, aRecord, made [(lki 25, 2, 7)], by decide, by decide, rfl, by decide +kernel, rfl, by decide +kernel⟩

theorem meets_QuayFramesArrive_4 : ∃ (k : Nat) (w : QtimeIn) (l : List Byte) (f : QtimeFrame) (s : State),
    Ready (.qtime k w) s ∧ linkState (24 + k) s = 7 ∧ l = streamOf (24 + k) w.frame s ∧ frameGood 0x13 l w.frame.bad = true ∧
    f = qtimeOf (payloadOf l) :=
  ⟨1, { frame := aQtime, arrival := 0 }, _, _, made [(lki 25, 2, 7)], by decide, by decide, rfl, by decide +kernel, rfl⟩

theorem meets_QuayFramesArrive_5 : ∃ (k : Nat) (w : WireFrame) (l : List Byte) (f : DataFrame) (s : State), Ready (.data k w) s ∧
    linkState (24 + k) s = 7 ∧ l = streamOf (24 + k) w s ∧ frameGood 0x14 l w.bad = true ∧ f = dataOf l ∧
    f.seq = ((link (24 + k) s).dataAck + 1) % 256 :=
  ⟨1, aData, _, _, made [(lki 25, 2, 7)], by decide, by decide, rfl, by decide +kernel, rfl, by decide +kernel⟩

theorem meets_SessionsOpenAndClose_1 : ∃ (r : OpenReq) (n : Nat) (s : State), Ready (.openSession r) s ∧ openBar r s = 0 ∧ n < 16 ∧
    (sess n s).opened = false ∧ (∀ m, m < n → (sess m s).opened = true) :=
  ⟨anOpen, 1, modSess 0 (fun q => { q with opened := true }) State.reset, by decide, by decide, by decide, by decide, by decide⟩

theorem meets_SessionsOpenAndClose_2 : ∃ (n q : Nat) (s : State), Ready (.closeSession n q) s ∧ (sess n s).opened = true ∧
    q = (sess n s).last + 1 ∧ (sess n s).deferred = none :=
  ⟨15, 1, modSess 15 (fun q => { q with opened := true, cls := 1 }) State.reset, by decide⟩

theorem meets_SessionsOpenAndClose_3 : ∃ (n : Nat) (s : State), Ready (.sessionTimeout n) s :=
  ⟨15, State.reset, by decide⟩

theorem meets_RequestsAreAnswered_1 : ∃ (n q : Nat) (s : State), Ready (.keepalive n q) s ∧ (sess n s).opened = true ∧
    q = (sess n s).last + 1 ∧ (sess n s).deferred = none ∧ (sess n s).held = [] :=
  ⟨15, 1, modSess 15 (fun q => { q with opened := true, cls := 1 }) State.reset, by decide⟩

theorem meets_RequestsAreAnswered_2 : ∃ (n q : Nat) (v : Int) (e : Entry) (s : State), Ready (.read n q [e]) s ∧
    (sess n s).opened = true ∧ q = (sess n s).last + 1 ∧ (sess n s).deferred = none ∧ (sess n s).held = [] ∧ (sess n s).bulks = [] ∧ e.idx = 0x0500 ∧
    e.sub = 9 ∧ e.part = false ∧ e.offset = 0 ∧ e.len = 2 ∧ awayResult 0x0500 9 false s = 0 ∧ shadowV 0x0500 9 s = .int v :=
  ⟨15, 1, 5, aReadEntry, modSess 15 (fun q => { q with opened := true, cls := 1 }) (made [(0x0500, 9, 5)]), by decide⟩

theorem meets_RequestsAreAnswered_3 : ∃ (n q v : Nat) (e : Entry) (s : State), Ready (.write n q [e]) s ∧
    (sess n s).opened = true ∧ q = (sess n s).last + 1 ∧ (sess n s).deferred = none ∧ (sess n s).held = [] ∧ (sess n s).bulks = [] ∧ e.idx = 0x0500 ∧
    e.sub = 9 ∧ e.part = false ∧ e.offset = 0 ∧ e.data = toLe 2 v ∧ e.sig = [] ∧ v ≤ 1023 ∧ awayResult 0x0500 9 true s = 0 ∧
    writeBar n s = 0 :=
  ⟨15, 1, 1023, aWriteEntry, modSess 15 (fun q => { q with opened := true, cls := 1 }) State.reset, by decide⟩

theorem meets_RequestsAreAnswered_4 : ∃ (n q v : Nat) (e : Entry) (s : State), Ready (.writeFenced n q [e]) s ∧
    (sess n s).opened = true ∧ q = (sess n s).last + 1 ∧ (sess n s).deferred = none ∧ (sess n s).held = [] ∧ (sess n s).bulks = [] ∧ e.idx = 0x0500 ∧
    e.sub = 9 ∧ e.part = false ∧ e.offset = 0 ∧ e.data = toLe 2 v ∧ e.sig = [] ∧ v ≤ 1023 ∧ awayResult 0x0500 9 true s = 0 ∧
    writeBar n s = 0 :=
  ⟨15, 1, 1023, aWriteEntry, modSess 15 (fun q => { q with opened := true, cls := 1 }) State.reset, by decide⟩

theorem meets_ObjectWritesAndFences_1 : ∃ (n i k : Nat) (v : Val) (s : State), Ready (.objectWrite n i k v) s ∧
    writeBarred n i k s ≠ 0 :=
  ⟨16, 0x0101, 1, .int 0, State.reset, by decide⟩

theorem meets_ObjectWritesAndFences_2 : ∃ (n v : Nat) (s : State), Ready (.objectWrite n 0x0500 9 (.int v)) s ∧
    writeBarred n 0x0500 9 s = 0 ∧ v ≤ 1023 :=
  ⟨16, 1023, State.reset, by decide⟩

theorem meets_ObjectWritesAndFences_3 : ∃ (n v : Nat) (s : State), Ready (.objectWrite n 0x0500 9 (.int v)) s ∧
    writeBarred n 0x0500 9 s = 0 ∧ 1023 < v ∧ v < 2 ^ 16 :=
  ⟨16, 1024, State.reset, by decide⟩

theorem meets_ObjectWritesAndFences_4 : ∃ (n : Nat) (s : State), Ready (.fence n) s ∧ writeBar n s = 0 :=
  ⟨16, State.reset, by decide⟩

theorem meets_BulkTransfers_1 : ∃ (n q : Nat) (r : BulkBegin) (s : State), Ready (.bulkBegin n q r) s ∧ (sess n s).opened = true ∧
    q = (sess n s).last + 1 ∧ (sess n s).deferred = none ∧ (sess n s).held = [] ∧ r.read = false ∧ 0 < r.len ∧
    bulkBar n r (modSess n (fun x => { x with last := q }) (datagram n (fresh s))) = 0 :=
  ⟨15, 1, aBulk, modSess 15 (fun q => { q with opened := true, cls := 1 }) State.reset, by decide +kernel⟩

theorem meets_BulkTransfers_2 : ∃ (n id : Nat) (d : List Byte) (b : Bulk) (s : State), Ready (.bulkData n id b.got d) s ∧
    Memory.wf s.dram ∧ (sess n s).deferred = none ∧ bulkOf n id s = some b ∧ b.read = false ∧ isLoad b.idx b.sub = false ∧ d ≠ [] ∧ d.length ≤ pieceLen ∧
    b.ahead = [] ∧ b.got + d.length < b.len ∧ b.grams < 15 :=
  ⟨15, 7, [1#8], { len := 3 }, modSess 15 (fun q => { q with bulks := [(7, { len := 3 })] }) State.reset, by decide⟩

theorem meets_BulkTransfers_3 : ∃ (n id : Nat) (b : Bulk) (s : State), Ready (.bulkAck n id b.len) s ∧ bulkOf n id s = some b ∧
    b.read = true ∧ b.acked ≤ b.len :=
  ⟨15, 7, { read := true, len := 3 }, modSess 15 (fun q => { q with bulks := [(7, { read := true, len := 3 })] }) State.reset,
    by decide⟩

theorem meets_BulkTransfers_4 : ∃ (n id : Nat) (b : Bulk) (s : State), Ready (.bulkResendTimeout n id) s ∧ bulkOf n id s = some b ∧
    b.read = true ∧ b.acked < b.len ∧ b.idx ≠ 0x6010 :=
  ⟨15, 7, { read := true, len := 3 }, modSess 15 (fun q => { q with bulks := [(7, { read := true, len := 3 })] }) State.reset,
    by decide⟩

theorem meets_BulkTransfers_5 : ∃ (n id : Nat) (b : Bulk) (s : State), Ready (.bulkTimeout n id) s ∧ bulkOf n id s = some b ∧
    (sess n s).deferred = none :=
  ⟨15, 7, { len := 3 }, modSess 15 (fun q => { q with bulks := [(7, { len := 3 })] }) State.reset, by decide⟩

theorem meets_BulkTransfers_6 : ∃ (n id : Nat) (b : Bulk) (s : State), Ready (.bulkAckInterval n id) s ∧ bulkOf n id s = some b ∧
    b.read = false :=
  ⟨15, 7, { len := 3 }, modSess 15 (fun q => { q with bulks := [(7, { len := 3 })] }) State.reset, by decide⟩

theorem meets_NoticesAndReports_1 : ∃ (n q : Nat) (r : Subscription) (s : State), Ready (.subscribe n q r) s ∧
    (sess n s).opened = true ∧ q = (sess n s).last + 1 ∧ (sess n s).deferred = none ∧ (sess n s).held = [] ∧ r.set < 4 ∧
    r.objs ≠ [] ∧ r.objs.length ≤ 32 ∧ 1 ≤ r.period ∧ r.period ≤ 60000 :=
  ⟨15, 1, aSubscription, modSess 15 (fun q => { q with opened := true, cls := 1 }) State.reset, by decide⟩

theorem meets_NoticesAndReports_2 : ∃ (n : Nat) (s : State), Ready (.noticeBatch n) s ∧ (sess n s).queue.length ≤ 256 :=
  ⟨15, modSess 15 (fun q => { q with queue := [{}] }) State.reset, by decide⟩

theorem meets_NoticesAndReports_3 : ∃ (n k : Nat) (r : ReportSet) (s : State), Ready (.reportPeriod n k) s ∧
    (sess n s).sets.find k = some r :=
  ⟨15, 3, {}, modSess 15 (fun q => { q with sets := [(3, {})] }) State.reset, by decide⟩

theorem meets_ProofsAndSilence_1 : ∃ (n q : Nat) (key sig : List Byte) (s : State), Ready (.signProof n q key sig) s ∧
    (sess n s).opened = true ∧ q = (sess n s).last + 1 ∧ (sess n s).deferred = none ∧ (sess n s).held = [] ∧ (sess n s).cls = 2 ∧
    (sess n s).proven = false ∧ keyKnown key s = true ∧ verify key sig (proofMessage n s) = true :=
  ⟨0, 1,
    keyOf 0xc36f6329d707457bc64bfc7d3c0b29d25b8f356c30cada6107a3e38f636e62bd 0xd17c941dc8f89e25a1ef848b5bfd8c58aeb7753175321334fa9ca67fa287794,
    sigOf 0x49bfaef54697e7cc80eaa682b362abe955d97fc22db1ef1ffb962b45ad9a202d,
    setB 0x5101 1 (sha256 (
    keyOf 0xc36f6329d707457bc64bfc7d3c0b29d25b8f356c30cada6107a3e38f636e62bd 0xd17c941dc8f89e25a1ef848b5bfd8c58aeb7753175321334fa9ca67fa287794)) (
    setN 0x5101 5 1 (setN 0x0100 4 5 (modSess 0 (fun q => { q with opened := true, cls := 2, nodeNonce := [0#8] }) State.reset))),
    by decide +kernel⟩

theorem meets_ProofsAndSilence_2 : ∃ (n q : Nat) (key sig : List Byte) (s : State), Ready (.signProof n q key sig) s ∧
    (sess n s).opened = true ∧ q = (sess n s).last + 1 ∧ (sess n s).deferred = none ∧ (sess n s).cls = 2 ∧
    (sess n s).proven = false ∧ keyKnown key s = false :=
  ⟨0, 1, List.replicate 64 0#8, List.replicate 64 0#8, modSess 0 (fun q => { q with opened := true, cls := 2 }) State.reset,
    by decide⟩

theorem meets_ProofsAndSilence_3 : ∃ (s : State), Ready .signedLockoutEnd s :=
  ⟨made [(0x0200, 5, 1)], by decide⟩

theorem meets_ProofsAndSilence_4 : ∃ (s : State), Ready .hostSilence s ∧ watchdogState s = 1 :=
  ⟨made [(bi 23 0, 1, 2)], by decide⟩

theorem meets_SpiPort_1 : ∃ (v : Int) (s : State), Ready (.spiReadRequest 0x0500 9 0 2 true) s ∧ s.net.spiState ≠ 1 ∧
    awayResult 0x0500 9 false s = 0 ∧ shadowV 0x0500 9 s = .int v :=
  ⟨5, made [(0x0500, 9, 5)], by decide⟩

theorem meets_SpiPort_2a : ∃ (i k off len : Nat) (crc : Bool) (s : State), Ready (.spiReadRequest i k off len crc) s ∧
    (s.net.spiState = 1 ∨ crc = false) :=
  ⟨0x0500, 9, 0, 2, true, { State.reset with net := { spiState := 1 } }, by decide⟩

theorem meets_SpiPort_2b : ∃ (i k off len : Nat) (crc : Bool) (s : State), Ready (.spiReadRequest i k off len crc) s ∧
    (s.net.spiState = 1 ∨ crc = false) :=
  ⟨0x0500, 9, 0, 2, false, State.reset, by decide⟩

theorem meets_SpiPort_3 : ∃ (v : Nat) (e : Entry) (s : State), Ready (.spiWrite e true) s ∧ s.net.spiState ≠ 1 ∧ e.idx = 0x0500 ∧
    e.sub = 9 ∧ e.offset = 0 ∧ e.data = toLe 2 v ∧ v ≤ 1023 ∧ awayResult 0x0500 9 true s = 0 ∧ writeBar 16 s = 0 :=
  ⟨1023, aWriteEntry, State.reset, by decide⟩

theorem meets_SpiPort_4 : ∃ (v : Nat) (e : Entry) (s : State), Ready (.spiWriteFenced e true) s ∧ s.net.spiState ≠ 1 ∧
    e.idx = 0x0500 ∧ e.sub = 9 ∧ e.offset = 0 ∧ e.data = toLe 2 v ∧ v ≤ 1023 ∧ awayResult 0x0500 9 true s = 0 ∧ writeBar 16 s = 0 :=
  ⟨1023, aWriteEntry, State.reset, by decide⟩

theorem meets_SpiPort_5 : ∃ (l : List Byte) (s : State), Ready .spiStatus s ∧
    l = toLe 1 s.net.spiState ++ toLe 1 0 ++ toLe 2 s.net.spiResult ++ toLe 2 s.net.spiReply.length ++ toLe 2 (
    sess 16 s).queue.length :=
  ⟨_, State.reset, by decide, rfl⟩

theorem meets_SpiPort_6 : ∃ (s : State), Ready .fetchReply s :=
  ⟨State.reset, by decide⟩

theorem meets_SpiPort_7 : ∃ (l : List Byte) (s : State), Ready .fetchNotices s ∧
    l = toLe 1 ((sess 16 s).queue.take 8).length ++ ((sess 16 s).queue.take 8).flatMap Notice.bytes :=
  ⟨_, State.reset, by decide, rfl⟩

theorem meets_NetworkPorts_1 : ∃ (s : State), Ready .discover s :=
  ⟨State.reset, by decide⟩

theorem meets_NetworkPorts_2 : ∃ (p : PresenceMsg) (s : State), Ready (.presence p) s ∧ p.node = getN 0x0801 1 s ∧
    p.mac ≠ getN 0x0801 6 s :=
  ⟨aPresence, made [(0x0801, 1, 5), (0x0801, 6, 9)], by decide⟩

theorem meets_NetworkPorts_3 : ∃ (p : Nat) (s : State), Ready (.portLinkUp p) s ∧ portAllowed p s = true ∧ portUp p s = false :=
  ⟨1, made [(0x0800, 2, 1), (0x0800, 3, 1)], by decide⟩

theorem meets_NetworkPorts_4 : ∃ (p : Nat) (s : State), Ready (.portLinkDown p) s :=
  ⟨1, State.reset, by decide⟩

theorem meets_NetworkPorts_5 : ∃ (p : Nat) (f : EthFrame) (s : State), Ready (.ethernetFrame p f) s ∧ portUp p s = true :=
  ⟨0, aFrame, made [(0x0800, 4, 1)], by decide⟩

theorem meets_PtpMessages_1 : ∃ (m : PtpMsg) (s : State), Ready (.sync m) s ∧ fromMaster m s = true :=
  ⟨aPtp, { (made [(0x0803, 1, 1)]) with ptp := { master := some aPtp } }, by decide⟩

theorem meets_PtpMessages_2 : ∃ (m y : PtpMsg) (s : State), Ready (.followUp m) s ∧ s.ptp.syncWait = some y ∧
    fromMaster m s = true ∧ m.seqId = y.seqId ∧ m.source = y.source :=
  ⟨aPtp, aPtp, { (made [(0x0803, 1, 1)]) with ptp := { master := some aPtp, syncWait := some aPtp } }, by decide⟩

theorem meets_PtpMessages_3 : ∃ (m : PtpMsg) (s : State), Ready (.delayReq m) s ∧ ptpHears m s = true ∧ getN 0x0803 0x0D s = 6 ∧
    getN 0x0803 5 s = 0 :=
  ⟨aPtp, made [(0x0803, 1, 2), (0x0803, 0x0D, 6), (0x0803, 5, 0)], by decide⟩

theorem meets_PtpMessages_4 : ∃ (m : PtpMsg) (q : Nat) (t1 t2 t3 : Int) (s : State), Ready (.delayResp m) s ∧
    s.ptp.delaySent = some (q, t3) ∧ s.ptp.lastSync = some (t1, t2) ∧ fromMaster m s = true ∧ m.seqId = q :=
  ⟨aPtp, 0, 1, 2, 3,
    { (made [(0x0803, 1, 1)]) with ptp := { master := some aPtp, delaySent := some (0, 3), lastSync := some (1, 2) } }, by decide⟩

theorem meets_PtpMessages_5 : ∃ (m : PtpMsg) (s : State), Ready (.pdelayReq m) s ∧ peerDelays s = true :=
  ⟨aPtp, made [(0x0803, 1, 1), (0x0803, 5, 1)], by decide⟩

theorem meets_PtpMessages_6 : ∃ (m : PtpMsg) (q : Nat) (t1 d : Int) (s : State), Ready (.pdelayResp m) s ∧
    s.ptp.pdelaySent = some (q, t1) ∧ peerDelays s = true ∧ m.seqId = q ∧
    d = (rxAt m s - (t1 + txCorrection m.port s) - m.origin - m.correction) / 2 :=
  ⟨aPtp, 0, 1, _, { (made [(0x0803, 1, 1), (0x0803, 5, 1)]) with ptp := { pdelaySent := some (0, 1) } }, by decide, by decide,
    by decide, by decide, rfl⟩

theorem meets_PtpRolesAndTime_1 : ∃ (m m0 : PtpMsg) (s : State), Ready (.announce m) s ∧ ptpHears m s = true ∧ m.steps < 255 ∧
    s.ptp.foreign = [m0] ∧ m0.source = m.source ∧ (m.rx - m0.rx).natAbs ≤ 4 * announceT s ∧ getN 0x0803 1 s ≠ 2 ∧
    s.ptp.master = none :=
  ⟨aPtp, aPtp, { (made [(0x0803, 1, 1)]) with ptp := { foreign := [aPtp] } }, by decide⟩

theorem meets_PtpRolesAndTime_2 : ∃ (s : State), Ready .announceReceiptTimeout s ∧ getN 0x0803 1 s ≠ 0 :=
  ⟨made [(0x0803, 1, 1)], by decide⟩

theorem meets_PtpRolesAndTime_3 : ∃ (s : State), Ready .syncInterval s ∧ getN 0x0803 0x0D s = 6 :=
  ⟨made [(0x0803, 0x0D, 6)], by decide⟩

theorem meets_PtpRolesAndTime_4 : ∃ (s : State), Ready .announceInterval s ∧ getN 0x0803 0x0D s = 6 :=
  ⟨made [(0x0803, 0x0D, 6)], by decide⟩

theorem meets_PtpRolesAndTime_5 : ∃ (s : State), Ready .minimumDelayInterval s ∧ (peerDelays s = true ∨ (getN 0x0803 1 s ≠ 0 ∧
    s.ptp.master.isSome = true)) :=
  ⟨{ (made [(0x0803, 1, 1)]) with ptp := { master := some aPtp } }, by decide⟩

theorem meets_PtpRolesAndTime_6 : ∃ (s : State), Ready .servoLocked s ∧ getN 0x0804 3 s = 2 :=
  ⟨made [(0x0804, 3, 2)], by decide⟩

theorem meets_PtpRolesAndTime_7 : ∃ (ns : Nat) (s : State), Ready (.timeSet ns) s ∧ s.hm.seatNo = 0 ∧
    (getN 0x0804 3 s = 0 ∨ getN 0x0804 3 s = 4) ∧ mayStep s = true :=
  ⟨2500, State.reset, by decide⟩

theorem meets_ParameterStore_1 : ∃ (s : State), Ready .store s ∧ getN 0x0220 2 s ≠ 1 ∧ updateState s ≠ 2 ∧ updateState s ≠ 3 :=
  ⟨State.reset, by decide⟩

theorem meets_ParameterStore_2 : ∃ (v : Tab Val) (s : State), Ready (.storeComplete true) s ∧ s.pilot.storing = some v :=
  ⟨[], { State.reset with pilot := { storing := some [] } }, by decide⟩

theorem meets_ParameterStore_3 : ∃ (v : Tab Val) (s : State), Ready (.storeComplete false) s ∧ s.pilot.storing = some v :=
  ⟨[], { State.reset with pilot := { storing := some [] } }, by decide⟩

theorem meets_ParameterStore_4 : ∃ (s : State), Ready .restoreDefaults s ∧ getN 0x0220 2 s ≠ 1 ∧ commitWaiting s = false ∧ (∀ b,
    b < 24 → bState b s = 0) :=
  ⟨State.reset, by decide⟩

theorem meets_MemoryRequests_1 : ∃ (r : MemReq) (s : State), Ready (.memoryRequest r) s ∧ getN 0x6000 1 s = 2 ∧
    capacity s < r.addr + r.len :=
  ⟨{ aWrite with addr := 1048574 }, made [(0x6000, 1, 2), (0x6000, 3, 1)], by decide⟩

theorem meets_MemoryRequests_2 : ∃ (r : MemReq) (s : State), Ready (.memoryRequest r) s ∧ Memory.wf s.dram ∧ getN 0x6000 1 s = 2 ∧
    0 < r.len ∧ r.addr + r.len ≤ capacity s ∧ r.errors = [] ∧ r.write = true :=
  ⟨{ aWrite with addr := 1048573 }, made [(0x6000, 1, 2), (0x6000, 3, 1)], by decide⟩

theorem meets_MemoryRequests_3 : ∃ (r : MemReq) (s : State), Ready (.memoryRequest r) s ∧ getN 0x6000 1 s = 2 ∧ 0 < r.len ∧
    r.addr + r.len ≤ capacity s ∧ r.errors = [] ∧ s.mem.poison = [] ∧ r.write = false :=
  ⟨{ aWrite with addr := 1048573, write := false, data := [] }, made [(0x6000, 1, 2), (0x6000, 3, 1)], by decide⟩

theorem meets_MemoryUpkeep_1 : ∃ (r : TrainingIn) (s : State), Ready (.trainingComplete r) s ∧ getN 0x6000 1 s < 2 :=
  ⟨aTraining, State.reset, by decide⟩

theorem meets_MemoryUpkeep_2 : ∃ (d : Nat) (s : State), Ready (.dqsOscillatorCheck d) s ∧ getN 0x6000 1 s = 2 :=
  ⟨100, made [(0x6000, 1, 2), (0x6000, 3, 1)], by decide⟩

theorem meets_MemoryUpkeep_3 : ∃ (c : Nat) (hot : Bool) (s : State), Ready (.refresh c hot) s ∧ getN 0x6000 1 s = 2 :=
  ⟨3, true, made [(0x6000, 1, 2), (0x6000, 3, 1)], by decide⟩

theorem meets_MemoryUpkeep_4 : ∃ (c k : Nat) (s : State), Ready (.pageIdleClose c k) s :=
  ⟨3, 7, State.reset, by decide⟩

theorem meets_MemoryUpkeep_5 : ∃ (ch : Nat) (s : State), Ready (.selfRefreshEntry ch) s ∧ getN 0x6000 1 s = 2 ∧
    getN 0x6002 3 s ≠ 0 ∧ commitWaiting s = false ∧ (∀ b, b < 24 → bState b s ≠ 1 ∧ bState b s ≠ 2) :=
  ⟨1, made [(0x6000, 1, 2), (0x6002, 3, 1)], by decide⟩

theorem meets_MemoryUpkeep_6 : ∃ (s : State), Ready (.patrolScrub []) s ∧ getN 0x6002 6 s ≠ 0 ∧ s.mem.scrubPos < capacity s :=
  ⟨made [(0x6000, 1, 2), (0x6000, 3, 1), (0x6002, 6, 1)], by decide⟩

theorem meets_TideTrackerAndMains_1 : ∃ (s : State), Ready (.tideEnable true) s ∧ getN 0x0400 1 s = 0 :=
  ⟨State.reset, by decide⟩

theorem meets_TideTrackerAndMains_2 : ∃ (s : State), Ready (.tideEnable false) s ∧ mainsState s ≠ 2 ∧ getN 0x0401 0x10 s ≠ 1 :=
  ⟨made [(0x0401, 8, 4)], by decide⟩

theorem meets_TideTrackerAndMains_3 : ∃ (s : State), Ready .positiveGoingZeroCrossing s ∧ tideState s = 1 ∧
    s.mains.advancing = false :=
  ⟨made [(0x0400, 9, 1)], by decide⟩

theorem meets_TideTrackerAndMains_4 : ∃ (s : State), Ready .tideLock s ∧ tideState s = 1 ∧ s.mains.advancing = true :=
  ⟨{ (made [(0x0400, 9, 1)]) with mains := { advancing := true } }, by decide⟩

theorem meets_TideTrackerAndMains_5 : ∃ (s : State), Ready .tideLockLost s ∧ tideState s = 2 :=
  ⟨made [(0x0400, 9, 2)], by decide⟩

theorem meets_TideTrackerAndMains_6 : ∃ (r : MainsIn) (s : State), Ready (.evaluationPoint r) s ∧ tideState s ≠ 0 ∧
    s.mains.advancing = true :=
  ⟨aMains, { (made [(0x0400, 9, 2)]) with mains := { advancing := true } }, by decide⟩

theorem meets_TideTrackerAndMains_7 : ∃ (i : Nat) (s : State), Ready (.inputFault i) s ∧ inputFaulted i s = false ∧
    tideState s ≠ 0 ∧ mainsState s ≠ 2 ∧ getN 0x0401 0x10 s ≠ 1 :=
  ⟨5, made [(0x0400, 9, 1), (0x0401, 8, 0)], by decide⟩

theorem meets_TideTrackerAndMains_8 : ∃ (i : Nat) (s : State), Ready (.inputFaultClear i) s :=
  ⟨5, made [(0x0400, 0x14, 32)], by decide⟩

theorem meets_TideTrackerAndMains_9 : ∃ (s : State), mainsState s ≤ 4 :=
  ⟨made [(0x0401, 8, 4)], by decide⟩

theorem meets_TideTrackerAndMains_10 : ∃ (s : State), Ready .holdOffComplete s ∧ mainsState s = 3 :=
  ⟨made [(0x0401, 8, 3)], by decide⟩

theorem meets_Bollards_1 : ∃ (i off : Nat) (s : State), Ready (.bollardLatch i off) s ∧ bolLatched i s = false ∧
    bolRole i s ≠ 0 :=
  ⟨15, 2499, made [(0x0402, 16, 1)], by decide⟩

theorem meets_Bollards_2 : ∃ (i off : Nat) (s : State), Ready (.bollardLatch i off) s ∧ bolRole i s = 0 :=
  ⟨15, 2499, State.reset, by decide⟩

theorem meets_Bollards_3 : ∃ (m : Nat) (s : State), Ready (.acknowledge m) s :=
  ⟨65535, State.reset, by decide⟩

theorem meets_Bollards_4 : ∃ (m : Nat) (s : State), Ready (.activeLevel m) s ∧ (∀ i, i < 16 → bolLatched i s = false) ∧
    anyExposing allBerths s = false :=
  ⟨65535, State.reset, by decide⟩

theorem meets_RungsWakingAndDieTemperature_1 : ∃ (n : Nat) (s : State), Ready (.rungRequest n) s ∧ n ≤ 5 ∧ rung s < n ∧
    rungRefusal n s = 0 ∧ mainsState s ≠ 2 ∧ getN 0x0401 0x10 s ≠ 1 :=
  ⟨5, made [(0x0401, 8, 4)], by decide⟩

theorem meets_RungsWakingAndDieTemperature_2 : ∃ (n : Nat) (s : State), Ready (.rungRequest n) s ∧ n ≤ 5 ∧ rung s < n ∧
    rungRefusal n s ≠ 0 :=
  ⟨5, made [(bi 0 0, 1, 1)], by decide⟩

theorem meets_RungsWakingAndDieTemperature_3 : ∃ (n : Nat) (s : State), Ready (.rungRequest n) s ∧ n < rung s :=
  ⟨0, made [(0x0300, 2, 2)], by decide⟩

theorem meets_RungsWakingAndDieTemperature_4 : ∃ (src us : Nat) (s : State), Ready (.wake src us) s ∧ 1 ≤ rung s ∧ rung s ≤ 3 ∧
    bit (getN 0x0300 3 s % 16) src = true :=
  ⟨3, 500, made [(0x0300, 2, 3), (0x0300, 3, 8)], by decide⟩

theorem meets_RungsWakingAndDieTemperature_5 : ∃ (src us : Nat) (s : State), Ready (.wake src us) s ∧
    (rung s = 0 ∨ bit (getN 0x0300 3 s % 16) src = false) :=
  ⟨3, 500, made [(0x0300, 2, 3), (0x0300, 3, 7)], by decide⟩

theorem meets_RungsWakingAndDieTemperature_6 : ∃ (v : Int) (s : State), Ready (.dieTemperature v) s :=
  ⟨85, State.reset, by decide⟩

theorem meets_Resets_1 : ∃ (p : Straps) (s : State), Ready (.powerOnReset p) s :=
  ⟨{ node := 1023, bol := 65535 }, State.reset, by decide⟩

theorem meets_Resets_2 : ∃ (p : Straps) (s : State), Ready (.nrst p) s :=
  ⟨{ node := 0, bol := 0 }, State.reset, by decide⟩

theorem meets_Resets_3 : ∃ (s : State), Ready .watchdog s :=
  ⟨State.reset, by decide⟩

theorem meets_Resets_4 : ∃ (s : State), Ready .warmReset s :=
  ⟨State.reset, by decide⟩

theorem meets_FieldUpdate_1 : ∃ (o : Nat) (d : List Byte) (s : State), Ready (.imageData o d) s ∧ getN 0x0220 2 s ≠ 1 ∧
    updateState s ≠ 2 ∧ updateState s ≠ 3 ∧ o + d.length ≤ bankBytes (updateTarget s) :=
  ⟨524287, [1#8], State.reset, by decide⟩

theorem meets_FieldUpdate_2 : ∃ (s : State), Ready .verifyAndWrite s ∧ getN 0x0220 2 s ≠ 1 ∧ updateState s = 1 :=
  ⟨made [(0x0110, 3, 1)], by decide⟩

theorem meets_FieldUpdate_3 : ∃ (ok : Bool) (c : Nat) (s : State), Ready (.updateReady ok) s ∧ updateState s = 2 ∧
    c = imageCause (if s.pilot.update.bank < 2 then 1 else 2) s.pilot.update.staged s :=
  ⟨true, 2, made [(0x0110, 3, 2)], by decide +kernel⟩

theorem meets_FieldUpdate_4 : ∃ (s : State), Ready .activate s ∧ updateState s = 4 :=
  ⟨made [(0x0110, 3, 4)], by decide⟩

theorem meets_FieldUpdate_5 : ∃ (s : State), Ready .updateDiscard s :=
  ⟨State.reset, by decide⟩

theorem meets_FieldUpdate_6 : ∃ (s : State), Ready .confirm s :=
  ⟨State.reset, by decide⟩

theorem meets_LogbookCommands_1a : ∃ (c : Instr) (s : State), (c = .flush ∨ c = .logbookFlushTimer) ∧ Ready c s ∧
    s.log.erasing = false ∧ s.log.lost = 0 ∧ s.flash.circulating.length + s.log.staging.length < 10240 :=
  ⟨.flush, State.reset, by decide⟩

theorem meets_LogbookCommands_1b : ∃ (c : Instr) (s : State), (c = .flush ∨ c = .logbookFlushTimer) ∧ Ready c s ∧
    s.log.erasing = false ∧ s.log.lost = 0 ∧ s.flash.circulating.length + s.log.staging.length < 10240 :=
  ⟨.logbookFlushTimer, State.reset, by decide⟩

theorem meets_LogbookCommands_2 : ∃ (s : State), Ready .blockEraseComplete s ∧ s.log.erasing = true ∧ s.log.lost = 0 ∧
    s.flash.circulating.length + s.log.staging.length < 10240 :=
  ⟨{ State.reset with log := { erasing := true } }, by decide⟩

theorem meets_LogbookCommands_3 : ∃ (n : Nat) (s : State), Ready (.window n) s :=
  ⟨16, State.reset, by decide⟩

theorem meets_Calibration_1 : ∃ (s : State), Ready .calibrationStart s ∧ calRunning s = false ∧ startCause s = 0 :=
  ⟨modLink 0 (fun x => { x with capCamera := 1 }) (made [(0x0603, 1, 1), (bi 0 5, 6, 1), (lki 0, 2, 7), (ci 0 0, 1, 1), (0x0602, 3,
    1000), (0x0602, 4, 2), (0x0602, 5, 2)]), by decide +kernel⟩

theorem meets_Calibration_2 : ∃ (s : State), Ready .calibrationStart s ∧ calRunning s = false ∧ startCause s ≠ 0 :=
  ⟨made [(0x0603, 1, 1)], by decide +kernel⟩

theorem meets_Calibration_3 : ∃ (b : Nat) (s : State), Ready (.settleTime b) s ∧ calRunning s = true ∧
    (berth b s).calibrating = true ∧ (calOf b s).done = false ∧ (calOf b s).settled = false :=
  ⟨0,
    modBerth 0 (fun x => { x with calibrating := true }) { (made [(0x0603, 3, 1)]) with cal := { mask := 1, berths := [(0, {})] } },
    by decide⟩

theorem meets_Calibration_4 : ∃ (s : State), Ready .runComplete s ∧ getN 0x0603 3 s = 1 ∧ (∀ b, b < 24 → bit s.cal.mask b = true →
    (calOf b s).done = true) :=
  ⟨modBerth 0 (fun x => { x with calibrating := true }) { (made [(0x0603, 3, 1)]) with cal := { mask := 1, berths := [(0, { done := true })] } },
    by decide⟩

theorem meets_Calibration_5 : ∃ (s : State), Ready .runComplete s ∧ getN 0x0603 3 s = 2 ∧ (∀ b, b < 24 → bit s.cal.mask b = true →
    (calOf b s).done = true) :=
  ⟨modBerth 0 (fun x => { x with calibrating := true }) { (made [(0x0603, 3, 2)]) with cal := { mask := 1, berths := [(0, { done := true })] } },
    by decide⟩

theorem meets_Calibration_6 : ∃ (s : State), Ready .calibrationAbort s ∧ calRunning s = true :=
  ⟨modBerth 0 (fun x => { x with calibrating := true }) { (made [(0x0603, 3, 1)]) with cal := { mask := 1, berths := [(0, {})] } },
    by decide⟩

theorem meets_Calibration_7 : ∃ (s : State), Ready .apply s ∧ getN 0x0603 3 s = 3 ∧ (∀ b, b < 24 → bit s.cal.mask b = true →
    sealOf (4 + b) s = 0) :=
  ⟨modBerth 0 (fun x => { x with calibrating := true }) { (made [(0x0603, 3, 3)]) with cal := { mask := 1, berths := [(0, { done := true })] } },
    by decide⟩

theorem meets_Calibration_8 : ∃ (s : State), Ready .calibrationDiscard s ∧ calRunning s = false :=
  ⟨made [(0x0603, 3, 3)], by decide⟩

theorem meets_LoopFrameAdvancesTime_1 : ∃ (i : FrameIn) (s : State), Ready (.loopFrame i) s :=
  ⟨aBoundary, State.reset, by decide⟩

theorem meets_LoopFrameAdvancesTime_2 : ∃ (i : FrameIn) (s : State), Ready (.loopFrame i) s ∧ 2 ≤ getN 0x0300 2 s ∧
    s.timeSet = none :=
  ⟨aBoundary, made [(0x0300, 2, 5)], by decide⟩

theorem meets_StepRunsTheFrontCommand_2 : ∃ (s : State), s.pending = [] :=
  ⟨State.reset, by decide⟩

theorem meets_EveryStepKeepsDramCanonical_1 : ∃ (s t : State), Safe s ∧ step s = .next t :=
  ⟨{ State.reset with pending := [.flush] }, _, by decide, rfl⟩

theorem meets_EveryCommandCompletes_1 : ∃ (c : Instr) (s : State), Ready c s ∧ (∀ r, c = .memoryRequest r → beyondMemory r s = false) :=
  ⟨.pauseAtSafePoint 23, State.reset, by decide, fun r h => by cases h⟩

theorem meets_EveryCommandCompletes_2 : ∃ (c : Instr), c.wf = false :=
  ⟨.pauseAtSafePoint 24, by decide⟩

theorem meets_EveryCommandCompletes_3 : ∃ (c : Instr) (s : State), c.wf = true ∧ (∀ r, c = .memoryRequest r →
    beyondMemory r s = false) :=
  ⟨.memoryRequest { aWrite with addr := 1048573 }, made [(0x6000, 1, 2), (0x6000, 3, 1)], by decide, fun r h => by cases h; decide⟩

theorem meets_EveryCommandCompletes_4 : ∃ (c : Instr) (s : State) (r : MemReq), c = .memoryRequest r ∧ c.wf = true ∧
    beyondMemory r s = true :=
  ⟨.memoryRequest { aWrite with addr := 1048574 }, made [(0x6000, 1, 2), (0x6000, 3, 1)], { aWrite with addr := 1048574 },
    by decide⟩

theorem meets_GatedDomains_1 : ∃ (c : Instr) (s : State), c.wf = true ∧ running c s = false :=
  ⟨.safePointReached 0, made [(0x0300, 2, 1)], by decide⟩

theorem meets_GatedDomains_2 : ∃ (c : Instr) (s : State), 2 ≤ rung s ∧ running c s = true :=
  ⟨.flush, made [(0x0300, 2, 2)], by decide⟩

theorem meets_GatedDomains_3 : ∃ (c : Instr) (s : State), rung s = 1 ∧ running c s = true ∧ 5 ≤ commandDomain c ∧
    commandDomain c ≤ 7 :=
  ⟨.pauseAtSafePoint 0, made [(0x0300, 2, 1)], by decide⟩

theorem meets_GatedDomains_4 : ∃ (c : Instr), commandDomain c = 0 :=
  ⟨.watchdog, by decide⟩

theorem meets_LogbookClear_1a : ∃ (v : Nat) (s : State), Ready (.clear v) s ∧ (v ≠ getN 0x0500 1 s ∨ ∃ b, b < 24 ∧
    (bState b s = 1 ∨ bState b s = 2)) :=
  ⟨1, State.reset, by decide⟩

theorem meets_LogbookClear_1b : ∃ (v : Nat) (s : State), Ready (.clear v) s ∧ (v ≠ getN 0x0500 1 s ∨ ∃ b, b < 24 ∧
    (bState b s = 1 ∨ bState b s = 2)) :=
  ⟨0, made [(bi 23 0, 1, 1)], by decide, Or.inr ⟨23, by decide⟩⟩

theorem meets_LogbookClear_2 : ∃ (v : Nat) (s : State), Ready (.clear v) s ∧ v = getN 0x0500 1 s ∧ (∀ b, b < 24 → bState b s ≠ 1 ∧
    bState b s ≠ 2) :=
  ⟨0, made [(bi 23 0, 1, 3)], by decide⟩

theorem meets_NodeIdIsLatchedAtReset_1a : ∃ (c : Instr) (p : Straps) (s : State), (c = .powerOnReset p ∨ c = .nrst p) ∧ Ready c s :=
  ⟨.nrst { node := 1023, bol := 0 }, { node := 1023, bol := 0 }, State.reset, by decide⟩

theorem meets_NodeIdIsLatchedAtReset_1b : ∃ (c : Instr) (p : Straps) (s : State), (c = .powerOnReset p ∨ c = .nrst p) ∧ Ready c s :=
  ⟨.powerOnReset { node := 1023, bol := 0 }, { node := 1023, bol := 0 }, State.reset, by decide⟩

theorem meets_NodeIdIsLatchedAtReset_2a : ∃ (n k : Nat) (v : Val) (s : State), Ready (.objectWrite n 0x0801 k v) s ∧
    (k = 2 ∨ k = 3) :=
  ⟨16, 2, .int 5, State.reset, by decide⟩

theorem meets_NodeIdIsLatchedAtReset_2b : ∃ (n k : Nat) (v : Val) (s : State), Ready (.objectWrite n 0x0801 k v) s ∧
    (k = 2 ∨ k = 3) :=
  ⟨16, 3, .int 5, State.reset, by decide⟩

theorem meets_WhatNoCommandTouches_1 : ∃ (c : Instr) (s t : State), exec c s = .next t :=
  ⟨.flush, State.reset, _, rfl⟩

theorem meets_HostCommandsLeaveTheProcess_1 : ∃ (c : Instr) (s t : State), servesTheHost c = true ∧ exec c s = .next t :=
  ⟨.flush, State.reset, _, by decide, rfl⟩

theorem meets_ChamberCommandsLeaveTheBerths_1 : ∃ (c : Instr) (s t : State), servesTheChamber c = true ∧ exec c s = .next t :=
  ⟨.motionHoldClear, State.reset, _, by decide, rfl⟩

end Sys2Proof.Tests
end

section
/-!
PROOFS of the statement on the state right after reset (R349): an integer object that `State.reset` does not list holds the default of
its row in the dictionary (R9, R10), and a record it does not list is the default record.
-/
namespace Sys2Proof

theorem Tab.find_eq_none {α : Type} {k : Nat} {t : Tab α} (h : ∀ e ∈ t, e.1 ≠ k) : Tab.find k t = none := by
  induction t with
  | nil => rfl
  | cons e l ih =>
    obtain ⟨hk, hl⟩ := List.forall_mem_cons.1 h
    simp [Tab.find, hk.symm, ih hl]

namespace Machine

/-- A row whose default column is what its objects read before a write: not of bytes, and no constant of the part (R10). -/
def Row.startsAtDefault (r : Row) : Bool := r.ty != .blob && r.ty != .str && r.kind != .f

theorem objDefault_of_findRow {i k : Nat} {r : Row} (hr : findRow i k = some r) (hd : r.startsAtDefault = true) :
    objDefault i k = .int r.dflt := by
  obtain ⟨_, _, _, _, _, ty, _, _, _, _⟩ := r
  cases ty <;> simp_all [objDefault, Row.startsAtDefault]

theorem getN_of_unlisted {i k : Nat} {r : Row} {s : State} (hs : ∀ e ∈ s.obj, e.1 ≠ key i k) (hr : findRow i k = some r)
    (hd : r.startsAtDefault = true) : getN i k s = r.dflt.toNat := by
  rw [getN_eq, getV, Tab.find_eq_none hs, objDefault_of_findRow hr hd]
  rfl

/-! The rows of the objects that hold a state: each has the default 0. -/

theorem findRow_rung : findRow 0x0300 2 = some ⟨0x0300, 0x0, 1, 0x02, 1, .u8, .ro, .v, 0, .any⟩ := by decide

theorem findRow_berthState {b : Nat} (hb : b < 24) :
    findRow (bi b 0) 1 = some ⟨0x1000, 0x40, 24, 0x01, 1, .u8, .ro, .w, 0, .any⟩ := by
  decide +revert

theorem findRow_slotState {b : Nat} (hb : b < 24) {k : Nat} (hk : k < 4) :
    findRow (qi b) (5 + k) = some ⟨0x8100, 0x1, 24, 0x05, 4, .u8, .ro, .w, 0, .any⟩ := by
  decide +revert

theorem findRow_headLinkState {l : Nat} (hl : l < 24) :
    findRow (lki l) 2 = some ⟨0x3810, 0x1, 24, 0x02, 1, .u8, .ro, .v, 0, .any⟩ := by
  decide +revert

theorem findRow_quayLinkState {q : Nat} (hq : q < 2) :
    findRow (lki (24 + q)) 2 = some ⟨0x3840, 0x1, 2, 0x02, 1, .u8, .ro, .v, 0, .any⟩ := by
  decide +revert

theorem findRow_axisState {m : Nat} (hm : m < 4) :
    findRow (mi m 1) 8 = some ⟨0x7001, 0x20, 4, 0x08, 1, .u8, .ro, .v, 0, .any⟩ := by
  decide +revert

/-! What the objects and the records read at reset. -/

/-- `State.reset` lists objects at four indices: those of the reset cause (R349), the bollard inputs (R388), the breakwater store (R197)
and the memory state (R303). -/
theorem getN_reset_of_findRow {i k : Nat} {r : Row} (hr : findRow i k = some r) (hd : r.startsAtDefault = true) (hk : k < 256)
    (hlist : i ∉ [0x0301, 0x0402, 0x5100, 0x6000]) : getN i k State.reset = r.dflt.toNat := by
  refine getN_of_unlisted ?_ hr hd
  simp only [List.mem_cons, List.not_mem_nil] at hlist
  simp only [State.reset, key, List.forall_mem_cons, List.not_mem_nil, false_implies, implies_true, and_true]
  omega

theorem rung_reset : rung State.reset = 0 := getN_reset_of_findRow findRow_rung rfl (by decide) (by decide)

theorem bState_reset {b : Nat} (hb : b < 24) : bState b State.reset = 0 :=
  getN_reset_of_findRow (findRow_berthState hb) rfl (by decide) (by simp [bi]; omega)

theorem slotState_reset {b k : Nat} (hb : b < 24) (hk : k < 4) : slotState b k State.reset = 0 :=
  getN_reset_of_findRow (findRow_slotState hb hk) rfl (by omega) (by simp [qi]; omega)

theorem linkState_reset {l : Nat} (hl : l < 26) : linkState l State.reset = 0 := by
  have hlist : lki l ∉ [0x0301, 0x0402, 0x5100, 0x6000] := by simp [lki]; split <;> omega
  rcases Nat.lt_or_ge l 24 with h | h
  · exact getN_reset_of_findRow (findRow_headLinkState h) rfl (by decide) hlist
  · obtain ⟨q, rfl⟩ := Nat.exists_eq_add_of_le h
    exact getN_reset_of_findRow (findRow_quayLinkState (by omega)) rfl (by decide) hlist

theorem axisState_reset {m : Nat} (hm : m < 4) : axisState m State.reset = 0 :=
  getN_reset_of_findRow (findRow_axisState hm) rfl (by decide) (by simp [mi]; omega)

/-- Of the objects that `State.reset` lists: cause 1, power-on (R349). -/
theorem resetCause_reset : getN 0x0301 2 State.reset = 1 := rfl

@[simp] theorem berth_reset (b : Nat) : berth b State.reset = {} := rfl

theorem sess_reset {n : Nat} (hn : n ≠ 16) : sess n State.reset = {} := if_neg hn

/-- Settles O54: the states stand at their rows' defaults, and what has no object stands in a default record. -/
theorem resetState : Obligations.ResetState := by
  unfold Obligations.ResetState
  refine ⟨rung_reset, rfl, rfl, resetCause_reset, fun b hb => ⟨bState_reset hb, ?_⟩, fun b k => slotState_reset, fun l => linkState_reset,
    fun m => axisState_reset, fun n hn => ?_, rfl, rfl, rfl, rfl⟩
  · rw [berth_reset]
  · rw [sess_reset (by omega)]

end Machine

end Sys2Proof
end

section
/-!
PROOFS, the layer of facts: what an operation leaves alone. A `Scope` says on which berths an operation works and how far; `Acts σ s t`
says that it kept to that scope from s to t. A notice, an entry of a record stream or a camera trigger works on no berth (`Aside`).
-/
namespace Sys2Proof.Machine

/-- What a link has heard of its head: the feedback frames and the fault flags of the latest status (R234). -/
def Link.report (x : Link) : Option FeedbackFrame × Option FeedbackFrame × Nat × Nat × Nat :=
  (x.fbLast, x.fbGood, x.fbFrame, x.missRun, x.faults)

/-- Keys of the objects of the berths, 0x1000 to 0x15FF (R89). -/
abbrev berthKey (n : Nat) : Prop := key 0x1000 0 ≤ n ∧ n < key 0x1600 0

/-- How far an operation reaches: the berths it works on, the offsets and subindices of their objects that it may write, and the part of
their records that it leaves alone. -/
structure Scope where
  on : Nat → Prop
  writes : Nat → Nat → Prop
  keeps : Berth → Berth

/-- Anything, on the berths that satisfy `B`. -/
def Scope.all (B : Nat → Prop) : Scope := ⟨B, fun _ _ => True, fun _ => {}⟩

/-- No berth. -/
def Scope.none : Scope := ⟨fun _ => False, fun _ _ => False, id⟩

/-- From s to t an operation kept to its scope; what the links have heard, the result and the frame number are as they were. -/
structure Acts (σ : Scope) (s t : State) : Prop where
  obj : ∀ c j k, c < 24 → j < 0x40 → k < 256 → ¬ σ.on c ∨ ¬ σ.writes j k → getV (bi c j) k t = getV (bi c j) k s
  berth : ∀ c, ¬ σ.on c → Machine.berth c t = Machine.berth c s
  kept : ∀ c, σ.keeps (Machine.berth c t) = σ.keeps (Machine.berth c s)
  report : ∀ l, (link l t).report = (link l s).report
  result : t.result = s.result
  frame : t.frame = s.frame

/-- An operation that works on no berth. -/
abbrev Aside : State → State → Prop := Acts .none

variable {σ τ : Scope} {B : Nat → Prop} {s t u : State} {b c i j k l : Nat}

theorem key_bi_ne {j' k' : Nat} (hj : j < 0x40) (hj' : j' < 0x40) (hk : k < 256) (hk' : k' < 256) (h : c ≠ b ∨ j ≠ j' ∨ k ≠ k') :
    key (bi c j) k ≠ key (bi b j') k' := by
  simp only [key, bi]; omega

theorem key_bi_ne_far {n : Nat} (hc : c < 24) (hj : j < 0x40) (hk : k < 256) (h : ¬ berthKey n) : key (bi c j) k ≠ n := by
  simp only [berthKey, key, bi] at *; omega

/-! How `Acts` is put together. -/

theorem Acts.refl (s : State) : Acts σ s s := ⟨fun _ _ _ _ _ _ _ => rfl, fun _ _ => rfl, fun _ => rfl, fun _ => rfl, rfl, rfl⟩

/-- `Acts` after a step, in the order a proof meets them. -/
theorem Acts.step (h : Acts σ t u) (h' : Acts σ s t) : Acts σ s u :=
  ⟨fun c j k hc hj hk hb => (h.obj c j k hc hj hk hb).trans (h'.obj c j k hc hj hk hb), fun c hb => (h.berth c hb).trans (h'.berth c hb),
    fun c => (h.kept c).trans (h'.kept c), fun l => (h.report l).trans (h'.report l), h.result.trans h'.result, h.frame.trans h'.frame⟩

/-- A scope within another. -/
theorem Acts.mono (h : Acts σ s t) (hon : ∀ c, σ.on c → τ.on c) (hw : ∀ j k, σ.writes j k → τ.writes j k)
    (hk : ∀ x y, σ.keeps x = σ.keeps y → τ.keeps x = τ.keeps y) : Acts τ s t :=
  { h with
    obj := fun c j k hc hj hk hb => h.obj c j k hc hj hk (hb.imp (mt (hon c)) (mt (hw j k)))
    berth := fun c hb => h.berth c (mt (hon c) hb)
    kept := fun c => hk _ _ (h.kept c) }

theorem Acts.all (h : Acts σ s t) (hon : ∀ c, σ.on c → B c) : Acts (.all B) s t :=
  h.mono hon (fun _ _ _ => trivial) fun _ _ _ => rfl

/-- What works on no berth keeps to every scope. -/
theorem Acts.aside (h : Aside s t) : Acts σ s t :=
  h.mono (fun _ => False.elim) (fun _ _ => False.elim) fun x y (e : x = y) => e ▸ rfl

theorem Acts.ite {p : Prop} [Decidable p] (h : p → Acts σ s t) (h' : ¬ p → Acts σ s u) : Acts σ s (if p then t else u) := by
  split
  · exact h ‹_›
  · exact h' ‹_›

theorem Acts.foldl {α : Type} {f : State → α → State} {l : List α} (h : ∀ a s, Acts σ s (f s a)) : Acts σ s (l.foldl f s) := by
  induction l generalizing s with
  | nil => exact .refl _
  | cons a l ih => exact .step ih (h a s)

/-! What `Acts` says of the objects it leaves alone. -/

theorem Acts.getN (h : Acts σ s t) (hc : c < 24) (hj : j < 0x40) (hk : k < 256) (hb : ¬ σ.on c ∨ ¬ σ.writes j k) :
    getN (bi c j) k t = getN (bi c j) k s := by
  rw [getN_eq, getN_eq, h.obj c j k hc hj hk hb]

theorem Acts.getI (h : Acts σ s t) (hc : c < 24) (hj : j < 0x40) (hk : k < 256) (hb : ¬ σ.on c ∨ ¬ σ.writes j k) :
    getI (bi c j) k t = getI (bi c j) k s := by
  rw [getI_eq, getI_eq, h.obj c j k hc hj hk hb]

theorem Acts.bState (h : Acts σ s t) (hc : c < 24) (hb : ¬ σ.on c ∨ ¬ σ.writes 0 1) : bState c t = bState c s :=
  h.getN hc (by decide) (by decide) hb

/-! The updates of the state. -/

/-- An update of parts of the state that hold no object, berth, link, result or frame number. -/
theorem Acts.of_eq (ho : t.obj = s.obj) (hb : t.berths = s.berths) (hl : t.links = s.links) (hr : t.result = s.result)
    (hf : t.frame = s.frame) : Acts σ s t :=
  ⟨fun _ _ _ _ _ _ _ => by rw [getV, getV, ho], fun _ _ => by rw [Machine.berth, Machine.berth, hb],
    fun _ => by rw [Machine.berth, Machine.berth, hb], fun _ => by rw [link, link, hl], hr, hf⟩

theorem acts_emit {o : Out} : Acts σ s (emit o s) := .of_eq rfl rfl rfl rfl rfl
theorem acts_drawn : Acts σ s (drawn s) := .of_eq rfl rfl rfl rfl rfl
theorem acts_modStream {f : Stream → Stream} : Acts σ s (modStream l f s) := .of_eq rfl rfl rfl rfl rfl
theorem acts_modLoop {f : Loop → Loop} : Acts σ s (modLoop l f s) := .of_eq rfl rfl rfl rfl rfl
theorem acts_modCtx {f : Context → Context} : Acts σ s (modCtx l f s) := .of_eq rfl rfl rfl rfl rfl

/-- An object outside the berths' indexes. -/
theorem acts_setV_far {v : Val} (h : ¬ berthKey (key i k)) : Acts σ s (setV i k v s) :=
  { Acts.refl s with obj := fun _ _ _ hc hj hk _ => getV_setV_ne _ _ (key_bi_ne_far hc hj hk h) }

theorem acts_addN_far {w n : Nat} (h : ¬ berthKey (key i k)) : Acts σ s (addN i k w n s) := acts_setV_far h

/-- An object of a berth in scope. -/
theorem acts_setV_own {v : Val} (hb : σ.on b) (hw : σ.writes j k) (hj : j < 0x40) (hk : k < 256) : Acts σ s (setV (bi b j) k v s) :=
  { Acts.refl s with
    obj := fun c j' k' _ hj' hk' h => getV_setV_ne _ _ <| key_bi_ne hj' hj hk' hk <| by
      by_contra hn
      simp only [not_or, not_not] at hn
      obtain ⟨rfl, rfl, rfl⟩ := hn
      exact h.elim (· hb) (· hw) }

theorem acts_modBerth {f : Berth → Berth} (hb : σ.on b) (hf : ∀ x, σ.keeps (f x) = σ.keeps x) : Acts σ s (modBerth b f s) :=
  { Acts.refl s with
    berth := fun c hc => berth_modBerth_ne _ _ _ fun e => hc (e ▸ hb)
    kept := fun c => by
      by_cases e : c = b
      · subst e; rw [berth_modBerth_self, hf]
      · rw [berth_modBerth_ne _ _ _ e] }

theorem acts_modLink {f : Link → Link} (hf : ∀ x, (f x).report = x.report) : Acts σ s (modLink l f s) :=
  { Acts.refl s with
    report := fun m => by
      by_cases e : m = l
      · subst e; rw [link_modLink_self, hf]
      · rw [link_modLink_ne _ _ _ e] }

/-- Notices and logbook records (`Quiet`) reach no berth. -/
theorem Acts.of_quiet (h : Quiet s t) : Acts σ s t where
  obj c j k hc hj hk _ := h.obj _ _ fun hn => by
    rcases hn with e | e | e | e | e <;> exact key_bi_ne_far hc hj hk (by decide) e
  berth _ _ := by rw [Machine.berth, Machine.berth, h.berths]
  kept _ := by rw [Machine.berth, Machine.berth, h.berths]
  report _ := by rw [link, link, h.links]
  result := h.result
  frame := h.frame

/-! Operations run for several berths. -/

theorem Acts.each {l : List Nat} {f : Nat → State → State} (h : ∀ n ∈ l, ∀ s, Acts σ s (f n s)) : Acts σ s (each l f s) := by
  unfold Machine.each
  induction l generalizing s with
  | nil => exact .refl _
  | cons n l ih => exact .step (ih fun m hm => h m (.tail _ hm)) (h n (.head _) s)

theorem acts_eachBerth {m : Nat} {f : Nat → State → State} (h : ∀ n s, Acts σ s (f n s)) : Acts σ s (eachBerth m f s) :=
  .each fun n _ s => h n s

/-- An operation run for each berth of a list, each time on that berth alone, meets a berth of the list as it was before, and leaves
it as it was after. -/
theorem each_meets {l : List Nat} {f : Nat → State → State} (hf : ∀ c s, Acts (.all (· = c)) s (f c s)) (hl : l.Nodup) (hb : b ∈ l) :
    ∃ u, Acts (.all (· ≠ b)) s u ∧ Acts (.all (· ≠ b)) (f b u) (each l f s) := by
  obtain ⟨l₁, l₂, rfl⟩ := List.append_of_mem hb
  obtain ⟨-, hl₂, hd⟩ := List.nodup_append.1 hl
  have h : ∀ l : List Nat, b ∉ l → ∀ s, Acts (.all (· ≠ b)) s (each l f s) := fun l hl s =>
    .each fun n hn s => (hf n s).all fun c hc hcb => hl (hcb ▸ hc ▸ hn)
  refine ⟨each l₁ f s, h l₁ (fun hm => hd b hm b (.head _) rfl) s, ?_⟩
  have e : each (l₁ ++ b :: l₂) f s = each l₂ f (f b (each l₁ f s)) := by simp [each]
  exact e ▸ h l₂ (List.nodup_cons.1 hl₂).1 _

end Sys2Proof.Machine
end

section
/-!
PROOFS, the layer of facts: the operations that work on no berth: the record streams (R203-R215), the camera triggers (R153), and the
counters and notices of a handover (R111). What a berth's exposure reports goes through them.
-/
namespace Sys2Proof.Machine

variable {σ : Scope} {s t : State} {b : Nat}

/-! The record streams. -/

theorem acts_ringWrite {base size n : Nat} {l : List Byte} : Acts σ s (ringWrite base size n l s) := by
  have h : ∀ (l : List Byte) (a : State × Nat), Acts σ a.1 (l.foldl (fun (acc : State × Nat) v =>
      ({ acc.1 with dram := writeByte (recordBase s + base + (if size = 0 then 0 else acc.2 % size)) v acc.1.dram }, acc.2 + 1)) a).1 := by
    intro l
    induction l with
    | nil => exact fun _ => .refl _
    | cons v l ih => exact fun a => .step (ih _) (.of_eq rfl rfl rfl rfl rfl)
  exact h l (s, n)

theorem acts_ringStage {st : Nat} {l : List Byte} : Acts σ s (ringStage st l s) := by
  unfold ringStage
  exact .step acts_modStream acts_ringWrite

theorem acts_modLast {st : Nat} {f : Segment → Segment} : Acts σ s (modLast st f s) := acts_modStream

theorem not_berthKey_stream {st k : Nat} : ¬ berthKey (key (ssi st 1) k) := by
  simp only [berthKey, key, ssi]; omega

theorem acts_stageBytes {st : Nat} {l : List Nat} : Acts σ s (stageBytes st l s) := by
  unfold stageBytes
  refine .ite (fun _ => .refl s) fun _ => .ite (fun _ => .step acts_ringStage acts_modLast) fun _ => ?_
  exact .step (acts_addN_far not_berthKey_stream) (.step acts_modLast acts_modStream)

theorem acts_writeAnchors {l : List Anchor} : Acts σ s (writeAnchors b l s) := by
  induction l generalizing s with
  | nil => exact acts_modStream
  | cons a l ih =>
    simp only [writeAnchors]
    refine .ite (fun _ => acts_modStream) fun _ => .ite (fun _ => .step acts_modStream ?_) fun _ => .step ih (.step acts_stageBytes ?_)
    all_goals exact .ite (fun _ => .refl s) fun _ => acts_stageBytes

theorem acts_writeAnchor : Acts σ s (writeAnchor b s) := .ite (fun _ => .refl s) fun _ => acts_writeAnchors

theorem acts_gapEntry {st : Nat} : Acts σ s (gapEntry st s) := by
  have h : Acts σ s (if gapTarget st < 24 then writeAnchor (gapTarget st) s else s) :=
    .ite (fun _ => acts_writeAnchor) fun _ => .refl s
  exact .ite (fun _ => .refl s) fun _ => .ite (fun _ => h) fun _ => .step acts_modStream (.step acts_stageBytes h)

theorem acts_berthEntry {kind : Nat} {tm : Time} {p : List Byte} : Acts σ s (berthEntry b kind tm p s) :=
  .step acts_stageBytes (.step acts_gapEntry acts_writeAnchor)

theorem acts_harbourEntry {kind : Nat} {tm : Time} {p : List Byte} : Acts σ s (harbourEntry kind tm p s) :=
  .step acts_stageBytes acts_gapEntry

theorem acts_handoverRefused {code giver taker : Nat} {tm : Time} : Acts σ s (handoverRefused code giver taker tm s) :=
  .step acts_harbourEntry <| .step (.of_quiet (quiet_noticeAt ..)) <| .step (acts_addN_far (by decide)) (acts_setV_far (by decide))

theorem acts_noteStop {cause before : Nat} {tm : Time} : Acts σ s (noteStop b cause before tm s) :=
  .step acts_berthEntry (.of_quiet (quiet_noticeLogAt ..))

/-! The camera triggers. -/

theorem Tab.find_foldl_put_ne {n : Nat} {l : Tab Val} {o : Tab Val} (h : ∀ e ∈ l, n ≠ e.1) :
    Tab.find n (l.foldl (fun o e => o.put e.1 e.2) o) = Tab.find n o := by
  induction l generalizing o with
  | nil => rfl
  | cons e l ih =>
    obtain ⟨he, hl⟩ := List.forall_mem_cons.1 h
    rw [List.foldl_cons, ih hl, Tab.find_put_ne _ _ he]

/-- Shadows of objects outside the berths' indexes come into force. -/
theorem acts_takeShadows {p : Nat → Bool} (hp : ∀ n, p n = true → ¬ berthKey n) : Acts σ s (takeShadows p s) :=
  { Acts.refl s with
    obj := fun c j k hc hj hk _ => by
      simp only [getV, takeShadows]
      rw [Tab.find_foldl_put_ne fun e he => key_bi_ne_far hc hj hk (hp _ (List.mem_filter.1 he).2)] }

theorem not_berthKey_context {c off k : Nat} : ¬ berthKey (key (ci c off) k) := by
  simp only [berthKey, key, ci]; omega

theorem acts_commitCtx {c n : Nat} : Acts σ s (commitCtx c n s) := by
  have hp : ∀ n, inCtx c n = true → ¬ berthKey n := fun n h => by
    have hn : ci c 0 * 256 ≤ n := of_decide_eq_true (Bool.and_eq_true_iff.1 h).1
    unfold ci at hn
    unfold berthKey key; omega
  exact .ite (fun _ => .step (acts_setV_far not_berthKey_context) (.step acts_modCtx (acts_takeShadows hp))) fun _ => .refl s

theorem acts_openStrobe {c : Nat} {v : Tab Val} {tm : Time} : Acts σ s (openStrobe c v tm s) :=
  .ite (fun _ => .refl s) fun _ => .of_eq rfl rfl rfl rfl rfl

theorem acts_launchFrame {l ty seq : Nat} {p : List Byte} : Acts σ s (launchFrame l ty seq p s) :=
  .ite (fun _ => .step acts_emit (acts_modLink fun _ => rfl)) fun _ => .step acts_emit (acts_modLink fun _ => rfl)

theorem acts_sendFrame {l ty : Nat} {p : List Byte} : Acts σ s (sendFrame l ty p s) :=
  .step acts_launchFrame (acts_modLink fun _ => rfl)

theorem acts_cameraTrigger {c why : Nat} {tm : Time} : Acts σ s (cameraTrigger c why tm s) := by
  have h : ∀ n v f g, Acts σ s (openStrobe c v tm (modCtx c f (commitCtx c n (setN (ci c 5) 1 g s)))) := fun _ _ _ _ =>
    .step acts_openStrobe (.step acts_modCtx (.step acts_commitCtx (acts_setV_far not_berthKey_context)))
  unfold cameraTrigger
  refine .ite (fun _ => .refl s) fun _ => .ite (fun _ => acts_addN_far not_berthKey_context) fun _ => ?_
  exact .ite (fun _ => .step acts_sendFrame (h ..)) fun _ => .step acts_emit (.step acts_modCtx (h ..))

end Sys2Proof.Machine
end

section
/-!
PROOFS, the layer of facts: the stop of a berth (R31-R35, R67, R89): how far each of its operations reaches, and in what state it leaves
the berth.
-/
namespace Sys2Proof.Machine

/-- What the end of an exposure writes on berth b: its state, cause and wake hold (offset 0), and its power (offset 3). -/
def haltScope (b : Nat) : Scope := ⟨(· = b), fun j _ => j = 0 ∨ j = 3, fun x => { lastStatus := x.lastStatus }⟩

/-- What a stop writes on any berth: beside that, the resume points (offset 1). -/
def stopScope : Scope := ⟨fun _ => True, fun j _ => j = 0 ∨ j = 1 ∨ j = 3, fun x => { lastStatus := x.lastStatus }⟩

/-- What a motion of berth b changes: its record, but no start that waits. -/
def moveScope (b : Nat) : Scope :=
  ⟨(· = b), fun _ _ => False, fun x => { lastStatus := x.lastStatus, startFrame := x.startFrame }⟩

variable {σ : Scope} {s t : State} {b c n k : Nat} {tm : Time}

theorem Acts.stop_of_halt (h : Acts (haltScope b) s t) : Acts stopScope s t :=
  h.mono (fun _ _ => trivial) (fun _ _ => Or.imp_right .inr) fun _ _ => id

/-! The outputs and the state of a berth. -/

theorem acts_updateLen (hb : σ.on b) (hk : ∀ x v p, σ.keeps { x with len := v, lenPin := p } = σ.keeps x) :
    Acts σ s (updateLen b tm s) := by
  have h := acts_modBerth (s := s) hb fun x => hk x (lenWanted b s) (lenWanted b s == (getN (bi b 2) 4 s == 1))
  exact .ite (fun _ => .refl s) fun _ => .ite (fun _ => h) fun _ => .step acts_emit h

theorem updateLen_obj : (updateLen b tm s).obj = s.obj := by
  unfold updateLen; dsimp only
  split
  · rfl
  · split <;> rfl

theorem berth_updateLen : ∃ v p, berth b (updateLen b tm s) = { berth b s with len := v, lenPin := p } := by
  unfold updateLen; dsimp only
  split
  · exact ⟨_, _, rfl⟩
  · split
    · exact ⟨_, _, berth_modBerth_self ..⟩
    · exact ⟨_, _, (berth_emit ..).trans (berth_modBerth_self ..)⟩

theorem acts_setGate {v : Bool} (hb : σ.on b) (hk : ∀ x g e₁ e₂, σ.keeps { x with gate := g, e1 := e₁, e2 := e₂ } = σ.keeps x) :
    Acts σ s (setGate b v tm s) :=
  .ite (fun _ => .refl s) fun _ => .step acts_emit <| acts_modBerth hb fun x => by
    cases v
    · exact hk x false 0 0
    · exact hk x true x.e1 x.e2

theorem gate_setGate {v : Bool} : (berth b (setGate b v tm s)).gate = v := by
  unfold setGate
  split
  · exact Eq.symm ‹_›
  · cases v <;> simp

theorem acts_enterState : Acts (haltScope b) s (enterState b n tm s) :=
  .step (acts_updateLen rfl fun _ _ _ => rfl) <|
    .step (.ite (fun _ => acts_modStream) fun _ => .refl _) (acts_setV_own rfl (.inl rfl) (by decide) (by decide))

theorem enterState_obj : (enterState b n tm s).obj = (setN (bi b 0) 1 n s).obj := by
  unfold enterState
  rw [updateLen_obj]
  split <;> rfl

theorem berth_enterState : ∃ v p, berth b (enterState b n tm s) = { berth b s with len := v, lenPin := p } := by
  obtain ⟨v, p, h⟩ := berth_updateLen (b := b) (tm := tm) (s := if n = 0 then sampleEnd b (setN (bi b 0) 1 n s) else setN (bi b 0) 1 n s)
  refine ⟨v, p, h.trans ?_⟩
  split <;> rfl

theorem getV_congr {i : Nat} (h : t.obj = s.obj) : getV i k t = getV i k s := by rw [getV, getV, h]

theorem getV_enterState_ne {i : Nat} (h : key i k ≠ key (bi b 0) 1) : getV i k (enterState b n tm s) = getV i k s :=
  (getV_congr enterState_obj).trans (getV_setV_ne _ _ h)

theorem bState_enterState : bState b (enterState b n tm s) = n := by
  rw [bState, getN_eq, getV_congr enterState_obj, ← getN_eq, getN_setN_self]

/-! The end of an exposure. -/

theorem acts_endRun {last : Nat} (hb : σ.on b) (hk : ∀ x r, σ.keeps { x with run := r } = σ.keeps x) :
    Acts σ s (endRun b last tm s) := by
  unfold endRun
  exact .ite (fun _ => .refl s) fun _ => .step (acts_modBerth hb fun x => hk x {}) acts_berthEntry

theorem acts_closeWindow : Acts (haltScope b) s (closeWindow b s) := by
  have h : Acts (haltScope b) s (modBerth b (fun x => { x with handover := {} }) s) := acts_modBerth rfl fun _ => rfl
  unfold closeWindow
  exact .ite (fun _ => h) fun _ => .step acts_harbourEntry (.step (acts_addN_far (by decide)) h)

theorem acts_quiet : Acts (haltScope b) s (quiet b tm s) := by
  unfold quiet
  refine .step (acts_modBerth rfl fun _ => rfl) ?_
  refine .step (acts_setV_own rfl (.inr rfl) (by decide) (by decide)) ?_
  refine .step (acts_setV_own rfl (.inl rfl) (by decide) (by decide)) ?_
  refine .step (acts_setGate rfl fun _ _ _ _ => rfl) <| .step (acts_endRun rfl fun _ _ => rfl) ?_
  exact .ite (fun _ => acts_closeWindow) fun _ => .refl s

/-- What the record of a berth whose exposure has ended holds no more: a high or pending gate, a final event, a pause still to come, a
wait. -/
structure Berth.Halted (x : Berth) : Prop where
  gate : x.gate = false
  gateSched : x.gateSched = false
  finals : x.finals = []
  stopAt : x.stopAt = none
  waitingAt : x.waitingAt = none

theorem Berth.Halted.of_eq {x y : Berth} (h : x.Halted) (hg : y.gate = x.gate) (hs : y.gateSched = x.gateSched) (hf : y.finals = x.finals)
    (ha : y.stopAt = x.stopAt) (hw : y.waitingAt = x.waitingAt) : y.Halted :=
  ⟨hg.trans h.gate, hs.trans h.gateSched, hf.trans h.finals, ha.trans h.stopAt, hw.trans h.waitingAt⟩

theorem halted_quiet : (berth b (quiet b tm s)).Halted := by
  unfold quiet
  rw [berth_modBerth_self]
  refine ⟨?_, rfl, rfl, rfl, rfl⟩
  simp only [setN_eq, berth_setV, gate_setGate]

/-- The note of an interlock trip for the harbour's control. -/
theorem aside_trigger {p : Prop} [Decidable p] {l : List Nat} : Aside s (if p then { s with hm := { s.hm with trigger := l } } else s) :=
  .ite (fun _ => .of_eq rfl rfl rfl rfl rfl) fun _ => .refl s

/-- A stop ends the exposure and shows its cause (q), enters the state, and reports it. -/
theorem stopped_stages {cause strength : Nat} : ∃ q r, Acts (haltScope b) s q ∧ getN (bi b 0) 6 q = cause ∧ (berth b q).Halted ∧
    Aside q r ∧ Aside (enterState b n tm r) (stopped b n cause strength tm s) := by
  refine ⟨modBerth b (fun x => { x with strength := strength }) (setN (bi b 0) 6 cause (quiet b tm s)), _, ?_, ?_, ?_,
    aside_trigger, acts_noteStop⟩
  · exact .step (acts_modBerth rfl fun _ => rfl) <| .step (acts_setV_own rfl (.inl rfl) (by decide) (by decide)) acts_quiet
  · rw [getN_eq, getV_modBerth, ← getN_eq, getN_setN_self]
  · rw [berth_modBerth_self, setN_eq, berth_setV]
    exact (halted_quiet (b := b) (tm := tm) (s := s)).of_eq rfl rfl rfl rfl rfl

theorem acts_stopped {cause strength : Nat} : Acts (haltScope b) s (stopped b n cause strength tm s) := by
  obtain ⟨q, r, hq, -, -, hr, hn⟩ := stopped_stages (b := b) (n := n) (cause := cause) (strength := strength) (tm := tm) (s := s)
  exact .step hn.aside (.step acts_enterState (.step hr.aside hq))

/-- How a berth stands once a stop has taken it to a state n for a cause. -/
structure StoppedIn (b n cause : Nat) (t : State) : Prop where
  state : bState b t = n
  cause : getN (bi b 0) 6 t = cause
  halted : (berth b t).Halted

theorem stopped_spec {cause strength : Nat} (hb : b < 24) : StoppedIn b n cause (stopped b n cause strength tm s) := by
  obtain ⟨q, r, -, hc, hh, hr, hn⟩ := stopped_stages (b := b) (n := n) (cause := cause) (strength := strength) (tm := tm) (s := s)
  obtain ⟨v, p, he⟩ := berth_enterState (b := b) (n := n) (tm := tm) (s := r)
  refine ⟨?_, ?_, ?_⟩
  · rw [hn.bState hb (.inl id), bState_enterState]
  · have hne : key (bi b 0) 6 ≠ key (bi b 0) 1 := key_bi_ne (by decide) (by decide) (by decide) (by decide) (by simp)
    rw [hn.getN hb (by decide) (by decide) (.inl id), getN_eq, getV_enterState_ne hne, ← getN_eq,
      hr.getN hb (by decide) (by decide) (.inl id), hc]
  · rw [hn.berth b id, he, hr.berth b id]
    exact hh.of_eq rfl rfl rfl rfl rfl

end Sys2Proof.Machine
end

section
/-!
PROOFS: the pause of a berth (R31, R33, R35, R67, R68, R89): its resume point, its deceleration, and the stop that follows.
-/
namespace Sys2Proof.Machine

variable {σ : Scope} {s t : State} {b n ri re kind cause strength power : Nat} {arc reArc : Int} {tm : Time}

theorem acts_setResume (hb : σ.on b) (hw : ∀ k, σ.writes 1 k) : Acts σ s (setResume b ri arc power tm kind re reArc s) := by
  have h : ∀ (k : Nat) (v : Val) (s : State), k < 256 → Acts σ s (setV (bi b 1) k v s) := fun k _ _ => acts_setV_own hb (hw k) (by decide)
  unfold setResume
  exact .step (h 8 _ _ (by decide)) <| .step (h 7 _ _ (by decide)) <| .step (h 6 _ _ (by decide)) <| .step (h 5 _ _ (by decide)) <|
    .step (h 4 _ _ (by decide)) <| .step (h 3 _ _ (by decide)) (h 2 _ _ (by decide))

/-- The resume point that a berth shows: its record, its arc and its kind (R33). -/
structure ResumesAt (b ri kind : Nat) (arc : Int) (t : State) : Prop where
  ri : getN (bi b 1) 2 t = ri
  arc : getI (bi b 1) 3 t = arc
  kind : getN (bi b 1) 8 t = kind

theorem resumesAt_setResume : ResumesAt b ri kind arc (setResume b ri arc power tm kind re reArc s) := by
  have hk : ∀ {k k'}, k < 256 → k' < 256 → k ≠ k' → key (bi b 1) k ≠ key (bi b 1) k' := fun h h' => by simp [key_inj h h']
  unfold setResume
  constructor <;> simp [getN_eq, getI_eq, setN_eq, setI_eq, setTime, getV_setV_ne, hk, asInt]

theorem ResumesAt.of_acts (h : ResumesAt b ri kind arc s) (ha : Acts σ s t) (hb : b < 24) (hσ : ¬ σ.on b ∨ ∀ k, ¬ σ.writes 1 k) :
    ResumesAt b ri kind arc t := by
  have hσ' : ∀ k, ¬ σ.on b ∨ ¬ σ.writes 1 k := fun k => hσ.imp_right fun h => h k
  exact ⟨(ha.getN hb (by decide) (by decide) (hσ' 2)).trans h.ri, (ha.getI hb (by decide) (by decide) (hσ' 3)).trans h.arc,
    (ha.getN hb (by decide) (by decide) (hσ' 8)).trans h.kind⟩

theorem ResumesAt.stopped (h : ResumesAt b ri kind arc s) (hb : b < 24) :
    ResumesAt b ri kind arc (stopped b n cause strength tm s) :=
  h.of_acts acts_stopped hb (.inr fun _ => by simp [haltScope])

theorem acts_decelerate (hb : σ.on b) (hk : ∀ x l h, σ.keeps { x with plan := l, halting := h } = σ.keeps x) :
    Acts σ s (decelerate b tm s) := by
  unfold decelerate
  split
  · exact acts_modBerth hb fun x => hk x x.plan false
  · exact acts_modBerth hb fun _ => hk _ _ true

/-! The pause of an Armed berth. -/

theorem stopOne_armed (h : bState b s = 1) : stopOne b strength cause tm s =
    stopped b (if strength = 1 then 3 else if strength = 2 then 4 else 5) cause strength tm
      (setResume b 0 0 0 tm (if strength = 1 then 1 else 3) 0 0 s) := by
  simp only [stopOne, h]

/-- A berth outside its handover window stops alone (R109). -/
theorem stopBerth_alone (h : bState b s ≠ 2 ∨ (berth b s).handover.phase ≠ 2) :
    stopBerth b strength cause tm s = stopOne b strength cause tm s := by
  have hw : inWindow b tm s = false := by
    rcases h with h | h <;> simp [inWindow, h]
  rw [stopBerth, hw]; rfl

/-- The stop of an Armed berth concerns no other. -/
theorem acts_stopOne_armed (h : bState b s = 1) : Acts (.all (· = b)) s (stopOne b strength cause tm s) := by
  rw [stopOne_armed h]
  exact .step (acts_stopped.all fun _ => id) (acts_setResume rfl fun _ => trivial)

theorem pause_armed (hb : b < 24) (h : bState b s = 1) :
    let t := stopBerth b strength cause tm s
    StoppedIn b (if strength = 1 then 3 else if strength = 2 then 4 else 5) cause t ∧
      ResumesAt b 0 (if strength = 1 then 1 else 3) 0 t ∧ ∀ c, c < 24 → c ≠ b → berth c t = berth c s ∧ bState c t = bState c s := by
  intro t
  have ht : t = stopOne b strength cause tm s := stopBerth_alone (.inl (by rw [h]; decide))
  have ha : Acts (.all (· = b)) s t := ht ▸ acts_stopOne_armed h
  rw [stopOne_armed h] at ht
  exact ⟨ht ▸ stopped_spec hb, ht ▸ resumesAt_setResume.stopped hb, fun c hc hcb => ⟨ha.berth c hcb, ha.bState hc (.inl hcb)⟩⟩

/-! The pause of an Exposing berth at once. -/

/-- However an Exposing berth stands, a pause at once records a resume point or keeps the one there is, decelerates, and stops. -/
theorem pauseExposing_eq : ∃ n u r, pauseExposing b cause strength tm s = stopped b n cause strength u r ∧ Acts stopScope s r ∧
    (strength ≠ 3 → n = 3 ∨ n = 4) := by
  have hr : ∀ {ri arc power t' kind re reArc}, Acts stopScope s (decelerate b tm (setResume b ri arc power t' kind re reArc s)) :=
    .step (acts_decelerate trivial fun _ _ _ => rfl) (acts_setResume trivial fun _ => .inr (.inl rfl))
  unfold pauseExposing
  split
  · exact ⟨_, _, _, rfl, hr, fun h => by simp [h]⟩
  · dsimp only
    split
    · exact ⟨_, _, _, rfl, hr, fun h => by simp [h]⟩
    · split
      · refine ⟨_, _, _, rfl, acts_decelerate trivial fun _ _ _ => rfl, fun h => ?_⟩
        simp only [beq_eq_false_iff_ne.2 h, Bool.false_eq_true, if_false]
        split <;> simp
      · exact ⟨_, _, _, rfl, hr, fun h => by simp [h]⟩

theorem stopOne_exposing (h : bState b s = 2) : ∃ u r, Aside s r ∧ stopOne b 2 cause tm s = pauseExposing b cause 2 u r := by
  simp only [stopOne, h]
  rw [if_neg (by decide)]
  split
  · exact ⟨_, _, .refl s, rfl⟩
  · exact ⟨_, _, acts_drawn, rfl⟩

/-- Settles O1: every pause ends in `stopped`, after a resume point that the stop leaves alone. -/
theorem berthsPause : Obligations.BerthsPause := by
  unfold Obligations.BerthsPause
  refine ⟨fun b off s h1 => ⟨fun hr => ?_, fun hr => ?_⟩, fun b off s hr h2 hp => ?_⟩
  · obtain ⟨hs, hp, ho⟩ := pause_armed (s := fresh s) (strength := 1) (cause := 1) (tm := (fresh s).now) (of_decide_eq_true hr.1) h1
    exact ⟨_, (gated_run hr.1 hr.2 : execPauseAtSafePoint b s = _), hs.state, hs.cause, hp.ri, hp.kind, hs.halted.gate, ho⟩
  · have hw : berthOk b = true ∧ offOk off = true := Bool.and_eq_true_iff.1 hr.1
    obtain ⟨hs, hp, ho⟩ := pause_armed (s := fresh s) (strength := 2) (cause := 2) (tm := timeAt off (fresh s)) (of_decide_eq_true hw.1) h1
    exact ⟨_, (gated_run hr.1 hr.2 : execPauseNow b off s = _), hs.state, hs.cause, hp.ri, hp.kind, hs.halted.gate, ho⟩
  · have hw : berthOk b = true ∧ offOk off = true := Bool.and_eq_true_iff.1 hr.1
    obtain ⟨u, r, -, he⟩ := stopOne_exposing (s := fresh s) (cause := 2) (tm := timeAt off (fresh s)) h2
    obtain ⟨n, v, q, hq, -, hn⟩ := pauseExposing_eq (b := b) (cause := 2) (strength := 2) (tm := u) (s := r)
    have ht : stopBerth b 2 2 (timeAt off (fresh s)) (fresh s) = stopped b n 2 2 v q :=
      (stopBerth_alone (s := fresh s) (.inr hp)).trans (he.trans hq)
    have hs : StoppedIn b n 2 (stopBerth b 2 2 (timeAt off (fresh s)) (fresh s)) := by
      rw [ht]; exact stopped_spec (of_decide_eq_true hw.1)
    refine ⟨_, (gated_run hr.1 hr.2 : execPauseNow b off s = _), ?_, hs.cause, hs.halted.gate, hs.halted.gateSched, hs.halted.finals⟩
    exact (hn (by decide)).imp hs.state.trans hs.state.trans

end Sys2Proof.Machine
end

section
/-!
PROOFS, the layer of facts: the path of a berth and its motion (R90, R113, R404): what the path depends on, and what a motion changes.
-/
namespace Sys2Proof.Machine

variable {s t : State} {b c k n i ri base : Nat} {p q : Pt} {g : Int} {tm : Time}

/-! The path depends on DRAM, its layout, the objects, and a part of the berth's record. -/

/-- The part of a berth's record that its path depends on: an annexed run, the runs given away, the point it left from. -/
def Berth.path (x : Berth) : Option Annex × List (Nat × Nat) × Option (Nat × Pt) := (x.annexNow, x.givenAway, x.origin)

/-- s and t agree on all that berth b's path depends on. -/
structure SamePath (b : Nat) (s t : State) : Prop where
  obj : t.obj = s.obj
  dram : t.dram = s.dram
  mem : t.mem = s.mem
  berth : (berth b t).path = (berth b s).path

namespace SamePath

variable (h : SamePath b s t)
include h

theorem getV : getV i k t = getV i k s := getV_congr h.obj
theorem getI : getI i k t = getI i k s := by rw [getI_eq, getI_eq, h.getV]
theorem getN : getN i k t = getN i k s := by rw [getN_eq, getN_eq, h.getV]
theorem dramRead : dramRead i n t = dramRead i n s := by rw [Machine.dramRead, Machine.dramRead, h.dram]
theorem annexNow : (Machine.berth b t).annexNow = (Machine.berth b s).annexNow := congrArg (·.1) h.berth
theorem givenAway : (Machine.berth b t).givenAway = (Machine.berth b s).givenAway := congrArg (·.2.1) h.berth
theorem origin : (Machine.berth b t).origin = (Machine.berth b s).origin := congrArg (·.2.2) h.berth

theorem slotBase : slotBase c k t = slotBase c k s := by simp only [Machine.slotBase, slotSize, layoutMB, h.mem]
theorem slotInForce : slotInForce c t = slotInForce c s := by simp only [Machine.slotInForce, slotState, h.getN]
theorem mfBase : mfBase b t = mfBase b s := by simp only [Machine.mfBase, h.annexNow, h.slotInForce, h.slotBase]
theorem recAt : recAt base i t = recAt base i s := by simp only [Machine.recAt, h.dramRead]
theorem mfRec : mfRec b i t = mfRec b i s := by simp only [Machine.mfRec, h.mfBase, h.recAt]

theorem mfCount : mfCount b t = mfCount b s := by
  simp only [Machine.mfCount, h.annexNow, h.slotInForce, h.mfBase, segCount, h.dramRead]

theorem mfSkip : mfSkip b t = mfSkip b s := by
  funext i; simp only [Machine.mfSkip, h.annexNow, h.givenAway]

theorem segsFrom {o : Option (Nat × Pt)} {skip : Nat → Bool} {jv : Nat} :
    segsFrom base o skip jv t n i p q g = segsFrom base o skip jv s n i p q g := by
  induction n generalizing i p q g with
  | zero => rfl
  | succ n ih => simp only [Machine.segsFrom, h.recAt, ih]

theorem segs : segs b t = segs b s := by
  simp only [Machine.segs, segsTo, h.mfBase, h.origin, h.mfSkip, h.getN, h.mfRec, h.mfCount, h.segsFrom]

theorem nextRec : nextRec b t n i = nextRec b s n i := by
  induction n generalizing i with
  | zero => rfl
  | succ n ih => simp only [Machine.nextRec, h.mfCount, h.mfRec, h.mfSkip, ih]

theorem safePoints : safePoints b t = safePoints b s := by
  simp only [Machine.safePoints, recAfter, follower, h.segs, h.mfCount, h.nextRec]

theorem phasePoint {ph : Phase} : phasePoint b ph tm t = phasePoint b ph tm s := by
  simp only [Machine.phasePoint, pathPoint, runUpPoint, h.segs]

end SamePath

theorem samePath_fresh : SamePath b s (fresh s) := ⟨rfl, rfl, rfl, rfl⟩

/-- The record that `nextRec` finds is not before the place where it looks. -/
theorem le_of_nextRec {r : Rec} (h : nextRec b s n i = some (k, r)) : i ≤ k := by
  induction n generalizing i with
  | zero => cases h
  | succ n ih =>
    rw [nextRec] at h
    split at h
    · cases h
    · split at h
      · exact Nat.le_of_succ_le (ih h)
      · cases h; exact Nat.le_refl _

/-! The motion of a berth. -/

theorem acts_move {f : Berth → Berth} (hf : ∀ x, (moveScope b).keeps (f x) = (moveScope b).keeps x) : Acts (moveScope b) s (modBerth b f s) :=
  acts_modBerth rfl hf

theorem Acts.startFrame (h : Acts (moveScope b) s t) : (Machine.berth c t).startFrame = (Machine.berth c s).startFrame := by
  have e := congrArg Berth.startFrame (h.kept c)
  exact e

theorem acts_onPlan {l : List Phase} : Acts (moveScope b) s (onPlan b l p s) := acts_move fun _ => rfl

theorem acts_toRunUp {r : Rec} {join : Int} : Acts (moveScope b) s (toRunUp b ri r join p tm s) := by
  unfold toRunUp
  exact .step (acts_move fun _ => rfl) acts_onPlan

theorem acts_requestStretch : Acts (moveScope b) s (requestStretch b g s) :=
  .ite (fun _ => .refl s) fun _ => acts_move fun _ => rfl

theorem acts_setDone {f : Event → Bool} : Acts (moveScope b) s (setDone b f s) := by
  unfold setDone
  exact acts_move fun _ => rfl

theorem acts_beginRecord : Acts (moveScope b) s (beginRecord b ri p tm s) := by
  unfold beginRecord
  split
  · exact acts_onPlan
  · refine .ite (fun _ => .step (acts_move fun _ => rfl) acts_onPlan) fun _ => .ite (fun _ => acts_onPlan) fun _ =>
      .ite (fun _ => acts_toRunUp) fun _ => .ite (fun _ => .step acts_onPlan (acts_move fun _ => rfl)) fun _ => ?_
    dsimp only
    exact .ite (fun _ => acts_onPlan) fun _ => acts_onPlan

theorem acts_resumePath {join : Option Int} : Acts (moveScope b) s (resumePath b join tm s) := by
  unfold resumePath
  dsimp only
  split
  · exact .step acts_toRunUp <| .step acts_setDone <| .step (acts_move fun _ => rfl) (acts_move fun _ => rfl)
  · exact .ite (fun _ => .step acts_setDone <| .step (acts_move fun _ => rfl) <| .step acts_onPlan (acts_move fun _ => rfl)) fun _ =>
      .step acts_beginRecord <| .step acts_setDone <| .step (acts_move fun _ => rfl) (acts_move fun _ => rfl)

end Sys2Proof.Machine
end

section
/-!
PROOFS: the start and the resume of a berth (R36, R61, R90, R269).
-/
namespace Sys2Proof.Machine

variable {s t : State} {b f : Nat} {tm : Time}

/-! The start of an Armed berth (R61). -/

theorem acts_exposeOne : Acts (.all (· = b)) s (exposeOne b s) := by
  have hm : ∀ {s t : State}, Acts (moveScope b) s t → Acts (.all (· = b)) s t := fun h => h.all fun _ => id
  unfold exposeOne
  split
  · exact .refl s
  · refine .ite (fun _ => .refl s) fun _ => ?_
    have h : ∀ f, Acts (.all (· = b)) s (requestStretch b 0 (enterState b 2 s.now (modBerth b f s))) := fun f =>
      .step (hm acts_requestStretch) (.step (acts_enterState.all fun _ => id) (acts_modBerth rfl fun _ => rfl))
    exact .ite (fun _ => h _) fun _ => .step (hm acts_beginRecord) (h _)

/-- An Armed berth whose start frame has come enters Exposing; its motion follows. -/
theorem exposeOne_due (h : bState b s = 1) (hs : (berth b s).startFrame = some f) (hf : f ≤ s.frame) :
    ∃ u, bState b u = 2 ∧ (berth b u).startFrame = none ∧ Acts (moveScope b) u (exposeOne b s) := by
  unfold exposeOne
  simp only [hs, h]
  rw [if_neg (by omega)]
  refine ⟨enterState b 2 s.now (modBerth b _ s), bState_enterState, ?_,
    .ite (fun _ => acts_requestStretch) fun _ => .step acts_beginRecord acts_requestStretch⟩
  obtain ⟨v, p, he⟩ := berth_enterState (b := b) (n := 2) (tm := s.now) (s := modBerth b _ s)
  rw [he, berth_modBerth_self]

theorem exposeAll_due (hb : b < 24) (h : bState b s = 1) (hs : (berth b s).startFrame = some f) (hf : f ≤ s.frame) :
    bState b (each berthList exposeOne s) = 2 ∧ (berth b (each berthList exposeOne s)).startFrame = none := by
  obtain ⟨u, hu, ht⟩ := each_meets (l := berthList) (b := b) (s := s) (fun _ _ => acts_exposeOne) List.nodup_range (List.mem_range.2 hb)
  have hne : ¬ (Scope.all (· ≠ b)).on b := fun h => h rfl
  obtain ⟨w, hw, hwf, hm⟩ := exposeOne_due ((hu.bState hb (.inl hne)).trans h) (by rwa [hu.berth b hne]) (hu.frame.symm ▸ hf)
  refine ⟨?_, ?_⟩
  · rw [ht.bState hb (.inl hne), hm.bState hb (.inr id), hw]
  · rw [ht.berth b hne, hm.startFrame, hwf]

/-! The resume of a berth (R36, R90). -/

theorem samePath_withJoin {j : Int} : SamePath b s (withJoin b j s) where
  obj := rfl
  dram := rfl
  mem := rfl
  berth := by simp [withJoin, Berth.path]

theorem restPoint_withJoin {j : Int} : restPoint b (withJoin b j s) = restPoint b s := by
  simp only [restPoint, samePath_withJoin.phasePoint]
  simp only [withJoin, berth_modBerth_self]

/-- Whether a resume is barred depends on the path, the harbour's topology, and where the spot rests. -/
theorem resumeBar_congr (h : SamePath b s t) (hm : t.hm = s.hm) (hr : restPoint b t = restPoint b s) : resumeBar b t = resumeBar b s := by
  simp only [resumeBar, h.slotInForce, h.slotBase, header, h.dramRead, h.getN, slotState, linkUp, hr, tripped, bollardLatched, quayLinks, hm]
  rfl

theorem resumeBar_withJoin {j : Int} : resumeBar b (withJoin b j s) = resumeBar b s :=
  resumeBar_congr samePath_withJoin rfl restPoint_withJoin

theorem restPoint_fresh : restPoint b (fresh s) = restPoint b s := by
  simp only [restPoint, samePath_fresh.phasePoint]
  rfl

theorem resumeBar_fresh : resumeBar b (fresh s) = resumeBar b s := resumeBar_congr samePath_fresh rfl restPoint_fresh

/-- A resume of one berth that neither R36 nor the clearance bars is granted. -/
theorem resume_granted (h : bState b s = 3 ∨ bState b s = 4) (hp : resumesInPair b s = none) (hb : resumeBar b s = none)
    (hc : clearanceBar [b] (resumePath b none tm (withJoin b 0 s)) = none) :
    ∃ mW, resume b tm s = resumeGranted b mW tm (resumePath b none tm (withJoin b 0 s)) := by
  refine ⟨resumePeak b (resumePath b none tm (withJoin b 0 s)), ?_⟩
  unfold resume
  rw [if_neg (by omega), hp]
  simp only [resumeAll, List.findSome?, resumeBar_withJoin, hb, Option.map_none, List.foldl, List.map, hc]

theorem resumeGranted_spec {mW : Nat} :
    let t := resumeGranted b mW tm s
    bState b t = 2 ∧ getN (bi b 0) 6 t = 0 ∧ (berth b t).resuming = true ∧ t.result = s.result := by
  intro t
  obtain ⟨r, hr, he⟩ : ∃ r, Aside s r ∧ t = enterState b 2 tm (modBerth b _ (setN (bi b 0) 6 0 r)) := ⟨_, acts_berthEntry, rfl⟩
  obtain ⟨v, p, hv⟩ := berth_enterState (b := b) (n := 2) (tm := tm) (s := modBerth b _ (setN (bi b 0) 6 0 r))
  have hne : key (bi b 0) 6 ≠ key (bi b 0) 1 := key_bi_ne (by decide) (by decide) (by decide) (by decide) (by simp)
  refine ⟨he ▸ bState_enterState, ?_, ?_, ?_⟩
  · rw [he, getN_eq, getV_enterState_ne hne, getV_modBerth, ← getN_eq, getN_setN_self]
  · rw [he, hv, berth_modBerth_self]
  · rw [he, acts_enterState.result, modBerth_result, setN_eq, setV_result, hr.result]

/-! A wake-held berth (R269). -/

theorem wakeResume_passed {w : WakeHold} (hw : (berth b s).wake = some w) (h : bState b s = 2) (h7 : getN (bi b 0) 7 s = 1)
    (hl : getN 0x7300 0x0A s = 3 ∨ w.q + getI 0x7300 6 s ≤ wakeLine b s) :
    let t := wakeResume b s
    getN (bi b 0) 7 t = 0 ∧ (berth b t).resuming = true ∧ (berth b t).halting = false ∧ bState b t = 2 := by
  have hne : key (bi b 0) 1 ≠ key (bi b 0) 7 := key_bi_ne (by decide) (by decide) (by decide) (by decide) (by simp)
  unfold wakeResume
  simp only [hw, h, h7]
  rw [if_neg (by decide), if_neg (by omega)]
  refine ⟨?_, ?_, ?_, ?_⟩
  · rw [getN_eq, getV_modBerth, onPlan, getV_modBerth, ← getN_eq, getN_setN_self]
  · rw [berth_modBerth_self]
  · rw [berth_modBerth_self, onPlan, berth_modBerth_self]
  · rw [bState, getN_eq, getV_modBerth, onPlan, getV_modBerth, setN_eq, getV_setV_ne _ _ hne, ← getN_eq]
    exact h

/-- Settles O3: a start and a resume enter Exposing, and no motion that follows or precedes writes the berth's objects. -/
theorem berthStartsAndResumes : Obligations.BerthStartsAndResumes := by
  unfold Obligations.BerthStartsAndResumes
  refine ⟨fun b f s hr hb h hs hf => ?_, fun b off s hr h hp hb hc => ?_, fun b w s hr hw h h7 hl => ?_⟩
  · exact ⟨_, (gated_run hr.1 hr.2 : execExposingStart s = _), exposeAll_due (s := fresh s) hb h hs hf⟩
  · obtain ⟨mW, he⟩ := resume_granted (s := fresh s) (tm := timeAt off (fresh s)) h hp (resumeBar_fresh.trans hb) hc
    refine ⟨_, (gated_run hr.1 hr.2 : execResume b off s = _), ?_⟩
    rw [he]
    obtain ⟨h2, h6, hres, hr0⟩ := resumeGranted_spec (b := b) (mW := mW) (tm := timeAt off (fresh s))
      (s := resumePath b none (timeAt off (fresh s)) (withJoin b 0 (fresh s)))
    exact ⟨h2, h6, hres, hr0.trans (acts_resumePath.result.trans rfl)⟩
  · exact ⟨_, (gated_run hr.1 hr.2 : execWakeResume b s = _), wakeResume_passed (s := fresh s) hw h h7 hl⟩

end Sys2Proof.Machine
end

section
/-!
PROOFS: the firing of events (R76, R80) reaches no more than the berth's power, counts and wake hold, so a berth that reaches the safe point
of its pause is still Exposing there (R31); FENCE and WAIT (R47).
-/
namespace Sys2Proof.Machine

/-- What the events of berth b write while no gate-off at c0 waits: its wake hold, power and counts; its handover stays as it is. -/
def fireScope (b : Nat) : Scope :=
  ⟨(· = b), fun j k => (j = 0 ∧ k = 7) ∨ j = 3 ∨ j = 6, fun x => { lastStatus := x.lastStatus, handover := x.handover }⟩

variable {σ : Scope} {s t : State} {b n i ri : Nat} {e : Event} {f : FinalEvent} {l : List FinalEvent} {tm : Time} {p : Pt}

theorem acts_fire {f : Berth → Berth} (hf : ∀ x, (fireScope b).keeps (f x) = (fireScope b).keeps x) :
    Acts (fireScope b) s (modBerth b f s) := acts_modBerth rfl hf

theorem Acts.handover (h : Acts (fireScope b) s t) : (Machine.berth b t).handover = (Machine.berth b s).handover := by
  have e := congrArg Berth.handover (h.kept b)
  exact e

/-! Events become final (R76). -/

theorem acts_triggerFinal : Acts (fireScope b) s (triggerFinal b f s) := by
  unfold triggerFinal
  exact .ite (fun _ => .refl s) fun _ => .step acts_cameraTrigger (acts_fire fun _ => rfl)

theorem acts_addFinal : Acts (fireScope b) s (addFinal b tm e s) := by
  unfold addFinal
  exact .step acts_triggerFinal (acts_fire fun _ => rfl)

theorem acts_consume : Acts (fireScope b) s (consume b e s) := by
  unfold consume
  refine .ite (fun _ => acts_fire fun _ => rfl) fun _ => ?_
  dsimp only
  split
  · exact .refl s
  · exact acts_fire fun _ => rfl

theorem acts_finaliseOne : Acts (fireScope b) s (finaliseOne b tm s e) := by
  unfold finaliseOne
  refine .ite (fun _ => .refl s) fun _ => ?_
  split
  · exact .refl s
  · exact .ite (fun _ => .step acts_consume acts_addFinal) fun _ => acts_addFinal

theorem acts_finaliseTo : Acts (fireScope b) s (finaliseTo b tm s) :=
  .ite (fun _ => .foldl fun _ _ => acts_finaliseOne) fun _ => .refl s

/-! A group of events acts (R80). -/

theorem aside_entryAction : Aside s (entryAction b tm s f) := by
  unfold entryAction
  split
  · exact acts_berthEntry
  · exact acts_modLoop
  · exact acts_modLoop
  · exact .refl s

theorem aside_caught : Aside s (caught s) := by
  have h : Aside s (addN 0x5100 7 32 1 s) := acts_addN_far (by decide)
  unfold caught
  exact .ite (fun _ => h) fun _ => .step (.of_quiet (quiet_noticeObj ..)) (.step (.of_eq (s := addN 0x5100 7 32 1 s) rfl rfl rfl rfl rfl) h)

theorem acts_nextRun : Acts (fireScope b) s (nextRun b l tm s) := by
  have h : ∀ n, Acts (fireScope b) s (endRun b n tm s) := fun n => acts_endRun rfl fun _ _ => rfl
  unfold nextRun
  split
  · exact .refl s
  · dsimp only
    split
    · exact h _
    · exact .step (acts_fire fun _ => rfl) (h _)

theorem acts_count {k w m : Nat} (hk : k < 256) : Acts (fireScope b) s (addN (bi b 6) k w m s) :=
  acts_setV_own rfl (.inr (.inr rfl)) (by decide) hk

theorem acts_fireGate : Acts (fireScope b) s (fireGate b l tm s) := by
  unfold fireGate
  refine .step acts_nextRun <| .step (.ite (fun _ => acts_fire fun _ => rfl) fun _ => .refl _) <| .step (acts_setGate rfl fun _ _ _ _ => rfl) ?_
  refine .step (acts_fire fun _ => rfl) <| .step (.ite (fun _ => acts_count (by decide)) fun _ => .refl _) ?_
  refine .step (acts_count (by decide)) <| .step (acts_count (by decide)) <| .step (acts_count (by decide)) ?_
  exact .ite (fun _ => aside_caught.aside) fun _ => .refl s

theorem acts_wakeHold : Acts (fireScope b) s (wakeHold b e tm s) := by
  unfold wakeHold
  refine .step (acts_addN_far (by simp [key]; omega)) <| .step (acts_fire fun _ => rfl) <| .step (acts_decelerate rfl fun _ _ _ => rfl) ?_
  refine .step (acts_setV_own rfl (.inr (.inl rfl)) (by decide) (by decide)) <| .step (acts_addN_far (by simp [key]; omega)) ?_
  exact acts_setV_own rfl (.inl ⟨rfl, rfl⟩) (by decide) (by decide)

theorem acts_fireGroup (h : (berth b s).handover.stopAtC0 = none) : Acts (fireScope b) s (fireGroup b l tm s) := by
  unfold fireGroup
  extract_lets s₁ s₂ s₃ s₄ s₅
  have h₁ : Acts (fireScope b) s s₁ := .step (acts_count (by decide)) (acts_fire fun _ => rfl)
  have h₂ : Acts (fireScope b) s₁ s₂ := by
    simp only [s₂]
    split
    · exact .refl s₁
    · exact .ite (fun _ => .refl s₁) fun _ => .step (acts_updateLen rfl fun _ _ _ => rfl) (acts_fire fun _ => rfl)
  have h₃ : Acts (fireScope b) s s₃ := .step acts_fireGate (.step h₂ h₁)
  have h₄ : Acts (fireScope b) s s₄ := .step (.foldl fun _ _ => aside_entryAction.aside) h₃
  have h₅ : Acts (fireScope b) s s₅ := by
    refine .step ?_ h₄
    simp only [s₅]
    split
    · exact .refl _
    · exact acts_wakeHold
  rw [h₅.handover, h]
  exact h₅

theorem acts_eventGroup (h : (berth b s).handover.stopAtC0 = none) : Acts (fireScope b) s (eventGroup b s) := by
  unfold eventGroup
  refine .ite (fun _ => .refl s) fun _ => ?_
  split
  · exact .refl s
  · dsimp only
    split
    · exact acts_finaliseTo
    · have hf : ∀ l t, Acts (fireScope b) s (modBerth b (fun x => { x with finals := l }) (finaliseTo b t s)) :=
        fun _ _ => .step (acts_fire fun _ => rfl) acts_finaliseTo
      exact .step (acts_fireGroup ((congrArg _ (hf _ _).handover).trans h)) (hf _ _)

theorem acts_firePast (h : (berth b s).handover.stopAtC0 = none) : Acts (fireScope b) s (firePast b tm n s) := by
  induction n generalizing s with
  | zero => exact .refl s
  | succ n ih =>
    unfold firePast
    split
    · exact .refl s
    · have he := acts_eventGroup h
      exact .ite (fun _ => .step (ih ((congrArg _ he.handover).trans h)) he) fun _ => .refl s

theorem acts_fireUpTo (h : (berth b s).handover.stopAtC0 = none) : Acts (fireScope b) s (fireUpTo b tm s) := by
  unfold fireUpTo
  exact .step (acts_firePast ((congrArg _ acts_finaliseTo.handover).trans h)) acts_finaliseTo

end Sys2Proof.Machine
end

section
/-!
PROOFS: a berth holds at its safe point, and waits at a FENCE or a WAIT (R31, R47, R89).
-/
namespace Sys2Proof.Machine

variable {s t : State} {b c n ri m : Nat} {u tm : Time} {st : SafeStop} {p : Pt} {r : Rec}

/-! The safe point of a pause (R31). -/

theorem holdAtSafe_spec {safe : Bool} (hb : b < 24) (h : bState b s = 2) :
    StoppedIn b (if safe then 3 else 4) st.cause (holdAtSafe b st safe tm s) ∧
      ResumesAt b st.ri (if safe then 1 else 2) 0 (holdAtSafe b st safe tm s) := by
  have hr : ∀ power kind re reArc, ResumesAt b st.ri kind 0 (decelerate b tm (setResume b st.ri 0 power tm kind re reArc s)) :=
    fun _ _ _ _ => resumesAt_setResume.of_acts (acts_decelerate (σ := moveScope b) rfl fun _ _ _ => rfl) hb (.inr fun _ => id)
  unfold holdAtSafe
  rw [if_neg (not_not.2 h)]
  cases safe
  · simp only [Bool.false_eq_true, if_false]
    exact ⟨stopped_spec hb, (hr _ _ _ _).stopped hb⟩
  · simp only [if_true]
    exact ⟨stopped_spec hb, (hr _ _ _ _).stopped hb⟩

theorem safePointReached_hold (h : bState b s = 2) (hst : (berth b s).stopAt = some st)
    (hn : ∀ p, (safePoints b s)[(berth b s).stretch]? = some p → st.g ≤ p.2) :
    safePointReached b s = holdAtSafe b st ((safePoints b s).any (fun p => p.2 == st.g)) (reachedAt b st.g s)
      (fireUpTo b (reachedAt b st.g s) s) := by
  unfold safePointReached
  rw [if_neg (not_not.2 h), hst]
  dsimp only
  split
  · next p hst' hp =>
    cases hst'
    rw [if_neg (not_lt.2 (hn p hp))]
  · next hst' _ => cases hst'; rfl
  · next hst' _ => cases hst'
  · next hst' _ => cases hst'

theorem safePointReached_spec (hb : b < 24) (h : bState b s = 2) (hst : (berth b s).stopAt = some st)
    (hn : ∀ p, (safePoints b s)[(berth b s).stretch]? = some p → st.g ≤ p.2) (h0 : (berth b s).handover.stopAtC0 = none) :
    let t := safePointReached b s
    StoppedIn b (if ∃ p ∈ safePoints b s, p.2 = st.g then 3 else 4) st.cause t ∧
      ResumesAt b st.ri (if ∃ p ∈ safePoints b s, p.2 = st.g then 1 else 2) 0 t := by
  have h2 : bState b (fireUpTo b (reachedAt b st.g s) s) = 2 := ((acts_fireUpTo h0).bState hb (.inr (by simp [fireScope]))).trans h
  have hs := holdAtSafe_spec (st := st) (tm := reachedAt b st.g s) (safe := (safePoints b s).any (fun p => p.2 == st.g)) hb h2
  rw [← safePointReached_hold h hst hn] at hs
  simpa only [List.any_eq_true, beq_iff_eq] using hs

/-! FENCE and WAIT (R47). -/

theorem waitTimeout_spec (hb : b < 24) (h : bState b s = 2) (hw : (berth b s).waitingAt = some (ri, u)) :
    StoppedIn b 3 0x000E (waitTimeout b s) ∧ ResumesAt b ri 1 0 (waitTimeout b s) := by
  simp only [waitTimeout, h, hw]
  exact ⟨stopped_spec hb, resumesAt_setResume.stopped hb⟩

theorem waitingAt_onPlan {l : List Phase} : (berth b (onPlan b l p s)).waitingAt = (berth b s).waitingAt := by
  rw [onPlan, berth_modBerth_self]

theorem waitingAt_toRunUp {join : Int} : (berth b (toRunUp b ri r join p tm s)).waitingAt = (berth b s).waitingAt := by
  rw [toRunUp, berth_modBerth_self]
  exact waitingAt_onPlan

/-- Where the record that begins is waited at, it is none before the one asked for. -/
theorem beginRecord_waitingAt (h : (berth b s).waitingAt = none) :
    ∀ q, (berth b (beginRecord b ri p tm s)).waitingAt = some q → ri ≤ q.1 := by
  have hn : ∀ {x : Option (Nat × Time)}, x = (berth b s).waitingAt → ∀ q, x = some q → ri ≤ q.1 := fun hx q hq => by
    rw [hx, h] at hq; cases hq
  unfold beginRecord
  split
  · exact hn waitingAt_onPlan
  · next j r hj =>
    split
    · rw [berth_modBerth_self]
      rintro q ⟨⟩
      exact le_of_nextRec hj
    · split
      · exact hn waitingAt_onPlan
      · split
        · exact hn waitingAt_toRunUp
        · split
          · exact hn (waitingAt_onPlan.trans (by rw [berth_modBerth_self]))
          · dsimp only
            split
            · exact hn waitingAt_onPlan
            · exact hn waitingAt_onPlan

theorem acts_waitDone : Acts (moveScope b) s (waitDone b tm s) := by
  unfold waitDone
  split
  · exact .refl s
  · dsimp only
    split
    · exact .step (acts_move fun _ => rfl) (acts_move fun _ => rfl)
    · exact .step acts_beginRecord (acts_move fun _ => rfl)

/-- A wait that is done is left: what the berth waits at afterwards, if anything, is a later record. -/
theorem waitDone_waitingAt (hw : (berth b s).waitingAt = some (ri, u)) :
    ∀ q, (berth b (waitDone b tm s)).waitingAt = some q → ri < q.1 := by
  have hn : (berth b (modBerth b (fun x => { x with waitingAt := none }) s)).waitingAt = none := by rw [berth_modBerth_self]
  unfold waitDone
  rw [hw]
  dsimp only
  split
  · rw [berth_modBerth_self]
    rintro q hq
    cases hn.symm.trans hq
  · exact beginRecord_waitingAt hn

theorem waitsAt_eq (h : bState b s = 2) (hw : (berth b s).waitingAt = some (ri, u)) (hr : (mfRec b ri s).ty = n) :
    waitsAt b n s = some (mfRec b ri s) := by
  simp only [waitsAt, h, hw, hr]
  rfl

/-- A WAIT whose count meets its target is left. -/
theorem waitComplete_met (h : bState b s = 2) (hw : (berth b s).waitingAt = some (ri, u)) (hr : (mfRec b ri s).ty = 8)
    (hm : waitMet (mfRec b ri s) s = true) : waitComplete b s = waitDone b s.now s := by
  simp only [waitComplete, waitsAt_eq h hw hr]
  exact if_pos hm

theorem waitMet_of {c : Int} (hc : c = getI (ei (field r.raw 8 1) 1) 1 s) (h0 : field r.raw 9 1 = 0 → fieldI r.raw 4 4 ≤ c)
    (h1 : field r.raw 9 1 ≠ 0 → c ≤ fieldI r.raw 4 4) : waitMet r s = true := by
  subst hc
  unfold waitMet
  dsimp only
  split
  · exact decide_eq_true (h0 ‹_›)
  · exact decide_eq_true (h1 ‹_›)

theorem waitsAt_fresh : waitsAt b n (fresh s) = waitsAt b n s := by
  simp only [waitsAt, samePath_fresh.mfRec]
  rfl

theorem fenceMet_of (h : ∀ k c, k < 192 → bit (field r.raw 8 24) k = true → localBerth k s = some c →
    ∃ q, waitsAt c 6 s = some q ∧ field q.raw 4 4 = m) : fenceMet m r s = true := by
  unfold fenceMet
  refine List.all_eq_true.2 fun k hk => ?_
  cases hb : bit (field r.raw 8 24) k
  · rfl
  · rw [Bool.not_true, Bool.false_or]
    split
    · rfl
    · next c hc =>
      obtain ⟨q, hq, hid⟩ := h k c (List.mem_range.1 hk) hb hc
      rw [hq]
      exact beq_iff_eq.2 hid

/-- A berth that waits at a FENCE met by every berth of its mask is one of those that leave it. -/
theorem fenceComplete_each (hb : b < 24) (hw : waitsAt b 6 s = some r) (hr : field r.raw 4 4 = m) (hm : fenceMet m r s = true) :
    ∃ l : List Nat, l.Nodup ∧ b ∈ l ∧ fenceComplete m s = each l (fun b s => waitDone b s.now s) s := by
  refine ⟨_, List.nodup_range.filter _, List.mem_filter.2 ⟨List.mem_range.2 hb, ?_⟩, rfl⟩
  rw [hw]
  simp only [hr, hm, beq_self_eq_true, Bool.and_self]

theorem fenceComplete_spec (hb : b < 24) (h : bState b s = 2) (hw : (berth b s).waitingAt = some (ri, u)) (hr : (mfRec b ri s).ty = 6)
    (hid : field (mfRec b ri s).raw 4 4 = m) (hm : fenceMet m (mfRec b ri s) s = true) :
    bState b (fenceComplete m s) = 2 ∧ ∀ q, (berth b (fenceComplete m s)).waitingAt = some q → ri < q.1 := by
  obtain ⟨l, hl, hmem, he⟩ := fenceComplete_each hb (waitsAt_eq h hw hr) hid hm
  obtain ⟨v, hv, ht⟩ := each_meets (f := fun b s => waitDone b s.now s) (s := s) (fun c _ => acts_waitDone.all fun _ => id) hl hmem
  have hne : ¬ (Scope.all (· ≠ b)).on b := fun h => h rfl
  rw [he, ht.berth b hne]
  exact ⟨(ht.bState hb (.inl hne)).trans <| (acts_waitDone.bState hb (.inr id)).trans <| (hv.bState hb (.inl hne)).trans h,
    waitDone_waitingAt (u := u) (by rw [hv.berth b hne, hw])⟩

/-- Settles O4: what fires before the safe point leaves the berth Exposing, so the pause stops it there; a wait that is done is followed by
a later record. -/
theorem safePointsAndWaits : Obligations.SafePointsAndWaits := by
  unfold Obligations.SafePointsAndWaits
  refine ⟨fun b st s hr h hst hn h0 => ?_, fun b ri u s hr h hw => ?_, fun b ri u r c s hr h hw he hty hc h0 h1 => ?_,
    fun b ri id u r s hr hb h hw he hty hid hm => ?_⟩
  · have hp : safePoints b (fresh s) = safePoints b s := samePath_fresh.safePoints
    obtain ⟨ht, hres⟩ := safePointReached_spec (s := fresh s) (of_decide_eq_true hr.1) h hst (by rw [hp]; exact hn) h0
    rw [hp] at ht hres
    exact ⟨_, (gated_run hr.1 hr.2 : execSafePointReached b s = _), ht.state, ht.cause, hres.ri, hres.arc, hres.kind, ht.halted.gate,
      ht.halted.stopAt⟩
  · obtain ⟨ht, hres⟩ := waitTimeout_spec (s := fresh s) (of_decide_eq_true hr.1) h hw
    exact ⟨_, (gated_run hr.1 hr.2 : execWaitTimeout b s = _), ht.state, ht.cause, hres.ri, hres.arc, hres.kind, ht.halted.waitingAt⟩
  · have hrec : mfRec b ri (fresh s) = r := samePath_fresh.mfRec.trans he.symm
    have ht := waitComplete_met (s := fresh s) h hw (by rw [hrec]; exact hty) (by rw [hrec]; exact waitMet_of hc h0 h1)
    refine ⟨_, (gated_run hr.1 hr.2 : execWaitComplete b s = _), ?_⟩
    rw [ht]
    exact ⟨(acts_waitDone.bState (of_decide_eq_true hr.1) (.inr fun h => h)).trans h, waitDone_waitingAt hw⟩
  · have hrec : mfRec b ri (fresh s) = r := samePath_fresh.mfRec.trans he.symm
    have hm' : fenceMet id r (fresh s) = true := fenceMet_of fun k c hk hbit hloc => by
      obtain ⟨q, hq, hid⟩ := hm k c hk hbit hloc
      exact ⟨q, waitsAt_fresh.trans hq, hid⟩
    exact ⟨_, (gated_run hr.1 hr.2 : execFenceComplete id s = _),
      fenceComplete_spec (s := fresh s) hb h hw (by rw [hrec]; exact hty) (by rw [hrec]; exact hid) (by rw [hrec]; exact hm')⟩

end Sys2Proof.Machine
end

section
/-!
PROOFS, the layer of facts: how far a stop reaches (R31-R35, R37, R109, R254, R338, R379). It writes states, causes, powers and resume points
of berths, and their records but for the time of the latest status; no link, and no other object of a berth.
-/
namespace Sys2Proof.Machine

variable {σ : Scope} {s t : State} {b p n cause strength mask place other : Nat} {tm : Time}

/-! The stop of one berth. -/

theorem acts_stopResume {ri power kind re : Nat} {arc reArc : Int} : Acts stopScope s (setResume b ri arc power tm kind re reArc s) :=
  acts_setResume trivial fun _ => .inr (.inl rfl)

theorem acts_stop {f : Berth → Berth} (hf : ∀ x, stopScope.keeps (f x) = stopScope.keeps x) : Acts stopScope s (modBerth b f s) :=
  acts_modBerth trivial hf

theorem acts_stopDecelerate : Acts stopScope s (decelerate b tm s) := acts_decelerate trivial fun _ _ _ => rfl

theorem acts_pauseExposing : Acts stopScope s (pauseExposing b cause strength tm s) := by
  obtain ⟨n, u, r, he, hr, -⟩ := pauseExposing_eq (b := b) (cause := cause) (strength := strength) (tm := tm) (s := s)
  exact he ▸ .step acts_stopped.stop_of_halt hr

theorem acts_pauseToSafe : Acts stopScope s (pauseToSafe b cause tm s) := by
  unfold pauseToSafe
  refine .ite (fun _ => acts_pauseExposing) fun _ => .ite (fun _ => .refl s) fun _ => ?_
  split
  · exact acts_stop fun _ => rfl
  · exact .step acts_pauseExposing acts_drawn

theorem acts_stopOne : Acts stopScope s (stopOne b strength cause tm s) := by
  unfold stopOne
  split
  · exact .ite (fun _ => .step acts_stopped.stop_of_halt acts_stopResume) fun _ => .refl s
  · exact .step acts_stopped.stop_of_halt acts_stopResume
  · exact .ite (fun _ => acts_pauseToSafe) fun _ => .ite (fun _ => acts_pauseExposing) fun _ => .step acts_pauseExposing acts_drawn
  · exact .refl s
  · refine .ite (fun _ => acts_stopped.stop_of_halt) fun _ => .ite (fun _ => ?_) fun _ => .refl s
    exact .step (acts_stop fun _ => rfl) (acts_setV_own trivial (.inl rfl) (by decide) (by decide))

/-! The stop of a pair in its handover window (R109). -/

theorem acts_stopHalf : Acts stopScope s (stopHalf b place cause tm s) := by
  unfold stopHalf
  split
  · exact .refl s
  · exact .ite (fun _ => .step acts_stopped.stop_of_halt (.step acts_stopDecelerate acts_stopResume)) fun _ => acts_stop fun _ => rfl
  · exact acts_stopOne

theorem acts_sameTime : Acts stopScope s (sameTime b p s) := by
  have h : ∀ c v (s : State), Acts stopScope s (setN (bi c 1) 5 v s) :=
    fun _ _ _ => acts_setV_own trivial (.inr (.inl rfl)) (by decide) (by decide)
  exact .ite (fun _ => .step (h p _ _) (h b _ s)) fun _ => .refl s

theorem acts_stopPair : Acts stopScope s (stopPair b strength cause other tm s) := by
  have h : Acts stopScope s (if strength = 3 then stopOne b 3 cause tm s else stopHalf b (pairPlace b tm s) cause tm s) :=
    .ite (fun _ => acts_stopOne) fun _ => acts_stopHalf
  unfold stopPair
  dsimp only
  split
  · exact h
  · exact .step acts_sameTime (.step acts_stopHalf h)

theorem acts_stopBerth : Acts stopScope s (stopBerth b strength cause tm s) :=
  .ite (fun _ => .step acts_stopPair acts_handoverRefused) fun _ => acts_stopOne

/-! A covered fault (R338), and the end of a calibration (R379). -/

/-- Where a covered fault shows: the last fault and motion hold. -/
structure FaultShown (cause : Nat) (t : State) : Prop where
  last : getN 0x0406 1 t = cause
  hold : getN 0x7080 1 t = 1

/-- A covered fault shows (q), is noted for the mains (r), and recorded. -/
theorem coveredFault_stages : ∃ q r, Acts σ s q ∧ FaultShown cause q ∧ Acts σ q r ∧ r.obj = q.obj ∧
    Quiet r (coveredFault cause mask tm s) := by
  refine ⟨setTime 0x0406 2 tm (setN 0x0406 1 cause (setN 0x7080 1 1 s)), _, ?_, ⟨?_, ?_⟩, ?_, ?_, quiet_logAdd ..⟩
  · exact .step (acts_setV_far (by decide)) (.step (acts_setV_far (by decide)) (acts_setV_far (by decide)))
  · rw [setTime, setN_eq, getN_eq, getV_setV_ne _ _ (by decide), ← getN_eq, getN_setN_self]
  · rw [setTime, setN_eq, setN_eq, getN_eq, getV_setV_ne _ _ (by decide), getV_setV_ne _ _ (by decide), ← getN_eq, getN_setN_self]
  · split
    · exact .of_eq rfl rfl rfl rfl rfl
    · exact .refl _
  · split <;> rfl

theorem acts_coveredFault : Acts σ s (coveredFault cause mask tm s) := by
  obtain ⟨q, r, hq, -, hr, -, hn⟩ := coveredFault_stages (σ := σ) (cause := cause) (mask := mask) (tm := tm) (s := s)
  exact .step (.of_quiet hn) (.step hr hq)

theorem faultShown_coveredFault : FaultShown cause (coveredFault cause mask tm s) := by
  obtain ⟨q, r, -, hf, -, ho, hn⟩ := coveredFault_stages (σ := .none) (cause := cause) (mask := mask) (tm := tm) (s := s)
  refine ⟨?_, ?_⟩
  · rw [hn.getN (by simp [noticeKey, key]), getN_eq, getV_congr ho, ← getN_eq, hf.last]
  · rw [hn.getN (by simp [noticeKey, key]), getN_eq, getV_congr ho, ← getN_eq, hf.hold]

theorem acts_faultStop : Acts stopScope s (faultStop mask strength cause tm s) := by
  unfold faultStop
  exact .step acts_coveredFault (acts_eachBerth fun _ _ => acts_stopBerth)

/-- A mask of one berth. -/
theorem eachBerth_single {f : Nat → State → State} (hb : b < 24) : eachBerth (2 ^ b) f s = f b s := by
  have h : ∀ b < 24, berthList.filter (fun c => bit (2 ^ b) c) = [b] := by decide
  rw [eachBerth, h b hb]
  rfl

theorem acts_calStop : Acts stopScope s (calStop b s) := by
  have he : Acts stopScope s (calEnd s) :=
    acts_eachBerth fun _ _ => .step (acts_updateLen trivial fun _ _ _ => rfl) (acts_stop fun _ => rfl)
  have hs : Acts stopScope s (setN 0x0603 4 5 (setN 0x0603 3 6 (calEnd s))) :=
    .step (acts_setV_far (by decide)) (.step (acts_setV_far (by decide)) he)
  unfold calStop
  refine .ite (fun _ => ?_) fun _ => .refl s
  exact .step (.of_quiet (quiet_notice ..)) (.step (.of_eq (s := setN 0x0603 4 5 (setN 0x0603 3 6 (calEnd s))) rfl rfl rfl rfl rfl) hs)

end Sys2Proof.Machine
end

section
/-!
PROOFS: the reports of a head (R75, R88, R232, R234, R237): its FEEDBACK and STATUS frames, and a temperature report that stays away.
-/
namespace Sys2Proof.Machine

/-- What a temperature report of a head may write once its temperatures and its time stand: what a stop writes, and temperature states. -/
def warnScope : Scope :=
  ⟨fun _ => True, fun j k => (j = 0 ∨ j = 1 ∨ j = 3) ∨ (j = 4 ∧ k = 9), fun x => { lastStatus := x.lastStatus }⟩

/-- Every berth, without bounds: what is left is that no link's report changes. -/
abbrev Scope.any : Scope := .all fun _ => True

variable {σ : Scope} {s t : State} {b h k n m : Nat} {f : FeedbackFrame} {l : List Int} {w : WireFrame} {tm : Time}

theorem Acts.any (h : Acts σ s t) : Acts .any s t := h.all fun _ _ => trivial

theorem Acts.faults (h : Acts σ s t) : (Machine.link k t).faults = (Machine.link k s).faults := by
  have e := congrArg (fun r : Option FeedbackFrame × Option FeedbackFrame × Nat × Nat × Nat => r.2.2.2.2) (h.report k)
  exact e

theorem Acts.warn (h : Acts stopScope s t) : Acts warnScope s t := h.mono (fun _ => id) (fun _ _ => .inl) fun _ _ => id

/-! A frame that a head link hears (R232). -/

theorem hearFrame_good {ty : Nat} {g : List Byte → State → State} (hh : h < 24) (hs : hears h s = true)
    (hg : frameGood ty w.bytes w.bad = true) : hearFrame h ty w g s = g w.bytes s := by
  simp only [hearFrame, hs, streamOf_head w s hh, hg]
  rfl

theorem hearFrame_bad {ty : Nat} {g : List Byte → State → State} (hh : h < 24) (hs : hears h s = true)
    (hg : frameGood ty w.bytes w.bad = false) : hearFrame h ty w g s = crcError h s := by
  simp only [hearFrame, hs, streamOf_head w s hh, hg]
  rfl

theorem hears_of_up (hs : linkState h s = 7) : hears h s = true := by
  have hn : getN (lki h) 2 s = 7 := hs
  simp [hears, hn]

theorem crcError_head (hh : h < 24) : crcError h s = addN (hi h) 0x17 32 1 s := by
  simp only [crcError, lki, hi, hh, if_true]

/-! FEEDBACK: the guards and the sample of an exposure write berths alone. -/

theorem acts_lateralGuard {d : Int} : Acts stopScope s (lateralGuard b d s) := .ite (fun _ => acts_faultStop) fun _ => .refl s

theorem acts_overspeed : Acts stopScope s (overspeed b s) := by
  unfold overspeed
  split
  · exact .refl s
  · split
    · exact .refl s
    · exact .ite (fun _ => acts_faultStop) fun _ => .refl s

theorem acts_feedbackSample : Acts .any s (feedbackSample b f tm s) := by
  unfold feedbackSample
  dsimp only
  split
  · exact .refl s
  · refine .ite (fun _ => .refl s) fun _ => ?_
    refine .step acts_lateralGuard.any <| .step acts_overspeed.any <| .step acts_finaliseTo.any <| .step (acts_modBerth trivial fun _ => rfl) ?_
    exact .step (acts_setV_own trivial trivial (by decide) (by decide)) (acts_setV_own trivial trivial (by decide) (by decide))

theorem acts_findStanding {sp : Option (List Int)} : Acts .any s (findStanding b sp s) := by
  unfold findStanding
  dsimp only
  split
  · exact .refl s
  · exact .ite (fun _ => acts_modBerth trivial fun _ => rfl) fun _ => .refl s

theorem acts_standAtHead : Acts .any s (standAtHead b s) := by
  unfold standAtHead
  split
  · exact acts_modLink fun _ => rfl
  · dsimp only
    exact .step acts_findStanding (.step (acts_modBerth trivial fun _ => rfl) (acts_modLink fun _ => rfl))

/-- What a link shows of its head after a good FEEDBACK frame of the present frame. -/
theorem feedbackGood_report (hf : bit f.status 0 = false) :
    (link h (feedbackGood h f s)).report = (some f, some f, s.frame, 0, (link h s).faults) ∧ (link h (feedbackGood h f s)).statusRun = 0 := by
  obtain ⟨u, hu, he⟩ : ∃ u, Acts .any (modLink h (fun x => { x with fbLast := some f, fbGood := some f, fbFrame := s.frame, missRun := 0 }) s) u ∧
      feedbackGood h f s = modLink h (fun x => { x with statusRun := 0 }) u := by
    unfold feedbackGood
    rw [hf]
    refine ⟨_, ?_, rfl⟩
    exact .step (.ite (fun _ => acts_feedbackSample) fun _ => .refl _) (.ite (fun _ => acts_standAtHead) fun _ => .refl _)
  rw [he, link_modLink_self]
  refine ⟨(hu.report h).trans ?_, rfl⟩
  rw [link_modLink_self]
  rfl

/-! STATUS and the temperatures of a head (R88, R234). -/

theorem acts_setNotice {cls i : Nat} {v : Int} (hσ : ∀ s, Acts σ s (setI i k v s)) : Acts σ s (setNotice cls n i k v s) :=
  .step (.of_quiet (quiet_noticeObj ..)) (hσ s)

theorem acts_temperaturePause {first : Bool} : Acts stopScope s (temperaturePause b n first s) := by
  unfold temperaturePause
  refine .ite (fun _ => .refl s) fun _ => ?_
  split
  · exact acts_faultStop
  · exact acts_faultStop
  · exact acts_faultStop
  · exact .refl s

theorem acts_temperatureState {v : Int} : Acts warnScope s (setNotice 1 b (bi b 4) 9 v s) :=
  acts_setNotice fun _ => acts_setV_own trivial (.inr ⟨rfl, rfl⟩) (by decide) (by decide)

/-- The temperatures as a report puts them into their objects. -/
def putTemps (b : Nat) (l : List Int) (s : State) : State := each [0, 1, 2, 3] (fun k s => setI (bi b 4) (k + 1) (l.getD k (-32768)) s) s

theorem getI_putTemps (hk : k < 4) : getI (bi b 4) (k + 1) (putTemps b l s) = l.getD k (-32768) := by
  simp only [putTemps, each, List.foldl, getI_eq, setI_eq]
  interval_cases k <;> simp [getV_setV_ne, asInt]

theorem acts_putTemps : Acts .any s (putTemps b l s) :=
  .each fun k hk _ => acts_setV_own trivial trivial (by decide) (by simp at hk; omega)

theorem temperatureReport_stages : Acts warnScope (modBerth b (fun x => { x with lastStatus := s.now }) (putTemps b l s))
    (temperatureReport b l s) := by
  unfold temperatureReport
  refine .step acts_temperaturePause.warn <| .step (.ite (fun _ => acts_calStop.warn) fun _ => .refl _) ?_
  exact .ite (fun _ => .refl _) fun _ => acts_temperatureState

theorem status_spec {f : StatusFrame} (hh : h < 24) (hk : k < 4) :
    (link h (status h f s)).faults = f.faults ∧ getI (bi h 4) (k + 1) (status h f s) = f.temps.getD k (-32768) ∧
      (berth h (status h f s)).lastStatus = s.now := by
  obtain ⟨u, hu, he⟩ : ∃ u, Quiet (modLink h (fun x => { x with faults := f.faults }) s) u ∧ status h f s = temperatureReport h f.temps u := by
    refine ⟨_, ?_, rfl⟩
    split
    · exact .refl _
    · exact quiet_notice ..
  have hr := temperatureReport_stages (b := h) (l := f.temps) (s := u)
  rw [he]
  refine ⟨?_, ?_, ?_⟩
  · rw [hr.faults, link_modBerth, acts_putTemps.faults, (Acts.of_quiet (σ := .any) hu).faults, link_modLink_self]
  · rw [hr.getI hh (by decide) (by omega) (.inr (by simp [warnScope]; omega)), getI_eq, getV_modBerth, ← getI_eq, getI_putTemps hk]
  · have e := congrArg Berth.lastStatus (hr.kept h)
    refine e.trans ?_
    rw [berth_modBerth_self]
    exact hu.now

/-- A temperature report that stays away: state 3, a covered fault of cause 0x0007, and the berth pauses (R88). -/
theorem temperatureTimeout_spec (hb : b < 24) (h3 : getN (bi b 4) 9 s ≠ 3) :
    getN (bi b 4) 9 (temperatureTimeout b s) = 3 ∧ FaultShown 0x0007 (temperatureTimeout b s) ∧
      (bState b s = 1 → bState b (temperatureTimeout b s) = 4) := by
  obtain ⟨u, hu, he⟩ : ∃ u, u = setNotice 1 b (bi b 4) 9 3 s ∧ temperatureTimeout b s = faultStop (2 ^ b) 2 0x0007 u.now u :=
    ⟨_, rfl, if_neg h3⟩
  have hu3 : getN (bi b 4) 9 u = 3 := by
    have hq : Quiet (setI (bi b 4) 9 3 s) u := hu ▸ quiet_noticeObj ..
    rw [getN_eq, hq.obj _ _ (by simp [noticeKey, key, bi]; omega), setI_eq, getV_setV_self]
    rfl
  rw [he]
  refine ⟨(acts_faultStop.getN hb (by decide) (by decide) (.inr (by simp [stopScope]))).trans hu3, faultShown_coveredFault, fun h1 => ?_⟩
  have hu1 : bState b u = 1 := by
    have ha : Acts ⟨fun _ => True, fun j k => j = 4 ∧ k = 9, fun _ => {}⟩ s u :=
      hu ▸ acts_setNotice fun _ => acts_setV_own trivial ⟨rfl, rfl⟩ (by decide) (by decide)
    exact (ha.bState hb (.inr (by simp))).trans h1
  unfold faultStop
  rw [eachBerth_single hb]
  exact ((acts_coveredFault (σ := .none)).bState hb (.inl id)).trans (pause_armed (strength := 2) hb hu1).1.state

/-- Settles O24: the reports stand before any stop they call for, and a stop writes neither a link nor a temperature object. -/
theorem headReportsArrive : Obligations.HeadReportsArrive := by
  unfold Obligations.HeadReportsArrive
  refine ⟨fun h w f s hr hl hg he hf hst => ?_, fun h w s hr hs hg => ?_, fun h k w f s hr hs hg he hk => ?_, fun b s hr h3 => ?_⟩
  · have hh : h < 24 := of_decide_eq_true hr.1
    have ht : hearFrame h 0x81 w (fun l => feedback h (feedbackOf (payloadOf l))) (fresh s) = feedbackGood h f (fresh s) := by
      rw [hearFrame_good hh (hears_of_up (s := fresh s) hl) hg, ← he]
      exact if_neg (not_not.2 hf)
    obtain ⟨hrep, hrun⟩ := feedbackGood_report (h := h) (s := fresh s) hst
    simp only [Link.report, Prod.mk.injEq] at hrep
    obtain ⟨hlast, hgood, hframe, hmiss, -⟩ := hrep
    refine ⟨_, (gated_run hr.1 hr.2 : execFeedback h w s = _), ?_⟩
    rw [ht]
    exact ⟨hlast, hgood, hframe, hmiss, hrun⟩
  · have hh : h < 24 := of_decide_eq_true hr.1
    refine ⟨_, (gated_run hr.1 hr.2 : execFeedback h w s = _), ?_⟩
    rw [hearFrame_bad (s := fresh s) hh hs hg, crcError_head hh]
    refine ⟨?_, rfl, rfl⟩
    rw [addN, getN_setN_self]
    rfl
  · have hh : h < 24 := of_decide_eq_true hr.1
    refine ⟨_, (gated_run hr.1 hr.2 : execStatus h w s = _), ?_⟩
    rw [hearFrame_good (s := fresh s) hh hs hg, ← he]
    exact status_spec (s := fresh s) hh hk
  · obtain ⟨h9, hf, h1⟩ := temperatureTimeout_spec (s := fresh s) (of_decide_eq_true hr.1) h3
    exact ⟨_, (gated_run hr.1 hr.2 : execTemperatureReportTimeout b s = _), h9, hf.hold, hf.last, h1⟩

end Sys2Proof.Machine
end

section
/-!
PROOFS: the queue's step (log 1), the writes of an object and the fence of a session (R288, R289, R301).
-/
namespace Sys2Proof.Machine

variable {n i k off v : Nat} {part : Bool} {s : State}

theorem applyWrite_barred {x : Val} {d g : List Byte} (h : writeBarred n i k s ≠ 0) :
    applyWrite n i k part off x d g s = withResult (writeBarred n i k s) s := if_pos h

/-- A write that no session, class or power state turns away is judged by its value. -/
theorem applyWrite_admitted {x : Val} {d g : List Byte} (h : writeBarred n i k s = 0)
    (hv : valueBarred i k part off x (withResult 0 s) ≠ 0) :
    applyWrite n i k part off x d g s = withResult (valueBarred i k part off x (withResult 0 s)) s :=
  (if_neg (not_not.2 h)).trans (if_pos hv)

/-! The class mask of the logbook, 0x0500:09 (R366). -/

theorem findRow_classMask : findRow 0x0500 9 = some ⟨0x0500, 0x0, 1, 0x09, 1, .u16, .rw, .s, 105, .mask 1023⟩ := by decide

theorem mask_allows_iff : (Chk.mask 1023).allows v = true ↔ v ≤ 1023 := by
  have h : v &&& 1023 = v % 1024 := Nat.and_two_pow_sub_one_eq_mod v 10
  simp only [Chk.allows, Int.natCast_nonneg, Int.toNat_natCast, decide_true, Bool.true_and, beq_iff_eq, h]
  omega

theorem valueBarred_classMask (hv : v < 2 ^ 16) :
    valueBarred 0x0500 9 false 0 (.int v) s = if v ≤ 1023 then 0 else 3 := by
  have ht : Ty.u16.holds (.int v) = true := by simp only [Ty.holds, decide_eq_true_eq]; omega
  simp only [valueBarred, findRow_classMask, ht, ← mask_allows_iff]
  cases (Chk.mask 1023).allows v <;> rfl

theorem applyWrite_classMask {d : List Byte} (h : writeBarred n 0x0500 9 s = 0) (hv : v ≤ 1023) :
    applyWrite n 0x0500 9 false 0 (.int v) d [] s = setV 0x0500 9 (.int v) (withResult 0 s) := by
  have hb : valueBarred 0x0500 9 false 0 (.int v) (withResult 0 s) = 0 := by
    rw [valueBarred_classMask (by omega), if_pos hv]
  have hw : writeInt n 0x0500 9 v (withResult 0 s) = setV 0x0500 9 (.int v) (withResult 0 s) := by
    change plain 0x0500 9 (.int v) _ = _
    simp only [plain, findRow_classMask]
  refine ((if_neg (not_not.2 h)).trans (if_neg (not_not.2 hb))).trans ?_
  rw [findRow_classMask]
  exact hw

/-- Settles O30: the answer of `writeBarred` comes before any other, and the class mask takes what its row allows. -/
theorem objectWritesAndFences : Obligations.ObjectWritesAndFences := by
  unfold Obligations.ObjectWritesAndFences
  refine ⟨fun n i k v s hr hb => ?_, fun n v s hr hb hv => ?_, fun n v s hr hb hv hv' => ?_, fun n s hr hb => ?_⟩
  · refine ⟨_, gated_run hr.1 hr.2, ?_⟩
    rw [applyWrite_barred (s := fresh s) hb]
    exact ⟨rfl, rfl, rfl, rfl⟩
  · refine ⟨_, gated_run hr.1 hr.2, ?_⟩
    rw [applyWrite_classMask (s := fresh s) hb hv]
    refine ⟨rfl, ?_, rfl, fun i k hk hne => ?_⟩
    · rw [getN_eq, getV_setV_self]; rfl
    · refine getV_setV_ne _ _ fun he => hne ?_
      obtain ⟨rfl, rfl⟩ := (key_inj hk (by decide)).1 he
      rfl
  · refine ⟨_, gated_run hr.1 hr.2, ?_⟩
    have h3 : valueBarred 0x0500 9 false 0 (.int v) (withResult 0 (fresh s)) = 3 := by
      rw [valueBarred_classMask hv', if_neg (by omega)]
    rw [applyWrite_admitted (s := fresh s) hb (by rw [h3]; decide), h3]
    exact ⟨rfl, rfl⟩
  · have he : execFence n s = .next (if writeBar n (fresh s) = 0 then fresh s else withResult (writeBar n (fresh s)) (fresh s)) :=
      gated_run (f := fun s => if writeBar n s = 0 then s else withResult (writeBar n s) s) hr.1 hr.2
    exact he.trans (by rw [if_pos (show writeBar n (fresh s) = 0 from hb)])

/-- Settles O49: with a command waiting both sides unfold to the same step, with none the queue's match idles. -/
theorem stepRunsTheFrontCommand : Obligations.StepRunsTheFrontCommand := by
  unfold Obligations.StepRunsTheFrontCommand
  refine ⟨fun _ _ _ => rfl, fun s h => ?_⟩
  unfold step
  rw [h]

end Sys2Proof.Machine
end

section
/-!
PROOFS, the layer of facts: what serves neither a manifest queue nor a commit leaves alone (`Elsewhere`): the record streams, notices,
and the resume of a berth.
-/
namespace Sys2Proof.Machine

/-- What an operation elsewhere leaves alone: the objects of the commit and of the manifest queues, 0x8000 and up (R52, R56), and the
damaged records of each berth (R54). -/
structure Elsewhere (s t : State) : Prop where
  obj : ∀ i k, 0x8000 ≤ i → getV i k t = getV i k s
  damaged : ∀ c, (berth c t).damaged = (berth c s).damaged

variable {s t u : State} {b i j k n st : Nat} {tm : Time} {p : Pt}

theorem Elsewhere.refl (s : State) : Elsewhere s s := ⟨fun _ _ _ => rfl, fun _ => rfl⟩

/-- `Elsewhere` after a step, in the order a proof meets them. -/
theorem Elsewhere.step (h : Elsewhere t u) (h' : Elsewhere s t) : Elsewhere s u :=
  ⟨fun i k hi => (h.obj i k hi).trans (h'.obj i k hi), fun c => (h.damaged c).trans (h'.damaged c)⟩

theorem Elsewhere.ite {c : Prop} [Decidable c] (h : c → Elsewhere s t) (h' : ¬ c → Elsewhere s u) :
    Elsewhere s (if c then t else u) := by
  split
  · exact h ‹_›
  · exact h' ‹_›

theorem Elsewhere.foldl_fst {α β : Type} {f : State × β → α → State × β} {l : List α} {a : State × β}
    (h : ∀ x a, Elsewhere a.1 (f a x).1) : Elsewhere a.1 (l.foldl f a).1 := by
  induction l generalizing a with
  | nil => exact .refl _
  | cons x l ih => exact .step ih (h x a)

theorem Elsewhere.foldl {α : Type} {f : State → α → State} {l : List α} (h : ∀ a ∈ l, ∀ s, Elsewhere s (f s a)) :
    Elsewhere s (l.foldl f s) := by
  induction l generalizing s with
  | nil => exact .refl _
  | cons a l ih => exact .step (ih fun x hx => h x (.tail _ hx)) (h a (.head _) s)

theorem Elsewhere.getN (h : Elsewhere s t) (hi : 0x8000 ≤ i) : getN i k t = getN i k s := by
  rw [getN_eq, getN_eq, h.obj i k hi]

/-! The updates of the state. -/

theorem Elsewhere.of_eq (ho : t.obj = s.obj) (hb : t.berths = s.berths) : Elsewhere s t :=
  ⟨fun _ _ _ => getV_congr ho, fun _ => by rw [berth, berth, hb]⟩

/-- An object of an index below those of the commit. -/
theorem elsewhere_setV {v : Val} (hi : i < 0x7000) (hk : k < 0x100000) : Elsewhere s (setV i k v s) :=
  ⟨fun i' k' h => getV_setV_ne _ _ (by unfold key; omega), fun _ => rfl⟩

theorem elsewhere_addN {w m : Nat} (hi : i < 0x7000) (hk : k < 0x100000) : Elsewhere s (addN i k w m s) := elsewhere_setV hi hk

theorem elsewhere_berthObject {v : Val} (hb : b < 24) (hj : j < 0x40) (hk : k < 256) : Elsewhere s (setV (bi b j) k v s) :=
  elsewhere_setV (by unfold bi; omega) (by omega)

theorem elsewhere_modBerth {f : Berth → Berth} (hf : ∀ x, (f x).damaged = x.damaged) : Elsewhere s (modBerth b f s) :=
  ⟨fun _ _ _ => rfl, fun c => by
    by_cases e : c = b
    · subst e; rw [berth_modBerth_self, hf]
    · rw [berth_modBerth_ne _ _ _ e]⟩

theorem elsewhere_modStream {f : Stream → Stream} : Elsewhere s (modStream n f s) := .of_eq rfl rfl

theorem elsewhere_drawn : Elsewhere s (drawn s) := .of_eq rfl rfl

/-- Notices and logbook records (`Quiet`) have objects of their own. -/
theorem Elsewhere.of_quiet (h : Quiet s t) : Elsewhere s t :=
  ⟨fun i k hi => h.obj i k (by simp only [noticeKey, key]; omega), fun c => by rw [berth, berth, h.berths]⟩

/-! The record streams (R203-R215). -/

theorem elsewhere_ringWrite {base size at' : Nat} {l : List Byte} : Elsewhere s (ringWrite base size at' l s) :=
  Elsewhere.foldl_fst (a := (s, at')) fun _ _ => .of_eq rfl rfl

theorem elsewhere_ringStage {l : List Byte} : Elsewhere s (ringStage st l s) := by
  unfold ringStage
  exact .step elsewhere_modStream elsewhere_ringWrite

theorem elsewhere_stageBytes {l : List Nat} (hst : st < 0x100) : Elsewhere s (stageBytes st l s) := by
  have hi : ssi st 1 < 0x7000 := by unfold ssi; omega
  unfold stageBytes
  refine .ite (fun _ => .refl s) fun _ => .ite (fun _ => ?_) fun _ => ?_
  · exact .step elsewhere_ringStage elsewhere_modStream
  · exact .step (elsewhere_addN hi (by decide)) (.step elsewhere_modStream elsewhere_modStream)

theorem elsewhere_writeAnchors {l : List Anchor} (hb : b < 24) : Elsewhere s (writeAnchors b l s) := by
  have hst : ∀ {l s}, Elsewhere s (stageBytes (eventStream b) l s) := elsewhere_stageBytes (by unfold eventStream; omega)
  induction l generalizing s with
  | nil => exact elsewhere_modStream
  | cons a l ih =>
    have h : Elsewhere s (if a.lost = 0 then s else stageBytes (eventStream b) (gapBytes (sampleStream b) a.lost s) s) :=
      .ite (fun _ => .refl s) fun _ => hst
    simp only [writeAnchors]
    exact .ite (fun _ => elsewhere_modStream) fun _ => .ite (fun _ => .step elsewhere_modStream h) fun _ => .step ih (.step hst h)

theorem elsewhere_writeAnchor (hb : b < 24) : Elsewhere s (writeAnchor b s) :=
  .ite (fun _ => .refl s) fun _ => elsewhere_writeAnchors hb

theorem gapTarget_lt (hst : st < 0x100) : gapTarget st < 0x100 := by
  unfold gapTarget eventStream
  split_ifs <;> omega

theorem elsewhere_gapEntry (hst : st < 0x100) : Elsewhere s (gapEntry st s) := by
  have h : Elsewhere s (if gapTarget st < 24 then writeAnchor (gapTarget st) s else s) :=
    .ite elsewhere_writeAnchor fun _ => .refl s
  exact .ite (fun _ => .refl s) fun _ => .ite (fun _ => h) fun _ =>
    .step elsewhere_modStream (.step (elsewhere_stageBytes (gapTarget_lt hst)) h)

theorem elsewhere_berthEntry {kind : Nat} {l : List Byte} (hb : b < 24) : Elsewhere s (berthEntry b kind tm l s) := by
  have hst : eventStream b < 0x100 := by unfold eventStream; omega
  exact .step (elsewhere_stageBytes hst) (.step (elsewhere_gapEntry hst) (elsewhere_writeAnchor hb))

theorem elsewhere_harbourEntry {kind : Nat} {l : List Byte} : Elsewhere s (harbourEntry kind tm l s) :=
  .step (elsewhere_stageBytes (by decide)) (elsewhere_gapEntry (by decide))

end Sys2Proof.Machine
end

section
/-!
PROOFS: the seals of the shadow groups (R56, R57, R65, R295, R296).
-/
namespace Sys2Proof.Machine

variable {n g l i k off : Nat} {data sig : List Byte} {f : State → State} {s : State}

/-- An RWP write that passes its check raises a count of its session and changes nothing else (R296). -/
theorem rwpCheck_passed (h : (rwpCheck n i k off data sig s).1 = 0) : ∃ w, (rwpCheck n i k off data sig s).2 = { s with net := w } := by
  unfold rwpCheck at h ⊢
  split_ifs at h ⊢ with hbar
  · exact absurd h hbar
  · exact ⟨_, rfl⟩

/-- A seal or its end comes to the group's owner where the session may write, for the breakwater where the signature verifies
(R56, R296). -/
theorem sealWrite_admitted (hb : g ≠ 2 → writeBar n s = 0) (hc : g = 2 → (rwpCheck n 0x8002 (sealSub 2) 0 (toLe 4 l) sig s).1 = 0) :
    ∃ w, sealWrite n g l sig f s = f { s with net := w } := by
  unfold sealWrite
  by_cases hg : g = 2
  · subst hg
    obtain ⟨w, hw⟩ := rwpCheck_passed (hc rfl)
    refine ⟨w, ?_⟩
    rw [if_pos rfl, rwpWrite, if_pos (hc rfl), hw]
  · refine ⟨s.net, ?_⟩
    rw [if_neg hg, if_neg (not_not.2 (hb hg))]

/-- How a group stands once a write to its seal has been taken. -/
structure SealedFor (g l : Nat) (s t : State) : Prop where
  layer : sealOf g t = l
  result : t.result = s.result
  dram : t.dram = s.dram

theorem sealedFor_setN : SealedFor g l s (setN 0x8002 (sealSub g) l s) := ⟨getN_setN_self .., rfl, rfl⟩

theorem sealedFor_sealGroup (hg : g < 28) : SealedFor g l s (sealGroup g l s) := by
  unfold sealGroup
  split
  · exact sealedFor_setN
  · have hne : key 0x8002 (sealSub g) ≠ key (bi (g - 4) 5) 7 := by unfold key bi; omega
    refine ⟨?_, rfl, rfl⟩
    rw [sealOf, getN_setN_ne _ _ hne]
    exact sealedFor_setN.layer

theorem sealedFor_unsealGroup (h : reportedReady s = false) : SealedFor g 0 s (unsealGroup g s) := by
  rw [unsealGroup, h]
  exact sealedFor_setN

/-- Settles O7: a write that is admitted changes the session alone before the owner takes it, and no other object it writes is a seal. -/
theorem groupsAreSealed : Obligations.GroupsAreSealed := by
  unfold Obligations.GroupsAreSealed
  refine ⟨fun n g l sig s hr hb hc => ?_, fun n g sig s hr hb hc hn => ?_⟩
  · have hg : g < 28 := by
      have hw := hr.1
      simp only [Instr.wf, Bool.and_eq_true, decide_eq_true_eq] at hw
      omega
    obtain ⟨w, hw⟩ := sealWrite_admitted (f := sealGroup g l) (s := fresh s) hb hc
    obtain ⟨hs, hres, hd⟩ := sealedFor_sealGroup (l := l) (s := { fresh s with net := w }) hg
    refine ⟨_, (gated_run hr.1 hr.2 : execSeal n g l sig s = _), ?_⟩
    rw [hw]
    exact ⟨hs, hres, hd⟩
  · obtain ⟨w, hw⟩ := sealWrite_admitted (f := unsealGroup g) (s := fresh s) hb hc
    obtain ⟨hs, hres, hd⟩ := sealedFor_unsealGroup (g := g) (s := { fresh s with net := w }) hn
    refine ⟨_, (gated_run hr.1 hr.2 : execUnseal n g sig s = _), ?_⟩
    rw [hw]
    exact ⟨hs, hres, hd⟩

end Sys2Proof.Machine
end

section
/-!
PROOFS: the commit request, its window, its time-out and its abort (R60, R62, R64).
-/
namespace Sys2Proof.Machine

variable {L b k n : Nat} {l : List Item} {s : State}

/-! A request (R60, R65). -/

/-- The state in which a request for L waits for its window. -/
def waitingFor (L : Nat) (s : State) : State :=
  setN 0x8000 8 1 { s with commit := { s.commit with
    layer := L, openedAt := none, met := openingMet s, ready := false, opened := false, decided := none } }

theorem getN_waitingFor_mode : getN 0x8000 2 (waitingFor L s) = getN 0x8000 2 s := getN_setN_ne _ _ (by decide)

/-- A request that is taken waits for its window, or finds it open; its opening mode decides. -/
theorem commitRequest_taken (hw : commitWaiting s = false) (hs : s.hm.size = 1 ∨ s.hm.seatNo = 0) :
    (commitRequest L s = waitingFor L s ∧ getN 0x8000 2 s ≠ 0) ∨
      (commitRequest L s = openWindow (waitingFor L s) ∧ getN 0x8000 2 s ≠ 1) := by
  have hn : ¬ (commitWaiting s = true ∨ s.hm.size ≠ 1 ∧ s.hm.seatNo ≠ 0) := by
    rintro (h | ⟨h1, h0⟩)
    · rw [hw] at h; cases h
    · exact hs.elim h1 h0
  rw [← getN_waitingFor_mode (L := L)]
  unfold commitRequest
  rw [if_neg hn]
  dsimp only
  split
  next h0 => exact .inr ⟨rfl, fun h1 => absurd (h0.symm.trans h1) (by decide)⟩
  next h2 =>
    split
    · exact .inr ⟨rfl, fun h1 => absurd (h2.symm.trans h1) (by decide)⟩
    · exact .inl ⟨rfl, fun h0 => absurd (h2.symm.trans h0) (by decide)⟩
  next h0 _ => exact .inl ⟨rfl, h0⟩

/-! The window opens (R60, R62). -/

/-- How the sequencer stands in an open window. -/
structure WindowOpen (s t : State) : Prop where
  status : getN 0x8000 8 t = 2
  since : t.commit.openedAt = some s.now

theorem windowOpen_openWindow : WindowOpen s (openWindow s) := ⟨getN_setN_self .., rfl⟩

theorem lockWindowOpen_met (h1 : getN 0x8000 8 s = 1) (hl : layerHeld s = false)
    (h : getN 0x8000 2 s = 1 ∧ openingMet s = true ∧ s.commit.met = false ∨ getN 0x8000 2 s = 2 ∧ openingDue s = true) :
    lockWindowOpen s = openWindow s := by
  unfold lockWindowOpen
  rw [if_neg (by rw [h1, hl]; decide)]
  rcases h with ⟨hm, ho, hn⟩ | ⟨hm, hd⟩
  · simp only [hm]
    exact if_pos ⟨ho, by rw [hn]; rfl⟩
  · simp only [hm]
    exact if_pos hd

/-! What a commit misses is no matter of the outputs, the result or the flash. -/

/-- s with other outputs, another result and another flash. -/
def beside (o : List Out) (r : Nat) (f : Flash) (s : State) : State := { s with out := o, result := r, flash := f }

section
variable {o : List Out} {r : Nat} {f : Flash} {p : Nat}

theorem samePath_beside : SamePath b s (beside o r f s) := ⟨rfl, rfl, rfl, rfl⟩

theorem slotSegs_beside : slotSegs b k (beside o r f s) = slotSegs b k s := samePath_beside.segsFrom (b := b)

theorem partnersOf_beside : partnersOf b k (beside o r f s) = partnersOf b k s := by simp only [partnersOf, slotSegs_beside]

theorem generationItem_beside : generationItem L b k (beside o r f s) = generationItem L b k s := by
  simp only [generationItem, partnersOf_beside]
  rfl

theorem pairedWith_beside : pairedWith L b k p (beside o r f s) = pairedWith L b k p s := by
  simp only [pairedWith, handoversWith, slotSegs_beside]
  rfl

theorem pairingItem_beside : pairingItem L b k (beside o r f s) = pairingItem L b k s := by
  simp only [pairingItem, partnersOf_beside, pairedWith_beside]

theorem extentItem_beside : extentItem L b k (beside o r f s) = extentItem L b k s := by
  simp only [extentItem, slotSegs_beside]
  rfl

theorem missing_beside : missing L (beside o r f s) = missing L s := by
  simp only [missing, ownItems, generationItem_beside, pairingItem_beside, extentItem_beside]
  rfl

end

theorem storeBreakwater_beside : ∃ f, storeBreakwater L (fresh s) = beside [] 0 f s := by
  unfold storeBreakwater
  split
  · exact ⟨_, rfl⟩
  · split
    · exact ⟨_, rfl⟩
    · exact ⟨_, rfl⟩

/-! A request that is not ready by its time-out (R62, R63). -/

/-- What a commit that left items shows. -/
structure FailedWith (l : List Item) (t : State) : Prop where
  status : getN 0x8000 8 t = 4
  count : getN 0x8000 0x0B t = min 256 l.length

theorem failedWith_noteMissing : FailedWith l (noteMissing L l (endCommit 4 s)) := by
  have h : ∀ {k}, getN 0x8000 k (noteMissing L l (endCommit 4 s)) = getN 0x8000 k (setMissing l (endCommit 4 s)) :=
    (Elsewhere.of_quiet (quiet_noticeLog ..)).getN (by decide)
  have hb : ∀ {k v u}, k ≠ 0x0C → getN 0x8000 k (setB 0x8000 0x0C v u) = getN 0x8000 k u := fun hk => by
    rw [getN_eq, getN_eq, setB, getV_setV_ne _ _ (by unfold key; omega)]
  constructor
  · rw [h, setMissing, hb (by decide), getN_setN_ne _ _ (by decide), endCommit, getN_setN_self]
  · rw [h, setMissing, hb (by decide), getN_setN_self, List.length_take]

theorem lockTimeout_missing (h2 : getN 0x8000 8 s = 2) (hd : s.commit.decided = none) (h1 : s.hm.size = 1)
    (hm : missing s.commit.layer s ≠ []) : FailedWith (missing s.commit.layer s) (lockTimeout (fresh s)) := by
  obtain ⟨f, hf⟩ := storeBreakwater_beside (L := s.commit.layer) (s := s)
  have hn : ¬ (getN 0x8000 8 (fresh s) ≠ 2 ∨ (fresh s).commit.decided.isSome) := by
    rintro (h | h)
    · exact h h2
    · simp [fresh, hd] at h
  unfold lockTimeout
  rw [if_neg hn]
  dsimp only
  rw [show (fresh s).commit.layer = s.commit.layer from rfl, hf, missing_beside, if_neg hm,
    if_pos (show (beside [] 0 f s).hm.size = 1 from h1)]
  have hs := failedWith_noteMissing (L := s.commit.layer) (l := missing s.commit.layer s) (s := beside [] 0 f s)
  exact ⟨(elsewhere_harbourEntry.getN (by decide)).trans hs.status, (elsewhere_harbourEntry.getN (by decide)).trans hs.count⟩

/-! The abort (R64, R65). -/

theorem commitAbort_taken (hs : s.hm.size = 1 ∨ s.hm.seatNo = 0) (hw : commitWaiting s = true) (hd : s.commit.decided = none) :
    commitAbort s = endCommit 5 s := by
  refine if_neg ?_
  rintro (⟨h1, h0⟩ | h | h)
  · exact hs.elim h1 h0
  · rw [hw] at h; cases h
  · rw [hd] at h; cases h

/-- Settles O8: the opening mode decides whether a request that is taken finds its window open; nothing that a time-out does after the
missing items are put touches the sequencer. -/
theorem commitRequestAndWindow : Obligations.CommitRequestAndWindow := by
  unfold Obligations.CommitRequestAndWindow
  refine ⟨fun L s hr hw hs => ?_, fun s hr h1 hl h => ?_, fun s hr h2 hd h1 hm => ?_, fun s hr hs hw hd => ?_⟩
  · refine ⟨_, (gated_run hr.1 hr.2 : execCommitRequest L s = _), ?_⟩
    rcases commitRequest_taken (L := L) (s := fresh s) hw hs with ⟨he, h0⟩ | ⟨he, h1⟩
    · rw [he]
      exact ⟨rfl, rfl, fun h => absurd h h0, fun _ => ⟨getN_setN_self .., rfl⟩⟩
    · obtain ⟨hst, hsince⟩ := windowOpen_openWindow (s := waitingFor L (fresh s))
      rw [he]
      exact ⟨rfl, rfl, fun _ => ⟨hst, hsince⟩, fun h => absurd h h1⟩
  · obtain ⟨hst, hsince⟩ := windowOpen_openWindow (s := fresh s)
    refine ⟨_, (gated_run hr.1 hr.2 : execLockWindowOpen s = _), ?_⟩
    rw [lockWindowOpen_met (s := fresh s) h1 hl h]
    exact ⟨hst, hsince⟩
  · obtain ⟨hst, hcount⟩ := lockTimeout_missing h2 hd h1 hm
    exact ⟨_, (gated_run hr.1 hr.2 : execLockTimeout s = _), hst, hcount⟩
  · refine ⟨_, (gated_run hr.1 hr.2 : execCommitAbort s = _), ?_⟩
    rw [commitAbort_taken (s := fresh s) hs hw hd]
    exact ⟨getN_setN_self .., rfl⟩

end Sys2Proof.Machine
end

section
/-!
PROOFS, the layer of facts: the resume of a berth (R36, R90, R102, R110) serves no manifest queue.
-/
namespace Sys2Proof.Machine

variable {s t : State} {b i k n ri : Nat} {p : Pt} {tm : Time} {l : List Nat}

/-! A berth enters a state (R89). -/

theorem elsewhere_updateLen : Elsewhere s (updateLen b tm s) := by
  obtain ⟨v, q, h⟩ := berth_updateLen (b := b) (tm := tm) (s := s)
  refine ⟨fun _ _ _ => getV_congr updateLen_obj, fun c => ?_⟩
  by_cases e : c = b
  · subst e; rw [h]
  · rw [(acts_updateLen (σ := .all (· = b)) rfl fun _ _ _ => rfl).berth c e]

theorem elsewhere_enterState (hb : b < 24) : Elsewhere s (enterState b n tm s) := by
  unfold enterState
  exact .step elsewhere_updateLen <|
    .step (.ite (fun _ => elsewhere_modStream) fun _ => .refl _) (elsewhere_berthObject hb (by decide) (by decide))

/-! The motion of a berth, in its record alone. -/

theorem elsewhere_onPlan {l : List Phase} : Elsewhere s (onPlan b l p s) := elsewhere_modBerth fun _ => rfl

theorem elsewhere_setDone {f : Event → Bool} : Elsewhere s (setDone b f s) := by
  unfold setDone
  exact elsewhere_modBerth fun _ => rfl

theorem elsewhere_toRunUp {r : Rec} {join : Int} : Elsewhere s (toRunUp b ri r join p tm s) := by
  unfold toRunUp
  exact .step (elsewhere_modBerth fun _ => rfl) elsewhere_onPlan

theorem elsewhere_beginRecord : Elsewhere s (beginRecord b ri p tm s) := by
  unfold beginRecord
  split
  · exact elsewhere_onPlan
  · refine .ite (fun _ => .step (elsewhere_modBerth fun _ => rfl) elsewhere_onPlan) fun _ => .ite (fun _ => elsewhere_onPlan) fun _ =>
      .ite (fun _ => elsewhere_toRunUp) fun _ => .ite (fun _ => .step elsewhere_onPlan (elsewhere_modBerth fun _ => rfl)) fun _ => ?_
    dsimp only
    exact .ite (fun _ => elsewhere_onPlan) fun _ => elsewhere_onPlan

theorem elsewhere_resumePath {join : Option Int} : Elsewhere s (resumePath b join tm s) := by
  have hm : ∀ {f : Berth → Berth} {s : State}, (∀ x, (f x).damaged = x.damaged) → Elsewhere s (modBerth b f s) := elsewhere_modBerth
  unfold resumePath
  dsimp only
  split
  · exact .step elsewhere_toRunUp <| .step elsewhere_setDone <| .step (hm fun _ => rfl) (hm fun _ => rfl)
  · exact .ite (fun _ => .step elsewhere_setDone <| .step (hm fun _ => rfl) <| .step elsewhere_onPlan (hm fun _ => rfl)) fun _ =>
      .step elsewhere_beginRecord <| .step elsewhere_setDone <| .step (hm fun _ => rfl) (hm fun _ => rfl)

/-! The answer to a resume. -/

theorem elsewhere_resumeRefused {new : Int} : Elsewhere s (resumeRefused b i k new tm s) :=
  .step (.of_quiet (quiet_noticeAt ..)) (.of_eq rfl rfl)

theorem elsewhere_resumeGranted {mW : Nat} (hb : b < 24) : Elsewhere s (resumeGranted b mW tm s) := by
  unfold resumeGranted
  exact .step (elsewhere_enterState hb) <| .step (elsewhere_modBerth fun _ => rfl) <|
    .step (elsewhere_berthObject hb (by decide) (by decide)) (elsewhere_berthEntry hb)

theorem elsewhere_withJoin {join : Int} : Elsewhere s (withJoin b join s) := elsewhere_modBerth fun _ => rfl

theorem elsewhere_resumeAll {l : List (Nat × Option Int)} (hl : ∀ x ∈ l, x.1 < 24) : Elsewhere s (resumeAll l tm s) := by
  have hp : ∀ s, Elsewhere s (l.foldl (fun s x => resumePath x.1 x.2 tm s) s) := fun _ => .foldl fun _ _ _ => elsewhere_resumePath
  unfold resumeAll
  split
  · exact elsewhere_resumeRefused
  · dsimp only
    split
    · exact elsewhere_resumeRefused
    · exact .step (.foldl fun x hx _ => elsewhere_resumeGranted (hl x hx)) (hp s)

theorem elsewhere_resumeHalf {r : Rec} (hb : b < 24) : Elsewhere s (resumeHalf b r tm s) := by
  have hl : ∀ {j}, ∀ x ∈ [(b, (j : Option Int))], x.1 < 24 := by simpa using hb
  exact .ite (fun _ => .step (elsewhere_resumeAll hl) elsewhere_drawn) fun _ => .step (elsewhere_resumeAll hl) elsewhere_withJoin

theorem localBerth_lt {h : Nat} (e : localBerth h s = some b) : b < 24 := by
  unfold localBerth at e
  split at e
  · cases e; omega
  · cases e

theorem elsewhere_resume (hb : b < 24) : Elsewhere s (resume b tm s) := by
  have hl : ∀ {x y : Nat} {j j' : Option Int}, x < 24 → y < 24 → ∀ z ∈ [(x, j), (y, j')], z.1 < 24 := fun hx hy => by simp [hx, hy]
  unfold resume
  refine .ite (fun _ => elsewhere_resumeRefused) fun _ => ?_
  split
  · exact .step (elsewhere_resumeAll (by simpa using hb)) elsewhere_withJoin
  · dsimp only
    split
    · exact .ite (fun _ => .step (elsewhere_resumeHalf hb) elsewhere_drawn) fun _ => .step elsewhere_resumeRefused elsewhere_drawn
    next hp =>
      have hp := localBerth_lt hp
      exact .ite (fun _ => elsewhere_resumeRefused) fun _ => .ite
        (fun _ => .step (elsewhere_resumeAll (hl hp hb)) elsewhere_withJoin)
        fun _ => .step (elsewhere_resumeAll (hl hb hp)) elsewhere_withJoin

end Sys2Proof.Machine
end

section
/-!
PROOFS, the layer of facts: a stop of one berth alone reaches no other (R31-R35), and one of the strength Faulted ends in Faulted, in a
handover window too (R40, R109).
-/
namespace Sys2Proof.Machine

variable {s t : State} {b c n k place strength cause other : Nat} {tm : Time}

/-- Anything, on berth b. -/
abbrev Scope.own (b : Nat) : Scope := .all (· = b)

theorem acts_stopped_own : Acts (.own b) s (stopped b n cause strength tm s) := acts_stopped.all fun _ => id

theorem acts_setResume_own {ri power kind re : Nat} {arc reArc : Int} : Acts (.own b) s (setResume b ri arc power tm kind re reArc s) :=
  acts_setResume rfl fun _ => trivial

theorem acts_decelerate_own : Acts (.own b) s (decelerate b tm s) := acts_decelerate rfl fun _ _ _ => rfl

/-- However an Exposing berth stands, a pause at once works on it alone and stops it, of the strength Faulted in Faulted. -/
theorem pauseExposing_own : ∃ n u r, pauseExposing b cause strength tm s = stopped b n cause strength u r ∧ Acts (.own b) s r ∧
    (strength = 3 → n = 5) := by
  have hr : ∀ {ri arc power t' kind re reArc}, Acts (.own b) s (decelerate b tm (setResume b ri arc power t' kind re reArc s)) :=
    .step acts_decelerate_own acts_setResume_own
  unfold pauseExposing
  split
  · exact ⟨_, _, _, rfl, hr, fun h => by simp [h]⟩
  · dsimp only
    split
    · exact ⟨_, _, _, rfl, hr, fun h => by simp [h]⟩
    · split
      · exact ⟨_, _, _, rfl, acts_decelerate_own, fun h => by simp [h]⟩
      · exact ⟨_, _, _, rfl, hr, fun h => by simp [h]⟩

theorem acts_pauseExposing_own : Acts (.own b) s (pauseExposing b cause strength tm s) := by
  obtain ⟨n, u, r, he, hr, -⟩ := pauseExposing_own (b := b) (cause := cause) (strength := strength) (tm := tm) (s := s)
  exact he ▸ .step acts_stopped_own hr

theorem acts_pauseToSafe_own : Acts (.own b) s (pauseToSafe b cause tm s) := by
  unfold pauseToSafe
  refine .ite (fun _ => acts_pauseExposing_own) fun _ => .ite (fun _ => .refl s) fun _ => ?_
  split
  · exact acts_modBerth rfl fun _ => rfl
  · exact .step acts_pauseExposing_own acts_drawn

theorem acts_stopOne_own : Acts (.own b) s (stopOne b strength cause tm s) := by
  unfold stopOne
  split
  · exact .ite (fun _ => .step acts_stopped_own acts_setResume_own) fun _ => .refl s
  · exact .step acts_stopped_own acts_setResume_own
  · exact .ite (fun _ => acts_pauseToSafe_own) fun _ => .ite (fun _ => acts_pauseExposing_own) fun _ => .step acts_pauseExposing_own acts_drawn
  · exact .refl s
  · refine .ite (fun _ => acts_stopped_own) fun _ => .ite (fun _ => ?_) fun _ => .refl s
    exact .step (acts_modBerth rfl fun _ => rfl) (acts_setV_own rfl trivial (by decide) (by decide))

theorem acts_stopHalf_own : Acts (.own b) s (stopHalf b place cause tm s) := by
  unfold stopHalf
  split
  · exact .refl s
  · exact .ite (fun _ => .step acts_stopped_own (.step acts_decelerate_own acts_setResume_own)) fun _ => acts_modBerth rfl fun _ => rfl
  · exact acts_stopOne_own

/-! The strength Faulted (R40). -/

theorem bState_pauseExposing_faulted (hb : b < 24) : bState b (pauseExposing b cause 3 tm s) = 5 := by
  obtain ⟨n, u, r, he, -, hn⟩ := pauseExposing_own (b := b) (cause := cause) (strength := 3) (tm := tm) (s := s)
  rw [he, hn rfl, (stopped_spec hb).state]

theorem bState_stopOne_faulted (hb : b < 24) : bState b (stopOne b 3 cause tm s) = 5 := by
  unfold stopOne
  split
  · exact (stopped_spec hb).state
  · exact (stopped_spec hb).state
  · rw [if_neg (by decide)]
    split
    · exact bState_pauseExposing_faulted hb
    · exact bState_pauseExposing_faulted hb
  · assumption
  · exact (stopped_spec hb).state

/-- The common time of a pair's resume points is no state of a berth. -/
theorem bState_sameTime : bState c (sameTime b n s) = bState c s := by
  have hne : ∀ a, key (bi c 0) 1 ≠ key (bi a 1) 5 := fun a => key_bi_ne (by decide) (by decide) (by decide) (by decide) (by simp)
  unfold sameTime
  dsimp only
  split
  · rw [bState, getN_setN_ne _ _ (hne _), getN_setN_ne _ _ (hne _), bState]
  · rfl

theorem bState_stopPair_faulted (hb : b < 24) : bState b (stopPair b 3 cause other tm s) = 5 := by
  unfold stopPair
  dsimp only
  rw [if_pos rfl]
  split
  · exact bState_stopOne_faulted hb
  next p hp =>
    have hpb : b ≠ p := fun e => by simp [e, Option.filter_eq_some_iff] at hp
    rw [bState_sameTime, acts_stopHalf_own.bState hb (.inl hpb), bState_stopOne_faulted hb]

theorem bState_stopBerth_faulted (hb : b < 24) : bState b (stopBerth b 3 cause tm s) = 5 := by
  unfold stopBerth
  split
  · exact bState_stopPair_faulted hb
  · exact bState_stopOne_faulted hb

end Sys2Proof.Machine
end

section
/-!
PROOFS: the slots of a manifest queue (R52-R55, R403).
-/
namespace Sys2Proof.Machine

variable {s t : State} {b k j n len : Nat} {d : List Byte}

/-! What a slot reads after another object of its queue is put. -/

theorem getN_setN_sub {i v : Nat} (h : j ≠ k) : getN i j (setN i k v s) = getN i j s := getN_setN_ne _ _ (by unfold key; omega)

@[simp] theorem slotState_setSlot : slotState b k (setSlot b k n s) = n := getN_setN_self ..

@[simp] theorem slotLayer_setSlotLayer : slotLayer b k (setSlotLayer b k n s) = n := getN_setN_self ..

theorem slotLayer_setSlot (hk : k < 4) (hj : j < 4) : slotLayer b k (setSlot b j n s) = slotLayer b k s := getN_setN_sub (by omega)

theorem slotState_setSlotLayer (hk : k < 4) (hj : j < 4) : slotState b k (setSlotLayer b j n s) = slotState b k s :=
  getN_setN_sub (by omega)

/-- The window offset lies below the slots' states and layers. -/
theorem getN_offset_emptySlot : getN (qi b) 2 (emptySlot b k s) = getN (qi b) 2 s :=
  (getN_setN_sub (by omega)).trans (getN_setN_sub (by omega))

theorem slotState_emptySlot (hk : k < 4) : slotState b k (emptySlot b k s) = 0 :=
  (slotState_setSlotLayer hk hk).trans slotState_setSlot

theorem slotLayer_emptySlot : slotLayer b k (emptySlot b k s) = 0 := slotLayer_setSlotLayer

/-! Loading and closing (R52). -/

/-- Load data that nothing refuses: the bytes enter, the window moves on, and the slot starts anew in Loading. -/
theorem loadData_taken (hm : memoryFailed s = false) (h2 : slotState b (slotSelect b s) s ≠ 2) (h3 : slotState b (slotSelect b s) s ≠ 3)
    (h5 : slotState b (slotSelect b s) s ≠ 5) (h6 : slotState b (slotSelect b s) s ≠ 6) (hl : getN (qi b) 2 s + d.length ≤ slotSize s) :
    loadData b d s = setSlot b (slotSelect b s) 1 (emptySlot b (slotSelect b s) (setN (qi b) 2 (getN (qi b) 2 s + d.length)
      (dramFresh (slotBase b (slotSelect b s) s + getN (qi b) 2 s) d s))) := by
  unfold loadData
  dsimp only
  rw [if_neg (by simp [hm, h2, h3, h5]), if_neg (by omega), if_neg (fun h => h6 h.1), if_neg h6]

theorem closeLength_taken (h2 : slotState b (slotSelect b s) s ≠ 2) (h3 : slotState b (slotSelect b s) s ≠ 3)
    (h5 : slotState b (slotSelect b s) s ≠ 5) (h6 : slotState b (slotSelect b s) s ≠ 6) :
    closeLength b len s = setSlot b (slotSelect b s) 2 (modBerth b (fun x => { x with closeLens := x.closeLens.put (slotSelect b s) len }) s) := by
  unfold closeLength
  dsimp only
  rw [if_neg (by simp [h2, h3, h5]), if_neg h6]

/-! Validation (R52, R53, R403). -/

/-- The layer of the header stands before the slot's checks are judged, and they alone decide its state. -/
theorem validationComplete_spec (hk : k < 4) (h : slotState b k s = 2) :
    let t := validationComplete b k s
    slotLayer b k t = header (slotBase b k s) 8 4 s ∧ t.dram = s.dram ∧ slotState b k t =
      if (validate b k ((berth b s).closeLens.getD k 0) (setSlotLayer b k (header (slotBase b k s) 8 4 s) s)).isNone then 3 else 4 := by
  have hc : (berth b (setSlotLayer b k (header (slotBase b k s) 8 4 s) s)).closeLens = (berth b s).closeLens := rfl
  unfold validationComplete
  rw [if_neg (not_not.2 h)]
  dsimp only
  rw [hc]
  split
  next hv =>
    refine ⟨?_, rfl, ?_⟩
    · rw [slotLayer_setSlot hk hk, slotLayer_setSlotLayer]
    · rw [hv, slotState_setSlot]; rfl
  next hv =>
    refine ⟨?_, rfl, ?_⟩
    · rw [slotLayer, getN_setN_sub (by omega), getN_setN_sub (by omega)]
      exact (slotLayer_setSlot hk hk).trans slotLayer_setSlotLayer
    · rw [hv, slotState, getN_setN_sub (by omega), getN_setN_sub (by omega)]
      exact slotState_setSlot

/-! Repair (R55). -/

theorem elsewhere_withResult : Elsewhere s (withResult n s) := .of_eq rfl rfl

theorem elsewhere_resumeRepaired (hb : b < 24) : Elsewhere s (resumeRepaired b s) := by
  unfold resumeRepaired
  exact .ite (fun _ => elsewhere_modBerth fun _ => rfl) fun _ =>
    .ite (fun _ => .step elsewhere_withResult (elsewhere_resume hb)) fun _ => .refl s

/-- A repaired slot whose contents match their check is In force again; the berth then goes on (R55). -/
theorem repairComplete_matched (hb : b < 24) (hk : k < 4) (h : slotState b k s = 6) (hl : (berth b s).closeLens.find k = some len)
    (hc : crc32c (dramRead (slotBase b k s + 64) (header (slotBase b k s) 0x24 4 s - 64) s) = header (slotBase b k s) 0x38 4 s) :
    let t := repairComplete b k s
    slotState b k t = 5 ∧ getN (qi b) 0x10 t = 0 ∧ (berth b t).damaged = none := by
  have he : repairComplete b k s = resumeRepaired b (setN (qi b) 0x10 0 (modBerth b (fun x => { x with damaged := none })
      (setSlot b k 5 (modBerth b (fun x => { x with closeLens := x.closeLens.del k }) s)))) := by
    unfold repairComplete
    rw [if_neg (not_not.2 h), hl]
    exact if_neg (not_not.2 hc)
  have hq : 0x8000 ≤ qi b := by unfold qi; omega
  intro t
  simp only [t, he]
  refine ⟨?_, ?_, ?_⟩
  · rw [slotState, (elsewhere_resumeRepaired hb).getN hq, getN_setN_sub (by omega)]
    exact slotState_setSlot
  · rw [(elsewhere_resumeRepaired hb).getN hq, getN_setN_self]
  · rw [(elsewhere_resumeRepaired hb).damaged, setN_eq, berth_setV, berth_modBerth_self]

/-! The slot clear and no host copy (R40, R52, R55, R65). -/

theorem slotClear_taken (h2 : slotState b k s ≠ 2) (h5 : slotState b k s ≠ 5) (h6 : slotState b k s ≠ 6) (hr : reportedReady s = false) :
    slotClear b k s = emptySlot b k s :=
  if_neg (by simp [h2, h5, h6, hr])

theorem noHostCopy_damaged (hk : k < 4) (h : slotState b k s = 6) : noHostCopy b s = stopBerth b 3 0x0080 s.now s := by
  have hd : (List.range 4).any (fun k => slotState b k s == 6) = true :=
    List.any_eq_true.2 ⟨k, List.mem_range.2 hk, beq_iff_eq.2 h⟩
  exact if_pos hd

/-- A berth and a slot that a well-formed command names. -/
theorem slot_bounds (h : (berthOk b && decide (k < 4)) = true) : b < 24 ∧ k < 4 := by
  simpa [berthOk] using h

/-- Settles O5: each write of a queue puts objects of its own, and neither the resume after a repair nor the stop without a host copy
reaches a slot. -/
theorem manifestSlots : Obligations.ManifestSlots := by
  unfold Obligations.ManifestSlots
  refine ⟨fun b d s hr hwf hm h2 h3 h5 h6 hk hl => ?_, fun b len s hr hk h2 h3 h5 h6 => ?_, fun b k s hr h => ?_,
    fun b k len s hr h hlen hc => ?_, fun b k s hr h2 h5 h6 hn => ?_, fun b k s hr hk h => ?_⟩
  · refine ⟨_, (gated_run hr.1 hr.2 : execLoadData b d s = _), ?_⟩
    rw [loadData_taken (s := fresh s) hm h2 h3 h5 h6 hl]
    refine ⟨slotState_setSlot, ?_, readBytes_writeBytes_self hwf, fun a ha => readByte_writeBytes_out hwf ha⟩
    rw [setSlot, getN_setN_sub (by omega), getN_offset_emptySlot, getN_setN_self]
    rfl
  · refine ⟨_, (gated_run hr.1 hr.2 : execCloseLength b len s = _), ?_⟩
    rw [closeLength_taken (s := fresh s) h2 h3 h5 h6]
    refine ⟨slotState_setSlot, ?_, rfl⟩
    rw [setSlot, setN_eq, berth_setV, berth_modBerth_self]
    exact Tab.find_put_self ..
  · obtain ⟨hl, hd, hst⟩ := validationComplete_spec (s := fresh s) (slot_bounds hr.1).2 h
    exact ⟨_, (gated_run hr.1 hr.2 : execValidationComplete b k s = _), hl, hd, hst⟩
  · obtain ⟨hb, hk⟩ := slot_bounds hr.1
    obtain ⟨hst, hq, hd⟩ := repairComplete_matched (s := fresh s) hb hk h hlen hc
    exact ⟨_, (gated_run hr.1 hr.2 : execRepairComplete b k s = _), hst, hq, hd⟩
  · refine ⟨_, (gated_run hr.1 hr.2 : execSlotClear b k s = _), ?_⟩
    rw [slotClear_taken (s := fresh s) h2 h5 h6 hn]
    exact ⟨slotState_emptySlot (slot_bounds hr.1).2, slotLayer_emptySlot, rfl, rfl⟩
  · refine ⟨_, (gated_run hr.1 hr.2 : execNoHostCopy b s = _), ?_⟩
    rw [noHostCopy_damaged (s := fresh s) hk h]
    exact bState_stopBerth_faulted (of_decide_eq_true hr.1)

end Sys2Proof.Machine
end

section
/-!
PROOFS, the layer of facts: a berth's stop and its reports leave the objects of the chip as a whole alone (`ChipStands`): those below the
loops' and berths' indexes, but for the places of the notices.
-/
namespace Sys2Proof.Machine

/-- The objects of the chip as a whole, below 0x1000, are as they were, but for those of notices and logbook records. -/
def ChipStands (s t : State) : Prop := ∀ i k, i < 0x1000 → k < 256 → ¬ noticeKey (key i k) → getV i k t = getV i k s

variable {s t u : State} {b i k n st ri place cause strength kind re : Nat} {arc reArc : Int} {tm : Time}

theorem ChipStands.refl (s : State) : ChipStands s s := fun _ _ _ _ _ => rfl

/-- `ChipStands` after a step, in the order a proof meets them. -/
theorem ChipStands.step (h : ChipStands t u) (h' : ChipStands s t) : ChipStands s u :=
  fun i k hi hk hn => (h i k hi hk hn).trans (h' i k hi hk hn)

theorem ChipStands.ite {c : Prop} [Decidable c] (h : c → ChipStands s t) (h' : ¬ c → ChipStands s u) :
    ChipStands s (if c then t else u) := by
  split
  · exact h ‹_›
  · exact h' ‹_›

theorem ChipStands.foldl_fst {α β : Type} {f : State × β → α → State × β} {l : List α} {a : State × β}
    (h : ∀ x a, ChipStands a.1 (f a x).1) : ChipStands a.1 (l.foldl f a).1 := by
  induction l generalizing a with
  | nil => exact .refl _
  | cons x l ih => exact .step ih (h x a)

theorem ChipStands.of_eq (h : t.obj = s.obj) : ChipStands s t := fun _ _ _ _ _ => getV_congr h

theorem ChipStands.of_quiet (h : Quiet s t) : ChipStands s t := fun i k _ _ hn => h.obj i k hn

theorem chip_setV {v : Val} (hi : 0x1000 ≤ i) : ChipStands s (setV i k v s) :=
  fun i' k' h hk _ => getV_setV_ne _ _ (by unfold key; omega)

theorem chip_addN {w m : Nat} (hi : 0x1000 ≤ i) : ChipStands s (addN i k w m s) := chip_setV hi

theorem chip_berthObject {j : Nat} {v : Val} : ChipStands s (setV (bi b j) k v s) := chip_setV (by unfold bi; omega)

theorem chip_modBerth {f : Berth → Berth} : ChipStands s (modBerth b f s) := .of_eq rfl

theorem chip_modStream {f : Stream → Stream} : ChipStands s (modStream n f s) := .of_eq rfl

/-! The record streams. -/

theorem chip_ringWrite {base size at' : Nat} {l : List Byte} : ChipStands s (ringWrite base size at' l s) :=
  ChipStands.foldl_fst (a := (s, at')) fun _ _ => .of_eq rfl

theorem chip_stageBytes {l : List Nat} : ChipStands s (stageBytes st l s) := by
  unfold stageBytes
  refine .ite (fun _ => .refl s) fun _ => .ite (fun _ => .step (.step chip_modStream chip_ringWrite) chip_modStream) fun _ => ?_
  exact .step (chip_addN (by unfold ssi; omega)) (.step chip_modStream chip_modStream)

theorem chip_writeAnchors {l : List Anchor} : ChipStands s (writeAnchors b l s) := by
  induction l generalizing s with
  | nil => exact chip_modStream
  | cons a l ih =>
    have h : ChipStands s (if a.lost = 0 then s else stageBytes (eventStream b) (gapBytes (sampleStream b) a.lost s) s) :=
      .ite (fun _ => .refl s) fun _ => chip_stageBytes
    simp only [writeAnchors]
    exact .ite (fun _ => chip_modStream) fun _ => .ite (fun _ => .step chip_modStream h) fun _ => .step ih (.step chip_stageBytes h)

theorem chip_writeAnchor : ChipStands s (writeAnchor b s) := .ite (fun _ => .refl s) fun _ => chip_writeAnchors

theorem chip_gapEntry : ChipStands s (gapEntry st s) := by
  have h : ChipStands s (if gapTarget st < 24 then writeAnchor (gapTarget st) s else s) :=
    .ite (fun _ => chip_writeAnchor) fun _ => .refl s
  exact .ite (fun _ => .refl s) fun _ => .ite (fun _ => h) fun _ => .step chip_modStream (.step chip_stageBytes h)

theorem chip_berthEntry {l : List Byte} : ChipStands s (berthEntry b kind tm l s) :=
  .step chip_stageBytes (.step chip_gapEntry chip_writeAnchor)

theorem chip_harbourEntry {l : List Byte} : ChipStands s (harbourEntry kind tm l s) := .step chip_stageBytes chip_gapEntry

theorem chip_handoverRefused {code giver taker : Nat} : ChipStands s (handoverRefused code giver taker tm s) :=
  .step chip_harbourEntry <| .step (.of_quiet (quiet_noticeAt ..)) <| .step (chip_addN (by decide)) (chip_setV (by decide))

/-! The stop of a berth. -/

theorem chip_setGate {v : Bool} : ChipStands s (setGate b v tm s) := .ite (fun _ => .refl s) fun _ => .of_eq rfl

theorem chip_endRun {last : Nat} : ChipStands s (endRun b last tm s) := by
  unfold endRun
  exact .ite (fun _ => .refl s) fun _ => .step chip_modBerth chip_berthEntry

theorem chip_closeWindow : ChipStands s (closeWindow b s) := by
  unfold closeWindow
  exact .ite (fun _ => chip_modBerth) fun _ => .step chip_harbourEntry (.step (chip_addN (by decide)) chip_modBerth)

theorem chip_quiet : ChipStands s (quiet b tm s) := by
  have h : ChipStands s (if windowPassed b tm s then closeWindow b s else s) := .ite (fun _ => chip_closeWindow) fun _ => .refl s
  unfold quiet
  exact .step chip_modBerth <| .step chip_berthObject <| .step chip_berthObject <| .step chip_setGate <| .step chip_endRun h

theorem chip_enterState : ChipStands s (enterState b n tm s) := .step (.of_eq enterState_obj) chip_berthObject

theorem chip_trigger {p : Prop} [Decidable p] {l : List Nat} :
    ChipStands s (if p then { s with hm := { s.hm with trigger := l } } else s) :=
  .ite (fun _ => .of_eq rfl) fun _ => .refl s

theorem chip_noteStop {before : Nat} : ChipStands s (noteStop b cause before tm s) :=
  .step chip_berthEntry (.of_quiet (quiet_noticeLogAt ..))

theorem chip_stopped : ChipStands s (stopped b n cause strength tm s) := by
  unfold stopped
  exact .step chip_noteStop <| .step chip_enterState <| .step chip_trigger <| .step chip_modBerth <| .step chip_berthObject chip_quiet

theorem chip_setResume {power : Nat} : ChipStands s (setResume b ri arc power tm kind re reArc s) := by
  unfold setResume
  exact .step chip_berthObject <| .step chip_berthObject <| .step chip_berthObject <| .step chip_berthObject <|
    .step chip_berthObject <| .step chip_berthObject chip_berthObject

theorem chip_decelerate : ChipStands s (decelerate b tm s) := by
  unfold decelerate
  split
  · exact chip_modBerth
  · exact chip_modBerth

theorem chip_pauseExposing : ChipStands s (pauseExposing b cause strength tm s) := by
  have h : ∀ {n u ri arc power t' kind re reArc}, ChipStands s (stopped b n cause strength u
      (decelerate b tm (setResume b ri arc power t' kind re reArc s))) := .step chip_stopped (.step chip_decelerate chip_setResume)
  unfold pauseExposing
  split
  · exact h
  · dsimp only
    split
    · exact h
    · exact .ite (fun _ => .step chip_stopped chip_decelerate) fun _ => h

theorem chip_pauseToSafe : ChipStands s (pauseToSafe b cause tm s) := by
  unfold pauseToSafe
  refine .ite (fun _ => chip_pauseExposing) fun _ => .ite (fun _ => .refl s) fun _ => ?_
  split
  · exact chip_modBerth
  · exact .step chip_pauseExposing (.of_eq rfl)

theorem chip_stopOne : ChipStands s (stopOne b strength cause tm s) := by
  unfold stopOne
  split
  · exact .ite (fun _ => .step chip_stopped chip_setResume) fun _ => .refl s
  · exact .step chip_stopped chip_setResume
  · exact .ite (fun _ => chip_pauseToSafe) fun _ => .ite (fun _ => chip_pauseExposing) fun _ => .step chip_pauseExposing (.of_eq rfl)
  · exact .refl s
  · exact .ite (fun _ => chip_stopped) fun _ => .ite (fun _ => .step chip_modBerth chip_berthObject) fun _ => .refl s

theorem chip_stopHalf : ChipStands s (stopHalf b place cause tm s) := by
  unfold stopHalf
  split
  · exact .refl s
  · exact .ite (fun _ => .step chip_stopped (.step chip_decelerate chip_setResume)) fun _ => chip_modBerth
  · exact chip_stopOne

end Sys2Proof.Machine
end

section
/-!
PROOFS, the layer of facts: what the events of a berth leave alone (R76, R80, R109). Whatever a berth finalises, fires or ends, the count of
its groups, the latest of them and its annexed runs stand (`groupScope`); only the opening of a group counts it.
-/
namespace Sys2Proof.Machine

/-- What the end of an exposure of berth b writes, its plan, latest group and annexed runs left alone. -/
def restScope (b : Nat) : Scope :=
  ⟨(· = b), fun j _ => j = 0 ∨ j = 3, fun x => { plan := x.plan, lastGroup := x.lastGroup, annexes := x.annexes }⟩

/-- Anything but the count of the groups (offset 6, subindex 1), the latest group and the annexed runs of a berth. -/
def groupScope : Scope :=
  ⟨fun _ => True, fun j k => ¬ (j = 6 ∧ k = 1), fun x => { lastGroup := x.lastGroup, annexes := x.annexes }⟩

/-- Anything but the annexed runs of a berth (R119). -/
def annexScope : Scope := ⟨fun _ => True, fun _ _ => True, fun x => { annexes := x.annexes }⟩

variable {s t u : State} {b n cause strength : Nat} {e : Event} {f : FinalEvent} {l : List FinalEvent} {tm top : Time}

theorem Acts.lastGroup (h : Acts groupScope s t) : (Machine.berth b t).lastGroup = (Machine.berth b s).lastGroup := by
  have e := congrArg Berth.lastGroup (h.kept b)
  exact e

theorem Acts.annexes (h : Acts annexScope s t) : (Machine.berth b t).annexes = (Machine.berth b s).annexes := by
  have e := congrArg Berth.annexes (h.kept b)
  exact e

theorem Acts.plan (h : Acts (restScope b) s t) : (Machine.berth b t).plan = (Machine.berth b s).plan := by
  have e := congrArg Berth.plan (h.kept b)
  exact e

theorem Acts.group_of_rest (h : Acts (restScope b) s t) : Acts groupScope s t :=
  h.mono (fun _ _ => trivial) (fun j k hj => show ¬ (j = 6 ∧ k = 1) by rcases hj with rfl | rfl <;> simp) fun x y e => by
    have hl := congrArg Berth.lastGroup e
    have ha := congrArg Berth.annexes e
    dsimp only [restScope] at hl ha
    dsimp only [groupScope]
    rw [hl, ha]

theorem Acts.annex_of_group (h : Acts groupScope s t) : Acts annexScope s t :=
  h.mono (fun _ => id) (fun _ _ _ => trivial) fun x y e => by
    have ha := congrArg Berth.annexes e
    dsimp only [groupScope] at ha
    dsimp only [annexScope]
    rw [ha]

theorem acts_group {f : Berth → Berth} (hf : ∀ x, groupScope.keeps (f x) = groupScope.keeps x) : Acts groupScope s (modBerth b f s) :=
  acts_modBerth trivial hf

/-- A count of a berth other than that of its groups. -/
theorem acts_otherCount {k w m : Nat} (hk : k < 256) (h1 : k ≠ 1) : Acts groupScope s (addN (bi b 6) k w m s) :=
  acts_setV_own trivial (fun h => h1 h.2) (by decide) hk

/-- An object of a berth away from its counts. -/
theorem acts_notCount {j k : Nat} {v : Val} (hj : j < 0x40) (hk : k < 256) (h6 : j ≠ 6) : Acts groupScope s (setV (bi b j) k v s) :=
  acts_setV_own trivial (fun h => h6 h.1) hj hk

/-! The end of an exposure (R33, R109). -/

theorem rest_closeWindow : Acts (restScope b) s (closeWindow b s) := by
  have h : Acts (restScope b) s (modBerth b (fun x => { x with handover := {} }) s) := acts_modBerth rfl fun _ => rfl
  unfold closeWindow
  exact .ite (fun _ => h) fun _ => .step acts_harbourEntry (.step (acts_addN_far (by decide)) h)

theorem rest_closePassed : Acts (restScope b) s (if windowPassed b tm s then closeWindow b s else s) :=
  .ite (fun _ => rest_closeWindow) fun _ => .refl s

theorem rest_quiet : Acts (restScope b) s (quiet b tm s) := by
  unfold quiet
  refine .step (acts_modBerth rfl fun _ => rfl) <| .step (acts_setV_own rfl (.inr rfl) (by decide) (by decide)) ?_
  refine .step (acts_setV_own rfl (.inl rfl) (by decide) (by decide)) <| .step (acts_setGate rfl fun _ _ _ _ => rfl) ?_
  exact .step (acts_endRun rfl fun _ _ => rfl) rest_closePassed

theorem group_enterState : Acts groupScope s (enterState b n tm s) :=
  .step (acts_updateLen trivial fun _ _ _ => rfl) <|
    .step (.ite (fun _ => acts_modStream) fun _ => .refl _) (acts_notCount (by decide) (by decide) (by decide))

theorem group_stopped : Acts groupScope s (stopped b n cause strength tm s) := by
  unfold stopped
  exact .step acts_noteStop <| .step group_enterState <| .step aside_trigger.aside <| .step (acts_group fun _ => rfl) <|
    .step (acts_notCount (by decide) (by decide) (by decide)) rest_quiet.group_of_rest

theorem group_setResume {ri power kind re : Nat} {arc reArc : Int} :
    Acts groupScope s (setResume b ri arc power tm kind re reArc s) :=
  acts_setResume trivial fun _ h => absurd h.1 (by decide)

theorem group_decelerate : Acts groupScope s (decelerate b tm s) := acts_decelerate trivial fun _ _ _ => rfl

theorem group_stopAtC0 : Acts groupScope s (stopAtC0 b cause tm s) := by
  have h : ∀ {ri power kind re : Nat} {arc reArc : Int}, Acts groupScope s (stopped b 4 cause 2 tm
      (decelerate b tm (setResume b ri arc power tm kind re reArc s))) := .step group_stopped (.step group_decelerate group_setResume)
  unfold stopAtC0
  dsimp only
  split
  · exact h
  · exact .ite (fun _ => .step (acts_notCount (by decide) (by decide) (by decide)) h) fun _ => h

/-! Events become final (R76): beside that, no event that was final goes. -/

/-- Events of berth b have become final from s to t. -/
structure Finalises (b : Nat) (s t : State) : Prop where
  acts : Acts groupScope s t
  finals : (berth b s).finals ⊆ (berth b t).finals

theorem Finalises.refl (s : State) : Finalises b s s := ⟨.refl s, List.Subset.refl _⟩

theorem Finalises.step (h : Finalises b t u) (h' : Finalises b s t) : Finalises b s u :=
  ⟨.step h.acts h'.acts, List.Subset.trans h'.finals h.finals⟩

theorem Finalises.ite {p : Prop} [Decidable p] (h : p → Finalises b s t) (h' : ¬ p → Finalises b s u) :
    Finalises b s (if p then t else u) := by
  split
  · exact h ‹_›
  · exact h' ‹_›

theorem Finalises.of_aside (h : Aside s t) : Finalises b s t := ⟨h.aside, by rw [h.berth b id]; exact List.Subset.refl _⟩

theorem finalises_modBerth {f : Berth → Berth} (hf : ∀ x, groupScope.keeps (f x) = groupScope.keeps x)
    (hl : (berth b s).finals ⊆ (f (berth b s)).finals) : Finalises b s (modBerth b f s) :=
  ⟨acts_group hf, by rw [berth_modBerth_self]; exact hl⟩

theorem finalises_triggerFinal : Finalises b s (triggerFinal b f s) := by
  unfold triggerFinal
  exact .ite (fun _ => .refl s) fun _ =>
    .step (.of_aside acts_cameraTrigger) (finalises_modBerth (fun _ => rfl) (List.Subset.refl _))

theorem finalises_addFinal : Finalises b s (addFinal b tm e s) := by
  unfold addFinal
  exact .step finalises_triggerFinal (finalises_modBerth (fun _ => rfl) (List.subset_append_left ..))

theorem finalises_consume : Finalises b s (consume b e s) := by
  unfold consume
  refine .ite (fun _ => finalises_modBerth (fun _ => rfl) (List.Subset.refl _)) fun _ => ?_
  dsimp only
  split
  · exact .refl s
  · exact finalises_modBerth (fun _ => rfl) (List.Subset.refl _)

theorem finalises_finaliseOne : Finalises b s (finaliseOne b top s e) := by
  unfold finaliseOne
  refine .ite (fun _ => .refl s) fun _ => ?_
  split
  · exact .refl s
  · exact .ite (fun _ => .step finalises_consume finalises_addFinal) fun _ => finalises_addFinal

theorem finalises_finaliseTo : Finalises b s (finaliseTo b top s) := by
  have h : ∀ (l : List Event) s, Finalises b s (l.foldl (finaliseOne b top) s) := by
    intro l
    induction l with
    | nil => exact fun s => .refl s
    | cons e l ih => exact fun s => .step (ih _) finalises_finaliseOne
  exact .ite (fun _ => h _ s) fun _ => .refl s

/-- With no event pending none becomes final. -/
theorem finaliseTo_of_none (h : pendingEvents b s = []) : finaliseTo b top s = s := by
  unfold finaliseTo
  rw [h]
  exact ite_self s

/-! A group acts (R80, R81). -/

theorem group_nextRun : Acts groupScope s (nextRun b l tm s) := by
  have h : ∀ n, Acts groupScope s (endRun b n tm s) := fun n => acts_endRun trivial fun _ _ => rfl
  unfold nextRun
  split
  · exact .refl s
  · dsimp only
    split
    · exact h _
    · exact .step (acts_group fun _ => rfl) (h _)

theorem group_fireGate : Acts groupScope s (fireGate b l tm s) := by
  unfold fireGate
  refine .step group_nextRun <| .step (.ite (fun _ => acts_group fun _ => rfl) fun _ => .refl _) ?_
  refine .step (acts_setGate trivial fun _ _ _ _ => rfl) <| .step (acts_group fun _ => rfl) ?_
  refine .step (.ite (fun _ => acts_otherCount (by decide) (by decide)) fun _ => .refl _) ?_
  refine .step (acts_otherCount (by decide) (by decide)) <| .step (acts_otherCount (by decide) (by decide)) ?_
  refine .step (acts_otherCount (by decide) (by decide)) ?_
  exact .ite (fun _ => aside_caught.aside) fun _ => .refl s

theorem group_wakeHold : Acts groupScope s (wakeHold b e tm s) := by
  unfold wakeHold
  refine .step (acts_addN_far (by simp [key]; omega)) <| .step (acts_group fun _ => rfl) <| .step group_decelerate ?_
  refine .step (acts_notCount (by decide) (by decide) (by decide)) <| .step (acts_addN_far (by simp [key]; omega)) ?_
  exact acts_notCount (by decide) (by decide) (by decide)

/-- A group of berth b that opens at a time is counted and known as the latest, before it acts. -/
def openGroup (b : Nat) (tm : Time) (s : State) : State := addN (bi b 6) 1 64 1 (modBerth b (fun x => { x with lastGroup := some tm }) s)

theorem group_fireGroup : Acts groupScope (openGroup b tm s) (fireGroup b l tm s) := by
  unfold fireGroup
  extract_lets s₁ s₂ s₃ s₄ s₅
  have h₂ : Acts groupScope s₁ s₂ := by
    simp only [s₂]
    split
    · exact .refl s₁
    · exact .ite (fun _ => .refl s₁) fun _ => .step (acts_updateLen trivial fun _ _ _ => rfl) (acts_group fun _ => rfl)
  have h₄ : Acts groupScope s₁ s₄ := .step (.foldl fun _ _ => aside_entryAction.aside) (.step group_fireGate h₂)
  have h₅ : Acts groupScope s₁ s₅ := by
    refine .step ?_ h₄
    simp only [s₅]
    split
    · exact .refl _
    · exact group_wakeHold
  split
  · exact h₅
  · exact .ite (fun _ => .step group_stopAtC0 h₅) fun _ => h₅

/-! The next group is the earliest of the final events. -/

theorem mem_insertBy {α : Type} {g : α → Nat} {a x : α} {l : List α} : a ∈ insertBy g x l ↔ a = x ∨ a ∈ l := by
  induction l with
  | nil => simp [insertBy]
  | cons y l ih =>
    unfold insertBy
    split
    · exact List.mem_cons
    · simp only [List.mem_cons, ih]; tauto

theorem mem_sortBy {α : Type} {g : α → Nat} {a : α} {l : List α} : a ∈ sortBy g l ↔ a ∈ l := by
  have h : ∀ l acc : List α, a ∈ l.foldl (fun acc x => insertBy g x acc) acc ↔ a ∈ l ∨ a ∈ acc := by
    intro l
    induction l with
    | nil => simp
    | cons x l ih => intro acc; rw [List.foldl_cons, ih, mem_insertBy, List.mem_cons]; tauto
  simpa [sortBy] using h l []

/-- A list with an element has a least one, of its elements and none after another. -/
theorem leastBy_of_mem {α : Type} {g : α → Nat} {a : α} {l : List α} (h : a ∈ l) :
    ∃ y, leastBy g l = some y ∧ g y ≤ g a := by
  induction l generalizing a with
  | nil => cases h
  | cons x l ih =>
    unfold leastBy
    cases hl : leastBy g l with
    | none =>
      rcases List.mem_cons.1 h with rfl | h
      · exact ⟨_, rfl, Nat.le_refl _⟩
      · obtain ⟨y, hy, -⟩ := ih h
        cases hl.symm.trans hy
    | some y =>
      have hy : a = x ∨ g y ≤ g a := (List.mem_cons.1 h).imp_right fun h => by
        obtain ⟨z, hz, hle⟩ := ih h
        cases hl.symm.trans hz
        exact hle
      dsimp only
      split
      · next hlt => exact ⟨_, rfl, hy.elim (fun e => e ▸ hlt.le) id⟩
      · next hge => exact ⟨_, rfl, hy.elim (fun e => e ▸ Nat.le_refl _) (Nat.le_trans (Nat.le_of_not_lt hge))⟩

theorem mem_of_leastBy {α : Type} {g : α → Nat} {y : α} {l : List α} (h : leastBy g l = some y) : y ∈ l := by
  induction l generalizing y with
  | nil => cases h
  | cons x l ih =>
    unfold leastBy at h
    split at h
    · cases h; exact .head _
    · next hl =>
      split at h
      · cases h; exact .tail _ (ih hl)
      · cases h; exact .head _

/-- A final event gives a next group, which opens no later than its own. -/
theorem nextGroup_of_final (h : f ∈ (berth b s).finals) : ∃ v l rest, nextGroup b s = some (v, l, rest) ∧ v ≤ f.group := by
  obtain ⟨y, hy, hle⟩ := leastBy_of_mem (g := fun f : FinalEvent => f.group) (mem_sortBy (g := fun f => f.t) |>.2 h)
  unfold nextGroup
  simp only [hy]
  exact ⟨_, _, _, rfl, hle⟩

theorem final_of_nextGroup {v : Time} {rest : List FinalEvent} (h : nextGroup b s = some (v, l, rest)) :
    ∃ f ∈ (berth b s).finals, f.group = v := by
  unfold nextGroup at h
  dsimp only at h
  split at h
  · cases h
  · next f hf =>
    cases h
    exact ⟨f, mem_sortBy.1 (mem_of_leastBy hf), rfl⟩

/-- The next group of an Exposing berth acts: what has become final may have opened an earlier one. -/
theorem eventGroup_fires {v : Time} {rest : List FinalEvent} (h : bState b s = 2) (hn : nextGroup b s = some (v, l, rest)) :
    ∃ w r, w ≤ v ∧ (pendingEvents b s = [] → w = v) ∧ Acts groupScope s r ∧ Acts groupScope (openGroup b w r) (eventGroup b s) := by
  have hf := finalises_finaliseTo (b := b) (s := s) (top := v + 50 * nsT)
  obtain ⟨f, hmem, hv⟩ := final_of_nextGroup hn
  obtain ⟨w, l', rest', hw, hle⟩ := nextGroup_of_final (hf.finals hmem)
  refine ⟨w, modBerth b (fun x => { x with finals := rest' }) (finaliseTo b (v + 50 * nsT) s), hv ▸ hle, fun hp => ?_,
    .step (acts_group fun _ => rfl) hf.acts, ?_⟩
  · rw [finaliseTo_of_none hp, hn] at hw
    cases hw
    rfl
  · unfold eventGroup
    rw [if_neg (not_not.2 h), hn]
    dsimp only
    rw [hw]
    exact group_fireGroup

/-! Firing annexes no run (R119). -/

theorem annex_openGroup : Acts annexScope s (openGroup b tm s) :=
  .step (acts_setV_own trivial trivial (by decide) (by decide)) (acts_modBerth trivial fun _ => rfl)

theorem annex_eventGroup : Acts annexScope s (eventGroup b s) := by
  by_cases h : bState b s = 2
  · cases hn : nextGroup b s with
    | none => simp only [eventGroup, hn, ite_self]; exact .refl s
    | some g =>
      obtain ⟨w, r, -, -, hr, ht⟩ := eventGroup_fires h hn
      exact .step ht.annex_of_group (.step annex_openGroup hr.annex_of_group)
  · rw [eventGroup, if_pos h]; exact .refl s

theorem annex_fireUpTo : Acts annexScope s (fireUpTo b tm s) := by
  have h : ∀ n s, Acts annexScope s (firePast b tm n s) := by
    intro n
    induction n with
    | zero => exact fun s => .refl s
    | succ n ih =>
      intro s
      unfold firePast
      split
      · exact .refl s
      · exact .ite (fun _ => .step (ih _) annex_eventGroup) fun _ => .refl s
  unfold fireUpTo
  exact .step (h _ _) finalises_finaliseTo.acts.annex_of_group

end Sys2Proof.Machine
end

section
/-!
PROOFS, the layer of facts: the pending events of a berth (R76) are the same as a command finds the state, with no output and result 0.
-/
namespace Sys2Proof.Machine

variable {s : State} {b i n : Nat} {g : Int} {tm : Time}

theorem follower_fresh : follower b i (fresh s) = follower b i s := by
  simp only [follower, samePath_fresh.mfCount, samePath_fresh.nextRec]

theorem clippedIntervals_fresh {x : Seg} : clippedIntervals b x (fresh s) = clippedIntervals b x s := rfl

theorem runsOf_fresh {l : List Seg} : runsOf b (fresh s) l = runsOf b s l := by
  induction l with
  | nil => rfl
  | cons x l ih => simp only [runsOf, follower_fresh, ih]

theorem runEdges_fresh {on start : Bool} {l : List Seg} : runEdges b (fresh s) on start l = runEdges b s on start l := by
  induction l generalizing on start with
  | nil => rfl
  | cons x l ih =>
    simp only [runEdges, clippedIntervals_fresh, ih]
    rfl

theorem entryEvents_fresh {l : List Seg} : entryEvents b (fresh s) l i = entryEvents b s l i := by
  induction l generalizing i with
  | nil => rfl
  | cons x l ih => simp only [entryEvents, samePath_fresh.mfRec, samePath_fresh.mfSkip, ih]

theorem stopsAfter_fresh : stopsAfter b i (fresh s) = stopsAfter b i s := by
  simp only [stopsAfter, follower_fresh]

theorem restRecords_fresh : restRecords b (fresh s) = restRecords b s := by
  simp only [restRecords, samePath_fresh.segs, stopsAfter_fresh, follower_fresh]

theorem schedule_fresh : schedule b (fresh s) = schedule b s := by
  simp only [schedule, restRecords_fresh, gateEvents, samePath_fresh.segs, runsOf_fresh, runEdges_fresh, entryEvents_fresh]

theorem remaining_fresh : remaining b (fresh s) = remaining b s := by
  simp only [remaining, remainingAt, schedule_fresh]
  rfl

theorem heldRecord_fresh : heldRecord b (fresh s) = heldRecord b s := by
  simp only [heldRecord, stopRecord, samePath_fresh.safePoints, samePath_fresh.nextRec, samePath_fresh.mfCount]
  rfl

theorem wakeArc_fresh : wakeArc b g (fresh s) = wakeArc b g s := by
  simp only [wakeArc, samePath_fresh.segs]
  rfl

theorem pendingEvents_fresh : pendingEvents b (fresh s) = pendingEvents b s := by
  simp only [pendingEvents, remaining_fresh, heldRecord_fresh, wakeArc_fresh, samePath_fresh.segs, samePath_fresh.mfRec]
  rfl

end Sys2Proof.Machine
end

section
/-!
PROOFS: the reset of a berth (R69, R350, R379), the end of a deceleration and of an exposure (R61, R89, R119), its groups (R80) and its power
samples (R73, R79).
-/
namespace Sys2Proof.Machine

variable {s t : State} {b i j k n : Nat} {v : Val} {tm : Time}

/-! What a berth reset does to the objects (R350). -/

/-- What a table lists stays listed where a filter keeps it. -/
theorem Tab.find_filter {α : Type} {p : Nat × α → Bool} {v : α} {l : Tab α} (h : Tab.find n l = some v) (hp : p (n, v) = true) :
    Tab.find n (l.filter p) = some v := by
  induction l with
  | nil => cases h
  | cons e l ih =>
    obtain ⟨m, w⟩ := e
    unfold Tab.find at h
    split_ifs at h with hlt heq
    · cases h
      subst heq
      simp [hp, Tab.find]
    · cases hw : p (m, w)
      · simpa [hw] using ih h
      · simp [hw, Tab.find, hlt, heq, ih h]

/-- A listed object of a kept kind reads what it read. -/
theorem getV_keepObjects {p : Nat → Kind → Bool} {r : Row} (hr : findRow i k = some r) (hk : k < 256) (hp : p i r.kind = true)
    (hv : s.obj.find (key i k) = some v) : getV i k (keepObjects p s) = v := by
  have hi : key i k / 256 = i := by unfold key; omega
  have hs : key i k % 256 = k := by unfold key; omega
  unfold getV keepObjects
  rw [Tab.find_filter hv]
  · rfl
  · simp only [kindOf, hi, hs, hr, Option.map_some, hp]

/-- A reset of a berth keeps the W objects of the berth and all objects of others. -/
theorem getV_resetObjects {r : Row} (hr : findRow i k = some r) (hk : k < 256) (hp : (!(ofBerth b i && r.kind == .v)) = true)
    (hne : key i k ≠ key 0x8002 (0x10 + b)) (hv : s.obj.find (key i k) = some v) : getV i k (resetObjects b s) = v := by
  rw [resetObjects, setN_eq, getV_setV_ne _ _ hne]
  exact (getV_congr rfl).trans (getV_keepObjects (p := fun i k => !(ofBerth b i && k == .v)) hr hk hp hv)

theorem findRow_berthCause (hb : b < 24) : findRow (bi b 0) 6 = some ⟨0x1000, 0x40, 24, 0x06, 1, .u16, .ro, .w, 0, .any⟩ := by
  decide +revert

theorem findRow_resumeKind (hb : b < 24) : findRow (bi b 1) 8 = some ⟨0x1001, 0x40, 24, 0x08, 1, .u8, .ro, .w, 0, .any⟩ := by
  decide +revert

theorem findRow_calibrationState : findRow 0x0603 3 = some ⟨0x0603, 0x0, 1, 0x03, 1, .u8, .ro, .v, 0, .any⟩ := by decide

/-- An object that does not read its default is listed. -/
theorem find_of_getN_ne {r : Row} (hr : findRow i k = some r) (hd : r.startsAtDefault = true) (h : getN i k s ≠ r.dflt.toNat) :
    s.obj.find (key i k) = some (getV i k s) := by
  cases hf : s.obj.find (key i k) with
  | some v => simp [getV, hf]
  | none =>
    have hv : getV i k s = .int r.dflt := by rw [getV, hf, objDefault_of_findRow hr hd]; rfl
    exact absurd (by rw [getN_eq, hv]; rfl) h

/-- The objects of a berth whose exposure has ended, its cause and resume point cleared. -/
def clearedBerth (b : Nat) (s : State) : State := setResume b 0 0 0 0 0 0 0 (setN (bi b 0) 6 0 s)

/-- A berth reset ends the exposure and clears the berth; what came before (r) is the stop of a partner, and no object of the chip. -/
theorem berthReset_stages : ∃ u r, ChipStands s r ∧ berthReset b tm s = enterState b 0 u (modBerth b
    (fun x => { x with strength := 0, manifestLen := false, startFrame := none }) (resetObjects b (clearedBerth b (quiet b u r)))) := by
  unfold berthReset
  extract_lets n s₁ l u s₂ s₃ s₄
  refine ⟨u, decelerate b l s₂, ?_, rfl⟩
  have h₁ : ChipStands s s₁ := by
    simp only [s₁]
    split
    · exact .step chip_stopHalf chip_handoverRefused
    · exact chip_handoverRefused
    · exact .refl s
  have h₂ : ChipStands s₁ s₂ := .ite (fun _ => .of_eq rfl) fun _ => .refl _
  exact .step chip_decelerate (.step h₂ h₁)

/-- Of the berth's objects the entry into a state writes the state alone. -/
theorem getN_enterState_modBerth {f : Berth → Berth} (hk : k < 256) (hne : j ≠ 0 ∨ k ≠ 1) (hj : j < 0x40) :
    getN (bi b j) k (enterState b n tm (modBerth b f s)) = getN (bi b j) k s := by
  rw [getN_eq, getV_enterState_ne (key_bi_ne hj (by decide) hk (by decide) (.inr hne)), getV_modBerth, ← getN_eq]

/-- How a berth stands after a reset. -/
structure ResetBerth (b : Nat) (t : State) : Prop where
  state : bState b t = 0
  cause : getN (bi b 0) 6 t = 0
  kind : getN (bi b 1) 8 t = 0
  gate : (berth b t).gate = false

theorem find_cause_clearedBerth : (clearedBerth b s).obj.find (key (bi b 0) 6) = some (.int 0) := by
  have hne : ∀ k, k < 256 → key (bi b 0) 6 ≠ key (bi b 1) k := fun k hk =>
    key_bi_ne (by decide) (by decide) (by decide) hk (by simp)
  simp [clearedBerth, setResume, setN, setI, setTime, setV, Tab.find_put_ne, Tab.find_put_self, hne]

theorem find_kind_clearedBerth : (clearedBerth b s).obj.find (key (bi b 1) 8) = some (.int 0) := Tab.find_put_self ..

theorem berth_clearedBerth : berth b (clearedBerth b s) = berth b s := by
  simp only [clearedBerth, setResume, setTime, setN_eq, setI_eq, berth_setV]

theorem berth_resetObjects : berth b (resetObjects b s) = berth b s := rfl

theorem resetBerth_berthReset (hb : b < 24) : ResetBerth b (berthReset b tm s) := by
  obtain ⟨u, r, -, he⟩ := berthReset_stages (b := b) (tm := tm) (s := s)
  have hne : ∀ {j k}, j < 0x40 → k < 256 → key (bi b j) k ≠ key 0x8002 (0x10 + b) := fun _ _ => by unfold key bi; omega
  rw [he]
  refine ⟨bState_enterState, ?_, ?_, ?_⟩
  · rw [getN_enterState_modBerth (by decide) (.inr (by decide)) (by decide), getN_eq,
      getV_resetObjects (findRow_berthCause hb) (by decide) (by simp) (hne (by decide) (by decide)) find_cause_clearedBerth]
    rfl
  · rw [getN_enterState_modBerth (by decide) (.inl (by decide)) (by decide), getN_eq,
      getV_resetObjects (findRow_resumeKind hb) (by decide) (by simp) (hne (by decide) (by decide)) find_kind_clearedBerth]
    rfl
  · obtain ⟨v, p, hv⟩ := berth_enterState (b := b) (n := 0) (tm := u) (s := modBerth b
      (fun x => { x with strength := 0, manifestLen := false, startFrame := none }) (resetObjects b (clearedBerth b (quiet b u r))))
    rw [hv, berth_modBerth_self, berth_resetObjects, berth_clearedBerth]
    dsimp only
    exact halted_quiet.gate

theorem calibrationState_of_chip (h : ChipStands s t) : getN 0x0603 3 t = getN 0x0603 3 s := by
  rw [getN_eq, getN_eq, h 0x0603 3 (by decide) (by decide) (by simp [noticeKey, key])]

/-- A berth reset leaves a calibration aborted. -/
theorem calibrationState_berthReset (h : getN 0x0603 3 s = 6) : getN 0x0603 3 (berthReset b tm s) = 6 := by
  obtain ⟨u, r, hr, he⟩ := berthReset_stages (b := b) (tm := tm) (s := s)
  have ho : ofBerth b 0x0603 = false := by simp [ofBerth, bi]; omega
  have hc : getN 0x0603 3 (clearedBerth b (quiet b u r)) = 6 :=
    (calibrationState_of_chip (.step chip_setResume (.step chip_berthObject (.step chip_quiet hr)))).trans h
  have hf := find_of_getN_ne findRow_calibrationState rfl (by rw [hc]; decide)
  rw [he, calibrationState_of_chip (.step chip_enterState chip_modBerth), getN_eq,
    getV_resetObjects findRow_calibrationState (by decide) (by simp [ho]) (by unfold key; omega) hf, ← getN_eq, hc]

/-- A calibration of a berth that stops is aborted (R379). -/
theorem calibrationState_calStop (h : calRunning s = true) (hb : bit s.cal.mask b = true) : getN 0x0603 3 (calStop b s) = 6 := by
  unfold calStop
  rw [if_pos (by rw [h, hb]; rfl)]
  unfold calAbort
  rw [calNotice, calibrationState_of_chip (.of_quiet (quiet_notice ..))]
  exact (getN_setN_ne _ _ (by decide)).trans (getN_setN_self ..)

/-! The end of a deceleration and of an exposure (R61, R89, R119). -/

/-- How a spot that has come to rest stands, with no plan left. -/
structure AtRest (b : Nat) (t : State) : Prop where
  halting : (berth b t).halting = false
  plan : (berth b t).plan = []

theorem atRest_comeToRest : AtRest b (comeToRest b s) := by
  unfold comeToRest
  constructor <;> rw [berth_modBerth_self]

theorem comeToRest_obj : (comeToRest b s).obj = s.obj := rfl

theorem annex_comeToRest : Acts annexScope s (comeToRest b s) := by
  unfold comeToRest
  exact acts_modBerth trivial fun _ => rfl

/-- An Exposing berth with no annexed run that comes to its END has fired what it had, has come to rest (r), and becomes Idle. -/
theorem endReached_stages (h : bState b s = 2) (hb : b < 24) (ha : (berth b s).annexes = [])
    (h0 : (berth b s).handover.stopAtC0 = none) : ∃ u r, (berth b r).plan = [] ∧ endReached b s = enterState b 0 u
      (modBerth b (fun x => { x with annexNow := none, manifestLen := false }) (setN 0x1806 (0x10 + b) 0xFF (quiet b u r))) := by
  unfold endReached
  rw [if_neg (not_not.2 h)]
  extract_lets u s₁ s₂ s₃ s₄
  have h₁ : bState b s₁ = 2 := ((acts_fireUpTo h0).bState hb (.inr (by simp [fireScope]))).trans h
  have h₂ : Acts annexScope s₁ s₂ := rest_closePassed.group_of_rest.annex_of_group
  have h₃ : Acts annexScope s₂ s₃ := .step annex_comeToRest (acts_endRun trivial fun _ _ => rfl)
  have h₄ : Acts annexScope s₃ s₄ := .step (acts_setGate trivial fun _ _ _ _ => rfl) (acts_modBerth trivial fun _ => rfl)
  have ha₄ : (berth b s₄).annexes = [] := (Acts.step h₄ (.step h₃ (.step h₂ annex_fireUpTo))).annexes.trans ha
  have hp₃ : (berth b s₃).plan = [] := by simp only [s₃]; exact atRest_comeToRest.plan
  have hp₄ : (berth b s₄).plan = [] := by
    refine (acts_setGate (σ := restScope b) rfl fun _ _ _ _ => rfl).plan.trans ?_
    rw [berth_modBerth_self]
    dsimp only
    exact hp₃
  rw [if_neg (not_not.2 h₁)]
  split
  · next he => cases ha₄.symm.trans he
  · exact ⟨u, s₄, hp₄, rfl⟩

/-- How a berth stands after its END. -/
structure EndedBerth (b : Nat) (t : State) : Prop where
  state : bState b t = 0
  gate : (berth b t).gate = false
  plan : (berth b t).plan = []
  source : getN 0x1806 (0x10 + b) t = 0xFF

theorem endedBerth_endReached (h : bState b s = 2) (hb : b < 24) (ha : (berth b s).annexes = [])
    (h0 : (berth b s).handover.stopAtC0 = none) : EndedBerth b (endReached b s) := by
  obtain ⟨u, r, hr, he⟩ := endReached_stages h hb ha h0
  obtain ⟨v, p, hv⟩ := berth_enterState (b := b) (n := 0) (tm := u) (s := modBerth b
    (fun x => { x with annexNow := none, manifestLen := false }) (setN 0x1806 (0x10 + b) 0xFF (quiet b u r)))
  rw [berth_modBerth_self, setN_eq, berth_setV, ← setN_eq] at hv
  rw [he]
  refine ⟨bState_enterState, ?_, ?_, ?_⟩
  · rw [hv]
    dsimp only
    exact halted_quiet.gate
  · rw [hv]
    dsimp only
    exact rest_quiet.plan.trans hr
  · rw [getN_eq, getV_enterState_ne (by unfold key bi; omega), getV_modBerth, ← getN_eq, getN_setN_self]

/-! A group of events (R80). -/

theorem groupCount_openGroup : getN (bi b 6) 1 (openGroup b tm s) = (getN (bi b 6) 1 s + 1) % 2 ^ 64 := by
  rw [openGroup, addN, getN_setN_self]
  rfl

theorem lastGroup_openGroup : (berth b (openGroup b tm s)).lastGroup = some tm := by
  rw [openGroup, addN, setN_eq, berth_setV, berth_modBerth_self]

theorem groupCount_of_acts (h : Acts groupScope s t) (hb : b < 24) : getN (bi b 6) 1 t = getN (bi b 6) 1 s :=
  h.getN hb (by decide) (by decide) (.inr (by simp [groupScope]))

/-! A power sample (R73, R79, R193). -/

/-- What the sampling of a power word writes: the word (offset 3) and a count. -/
def sampleScope (b : Nat) : Scope := ⟨(· = b), fun j k => (j = 3 ∧ k = 2) ∨ j = 6, id⟩

theorem acts_sampleTaken : Acts (sampleScope b) s (sampleTaken b j s) := by
  have h : Acts (sampleScope b) s (setN (bi b 3) 2 ((berth b s).power.getD j 0) s) :=
    acts_setV_own rfl (.inl ⟨rfl, rfl⟩) (by decide) (by decide)
  exact .ite (fun _ => .step (acts_setV_own rfl (.inr rfl) (by decide) (by decide)) h) fun _ => h

theorem word_sampleTaken : getN (bi b 3) 2 (sampleTaken b j s) = (berth b s).power.getD j 0 := by
  unfold sampleTaken
  dsimp only
  split
  · rw [addN, getN_setN_ne _ _ (key_bi_ne (by decide) (by decide) (by decide) (by decide) (by simp)), getN_setN_self]
  · exact getN_setN_self ..

/-- A berth that is not Exposing has no power planned (R79). -/
theorem samplePower_idle (h : bState b s ≠ 2) : samplePower b tm s = (0, false) := by
  unfold samplePower
  split
  · rfl
  · exact if_pos (.inl h)

theorem length_planned {l : List Nat} {w : Nat} : (l.take j ++ List.replicate (j - l.length) 0 ++ [w]).length = j + 1 := by
  simp only [List.length_append, List.length_take, List.length_replicate, List.length_singleton]
  omega

theorem getD_planned {l : List Nat} {w : Nat} : (l.take j ++ List.replicate (j - l.length) 0 ++ [w]).getD j 0 = w := by
  have h : (l.take j ++ List.replicate (j - l.length) 0).length = j := by
    simp only [List.length_append, List.length_take, List.length_replicate]
    omega
  rw [List.getD_append_right _ _ _ _ h.le, h, Nat.sub_self]
  rfl

/-- How a berth stands after sample j of the frame. -/
structure Sampled (b j : Nat) (s t : State) : Prop where
  word : getN (bi b 3) 2 t = (berth b s).power.getD j 0
  length : (berth b t).words.length = j + 1
  planned : bState b s ≠ 2 → (berth b t).words.getD j 0 = 0

theorem sampled_powerSample (hb : b < 24) : Sampled b j s (powerSample b j s) := by
  unfold powerSample
  extract_lets s₁ r s₂
  have h₂ : Aside s₁ s₂ := .ite (fun _ => aside_caught) fun _ => .refl _
  refine ⟨?_, ?_, fun h => ?_⟩
  · rw [getN_eq, getV_modBerth, ← getN_eq, h₂.getN hb (by decide) (by decide) (.inl id)]
    exact word_sampleTaken
  · rw [berth_modBerth_self]
    exact length_planned
  · have h₁ : bState b s₁ ≠ 2 := by rwa [acts_sampleTaken.bState hb (.inr (by simp [sampleScope]))]
    have hr : r.1 = 0 := congrArg (·.1) (samplePower_idle h₁)
    rw [berth_modBerth_self]
    exact getD_planned.trans hr

/-- Settles O2: a reset and an END go through the end of the exposure, after which nothing raises the gate; what a group of events does beside
its own count reaches neither that nor the latest group; a sample writes its word before it plans the next. -/
theorem berthEndsResetsAndFires : Obligations.BerthEndsResetsAndFires := by
  unfold Obligations.BerthEndsResetsAndFires
  refine ⟨fun b off s hr => ?_, fun b s hr h => ?_, fun b s hr h ha h0 => ?_, fun b u l rest s hr h hn => ?_, fun b j s hr => ?_⟩
  · have hw : berthOk b = true ∧ offOk off = true := Bool.and_eq_true_iff.1 hr.1
    have ht := resetBerth_berthReset (tm := timeAt off (fresh s)) (s := calStop b (fresh s)) (of_decide_eq_true hw.1)
    exact ⟨_, (gated_run hr.1 hr.2 : execBerthReset b off s = _), ht.state, ht.cause, ht.kind, ht.gate,
      fun hc hm => calibrationState_berthReset (calibrationState_calStop (s := fresh s) hc hm)⟩
  · refine ⟨_, (gated_run hr.1 hr.2 : execDecelerationComplete b s = _), ?_⟩
    rw [if_pos (show (berth b (fresh s)).halting = true from h)]
    exact ⟨atRest_comeToRest.halting, atRest_comeToRest.plan, comeToRest_obj⟩
  · have ht := endedBerth_endReached (s := fresh s) h (of_decide_eq_true hr.1) ha h0
    exact ⟨_, (gated_run hr.1 hr.2 : execEndReached b s = _), ht.state, ht.gate, ht.plan, ht.source⟩
  · have hb : b < 24 := of_decide_eq_true hr.1
    obtain ⟨v, r, hle, hv, hr', ht⟩ := eventGroup_fires (s := fresh s) h hn
    refine ⟨_, v, (gated_run hr.1 hr.2 : execEventGroup b s = _), ?_, ht.lastGroup.trans lastGroup_openGroup, hle, fun hp => ?_⟩
    · rw [groupCount_of_acts ht hb, groupCount_openGroup, groupCount_of_acts hr' hb]
      rfl
    · exact hv (pendingEvents_fresh.trans hp)
  · have hw : berthOk b = true ∧ _ := Bool.and_eq_true_iff.1 hr.1
    have ht := sampled_powerSample (j := j) (s := fresh s) (of_decide_eq_true hw.1)
    exact ⟨_, (gated_run hr.1 hr.2 : execPowerSample b j s = _), ht.word, ht.length, ht.planned, still_powerSample.dram⟩

end Sys2Proof.Machine
end

section
/-!
PROOFS, the layer of facts: the objects in force stay listed in the order of their keys through notices and logbook records.
-/
namespace Sys2Proof.Machine

/-- If the objects of s are listed in the order of their keys, so are those of t. -/
def Ordered (s t : State) : Prop := Tab.sorted s.obj = true → Tab.sorted t.obj = true

variable {s t u : State} {cls num code : Nat} {d : List Byte} {tm : Time}

theorem Ordered.refl (s : State) : Ordered s s := id

/-- `Ordered` after a step, in the order a proof meets them. -/
theorem Ordered.step (h : Ordered t u) (h' : Ordered s t) : Ordered s u := fun hs => h (h' hs)

theorem Ordered.ite {c : Prop} [Decidable c] (h : c → Ordered s t) (h' : ¬ c → Ordered s u) : Ordered s (if c then t else u) := by
  split
  · exact h ‹_›
  · exact h' ‹_›

theorem Ordered.of_eq (h : t.obj = s.obj) : Ordered s t := fun hs => by rwa [h]

theorem ordered_setV {i k : Nat} {v : Val} : Ordered s (setV i k v s) := Tab.sorted_put

theorem ordered_addN {i k w n : Nat} : Ordered s (addN i k w n s) := ordered_setV

theorem ordered_logProgram {r : LogRecord} : Ordered s (logProgram r s) := by
  unfold logProgram
  exact .ite (fun _ => .of_eq rfl) fun _ => .ite (fun _ => .of_eq rfl) fun _ => .of_eq rfl

theorem ordered_logDrain {l : List LogRecord} : Ordered s (logDrain l s) := by
  induction l generalizing s with
  | nil => exact .of_eq rfl
  | cons r l ih => exact .ite (fun _ => .of_eq rfl) fun _ => .step ih ordered_logProgram

theorem ordered_logStage : Ordered s (logStage cls num code d tm s) := .step ordered_addN (.of_eq rfl)

theorem ordered_logCount : Ordered s (logCount s) := by
  unfold logCount
  exact .step ordered_setV (.ite (fun _ => .refl s) fun _ => ordered_setV)

theorem ordered_logLostNote : Ordered s (logLostNote s) := by
  unfold logLostNote
  exact .ite (fun _ => .step ordered_logStage (.of_eq rfl)) fun _ => .refl s

theorem ordered_logFlush : Ordered s (logFlush s) := .step ordered_logCount (.step ordered_logLostNote ordered_logDrain)

theorem ordered_logAdd : Ordered s (logAdd cls num code d tm s) := by
  unfold logAdd
  refine .ite (fun _ => ?_) fun _ => .step ordered_addN (.of_eq rfl)
  exact .ite (fun _ => .step ordered_logFlush ordered_logStage) fun _ => .step ordered_logCount ordered_logStage

theorem ordered_queueNotice {n : Notice} {k : Nat} : Ordered s (queueNotice n k s) := by
  unfold queueNotice
  exact .ite (fun _ => .ite (fun _ => .of_eq rfl) fun _ => .step ordered_addN (.of_eq rfl)) fun _ => .refl s

theorem ordered_noticeAt : Ordered s (noticeAt cls num code d tm s) := by
  have h : ∀ (n : Notice) (l : List Nat) s, Ordered s (each l (queueNotice n) s) := by
    intro n l
    induction l with
    | nil => exact fun s => .refl s
    | cons k l ih => exact fun s => .step (ih _) ordered_queueNotice
  unfold noticeAt
  exact .ite (fun _ => .step ordered_logAdd (.step (h _ _ _) (.of_eq rfl))) fun _ => .step (h _ _ _) (.of_eq rfl)

theorem ordered_noticeLogAt : Ordered s (noticeLogAt cls num code d tm s) := by
  unfold noticeLogAt
  exact .ite (fun _ => ordered_noticeAt) fun _ => .step ordered_logAdd ordered_noticeAt

end Sys2Proof.Machine
end

section
/-!
PROOFS, the layer of facts: what a stop and its reports leave alone (`Stands`): the objects away from their
own (`stopKey`), the links' records, the order in which the objects are listed, and the harbourmaster's data but for the berths that wait for a reassignment.
-/
namespace Sys2Proof.Machine

/-- Where a stop, a covered fault, the end of a calibration and their reports write objects: those of the berths (R89), the handovers
(0x1805:04 to :06, R111), a covered fault (0x0406, R338), a calibration (0x0603:03 and :04, R379), notices, and from the streams' up (R215). -/
def stopKey (n : Nat) : Prop :=
  berthKey n ∨ noticeKey n ∨ key 0x5900 0 ≤ n ∨ (key 0x1805 4 ≤ n ∧ n ≤ key 0x1805 6) ∨ (key 0x0406 1 ≤ n ∧ n ≤ key 0x0406 2) ∨
    (key 0x0603 3 ≤ n ∧ n ≤ key 0x0603 4)

/-- From s to t no other object changed, no link's record, and of the harbourmaster's data not the part `f`; objects in order stay so. -/
structure Stands {α : Type} (f : Harbour → α) (s t : State) : Prop where
  obj : ∀ i k, ¬ stopKey (key i k) → getV i k t = getV i k s
  links : t.links = s.links
  hm : f t.hm = f s.hm
  ordered : Ordered s t

/-- The harbourmaster's data but for the berths that wait for a reassignment, which a stop may add to (R118). -/
def Harbour.untriggered (h : Harbour) : Harbour := { h with trigger := [] }

/-- The harbourmaster, its loops and its links keep their objects from 0x1806 up to the streams' index. -/
theorem not_stopKey {i k : Nat} (hi : 0x1806 ≤ i) (hi' : i < 0x5900) (hk : k < 256) : ¬ stopKey (key i k) := by
  unfold stopKey noticeKey berthKey key; omega

variable {α : Type} {f : Harbour → α} {s t u : State} {b p i k n st cause strength place other mask : Nat} {tm : Time}

theorem Stands.refl (s : State) : Stands f s s := ⟨fun _ _ _ => rfl, rfl, rfl, .refl s⟩

/-- `Stands` after a step, in the order a proof meets them. -/
theorem Stands.step (h : Stands f t u) (h' : Stands f s t) : Stands f s u :=
  ⟨fun i k hn => (h.obj i k hn).trans (h'.obj i k hn), h.links.trans h'.links, h.hm.trans h'.hm,
    .step h.ordered h'.ordered⟩

theorem Stands.ite {c : Prop} [Decidable c] (h : c → Stands f s t) (h' : ¬ c → Stands f s u) : Stands f s (if c then t else u) := by
  split
  · exact h ‹_›
  · exact h' ‹_›

theorem Stands.foldl_fst {β γ : Type} {g : State × β → γ → State × β} {l : List γ} {a : State × β}
    (h : ∀ x a, Stands f a.1 (g a x).1) : Stands f a.1 (l.foldl g a).1 := by
  induction l generalizing a with
  | nil => exact .refl _
  | cons x l ih => exact .step ih (h x a)

theorem Stands.eachBerth {g : Nat → State → State} (h : ∀ b s, b < 24 → Stands f s (g b s)) : Stands f s (eachBerth mask g s) := by
  have hl : ∀ l : List Nat, (∀ b ∈ l, b < 24) → ∀ s, Stands f s (each l g s) := by
    intro l
    induction l with
    | nil => exact fun _ s => .refl s
    | cons b l ih => exact fun hb s => .step (ih (fun c hc => hb c (.tail _ hc)) (g b s)) (h b s (hb b (.head _)))
  exact hl _ (fun b hb => List.mem_range.1 (List.mem_filter.1 hb).1) s

theorem Stands.getN (h : Stands f s t) (hn : ¬ stopKey (key i k)) : getN i k t = getN i k s := by
  rw [getN_eq, getN_eq, h.obj i k hn]

theorem Stands.link (h : Stands f s t) : link n t = link n s := by rw [Machine.link, Machine.link, h.links]

/-! The updates of the state. -/

theorem Stands.of_eq (ho : t.obj = s.obj) (hl : t.links = s.links) (hh : f t.hm = f s.hm) : Stands f s t :=
  ⟨fun _ _ _ => getV_congr ho, hl, hh, .of_eq ho⟩

theorem Stands.of_quiet (h : Quiet s t) (ho : Ordered s t) : Stands f s t :=
  ⟨fun i k hn => h.obj i k fun hk => hn (.inr (.inl hk)), h.links, congrArg f h.hm, ho⟩

theorem stands_setV {v : Val} (h : stopKey (key i k)) : Stands f s (setV i k v s) :=
  ⟨fun _ _ hn => getV_setV_ne _ _ fun e => hn (by rw [e]; exact h), rfl, rfl, ordered_setV⟩

theorem stands_addN {w m : Nat} (h : stopKey (key i k)) : Stands f s (addN i k w m s) := stands_setV h

theorem stands_berthObject {j : Nat} {v : Val} (hb : b < 24) (hj : j < 0x40) (hk : k < 256) : Stands f s (setV (bi b j) k v s) :=
  stands_setV (.inl ⟨by unfold key bi; omega, by unfold key bi; omega⟩)

theorem stands_modBerth {g : Berth → Berth} : Stands f s (modBerth b g s) := .of_eq rfl rfl rfl

theorem stands_modStream {g : Stream → Stream} : Stands f s (modStream n g s) := .of_eq rfl rfl rfl

theorem stands_drawn : Stands f s (drawn s) := .of_eq rfl rfl rfl

/-! The record streams (R203-R215). -/

theorem stands_ringWrite {base size at' : Nat} {l : List Byte} : Stands f s (ringWrite base size at' l s) :=
  Stands.foldl_fst (a := (s, at')) fun _ _ => .of_eq rfl rfl rfl

theorem stands_ringStage {l : List Byte} : Stands f s (ringStage st l s) := by
  unfold ringStage
  exact .step stands_modStream stands_ringWrite

theorem stands_stageBytes {l : List Nat} : Stands f s (stageBytes st l s) := by
  have hk : stopKey (key (ssi st 1) 4) := .inr (.inr (.inl (by unfold key ssi; omega)))
  unfold stageBytes
  refine .ite (fun _ => .refl s) fun _ => .ite (fun _ => ?_) fun _ => ?_
  · exact .step stands_ringStage stands_modStream
  · exact .step (stands_addN hk) (.step stands_modStream stands_modStream)

theorem stands_writeAnchors {l : List Anchor} : Stands f s (writeAnchors b l s) := by
  induction l generalizing s with
  | nil => exact stands_modStream
  | cons a l ih =>
    have h : Stands f s (if a.lost = 0 then s else stageBytes (eventStream b) (gapBytes (sampleStream b) a.lost s) s) :=
      .ite (fun _ => .refl s) fun _ => stands_stageBytes
    simp only [writeAnchors]
    exact .ite (fun _ => stands_modStream) fun _ => .ite (fun _ => .step stands_modStream h) fun _ => .step ih (.step stands_stageBytes h)

theorem stands_writeAnchor : Stands f s (writeAnchor b s) := .ite (fun _ => .refl s) fun _ => stands_writeAnchors

theorem stands_gapEntry : Stands f s (gapEntry st s) := by
  have h : Stands f s (if gapTarget st < 24 then writeAnchor (gapTarget st) s else s) :=
    .ite (fun _ => stands_writeAnchor) fun _ => .refl s
  exact .ite (fun _ => .refl s) fun _ => .ite (fun _ => h) fun _ => .step stands_modStream (.step stands_stageBytes h)

theorem stands_berthEntry {kind : Nat} {l : List Byte} : Stands f s (berthEntry b kind tm l s) :=
  .step stands_stageBytes (.step stands_gapEntry stands_writeAnchor)

theorem stands_harbourEntry {kind : Nat} {l : List Byte} : Stands f s (harbourEntry kind tm l s) :=
  .step stands_stageBytes stands_gapEntry

theorem stands_handoverRefused {code giver taker : Nat} : Stands f s (handoverRefused code giver taker tm s) := by
  have hk : ∀ k, 4 ≤ k → k ≤ 6 → stopKey (key 0x1805 k) := fun k h h' =>
    .inr (.inr (.inr (.inl ⟨by unfold key; omega, by unfold key; omega⟩)))
  exact .step stands_harbourEntry <| .step (.of_quiet (quiet_noticeAt ..) ordered_noticeAt) <|
    .step (stands_addN (hk 5 (by decide) (by decide))) (stands_setV (hk 6 (by decide) (by decide)))

/-! The end of an exposure (R33, R82, R89). -/

theorem stands_setGate {v : Bool} : Stands f s (setGate b v tm s) := .ite (fun _ => .refl s) fun _ => .of_eq rfl rfl rfl

theorem stands_updateLen : Stands f s (updateLen b tm s) :=
  .ite (fun _ => .refl s) fun _ => .ite (fun _ => stands_modBerth) fun _ => .of_eq rfl rfl rfl

theorem stands_endRun {last : Nat} : Stands f s (endRun b last tm s) := by
  unfold endRun
  exact .ite (fun _ => .refl s) fun _ => .step stands_modBerth stands_berthEntry

theorem stands_closeWindow : Stands f s (closeWindow b s) := by
  have hk : stopKey (key 0x1805 4) := .inr (.inr (.inr (.inl ⟨by decide, by decide⟩)))
  unfold closeWindow
  exact .ite (fun _ => stands_modBerth) fun _ => .step stands_harbourEntry (.step (stands_addN hk) stands_modBerth)

theorem stands_quiet (hb : b < 24) : Stands f s (quiet b tm s) := by
  have h : Stands f s (if windowPassed b tm s then closeWindow b s else s) := .ite (fun _ => stands_closeWindow) fun _ => .refl s
  unfold quiet
  exact .step stands_modBerth <| .step (stands_berthObject hb (by decide) (by decide)) <|
    .step (stands_berthObject hb (by decide) (by decide)) <| .step stands_setGate <| .step stands_endRun h

theorem stands_enterState (hb : b < 24) : Stands f s (enterState b n tm s) := by
  unfold enterState
  exact .step stands_updateLen <| .step (.ite (fun _ => stands_modStream) fun _ => .refl _)
    (stands_berthObject hb (by decide) (by decide))

theorem stands_noteStop {before : Nat} : Stands f s (noteStop b cause before tm s) :=
  .step stands_berthEntry (.of_quiet (quiet_noticeLogAt ..) ordered_noticeLogAt)

theorem stands_trigger {c : Prop} [Decidable c] {l : List Nat} :
    Stands Harbour.untriggered s (if c then { s with hm := { s.hm with trigger := l } } else s) :=
  .ite (fun _ => .of_eq rfl rfl rfl) fun _ => .refl s

theorem stands_stopped (hb : b < 24) : Stands Harbour.untriggered s (stopped b n cause strength tm s) := by
  unfold stopped
  exact .step stands_noteStop <| .step (stands_enterState hb) <| .step stands_trigger <| .step stands_modBerth <|
    .step (stands_berthObject hb (by decide) (by decide)) (stands_quiet hb)

/-! The stop of one berth (R31-R35). -/

theorem stands_setResume {ri power kind re : Nat} {arc reArc : Int} (hb : b < 24) :
    Stands f s (setResume b ri arc power tm kind re reArc s) := by
  have h : ∀ (k : Nat) (v : Val) (s : State), k < 256 → Stands f s (setV (bi b 1) k v s) := fun k _ _ =>
    stands_berthObject hb (by decide)
  unfold setResume
  exact .step (h 8 _ _ (by decide)) <| .step (h 7 _ _ (by decide)) <| .step (h 6 _ _ (by decide)) <| .step (h 5 _ _ (by decide)) <|
    .step (h 4 _ _ (by decide)) <| .step (h 3 _ _ (by decide)) (h 2 _ _ (by decide))

theorem stands_decelerate : Stands f s (decelerate b tm s) := by
  unfold decelerate
  split
  · exact stands_modBerth
  · exact stands_modBerth

theorem stands_pauseExposing (hb : b < 24) : Stands Harbour.untriggered s (pauseExposing b cause strength tm s) := by
  have h : ∀ {n u ri arc power t' kind re reArc}, Stands Harbour.untriggered s (stopped b n cause strength u
      (decelerate b tm (setResume b ri arc power t' kind re reArc s))) :=
    .step (stands_stopped hb) (.step stands_decelerate (stands_setResume hb))
  unfold pauseExposing
  split
  · exact h
  · dsimp only
    split
    · exact h
    · exact .ite (fun _ => .step (stands_stopped hb) stands_decelerate) fun _ => h

theorem stands_pauseToSafe (hb : b < 24) : Stands Harbour.untriggered s (pauseToSafe b cause tm s) := by
  unfold pauseToSafe
  refine .ite (fun _ => stands_pauseExposing hb) fun _ => .ite (fun _ => .refl s) fun _ => ?_
  split
  · exact stands_modBerth
  · exact .step (stands_pauseExposing hb) stands_drawn

theorem stands_stopOne (hb : b < 24) : Stands Harbour.untriggered s (stopOne b strength cause tm s) := by
  unfold stopOne
  split
  · exact .ite (fun _ => .step (stands_stopped hb) (stands_setResume hb)) fun _ => .refl s
  · exact .step (stands_stopped hb) (stands_setResume hb)
  · exact .ite (fun _ => stands_pauseToSafe hb) fun _ => .ite (fun _ => stands_pauseExposing hb) fun _ =>
      .step (stands_pauseExposing hb) stands_drawn
  · exact .refl s
  · exact .ite (fun _ => stands_stopped hb) fun _ =>
      .ite (fun _ => .step stands_modBerth (stands_berthObject hb (by decide) (by decide))) fun _ => .refl s

/-! The stop of a pair in its handover window (R109). -/

theorem stands_stopHalf (hb : b < 24) : Stands Harbour.untriggered s (stopHalf b place cause tm s) := by
  unfold stopHalf
  split
  · exact .refl s
  · exact .ite (fun _ => .step (stands_stopped hb) (.step stands_decelerate (stands_setResume hb))) fun _ => stands_modBerth
  · exact stands_stopOne hb

theorem stands_sameTime (hb : b < 24) (hp : p < 24) : Stands f s (sameTime b p s) :=
  .ite (fun _ => .step (stands_berthObject hp (by decide) (by decide)) (stands_berthObject hb (by decide) (by decide))) fun _ => .refl s

theorem stands_stopPair (hb : b < 24) : Stands Harbour.untriggered s (stopPair b strength cause other tm s) := by
  have h : Stands Harbour.untriggered s
      (if strength = 3 then stopOne b 3 cause tm s else stopHalf b (pairPlace b tm s) cause tm s) :=
    .ite (fun _ => stands_stopOne hb) fun _ => stands_stopHalf hb
  unfold stopPair
  dsimp only
  split
  · exact h
  next p e =>
    have hp : p < 24 := localBerth_lt (Option.filter_eq_some_iff.1 e).1
    exact .step (stands_sameTime hb hp) (.step (stands_stopHalf hp) h)

theorem stands_stopBerth (hb : b < 24) : Stands Harbour.untriggered s (stopBerth b strength cause tm s) :=
  .ite (fun _ => .step (stands_stopPair hb) stands_handoverRefused) fun _ => stands_stopOne hb

/-! A covered fault (R338), and the end of a calibration (R379). -/

theorem stands_coveredFault : Stands f s (coveredFault cause mask tm s) := by
  have h : ∀ k, 1 ≤ k → k ≤ 2 → stopKey (key 0x0406 k) := fun k h h' => by unfold stopKey key; omega
  have hs : Stands f s (setTime 0x0406 2 tm (setN 0x0406 1 cause (setN 0x7080 1 1 s))) :=
    .step (stands_setV (h 2 (by decide) (by decide))) <| .step (stands_setV (h 1 (by decide) (by decide))) <|
      stands_setV (.inr (.inr (.inl (by decide))))
  unfold coveredFault
  refine .step (.of_quiet (quiet_logAdd ..) ordered_logAdd) (.step ?_ hs)
  split
  · exact .of_eq rfl rfl rfl
  · exact .refl _

theorem stands_faultStop : Stands Harbour.untriggered s (faultStop mask strength cause tm s) := by
  unfold faultStop
  exact .step stands_coveredFault (.eachBerth fun _ _ => stands_stopBerth)

theorem stands_calStop : Stands f s (calStop b s) := by
  have h : ∀ k v s, 3 ≤ k → k ≤ 4 → Stands f s (setN 0x0603 k v s) := fun k v s h h' => stands_setV (by unfold stopKey key; omega)
  have he : Stands f s (calEnd s) := .eachBerth fun _ _ _ => .step stands_updateLen stands_modBerth
  unfold calStop
  refine .ite (fun _ => ?_) fun _ => .refl s
  exact .step (.of_quiet (quiet_notice ..) ordered_noticeAt) <| .step (t := setN 0x0603 4 5 (setN 0x0603 3 6 (calEnd s)))
    (.of_eq rfl rfl rfl) <| .step (h 4 _ _ (by decide) (by decide)) <| .step (h 3 _ _ (by decide) (by decide)) he

theorem stands_overspeed : Stands Harbour.untriggered s (overspeed b s) := by
  unfold overspeed
  split
  · exact .refl s
  · split
    · exact .refl s
    · exact .ite (fun _ => stands_faultStop) fun _ => .refl s

end Sys2Proof.Machine
end

section
/-!
PROOFS: the harbour commands (R247), the power budget (R114, R116) and the reassignment of portable runs (R118-R120).
-/
namespace Sys2Proof.Machine

variable {s t : State} {b c n p cause strength : Nat} {run : Nat × Nat} {r : SpotRecord} {tm : Time}

/-! A wait for a reservation that lasts too long (R114). -/

/-- A stop ends every wait for a reservation (R33, R83). -/
theorem waitSince_stopped : (berth b (stopped b n cause strength tm s)).waitSince = none := by
  obtain ⟨v, q, he⟩ := berth_enterState (b := b) (n := n) (tm := tm) (s := _)
  unfold stopped
  rw [(acts_noteStop (σ := .none)).berth b id, he, aside_trigger.berth b id, berth_modBerth_self, setN_eq, berth_setV]
  unfold quiet
  rw [berth_modBerth_self]

theorem budgetWaitTimeout_spec (hb : b < 24) (h : bState b s = 2) (hw : (berth b s).waitSince.isSome) :
    let t := budgetWaitTimeout b s
    StoppedIn b 3 0x0004 t ∧ ResumesAt b (berth b s).goFrom 1 0 t ∧ (berth b t).waitSince = none := by
  unfold budgetWaitTimeout
  rw [if_pos ⟨h, hw⟩]
  exact ⟨stopped_spec hb, resumesAt_setResume.stopped hb, waitSince_stopped⟩

/-! The withdrawal of a budget (R116). -/

/-- The state in which a withdrawal has ended the run of overloads of phase p. -/
def runEnded (p : Nat) (s : State) : State := { s with hm := { s.hm with excess := s.hm.excess.set p 0 } }

theorem excess_runEnded : (runEnded p s).hm.excess.getD p 0 = 0 := by
  by_cases hp : p < s.hm.excess.length <;> simp [runEnded, hp]

/-- A withdrawal ends the run of overloads and counts before it records the berth and stops it. -/
theorem budgetWithdrawal_taken (h : 8 ≤ s.hm.excess.getD p 0) (hr : withdrawalBerth (p + 1) (runEnded p s) = some r) :
    Stands Harbour.untriggered (addN 0x1808 4 32 1 (runEnded p s)) (budgetWithdrawal p s) := by
  unfold budgetWithdrawal
  rw [if_neg (Nat.not_lt.2 h)]
  extract_lets _ s₁
  rw [show withdrawalBerth (p + 1) s₁ = some r from hr]
  have hn : Stands Harbour.untriggered (addN 0x1808 4 32 1 s₁) (harbourEntry 0x13 s₁.now (toLe 1 (p + 1) ++ toLe 2 r.hb)
      (noticeObj 3 0 0x1808 4 (getI 0x1808 4 s₁) (addN 0x1808 4 32 1 s₁))) :=
    .step stands_harbourEntry (.of_quiet (quiet_noticeObj ..) ordered_noticeAt)
  dsimp only
  split
  · exact hn
  next b e => exact .step (stands_stopBerth (localBerth_lt e)) (.step stands_modBerth hn)

theorem budgetWithdrawal_spec (h : 8 ≤ s.hm.excess.getD p 0) (hr : withdrawalBerth (p + 1) (runEnded p s) = some r) :
    (budgetWithdrawal p s).hm.excess.getD p 0 = 0 ∧ getN 0x1808 4 (budgetWithdrawal p s) = (getN 0x1808 4 s + 1) % 2 ^ 32 := by
  have ht := budgetWithdrawal_taken h hr
  have he : (budgetWithdrawal p s).hm.excess = (runEnded p s).hm.excess := by
    have e := congrArg Harbour.excess ht.hm
    exact e
  refine ⟨he ▸ excess_runEnded, ?_⟩
  rw [ht.getN (not_stopKey (by decide) (by decide) (by decide)), addN, getN_setN_self]
  rfl

/-! A reassignment (R118-R120). -/

theorem reassignBerth_taken (h : bState b s = 3) (h1 : getN 0x1806 1 s ≠ 0) :
    reassignBerth b s = { s with hm := { s.hm with trigger := s.hm.trigger ++ [b] } } :=
  if_neg (by simp [h, h1])

/-- A run goes to the candidate as its last annexed run, and is counted; the harbourmaster's own data stay. -/
structure GivenTo (c b : Nat) (run : Nat × Nat) (s t : State) : Prop where
  annexes : (berth c t).annexes = (berth c s).annexes ++ [{ src := b, first := run.1, last := run.2 }]
  count : getN 0x1806 3 t = (getN 0x1806 3 s + 1) % 2 ^ 32
  hm : t.hm = s.hm

theorem GivenTo.of_stands (h : GivenTo c b run s t) {u : State} (hb : Acts annexScope t u) (hs : Stands id t u) : GivenTo c b run s u where
  annexes := hb.annexes.trans h.annexes
  count := (hs.getN (not_stopKey (by decide) (by decide) (by decide))).trans h.count
  hm := hs.hm.trans h.hm

/-- The state in which candidate c holds the run that source b has given away, counted (R119). -/
def annexed (b c : Nat) (run : Nat × Nat) (s : State) : State :=
  addN 0x1806 3 32 1 (modBerth b (fun x => { x with givenAway := x.givenAway ++ [run] })
    (modBerth c (fun x => { x with annexes := x.annexes ++ [{ src := b, first := run.1, last := run.2 }] }) s))

theorem givenTo_annexed (hn : c ≠ b) : GivenTo c b run s (annexed b c run s) where
  annexes := by rw [annexed, addN, setN_eq, berth_setV, berth_modBerth_ne _ _ _ hn, berth_modBerth_self]
  count := by rw [annexed, addN, getN_setN_self]; rfl
  hm := rfl

theorem giveRun_candidate (h : leastBy (fun t => (annexLoad t s).1) (berthList.filter (fun t => mayTake b run t s)) = some c) :
    GivenTo c b run s (giveRun b s run) := by
  have hn : c ≠ b := by
    obtain ⟨-, hm⟩ := List.mem_filter.1 (mem_of_leastBy h)
    rintro rfl
    simp [mayTake] at hm
  unfold giveRun
  rw [h]
  refine (givenTo_annexed hn).of_stands ?_ ?_
  · exact .step (.of_quiet (quiet_notice ..)) (.step acts_berthEntry acts_berthEntry)
  · exact .step (.of_quiet (quiet_notice ..) ordered_noticeAt) (.step stands_berthEntry stands_berthEntry)

/-- The move of the resume record (R120) writes the resume point of the source alone. -/
theorem GivenTo.skipResume (h : GivenTo c b run s t) : GivenTo c b run s (skipResume b t) := by
  have hk : ∀ k, k < 256 → key 0x1806 3 ≠ key (bi b 1) k := fun k _ => by unfold key bi; omega
  unfold Machine.skipResume
  dsimp only
  split
  · refine ⟨h.annexes, ?_, h.hm⟩
    rw [getN_setI_ne _ _ (hk 3 (by decide)), getN_setN_ne _ _ (hk 2 (by decide))]
    exact h.count
  · exact h

/-- The one remaining run of a Holding source goes to a candidate. -/
theorem reassignRuns_single (h : bState b s = 3) (h1 : getN 0x1806 1 s ≠ 0) (hr : remainingRuns b s = [run])
    (hc : leastBy (fun t => (annexLoad t s).1) (berthList.filter (fun t => mayTake b run t s)) = some c) :
    GivenTo c b run s (reassignRuns b s) := by
  unfold reassignRuns
  rw [if_neg (by simp [h, h1]), hr]
  exact (giveRun_candidate hc).skipResume

/-- Settles O6: a withdrawal and a given run are counted before anything is recorded or stopped, and neither of those reaches the counts,
the overloads or the annexed runs. -/
theorem harbourCommands : Obligations.HarbourCommands := by
  unfold Obligations.HarbourCommands
  refine ⟨fun s => ⟨fun hr => ?_, fun hr => ?_, fun hr => ?_⟩, fun b s hr h hw => ?_, fun p r s hr h hb => ?_, fun b s hr h h1 => ?_,
    fun b c run s u hr ht hu h h1 hrun hc => ?_⟩
  · exact gated_run hr.1 hr.2
  · exact gated_run hr.1 hr.2
  · exact gated_run hr.1 hr.2
  · obtain ⟨hs, hres, hwait⟩ := budgetWaitTimeout_spec (s := fresh s) (of_decide_eq_true hr.1) h hw
    exact ⟨_, (gated_run hr.1 hr.2 : execBudgetWaitTimeout b s = _), hs.state, hs.cause, hres.ri, hwait⟩
  · exact ⟨_, (gated_run hr.1 hr.2 : execBudgetWithdrawal p s = _), budgetWithdrawal_spec (s := fresh s) h hb⟩
  · exact (gated_run hr.1 hr.2 : execReassignBerth b s = _).trans (congrArg _ (reassignBerth_taken (s := fresh s) h h1))
  · subst hu
    have hg := reassignRuns_single (s := { fresh s with hm := { s.hm with trigger := [] } }) h h1 hrun hc
    refine ⟨_, (gated_run hr.1 hr.2 : execReassignment s = _), ?_⟩
    rw [show (fresh s).hm.trigger = [b] from ht]
    exact ⟨congrArg Harbour.trigger hg.hm, hg.annexes, hg.count⟩

end Sys2Proof.Machine
end

section
/-!
PROOFS, the layer of facts: the loss of a link (R243, R248, R350) in a state whose objects are listed in order. What the loss takes with it or
writes are the link's own V objects and its state, reason and adaptation, the list of Up links, and notices (`lossKey`).
-/
namespace Sys2Proof.Machine

variable {s t u : State} {l i k n h b reason : Nat} {v : Val}

/-! What a filter takes from an ordered table. -/

theorem Tab.above_filter {α : Type} {p : Nat × α → Bool} {m : Tab α} (h : Tab.above n m) : Tab.above n (m.filter p) := by
  induction m generalizing n with
  | nil => trivial
  | cons e m ih =>
    obtain ⟨hn, hm⟩ := h
    cases hp : p e
    · simpa [hp] using Tab.above_mono hn.le (ih hm)
    · simpa [hp, Tab.above] using ⟨hn, ih hm⟩

/-- A filter that keeps a key's entries leaves what the key of an ordered table finds. -/
theorem Tab.find_filter_of_sorted {α : Type} {p : Nat × α → Bool} {m : Tab α} (h : Tab.sorted m = true) (hp : ∀ v, p (n, v) = true) :
    Tab.find n (m.filter p) = Tab.find n m := by
  induction m with
  | nil => rfl
  | cons e m ih =>
    obtain ⟨j, w⟩ := e
    have ha := Tab.sorted_cons.1 h
    have him := ih (Tab.sorted_of_above ha)
    by_cases hlt : n < j
    · rw [show Tab.find n ((j, w) :: m) = none from if_pos hlt]
      exact Tab.find_of_above (Tab.above_filter (p := p) (m := (j, w) :: m) ⟨hlt, ha⟩) (Nat.le_refl _)
    · cases hw : p (j, w)
      · have hne : n ≠ j := fun e => by simp [← e, hp] at hw
        simp [hw, Tab.find, hlt, hne, him]
      · simp [hw, Tab.find, hlt, him]

/-- An object of a kept kind reads what it read. -/
theorem getV_keepObjects_of_sorted {p : Nat → Kind → Bool} {κ : Kind} (hs : Tab.sorted s.obj = true) (hk : k < 256)
    (hκ : kindOf (key i k) = some κ) (hp : p i κ = true) : getV i k (keepObjects p s) = getV i k s := by
  have hi : key i k / 256 = i := by unfold key; omega
  unfold getV keepObjects
  rw [Tab.find_filter_of_sorted hs]
  intro v
  simp only [hκ, hi, hp]

/-! Where a loss of link l writes. -/

/-- The subindices of a link's state, of its reason, and of its adaptation and polarity on head and quay links. -/
def lossSubs : List Nat := [2, 3, 5, 0xA, 0xE, 0x11]

def lossKey (l n : Nat) : Prop :=
  n / 256 = 0x3800 ∨ noticeKey n ∨ n / 256 = lki l ∧ (n % 256 ∈ lossSubs ∨ kindOf n = some .v) ∨ kindOf n = none

theorem lossKey_own (hk : k ∈ lossSubs) : lossKey l (key (lki l) k) := by
  have h : k < 256 := by simp only [lossSubs, List.mem_cons, List.not_mem_nil, or_false] at hk; omega
  have hi : key (lki l) k / 256 = lki l := by unfold key; omega
  have hs : key (lki l) k % 256 = k := by unfold key; omega
  exact .inr (.inr (.inl ⟨hi, .inl (hs.symm ▸ hk)⟩))

theorem lossKey_shown (hk : k < 256) : lossKey l (key 0x3800 k) := .inl (by unfold key; omega)

theorem not_lossKey {κ : Kind} (hκ : kindOf (key i k) = some κ) (hk : k < 256) (hi : 0x0806 ≤ i) (h0 : i ≠ 0x3800)
    (hl : i ≠ lki l ∨ κ ≠ .v ∧ k ∉ lossSubs) : ¬ lossKey l (key i k) := by
  have hi' : key i k / 256 = i := by unfold key; omega
  have hs : key i k % 256 = k := by unfold key; omega
  have hn : ¬ noticeKey (key i k) := by unfold noticeKey key; omega
  unfold lossKey
  rw [hi', hs, hκ]
  simp only [Option.some.injEq, reduceCtorEq, or_false]
  tauto

/-- From s to t link l came into state n for a reason, and nothing else changed but what a loss of it takes along. -/
structure Lost (l n reason : Nat) (s t : State) : Prop where
  state : linkState l t = n
  reason : getN (lki l) 3 t = reason
  obj : ∀ i k, k < 256 → ¬ lossKey l (key i k) → getV i k t = getV i k s
  berths : t.berths = s.berths
  seats : t.hm.seats = s.hm.seats

theorem Lost.getN (h : Lost l n reason s t) (hk : k < 256) (hn : ¬ lossKey l (key i k)) : getN i k t = getN i k s := by
  rw [getN_eq, getN_eq, h.obj i k hk hn]

theorem getV_setV_of_lossKey {j m : Nat} (hn : ¬ lossKey l (key i k)) (h : lossKey l (key j m)) :
    getV i k (setV j m v s) = getV i k s := getV_setV_ne _ _ fun e => hn (by rw [e]; exact h)

/-- What changes no object, no berth and no seat's frame. -/
theorem Lost.of_eq (h : Lost l n reason s t) (ho : u.obj = t.obj) (hb : u.berths = t.berths) (hs : u.hm.seats = t.hm.seats) :
    Lost l n reason s u where
  state := by rw [linkState, getN_eq, getV_congr ho]; exact h.state
  reason := by rw [getN_eq, getV_congr ho]; exact h.reason
  obj i k hk hn := (getV_congr ho).trans (h.obj i k hk hn)
  berths := hb.trans h.berths
  seats := hs.trans h.seats

theorem le_lki : 0x3810 ≤ lki l := by unfold lki; split <;> omega

theorem lki_ne_shown : lki l ≠ 0x3800 := by have h := le_lki (l := l); omega

/-- The list of Up links is another object than those of a link. -/
theorem getV_setLinkState (hn : key i k ≠ key (lki l) 2) (h0 : i ≠ 0x3800) (hk : k < 256) : getV i k (setLinkState l n s) = getV i k s := by
  have h : ∀ j, j < 256 → key i k ≠ key 0x3800 j := fun j hj e => h0 ((key_inj hk hj).1 e).1
  unfold setLinkState
  dsimp only
  split
  · exact (getV_setV_ne _ _ (h 1 (by decide))).trans (getV_setV_ne _ _ hn)
  · exact (getV_setV_ne _ _ (h 2 (by decide))).trans (getV_setV_ne _ _ hn)

theorem linkState_setLinkState : linkState l (setLinkState l n s) = n := by
  have h : ∀ j, j < 256 → key (lki l) 2 ≠ key 0x3800 j := fun j hj e => lki_ne_shown ((key_inj (by decide) hj).1 e).1
  unfold setLinkState linkState
  dsimp only
  split
  · rw [getN_setN_ne _ _ (h 1 (by decide)), getN_setN_self]
  · rw [getN_setN_ne _ _ (h 2 (by decide)), getN_setN_self]

theorem berths_setLinkState : (setLinkState l n s).berths = s.berths := by
  unfold setLinkState; dsimp only; split <;> rfl

theorem hm_setLinkState : (setLinkState l n s).hm = s.hm := by
  unfold setLinkState; dsimp only; split <;> rfl

theorem Lost.setLinkState {m : Nat} (h : Lost l n reason s t) : Lost l m reason s (setLinkState l m t) where
  state := linkState_setLinkState
  reason := by
    rw [getN_eq, getV_setLinkState (by simp) lki_ne_shown (by decide), ← getN_eq, h.reason]
  obj i k hk hn := by
    have h0 : i ≠ 0x3800 := fun e => hn (e ▸ lossKey_shown hk)
    exact (getV_setLinkState (fun e => hn (by rw [e]; exact lossKey_own (by decide))) h0 hk).trans (h.obj i k hk hn)
  berths := berths_setLinkState.trans h.berths
  seats := (congrArg Harbour.seats hm_setLinkState).trans h.seats

/-- The adaptation and polarity of a lost link. -/
theorem Lost.setN {m v : Nat} (h : Lost l n reason s t) (hm : m ∈ [5, 0xA, 0xE, 0x11]) : Lost l n reason s (setN (lki l) m v t) := by
  have hs : m ∈ lossSubs := by revert hm; decide +revert
  have hne : ∀ k, k < 4 → key (lki l) k ≠ key (lki l) m := fun k hk => by
    simp only [List.mem_cons, List.not_mem_nil, or_false] at hm
    unfold key; omega
  exact ⟨(getN_setN_ne _ _ (hne 2 (by decide))).trans h.state, (getN_setN_ne _ _ (hne 3 (by decide))).trans h.reason,
    fun i k hk hn => (getV_setV_of_lossKey hn (lossKey_own hs)).trans (h.obj i k hk hn), h.berths, h.seats⟩

/-- Bring-up begins at once (R220, R223). -/
theorem Lost.enterDetect (h : Lost l n reason s t) : Lost l 1 reason s (enterDetect l t) := by
  have hsub : ∀ x y, x ∈ [5, 0xA, 0xE, 0x11] → y ∈ [5, 0xA, 0xE, 0x11] → lsub l x y ∈ [5, 0xA, 0xE, 0x11] := fun x y hx hy => by
    unfold lsub; split
    · exact hx
    · exact hy
  have ht : Lost l n reason s (takeSeat l t) := by
    unfold takeSeat
    split
    · exact h
    · exact h.of_eq rfl rfl rfl
  exact ((ht.setLinkState.setN (hsub 0xE 0xA (by decide) (by decide))).setN (hsub 0x11 5 (by decide) (by decide))).of_eq rfl rfl rfl

theorem kindOf_enable (hl : l < 26) : kindOf (key (lki l) 1) = some .s := by decide +revert
theorem kindOf_reason (hl : l < 26) : kindOf (key (lki l) 3) = some .w := by decide +revert

/-- A link that goes Down is enabled as before. -/
theorem not_lossKey_enable (hl : l < 26) : ¬ lossKey l (key (lki l) 1) :=
  not_lossKey (kindOf_enable hl) (by decide) (Nat.le_trans (by decide) le_lki) lki_ne_shown (.inr ⟨by decide, by decide⟩)

/-- A link's V objects go, its reason stays. -/
theorem lost_resetLink (hl : l < 26) (hs : Tab.sorted s.obj = true) : ∃ n, Lost l n reason s (resetLink l (setN (lki l) 3 reason s)) := by
  have hs' : Tab.sorted (setN (lki l) 3 reason s).obj = true := Tab.sorted_put hs
  refine ⟨_, rfl, ?_, fun i k hk hn => ?_, rfl, rfl⟩
  · rw [resetLink, getN_eq, getV_modLink, getV_keepObjects_of_sorted hs' (by decide) (kindOf_reason hl) (by simp), ← getN_eq, getN_setN_self]
  · obtain ⟨κ, hκ⟩ := Option.ne_none_iff_exists'.1 fun e => hn (.inr (.inr (.inr e)))
    have hi : key i k / 256 = i := by unfold key; omega
    have hp : (!(i == lki l && κ == .v)) = true := by
      by_contra hc
      simp only [Bool.not_eq_true', Bool.not_eq_false, Bool.and_eq_true, beq_iff_eq] at hc
      obtain ⟨rfl, rfl⟩ := hc
      exact hn (.inr (.inr (.inl ⟨hi, .inr hκ⟩)))
    rw [resetLink, getV_modLink, getV_keepObjects_of_sorted hs' hk hκ hp]
    exact getV_setV_of_lossKey hn (lossKey_own (by decide))

theorem Lost.linkNote (h : Lost l n reason s t) : Lost l n reason s (linkNote l reason t) := by
  have hq : Quiet t (Machine.linkNote l reason t) := quiet_noticeLog ..
  have hk : ∀ k, ¬ noticeKey (key (lki l) k) := fun k => by
    have h := le_lki (l := l)
    unfold noticeKey key; omega
  exact ⟨(hq.getN (hk 2)).trans h.state, (hq.getN (hk 3)).trans h.reason,
    fun i k hk hn => (hq.obj i k fun e => hn (.inr (.inl e))).trans (h.obj i k hk hn), hq.berths.trans h.berths,
    (congrArg Harbour.seats hq.hm).trans h.seats⟩

theorem lost_dropLink (hl : l < 26) (hs : Tab.sorted s.obj = true) :
    Lost l (if getN (lki l) 1 s = 1 then 1 else 0) reason s (dropLink l reason s) := by
  have hd : ∀ g, Lost l 0 reason s (linkNote l reason (setLinkState l 0 (resetLink l (setN (lki l) 3 reason (modLink l g s))))) := fun g => by
    obtain ⟨n, hr⟩ := lost_resetLink (reason := reason) (s := modLink l g s) hl hs
    obtain ⟨hst, hre, hobj, hb, hse⟩ := (hr.setLinkState (m := 0)).linkNote
    exact ⟨hst, hre, hobj, hb, hse⟩
  unfold dropLink
  dsimp only
  rw [(hd _).getN (by decide) (not_lossKey_enable hl)]
  split
  · exact (hd _).enterDetect
  · exact (hd _).of_eq rfl rfl rfl

end Sys2Proof.Machine
end

section
/-!
PROOFS: the losses of head links and quay links (R95, R237, R243, R248). A `Tab` is meant to list its keys in rising order. Of every state
whose objects are listed so, the four clauses of O23 hold and are proved here; the statement does not ask for it, and of a state whose
objects are not it fails.
-/
namespace Sys2Proof.Machine

variable {s t u : State} {b h k l n reason : Nat}

/-! The berth of a lost head link (R243). -/

/-- The records of the berths, and none of their objects. -/
def recordScope : Scope := ⟨fun _ => True, fun _ _ => False, fun _ => {}⟩

/-- The end of a calibration is no stop: the berths stay in their states. -/
theorem acts_calStop_records : Acts recordScope s (calStop b s) := by
  have he : Acts recordScope s (calEnd s) :=
    acts_eachBerth fun _ _ => .step (acts_updateLen trivial fun _ _ _ => rfl) (acts_modBerth trivial fun _ => rfl)
  have hs : Acts recordScope s (setN 0x0603 4 5 (setN 0x0603 3 6 (calEnd s))) :=
    .step (acts_setV_far (by decide)) (.step (acts_setV_far (by decide)) he)
  unfold calStop
  refine .ite (fun _ => ?_) fun _ => .refl s
  exact .step (.of_quiet (quiet_notice ..)) (.step (.of_eq (s := setN 0x0603 4 5 (setN 0x0603 3 6 (calEnd s))) rfl rfl rfl rfl rfl) hs)

/-- A covered fault of one Armed berth pauses it. -/
theorem stoppedIn_faultStop_armed {cause : Nat} {tm : Time} (hb : b < 24) (h : bState b s = 1) :
    StoppedIn b 4 cause (faultStop (2 ^ b) 2 cause tm s) := by
  obtain ⟨hst, -, -⟩ := pause_armed (strength := 2) (cause := cause) (tm := tm) hb h
  unfold faultStop
  rw [eachBerth_single hb]
  refine ⟨?_, ?_, ?_⟩
  · exact ((acts_coveredFault (σ := .none)).bState hb (.inl id)).trans hst.state
  · exact ((acts_coveredFault (σ := .none)).getN hb (by decide) (by decide) (.inl id)).trans hst.cause
  · rw [(acts_coveredFault (σ := .none)).berth b id]
    exact hst.halted

/-! What a loss leaves of the objects of berths and links. -/

theorem kindOf_berthState (hb : b < 24) : kindOf (key (bi b 0) 1) = some .w := by decide +revert
theorem kindOf_berthCause (hb : b < 24) : kindOf (key (bi b 0) 6) = some .w := by decide +revert
theorem kindOf_missingFeedback (hh : h < 24) : kindOf (key (lki h) 0x15) = some .w := by decide +revert
theorem kindOf_missingRecord (hk : k < 2) : kindOf (key (lki (24 + k)) 0x10) = some .w := by decide +revert

theorem not_lossKey_berth {κ : Kind} {j : Nat} (hκ : kindOf (key (bi b 0) j) = some κ) (hb : b < 24) (hj : j < 256) :
    ¬ lossKey l (key (bi b 0) j) := by
  have hl := le_lki (l := l)
  have h : 0x1000 ≤ bi b 0 ∧ bi b 0 < 0x1600 := by unfold bi; omega
  exact not_lossKey hκ hj (by omega) (by omega) (.inl (by omega))

/-- A count of a link (W) stays through its loss. -/
theorem not_lossKey_count {j : Nat} (hκ : kindOf (key (lki l) j) = some .w) (hj : j < 256) (hs : j ∉ lossSubs) :
    ¬ lossKey l (key (lki l) j) :=
  not_lossKey hκ hj (Nat.le_trans (by decide) le_lki) lki_ne_shown (.inr ⟨by decide, hs⟩)

theorem Lost.stoppedIn {cause : Nat} (h : Lost l n reason s t) (hb : b < 24) (hs : StoppedIn b 4 cause s) : StoppedIn b 4 cause t where
  state := (h.getN (by decide) (not_lossKey_berth (kindOf_berthState hb) hb (by decide))).trans hs.state
  cause := (h.getN (by decide) (not_lossKey_berth (kindOf_berthCause hb) hb (by decide))).trans hs.cause
  halted := by
    rw [berth, h.berths]
    exact hs.halted

theorem not_stopKey_link (hl : l < 26) {j : Nat} (hj : j < 256) : ¬ stopKey (key (lki l) j) :=
  not_stopKey (Nat.le_trans (by decide) le_lki) (by unfold lki; split <;> omega) hj

/-! A head link is lost (R237, R243). -/

/-- A lost head link stops its berth if need be (r), then goes Down. -/
theorem headLost_up (hh : h < 24) (hs : Tab.sorted s.obj = true) (h7 : linkState h s = 7) :
    ∃ r, Stands Harbour.untriggered s r ∧ (bState h s = 1 → StoppedIn h 4 0x000A r) ∧
      Lost h (if getN (lki h) 1 s = 1 then 1 else 0) reason r (headLost h reason s) := by
  obtain ⟨m, hm, he⟩ : ∃ m, (bState h s = 1 → m = 2 ^ h) ∧
      headLost h reason s = dropLink h reason (faultStop m 2 0x000A s.now (calStop h s)) :=
    ⟨_, fun h1 => if_pos (.inl h1), if_neg (not_not.2 h7)⟩
  have hr : Stands Harbour.untriggered s (faultStop m 2 0x000A s.now (calStop h s)) := .step stands_faultStop stands_calStop
  refine ⟨_, hr, fun h1 => ?_, ?_⟩
  · rw [hm h1]
    exact stoppedIn_faultStop_armed hh ((acts_calStop_records.bState hh (.inr id)).trans h1)
  · rw [he, ← hr.getN (not_stopKey_link (l := h) (by omega) (by decide))]
    exact lost_dropLink (by omega) (hr.ordered hs)

/-- O23, the loss of lock or alignment, of a state in order. -/
theorem lockOrAlignmentLost_of_sorted (hs : Tab.sorted s.obj = true) (hr : Ready (.lockOrAlignmentLost h) s) (hh : h < 24)
    (h7 : linkState h s = 7) (h1 : bState h s = 1) :
    ∃ t, exec (.lockOrAlignmentLost h) s = .next t ∧ linkState h t = (if getN (lki h) 1 s = 1 then 1 else 0) ∧
      getN (lki h) 3 t = 1 ∧ bState h t = 4 ∧ getN (bi h 0) 6 t = 0x000A ∧ (berth h t).gate = false := by
  obtain ⟨r, -, hst, hl⟩ := headLost_up (s := fresh s) (reason := 1) hh hs h7
  obtain ⟨h4, hc, hg⟩ := hl.stoppedIn hh (hst h1)
  refine ⟨_, (gated_run hr.1 hr.2 : execLockOrAlignmentLost h s = _), ?_⟩
  rw [linkLost, if_pos hh]
  exact ⟨hl.state, hl.reason, h4, hc, hg.gate⟩

/-- A FEEDBACK frame of the present frame that has not come is counted. -/
def feedbackCounted (h : Nat) (s : State) : State :=
  addN (hi h) 0x15 32 1 (modLink h (fun x => { x with missRun := x.missRun + 1 }) (overspeed h s))

/-- How a missing FEEDBACK frame has been counted. -/
structure CountedMiss (h : Nat) (s t : State) : Prop where
  count : getN (lki h) 0x15 t = (getN (lki h) 0x15 s + 1) % 2 ^ 32
  other : ∀ j, j < 256 → j ≠ 0x15 → getN (lki h) j t = getN (lki h) j s
  run : (link h t).missRun = (link h s).missRun + 1
  ordered : Ordered s t

theorem countedMiss_feedbackCounted (hh : h < 24) : CountedMiss h s (feedbackCounted h s) := by
  have ho : Stands Harbour.untriggered s (overspeed h s) := stands_overspeed
  have hi : hi h = lki h := (if_pos hh).symm
  have hk : ∀ j, j < 256 → getN (lki h) j (overspeed h s) = getN (lki h) j s := fun j hj =>
    ho.getN (not_stopKey_link (by omega) hj)
  unfold feedbackCounted
  rw [hi]
  refine ⟨?_, fun j hj hne => ?_, ?_, .step ordered_addN (.step (.of_eq rfl) ho.ordered)⟩
  · rw [addN, getN_setN_self, getN_eq, getV_modLink, ← getN_eq, hk 0x15 (by decide)]
  · rw [addN, getN_setN_ne _ _ fun e => hne ((key_inj hj (by decide)).1 e).2, getN_eq, getV_modLink, ← getN_eq, hk j hj]
  · rw [addN, setN_eq, link_setV, link_modLink_self, ho.link]

theorem feedbackMissing_up (h7 : linkState h s = 7) (hf : (link h s).fbFrame ≠ s.frame) :
    feedbackMissing h s = if getN (hi h) 0x0A (feedbackCounted h s) < (link h (feedbackCounted h s)).missRun then
      headLost h 3 (feedbackCounted h s) else feedbackCounted h s :=
  if_neg (by simp [h7, hf])

/-- O23, a missing FEEDBACK frame, of a state in order. -/
theorem feedbackMissing_of_sorted (hs : Tab.sorted s.obj = true) (hr : Ready (.feedbackMissing h) s) (h7 : linkState h s = 7)
    (hf : (link h s).fbFrame ≠ s.frame) :
    ∃ t, exec (.feedbackMissing h) s = .next t ∧ getN (hi h) 0x15 t = (getN (hi h) 0x15 s + 1) % 2 ^ 32 ∧
      linkState h t = (if getN (hi h) 0x0A s < (link h s).missRun + 1 then (if getN (lki h) 1 s = 1 then 1 else 0) else 7) ∧
      (getN (hi h) 0x0A s < (link h s).missRun + 1 → getN (lki h) 3 t = 3) := by
  have hh : h < 24 := of_decide_eq_true hr.1
  have hc := countedMiss_feedbackCounted (s := fresh s) hh
  have hi : hi h = lki h := (if_pos hh).symm
  have h7' : linkState h (feedbackCounted h (fresh s)) = 7 := (hc.other 2 (by decide) (by decide)).trans h7
  refine ⟨_, (gated_run hr.1 hr.2 : execFeedbackMissing h s = _), ?_⟩
  rw [feedbackMissing_up (s := fresh s) h7 hf, hi, hc.other 0x0A (by decide) (by decide), hc.run]
  change _ ∧ _ = (if getN (lki h) 0x0A (fresh s) < (link h (fresh s)).missRun + 1 then _ else 7) ∧
    (getN (lki h) 0x0A (fresh s) < (link h (fresh s)).missRun + 1 → _)
  split
  · obtain ⟨r, hst, -, hl⟩ := headLost_up (reason := 3) hh (hc.ordered hs) h7'
    rw [hc.other 1 (by decide) (by decide)] at hl
    refine ⟨?_, hl.state, fun _ => hl.reason⟩
    rw [hl.getN (by decide) (not_lossKey_count (kindOf_missingFeedback hh) (by decide) (by decide)),
      hst.getN (not_stopKey_link (by omega) (by decide)), hc.count]
    rfl
  next hn => exact ⟨hc.count, h7', fun h => absurd h hn⟩

/-! A quay link is lost (R95, R247, R248). -/

/-- How the loss of quay link k leaves the frames of other seats: those of seats beyond it only where a ring brings them the other way. -/
def SeatsHeard (k : Nat) (s t : State) : Prop :=
  ∀ e ∈ t.hm.seats, e.1 ∈ seatsBeyond k s → s.hm.ring = true ∧ (e.1 ∈ (link (25 - k) s).heard ∨ e.1 ∈ (link (25 - k) s).heardBefore)

/-- A lost quay link stops berths and forgets seats (r), then goes Down. -/
theorem quayLost_up (hk : k < 2) (hs : Tab.sorted s.obj = true) (h7 : linkState (24 + k) s = 7) :
    ∃ r, (∀ j, j < 256 → getN (lki (24 + k)) j r = getN (lki (24 + k)) j s) ∧ SeatsHeard k s r ∧
      Lost (24 + k) (if getN (lki (24 + k)) 1 s = 1 then 1 else 0) reason r (quayLost k reason s) := by
  have hl : 24 + k < 26 := by omega
  unfold quayLost
  rw [if_neg (not_not.2 h7)]
  extract_lets gone s₁ still _ s₂ s₃
  have h₁ : Stands Harbour.untriggered s s₁ := .step stands_faultStop stands_drawn
  clear_value s₁
  have hring : s₁.hm.ring = s.hm.ring := by
    have e := congrArg Harbour.ring h₁.hm
    exact e
  have hq : Quiet s₂ s₃ := by
    simp only [s₃]
    split
    · exact .refl s₂
    · exact quiet_notice ..
  have ho : Ordered s₂ s₃ := by
    simp only [s₃]
    split
    · exact .refl s₂
    · exact ordered_noticeAt
  clear_value s₃
  have hobj : ∀ j, j < 256 → getN (lki (24 + k)) j s₃ = getN (lki (24 + k)) j s := fun j hj =>
    (hq.getN fun e => not_stopKey_link hl hj (.inr (.inl e))).trans (h₁.getN (not_stopKey_link hl hj))
  refine ⟨s₃, hobj, fun e he hg => ?_, ?_⟩
  · rw [hq.hm] at he
    obtain ⟨-, hb⟩ := List.mem_filter.1 he
    have hst : e.1 ∈ still := by simpa [gone, hg] using hb
    simp only [still, hring, h₁.link] at hst
    split at hst
    · exact ⟨‹_›, List.mem_append.1 hst⟩
    · cases hst
  · rw [← hobj 1 (by decide)]
    exact lost_dropLink hl (ho (h₁.ordered hs))

theorem ringWhole_fresh : ringWhole (fresh s) = ringWhole s := rfl

theorem seatsBeyond_fresh : seatsBeyond k (fresh s) = seatsBeyond k s := by
  simp only [seatsBeyond, ringWhole_fresh]
  rfl

/-- O23, a quay link without SEAT frames, of a state in order. -/
theorem seatFrameMissing_of_sorted (hs : Tab.sorted s.obj = true) (hr : Ready (.seatFrameMissing k) s) (h7 : linkState (24 + k) s = 7) :
    ∃ t, exec (.seatFrameMissing k) s = .next t ∧ linkState (24 + k) t = (if getN (lki (24 + k)) 1 s = 1 then 1 else 0) ∧
      getN (lki (24 + k)) 3 t = 13 ∧ SeatsHeard k s t := by
  obtain ⟨r, -, hse, hl⟩ := quayLost_up (s := fresh s) (reason := 13) (of_decide_eq_true hr.1) hs h7
  refine ⟨_, (gated_run hr.1 hr.2 : execSeatFrameMissing k s = _), hl.state, hl.reason, fun e he hg => ?_⟩
  rw [hl.seats] at he
  rw [← seatsBeyond_fresh] at hg
  exact hse e he hg

/-- O23, a quay link whose record misses its deadline, of a state in order. -/
theorem recordMissing_of_sorted (hs : Tab.sorted s.obj = true) (hr : Ready (.recordMissing k) s) (h7 : linkState (24 + k) s = 7) :
    ∃ t, exec (.recordMissing k) s = .next t ∧ linkState (24 + k) t = (if getN (lki (24 + k)) 1 s = 1 then 1 else 0) ∧
      getN (lki (24 + k)) 3 t = 13 ∧ getN (lki (24 + k)) 0x10 t = (getN (lki (24 + k)) 0x10 s + 1) % 2 ^ 32 := by
  have hk : k < 2 := of_decide_eq_true hr.1
  have hne : ∀ j, j < 0x10 → key (lki (24 + k)) j ≠ key (lki (24 + k)) 0x10 := fun j hj => by unfold key; omega
  have h7' : linkState (24 + k) (addN (lki (24 + k)) 0x10 32 1 (fresh s)) = 7 := (getN_setN_ne _ _ (hne 2 (by decide))).trans h7
  obtain ⟨r, hobj, -, hl⟩ := quayLost_up (s := addN (lki (24 + k)) 0x10 32 1 (fresh s)) (reason := 13) hk (ordered_addN hs) h7'
  have h1 : getN (lki (24 + k)) 1 (addN (lki (24 + k)) 0x10 32 1 (fresh s)) = getN (lki (24 + k)) 1 s := getN_setN_ne _ _ (hne 1 (by decide))
  rw [h1] at hl
  refine ⟨_, (gated_run hr.1 hr.2 : execRecordMissing k s = _), ?_⟩
  rw [recordMissing, if_pos (show linkState (24 + k) (fresh s) = 7 from h7)]
  refine ⟨hl.state, hl.reason, ?_⟩
  rw [hl.getN (by decide) (not_lossKey_count (kindOf_missingRecord hk) (by decide) (by decide)), hobj 0x10 (by decide), addN, getN_setN_self]
  rfl

/-- Head link 0 and quay link 0 are Up, berth 0 is Armed, and the objects are listed in order. -/
def linksUp : State := { State.reset with
  obj := [(key (bi 0 0) 1, .int 1), (key (lki 0) 1, .int 1), (key (lki 0) 2, .int 7), (key (lki 24) 2, .int 7)], frame := 1 }

/-- `linksUp` is a state of which the four clauses speak. -/
theorem linksUp_inOrder : Tab.sorted linksUp.obj = true ∧ linkState 0 linksUp = 7 ∧ linkState 24 linksUp = 7 ∧ bState 0 linksUp = 1 ∧
    (link 0 linksUp).fbFrame ≠ linksUp.frame ∧ Ready (.lockOrAlignmentLost 0) linksUp ∧ Ready (.feedbackMissing 0) linksUp ∧
    Ready (.seatFrameMissing 0) linksUp ∧ Ready (.recordMissing 0) linksUp := by decide

/-! A table out of order. -/

/-- Head link 0 is Up, its feedback has been missing for long, and its enable object is listed as 1 behind its state, where a look-up by rising
keys does not find it: the link reads as disabled. -/
def enableOutOfOrder : State := { State.reset with
  obj := [(key (lki 0) 2, .int 7), (key (lki 0) 1, .int 1)], links := [(0, { missRun := 8 })], frame := 1 }

theorem enable_enableOutOfOrder : getN (lki 0) 1 enableOutOfOrder = 0 := by decide

/-- Overspeed of an unarmed berth changes nothing. -/
theorem overspeed_enableOutOfOrder : overspeed 0 (fresh enableOutOfOrder) = fresh enableOutOfOrder := by decide +kernel

/-- `enableOutOfOrder` with the missing frame counted. -/
def missCounted : State :=
  addN (hi 0) 0x15 32 1 (modLink 0 (fun x => { x with missRun := x.missRun + 1 }) (fresh enableOutOfOrder))

/-- The loss takes the V object of the link's state from the table; that brings the enable object to light, and bring-up begins. -/
theorem linkState_enableOutOfOrder : linkState 0 (feedbackMissing 0 (fresh enableOutOfOrder)) = 1 := by
  have hc : feedbackCounted 0 (fresh enableOutOfOrder) = missCounted := by
    unfold feedbackCounted
    rw [overspeed_enableOutOfOrder]
    rfl
  rw [feedbackMissing_up (by decide) (by decide), hc, if_pos (by decide)]
  decide +kernel

/-- Refutes O23: at `enableOutOfOrder`, whose table is not in the order of its keys, a link that reads as disabled goes into bring-up after a
missing FEEDBACK frame. A state in order meets all four clauses (`lockOrAlignmentLost_of_sorted`, `feedbackMissing_of_sorted`,
`seatFrameMissing_of_sorted`, `recordMissing_of_sorted`). -/
theorem not_linksAreLost : ¬ Obligations.LinksAreLost := by
  unfold Obligations.LinksAreLost
  rintro ⟨-, hmissing, -, -⟩
  have hr : Ready (.feedbackMissing 0) enableOutOfOrder := by decide
  obtain ⟨t, ht, -, hl, -⟩ := hmissing 0 enableOutOfOrder hr (by decide) (by decide)
  have he : t = feedbackMissing 0 (fresh enableOutOfOrder) := by
    have e := ht.symm.trans (gated_run hr.1 hr.2 : execFeedbackMissing 0 enableOutOfOrder = _)
    injection e
  rw [he, linkState_enableOutOfOrder, enable_enableOutOfOrder, if_pos (by decide)] at hl
  cases hl

end Sys2Proof.Machine
end

section
/-!
PROOFS: the commands of a loop (R134, R138, R147): the shadow of its bank select and mode, and its flags.
-/
namespace Sys2Proof.Machine

variable {s : State} {i k j m n w v : Nat} {b : Bool}

/-! A bit of a number, and a flag of a loop, after it was set. -/

theorem testBit_add_two_pow_self : (w + 2 ^ i).testBit i = !w.testBit i := by
  rw [Nat.add_comm, Nat.testBit_two_pow_add_eq]

theorem testBit_sub_two_pow_self (h : w.testBit i = true) : (w - 2 ^ i).testBit i = false := by
  have he : w - 2 ^ i + 2 ^ i = w := Nat.sub_add_cancel (Nat.ge_two_pow_of_testBit h)
  simpa [he, h] using testBit_add_two_pow_self (w := w - 2 ^ i) (i := i)

@[simp] theorem bit_setBit_self : bit (setBit w i b) i = b := by
  unfold bit setBit
  split
  · assumption
  · next h =>
    cases b
    · exact testBit_sub_two_pow_self (Bool.of_not_eq_false h)
    · exact testBit_add_two_pow_self.trans (by rw [Bool.of_not_eq_true h]; rfl)

@[simp] theorem bit_loopFlag_self : bit (getN (li n 5) 3 (loopFlag n i b s)) i = b := by
  rw [loopFlag, getN_setN_self, bit_setBit_self]

theorem getN_loopFlag_sub (h : k ≠ 3) : getN (li n 5) k (loopFlag n i b s) = getN (li n 5) k s := getN_setN_sub h

/-! A shadow reads what was written to it, and no other object's value in force changes it (R26, R27). -/

@[simp] theorem shadowI_setShadow_self {x : Val} : shadowI i k (setShadow i k x s) = asInt x := by
  simp only [shadowI, shadowV, setShadow, Tab.find_put_self, Option.getD_some]

theorem shadowI_setN_ne (h : key i k ≠ key j m) : shadowI i k (setN j m v s) = shadowI i k s := by
  rw [shadowI, shadowV, setN_eq, getV_setV_ne _ _ h, setV_shadow]
  rfl

theorem shadowI_loopFlag_mode : shadowI (li n 1) 1 (loopFlag n i b s) = shadowI (li n 1) 1 s :=
  shadowI_setN_ne (by unfold key li; omega)

/-! The commands where nothing refuses them. -/

theorem bankSelect_of_le (hv : v ≤ 1) :
    bankSelect n v s = setShadow (li n 1) 4 (.int v) (modLoop n (fun l => { l with hostArmed := false }) s) :=
  if_neg (by omega)

theorem loopMode_of_scheduled (hv : v ≤ 1) (hd : v = 1 → getN (li n 0) 1 s ≠ 0) :
    loopMode n v s = loopFlag n 7 true (setShadow (li n 1) 1 (.int v) s) :=
  (if_neg (by omega)).trans (if_neg fun ⟨h1, h0⟩ => hd h1 h0)

theorem tripClear_of_passes (h : tripPasses n s = true) :
    tripClear n s = loopFlag n 4 false (setN (li n 5) 9 0 (modLoop n (fun l => { l with modelInit := true }) s)) :=
  if_pos h

/-- Settles O10: both shadows read the value written, a flag of the loop reads as it was set, and the trip cause stands beside the flags. -/
theorem loopCommands : Obligations.LoopCommands := by
  unfold Obligations.LoopCommands
  refine ⟨fun n v s hr hv => ?_, fun n v s hr hv hd => ?_, fun n s hr hp => ?_⟩
  · refine ⟨_, (gated_run hr.1 hr.2 : execBankSelect n v s = _), ?_⟩
    rw [bankSelect_of_le hv]
    exact ⟨shadowI_setShadow_self, rfl, rfl⟩
  · refine ⟨_, (gated_run hr.1 hr.2 : execLoopMode n v s = _), ?_⟩
    rw [loopMode_of_scheduled (s := fresh s) hv hd]
    exact ⟨shadowI_loopFlag_mode.trans shadowI_setShadow_self, bit_loopFlag_self, rfl⟩
  · refine ⟨_, (gated_run hr.1 hr.2 : execTripClear n s = _), ?_⟩
    rw [tripClear_of_passes (s := fresh s) hp]
    exact ⟨(getN_loopFlag_sub (by decide)).trans (getN_setN_self ..), bit_loopFlag_self, rfl⟩

end Sys2Proof.Machine
end

section
/-!
PROOFS, the layer of facts: the pipeline's bookkeeping (R152, R166-R168). Frames that are dropped, and the counts and notices that follow,
leave the rest of every context alone (`Discards`).
-/
namespace Sys2Proof.Machine

/-- The objects in which dropped frames and overload are counted and declared: 0x4000:01, :04 and :05, Cc+5:04 and :07, and the notices'. -/
def tallyKey (n : Nat) : Prop :=
  noticeKey n ∨ n = key 0x4000 1 ∨ n = key 0x4000 4 ∨ n = key 0x4000 5 ∨ ∃ c, n = key (ci c 5) 4 ∨ n = key (ci c 5) 7

/-- From s to t no more happened than that frames were dropped and counted. -/
structure Discards (s t : State) : Prop where
  obj : ∀ i k, ¬ tallyKey (key i k) → getV i k t = getV i k s
  ctx : ∀ c, ∃ p, Machine.ctx c t = { Machine.ctx c s with frames := (Machine.ctx c s).frames.filter p }
  links : t.links = s.links
  result : t.result = s.result

variable {s t u : State} {c j k n w : Nat}

/-! The tally's objects and others. -/

theorem key_ne_context {i m : Nat} (hi : i < 0x4100) (hk : k < 256) : key i k ≠ key (ci c j) m := by
  unfold key ci; omega

theorem not_noticeKey {i : Nat} (hi : 0x0806 ≤ i) (hk : k < 256) : ¬ noticeKey (key i k) := by
  unfold noticeKey key; omega

theorem not_tallyKey_context (hj : j < 8) (hk : k < 256) (h : j = 5 → k ≠ 4 ∧ k ≠ 7) : ¬ tallyKey (key (ci c j) k) := by
  rintro (h' | h' | h' | h' | ⟨d, h' | h'⟩)
  · exact not_noticeKey (by unfold ci; omega) hk h'
  all_goals unfold key ci at h'; omega

/-! How `Discards` is put together. -/

theorem Discards.of_eq (ho : t.obj = s.obj) (hc : t.ctxs = s.ctxs) (hl : t.links = s.links) (hr : t.result = s.result) : Discards s t where
  obj _ _ _ := getV_congr ho
  ctx c := ⟨fun _ => true, by simp only [Machine.ctx, hc, List.filter_true]⟩
  links := hl
  result := hr

theorem Discards.refl (s : State) : Discards s s := .of_eq rfl rfl rfl rfl

/-- `Discards` after a step, in the order a proof meets them. -/
theorem Discards.step (h : Discards t u) (h' : Discards s t) : Discards s u where
  obj i k hn := (h.obj i k hn).trans (h'.obj i k hn)
  ctx c := by
    obtain ⟨p, hp⟩ := h.ctx c
    obtain ⟨q, hq⟩ := h'.ctx c
    exact ⟨fun f => q f && p f, by simp only [hp, hq, List.filter_filter, Bool.and_comm]⟩
  links := h.links.trans h'.links
  result := h.result.trans h'.result

theorem Discards.ite {p : Prop} [Decidable p] (h : p → Discards s t) (h' : ¬ p → Discards s u) : Discards s (if p then t else u) := by
  split
  · exact h ‹_›
  · exact h' ‹_›

theorem Discards.of_quiet (h : Quiet s t) : Discards s t where
  obj i k hn := h.obj i k (mt .inl hn)
  ctx := (Discards.of_eq (s := s) (t := { s with ctxs := t.ctxs }) rfl h.ctxs rfl rfl).ctx
  links := h.links
  result := h.result

theorem discards_setN {i v : Nat} (h : tallyKey (key i k)) : Discards s (setN i k v s) where
  obj _ _ hn := getV_setV_ne _ _ fun e => hn (by rw [e]; exact h)
  ctx := (Discards.refl s).ctx
  links := rfl
  result := rfl

theorem discards_addN {i : Nat} (h : tallyKey (key i k)) : Discards s (addN i k w n s) := discards_setN h

/-! What `Discards` leaves alone. -/

theorem Discards.getN {i : Nat} (h : Discards s t) (hn : ¬ tallyKey (key i k)) : getN i k t = getN i k s := by
  rw [getN_eq, getN_eq, h.obj i k hn]

theorem Discards.frames_subset (h : Discards s t) : (Machine.ctx c t).frames ⊆ (Machine.ctx c s).frames := by
  obtain ⟨p, hp⟩ := h.ctx c
  intro f hf
  rw [hp] at hf
  exact List.mem_of_mem_filter hf

/-! The operations. -/

theorem discards_calFrame {v : Nat × Nat × Bool} : Discards s (calFrame c v s) := .ite (fun _ => .of_eq rfl rfl rfl rfl) fun _ => .refl s

theorem discards_countBacklog : Discards s (countBacklog c s) := by
  unfold countBacklog
  exact .step (discards_setN (.inr (.inl rfl))) (discards_setN (.inr (.inr (.inr (.inr ⟨c, .inr rfl⟩)))))

theorem discards_dropFrame : Discards s (dropFrame c n s) where
  obj _ _ _ := rfl
  ctx d := by
    unfold dropFrame
    by_cases e : d = c
    · subst e; exact ⟨fun y => y.num != n, ctx_modCtx_self ..⟩
    · rw [ctx_modCtx_ne _ _ _ e]; exact (Discards.refl s).ctx d
  links := rfl
  result := rfl

theorem discards_droppedFrame {cause : Nat} : Discards s (droppedFrame c n cause s) := by
  unfold droppedFrame
  refine .step discards_calFrame <| .step discards_countBacklog <| .step (.of_quiet (quiet_notice ..)) ?_
  exact .step (discards_addN (.inr (.inr (.inr (.inl rfl))))) <|
    .step (discards_addN (.inr (.inr (.inr (.inr ⟨c, .inl rfl⟩))))) discards_dropFrame

theorem discards_overloadDrops : Discards s (overloadDrops k s) := by
  induction k generalizing s with
  | zero => exact .refl s
  | succ k ih =>
    unfold overloadDrops
    refine .ite (fun _ => .step (discards_setN (.inr (.inr (.inl rfl)))) (.of_eq rfl rfl rfl rfl)) fun _ => ?_
    split
    · exact .refl s
    · split
      · exact .refl s
      · exact .step ih discards_droppedFrame

theorem discards_watchOverload : Discards s (watchOverload s) :=
  .ite (fun _ => discards_overloadDrops) fun _ => .ite (fun _ => .of_eq rfl rfl rfl rfl) fun _ => .of_eq rfl rfl rfl rfl

theorem discards_recount : Discards s (recount c s) := .step discards_watchOverload discards_countBacklog

/-- A corrupt frame is taken away and counted; what follows only discards. -/
theorem discards_corruptFrame : Discards (addN (ci c 5) 5 32 1 (dropFrame c n s)) (corruptFrame c n s) :=
  .step discards_calFrame discards_recount

end Sys2Proof.Machine
end


section
/-!
PROOFS: the triggers and the enable of a camera context (R153, R155-R157, R310).
-/
namespace Sys2Proof.Machine

variable {s : State} {a c i k n why : Nat} {tm : Time}

/-! The objects of a context when its shadow commits (R156, R157). -/

theorem getV_takeShadows {p : Nat → Bool} (h : ∀ e ∈ s.shadow, p e.1 = true → e.1 ≠ key i k) : getV i k (takeShadows p s) = getV i k s := by
  have hf : ∀ e ∈ s.shadow.filter (fun e => p e.1), key i k ≠ e.1 := fun e he =>
    (h e (List.mem_filter.1 he).1 (List.mem_filter.1 he).2).symm
  rw [getV, getV, takeShadows]
  dsimp only
  rw [Tab.find_foldl_put_ne hf]

theorem getV_commitCtx (h : inCtx c (key i k) = false) (h2 : key i k ≠ key (ci c 5) 2) : getV i k (commitCtx c n s) = getV i k s := by
  unfold commitCtx
  split
  · have ht : getV i k (takeShadows (inCtx c) s) = getV i k s := getV_takeShadows fun e _ he hk => by
      rw [hk, h] at he
      cases he
    rw [setN_eq, getV_setV_ne _ _ h2, getV_modCtx, ht]
  · rfl

theorem inCtx_outside (hi : i < ci c 0 ∨ ci c 5 < i) (hk : k < 256) : inCtx c (key i k) = false := by
  rw [inCtx, Bool.and_eq_false_iff, decide_eq_false_iff_not, decide_eq_false_iff_not]
  unfold key; omega

theorem inCtx_status : inCtx c (key (ci c 5) k) = false := by
  rw [inCtx, Bool.and_comm, decide_eq_false (by unfold key; omega)]
  rfl

/-! A camera trigger. -/

theorem openStrobe_obj {v : Tab Val} : (openStrobe c v tm s).obj = s.obj := by
  unfold openStrobe
  dsimp only
  split <;> rfl

theorem sendFrame_obj {l ty : Nat} {p : List Byte} : (sendFrame l ty p s).obj = s.obj := by
  unfold sendFrame launchFrame
  dsimp only
  split <;> rfl

/-- A trigger writes objects of its own context alone. -/
theorem getN_cameraTrigger_outside (hi : i < ci c 0 ∨ ci c 5 < i) (hk : k < 256) : getN i k (cameraTrigger c why tm s) = getN i k s := by
  have hne : ∀ m, m < 256 → key i k ≠ key (ci c 5) m := fun m hm => by
    unfold key ci at *; omega
  have hc : ∀ n g v f, getV i k (openStrobe c v tm (modCtx c f (commitCtx c n (setN (ci c 5) 1 g s)))) = getV i k s := fun n g v f => by
    rw [getV_congr openStrobe_obj, getV_modCtx, getV_commitCtx (inCtx_outside hi hk) (hne 2 (by decide)), setN_eq,
      getV_setV_ne _ _ (hne 1 (by decide))]
  rw [getN_eq, getN_eq]
  refine congrArg (fun v => (asInt v).toNat) ?_
  unfold cameraTrigger
  extract_lets x early
  split
  · rfl
  · split
    · exact getV_setV_ne _ _ (hne 6 (by decide))
    · split
      split
      · exact (getV_congr sendFrame_obj).trans (hc ..)
      · exact hc ..

/-- How a context stands once it was triggered at a time for its frame n. -/
structure Triggered (c n : Nat) (tm : Time) (t : State) : Prop where
  num : getN (ci c 5) 1 t = n
  last : (ctx c t).lastTrig = some tm
  frame : ∃ f ∈ (ctx c t).frames, f.num = n ∧ f.trig = tm

theorem ctx_openStrobe {v : Tab Val} : ctx c (openStrobe k v tm s) = ctx c s := by
  unfold openStrobe
  dsimp only
  split <;> rfl

/-- The frame of a trigger is the last in its context; its strobe windows touch neither the context nor its number. -/
theorem triggered_openStrobe {f : Frame} {v : Tab Val} (hn : f.num = n) (ht : f.trig = tm) (h : getN (ci c 5) 1 s = n) :
    Triggered c n tm (openStrobe c v tm
      (modCtx c (fun x => { x with frames := x.frames ++ [f], lastTrig := some tm, firstTrigger := false }) s)) where
  num := by rwa [getN_eq, getV_congr openStrobe_obj, getV_modCtx, ← getN_eq]
  last := by rw [ctx_openStrobe, ctx_modCtx_self]
  frame := by
    rw [ctx_openStrobe, ctx_modCtx_self]
    exact ⟨f, List.mem_append_right _ (List.mem_singleton_self f), hn, ht⟩

theorem Triggered.pulse {u : Time} {o : Out} (h : Triggered c n tm s) :
    Triggered c n tm (emit o (modCtx c (fun x => { x with pulseEnd := u }) s)) := by
  have hx : ∀ g, ctx c (emit o (modCtx c g s)) = g (ctx c s) := fun g => ctx_modCtx_self c g s
  exact ⟨h.num, by rw [hx]; exact h.last, by rw [hx]; exact h.frame⟩

/-- A trigger of an enabled layer context that does not come too early. -/
theorem triggered_cameraTrigger (hc : 24 ≤ c) (hon : ctxOn c s = true)
    (hl : ∀ u, (ctx c s).lastTrig = some u → u + getN (ci c 0) 7 s * nsT ≤ tm)
    (hn : n = if (ctx c s).firstTrigger then 0 else (getN (ci c 5) 1 s + 1) % 2 ^ 32) :
    Triggered c n tm (cameraTrigger c why tm s) := by
  have hnum : getN (ci c 5) 1 (commitCtx c n (setN (ci c 5) 1 n s)) = n := by
    rw [getN_eq, getV_commitCtx inCtx_status (by unfold key; omega), ← getN_eq, getN_setN_self]
  unfold cameraTrigger
  extract_lets x early
  have he : early = false := by
    simp only [early]
    split
    · rfl
    · next u hu => exact decide_eq_false (Nat.not_lt.2 (hl u hu))
  have hon' : ¬ (!ctxOn c s) = true := by simp [hon]
  have he' : ¬ (early || (decide (c < 24) && getN (hi c) 2 s != 7)) = true := by simp [he, hc]
  rw [if_neg hon', if_neg he']
  split
  rw [if_neg (Nat.not_lt.2 hc)]
  subst hn
  exact .pulse (triggered_openStrobe (by rfl) (by rfl) hnum)

theorem hostTrigger_taken {off : Nat} (hon : ctxOn c s = true) (h0 : getN (ci c 0) 5 s = 0) :
    hostTrigger c off s = cameraTrigger c 0 (timeAt off s) s := if_pos ⟨hon, h0⟩

/-! The enable (R153, R310). -/

/-- The state in which a context has its granules from a on, and its numbers begin anew. -/
def granted (c a : Nat) (s : State) : State :=
  setN (ci c 0) 1 1 (setN (ci c 5) 1 0 (setN (ci c 5) 2 0
    { s with vision := { s.vision with granules := s.vision.granules.put c (a, granulesFor c s) } }))

/-- An enable that is taken leaves one set in the context, and may drive its trigger pin. -/
theorem contextEnable_taken (hon : ctxOn c s = false) (hh : c < 24 → headAllows c s = true)
    (ha : firstFit (granulesFor c s) s = some a) : ∃ o l, contextEnable c true s =
      modCtx c (fun _ => { sets := l, everEnabled := true }) { granted c a s with out := o } := by
  have hh' : ¬ (c < 24 ∧ (!headAllows c s) = true) := fun ⟨hc, h⟩ => by simp [hh hc] at h
  unfold contextEnable
  rw [if_neg (by simp [hon]), if_neg (by decide), if_neg hh', ha]
  dsimp only
  split
  · exact ⟨_, _, rfl⟩
  · exact ⟨_, _, rfl⟩

theorem enable_granted : getN (ci c 0) 1 (granted c a s) = 1 := getN_setN_self ..

theorem granules_granted : (granted c a s).vision.granules.find c = some (a, granulesFor c s) := Tab.find_put_self ..

theorem tag_granted : getN (ci c 5) 2 (granted c a s) = 0 := by
  rw [granted, getN_setN_ne _ _ (by unfold key ci; omega), getN_setN_sub (by decide), getN_setN_self]

/-! The disable (R153, R157). -/

/-- The state in which a context is off, without frames, its shadow in force. -/
def turnedOff (c : Nat) (s : State) : State :=
  takeShadows (inCtx c) (setN (ci c 0) 1 0 (modCtx c (fun x => { x with frames := [], inFrame := false, pulseEnd := 0 }) s))

/-- A disable gives the granules back, and may drive the context's trigger pin. -/
theorem contextDisable_taken (hon : ctxOn c s = true) : ∃ o v, contextEnable c false s =
    recount c (turnedOff c { s with out := o, vision := v }) := by
  unfold contextEnable
  rw [if_neg (by simp [hon]), if_pos (by decide)]
  dsimp only
  split
  · exact ⟨_, _, rfl⟩
  · exact ⟨_, _, rfl⟩

theorem enable_turnedOff (h : ∀ e ∈ s.shadow, e.1 ≠ key (ci c 0) 1) : getN (ci c 0) 1 (turnedOff c s) = 0 := by
  have hs : ∀ g, getV (ci c 0) 1 (takeShadows (inCtx c) (setN (ci c 0) 1 0 (modCtx c g s))) =
      getV (ci c 0) 1 (setN (ci c 0) 1 0 (modCtx c g s)) := fun _ => getV_takeShadows fun e he _ => h e he
  rw [turnedOff, getN_eq, hs, ← getN_eq, getN_setN_self]

theorem frames_turnedOff : (ctx c (turnedOff c s)).frames = [] := by
  have hx : ∀ g, ctx c (takeShadows (inCtx c) (setN (ci c 0) 1 0 (modCtx c g s))) = g (ctx c s) := fun g => ctx_modCtx_self c g s
  rw [turnedOff, hx]

/-- Settles O14: a trigger's frame is the last of its context, and what follows touches no context; what a disabled context has the pipeline
count again only takes frames away. -/
theorem contextsAndTriggers : Obligations.ContextsAndTriggers := by
  unfold Obligations.ContextsAndTriggers
  refine ⟨fun c off n s hr hon h0 hl hn => ?_, fun c a s hr hon hh ha => ?_, fun c s hr hon hs => ?_⟩
  · have hc : 24 ≤ c := by
      have hw : ((c == 24 || c == 25) && offOk off) = true := hr.1
      simp only [Bool.and_eq_true, Bool.or_eq_true, beq_iff_eq] at hw
      omega
    refine ⟨_, (gated_run hr.1 hr.2 : execHostTrigger c off s = _), ?_⟩
    rw [hostTrigger_taken (s := fresh s) hon h0]
    obtain ⟨hnum, hlast, hframe⟩ := triggered_cameraTrigger (s := fresh s) (why := 0) (tm := timeAt off s) hc hon hl hn
    exact ⟨hnum, hlast, hframe, (acts_cameraTrigger (σ := .none)).result⟩
  · obtain ⟨o, l, he⟩ := contextEnable_taken (s := fresh s) hon hh ha
    refine ⟨_, (gated_run hr.1 hr.2 : execContextEnable c true s = _), ?_⟩
    have hg : ∀ {g i k}, getN i k (modCtx c g { granted c a (fresh s) with out := o }) = getN i k (granted c a (fresh s)) := rfl
    rw [he, ctxOn, hg, hg, enable_granted, tag_granted, ctx_modCtx_self, modCtx_vision, granules_granted]
    exact ⟨rfl, rfl, rfl, rfl, rfl⟩
  · obtain ⟨o, v, he⟩ := contextDisable_taken (s := fresh s) hon
    have hd := discards_recount (c := c) (s := turnedOff c { fresh s with out := o, vision := v })
    refine ⟨_, (gated_run hr.1 hr.2 : execContextEnable c false s = _), ?_⟩
    rw [he]
    refine ⟨?_, ?_, hd.result⟩
    · have h0 := enable_turnedOff (s := { fresh s with out := o, vision := v }) hs
      rw [ctxOn, hd.getN (not_tallyKey_context (by decide) (by decide) (by decide)), h0]
      rfl
    · exact List.subset_nil.1 (frames_turnedOff ▸ hd.frames_subset)

end Sys2Proof.Machine
end

section
/-!
PROOFS, the layer of facts: what a camera port receives from one packet to the next, and the links, are changed by no more than the
packets themselves: frames fill, are processed, recorded and dropped beside them (`SamePorts`).
-/
namespace Sys2Proof.Machine

/-- The frame that a port is receiving: whether one has started, and its number (R151). -/
def Context.port (x : Context) : Bool × Nat := (x.inFrame, x.frameBase)

/-- From s to t no port began or ended a frame, and no link changed. -/
structure SamePorts (s t : State) : Prop where
  port : ∀ c, (Machine.ctx c t).port = (Machine.ctx c s).port
  links : t.links = s.links

/-- From s to t no more was written than the record streams, with their counters (R200-R215). -/
def Recorded (s t : State) : Prop := ∃ o d r, t = { s with obj := o, dram := d, rcd := r }

variable {s t u : State} {b c k n st : Nat} {f : Frame}

/-! The record streams. -/

theorem Recorded.refl (s : State) : Recorded s s := ⟨_, _, _, rfl⟩

/-- `Recorded` after a step, in the order a proof meets them. -/
theorem Recorded.step (h : Recorded t u) (h' : Recorded s t) : Recorded s u := by
  obtain ⟨o, d, r, rfl⟩ := h
  obtain ⟨_, _, _, rfl⟩ := h'
  exact ⟨o, d, r, rfl⟩

theorem Recorded.ite {p : Prop} [Decidable p] (h : p → Recorded s t) (h' : ¬ p → Recorded s u) : Recorded s (if p then t else u) := by
  split
  · exact h ‹_›
  · exact h' ‹_›

theorem recorded_modStream {g : Stream → Stream} : Recorded s (modStream st g s) := ⟨_, _, _, rfl⟩

theorem recorded_ringWrite {base size at' : Nat} {l : List Byte} : Recorded s (ringWrite base size at' l s) := by
  have h : ∀ (l : List Byte) (a : State × Nat), Recorded a.1 (l.foldl (fun (acc : State × Nat) v =>
      ({ acc.1 with dram := writeByte (recordBase s + base + (if size = 0 then 0 else acc.2 % size)) v acc.1.dram }, acc.2 + 1)) a).1 := by
    intro l
    induction l with
    | nil => exact fun a => .refl a.1
    | cons v l ih => exact fun a => .step (ih _) ⟨_, _, _, rfl⟩
  exact h l (s, at')

theorem recorded_ringStage {l : List Byte} : Recorded s (ringStage st l s) := by
  unfold ringStage
  exact .step recorded_modStream recorded_ringWrite

theorem recorded_dropInput {need : Nat} : Recorded s (dropInput st n need s) := ⟨_, _, _, rfl⟩

theorem recorded_stageBytes {l : List Nat} : Recorded s (stageBytes st l s) := by
  unfold stageBytes
  exact .ite (fun _ => .refl s) fun _ => .ite (fun _ => .step recorded_ringStage recorded_modStream) fun _ => recorded_dropInput

theorem recorded_writeAnchors {l : List Anchor} : Recorded s (writeAnchors b l s) := by
  induction l generalizing s with
  | nil => exact recorded_modStream
  | cons a l ih =>
    have h : ∀ {x}, Recorded s (if a.lost = 0 then s else stageBytes (eventStream b) x s) :=
      .ite (fun _ => .refl s) fun _ => recorded_stageBytes
    simp only [writeAnchors]
    exact .ite (fun _ => recorded_modStream) fun _ => .ite (fun _ => .step recorded_modStream h) fun _ =>
      .step ih (.step recorded_stageBytes h)

theorem recorded_writeAnchor : Recorded s (writeAnchor b s) := .ite (fun _ => .refl s) fun _ => recorded_writeAnchors

theorem recorded_gapEntry : Recorded s (gapEntry st s) := by
  have h : Recorded s (if gapTarget st < 24 then writeAnchor (gapTarget st) s else s) :=
    .ite (fun _ => recorded_writeAnchor) fun _ => .refl s
  exact .ite (fun _ => .refl s) fun _ => .ite (fun _ => h) fun _ => .step recorded_modStream (.step recorded_stageBytes h)

theorem recorded_berthEntry {kind : Nat} {tm : Time} {l : List Byte} : Recorded s (berthEntry b kind tm l s) :=
  .step recorded_stageBytes (.step recorded_gapEntry recorded_writeAnchor)

theorem recorded_harbourEntry {kind : Nat} {tm : Time} {l : List Byte} : Recorded s (harbourEntry kind tm l s) :=
  .step recorded_stageBytes recorded_gapEntry

theorem recorded_imageFrame {tag w h : Nat} {px : List Nat} : Recorded s (imageFrame c tag n w h px s) := by
  have he : ∀ {tm l s}, Recorded s (if c < 24 then berthEntry c 7 tm l s else harbourEntry 7 tm l s) :=
    .ite (fun _ => recorded_berthEntry) fun _ => recorded_harbourEntry
  unfold imageFrame
  dsimp only
  cases inSeg (imageStream c) s with
  | none => exact .refl s
  | some g =>
    refine .ite (fun _ => recorded_modStream) fun _ => .ite (fun _ => .step recorded_dropInput recorded_modStream) fun _ => ?_
    exact .step recorded_ringStage <| .step recorded_modStream <| .step he <| .step recorded_gapEntry recorded_modStream

/-! How `SamePorts` is put together. -/

theorem SamePorts.of_eq (hc : t.ctxs = s.ctxs) (hl : t.links = s.links) : SamePorts s t := ⟨fun c => by rw [Machine.ctx, Machine.ctx, hc], hl⟩

theorem SamePorts.refl (s : State) : SamePorts s s := .of_eq rfl rfl

/-- `SamePorts` after a step, in the order a proof meets them. -/
theorem SamePorts.step (h : SamePorts t u) (h' : SamePorts s t) : SamePorts s u :=
  ⟨fun c => (h.port c).trans (h'.port c), h.links.trans h'.links⟩

theorem SamePorts.ite {p : Prop} [Decidable p] (h : p → SamePorts s t) (h' : ¬ p → SamePorts s u) : SamePorts s (if p then t else u) := by
  split
  · exact h ‹_›
  · exact h' ‹_›

theorem SamePorts.foldl {α : Type} {g : State → α → State} {l : List α} (h : ∀ a s, SamePorts s (g s a)) : SamePorts s (l.foldl g s) := by
  induction l generalizing s with
  | nil => exact .refl s
  | cons a l ih => exact .step ih (h a s)

theorem Discards.samePorts (h : Discards s t) : SamePorts s t where
  port c := by
    obtain ⟨p, hp⟩ := h.ctx c
    rw [hp]
    rfl
  links := h.links

theorem Recorded.samePorts (h : Recorded s t) : SamePorts s t := by
  obtain ⟨o, d, r, rfl⟩ := h
  exact .of_eq rfl rfl

theorem samePorts_modCtx {g : Context → Context} (hg : ∀ x, (g x).port = x.port) : SamePorts s (modCtx c g s) where
  port d := by
    by_cases e : d = c
    · subst e; rw [ctx_modCtx_self, hg]
    · rw [ctx_modCtx_ne _ _ _ e]
  links := rfl

/-! A frame fills (R149, R166). -/

theorem samePorts_modFrame {g : Frame → Frame} : SamePorts s (modFrame c n g s) := samePorts_modCtx fun _ => rfl

theorem samePorts_addN {i w m : Nat} : SamePorts s (addN i k w m s) := .of_eq rfl rfl

theorem samePorts_corruptFrame : SamePorts s (corruptFrame c n s) :=
  .step discards_corruptFrame.samePorts (.step samePorts_addN discards_dropFrame.samePorts)

theorem samePorts_startFrame : SamePorts s (startFrame c n s) := by
  have h : ∀ l : List Frame, SamePorts s (if c < 24 then l.foldl (fun s f => corruptFrame c f.num s) s else s) := fun _ =>
    .ite (fun _ => .foldl fun _ _ => samePorts_corruptFrame) fun _ => .refl s
  unfold startFrame
  exact .ite (fun _ => .step (discards_watchOverload.step discards_droppedFrame).samePorts (h _)) fun _ => h _

theorem samePorts_storeRow {x y : Nat} {px : List Nat} : SamePorts s (storeRow c n x y px s) := by
  unfold storeRow
  split
  · exact .refl s
  · exact .ite (fun _ => .of_eq rfl rfl) fun _ => .refl s

theorem samePorts_storeTile {i : Nat} {px : List Nat} : SamePorts s (storeTile c n i px s) := .foldl fun _ _ => samePorts_storeRow

theorem samePorts_placeTile {x : TileFrame} : SamePorts s (placeTile c x s) := by
  unfold placeTile
  split
  · exact .refl s
  · refine .step discards_recount.samePorts <| .step (.ite (fun _ => samePorts_storeTile) fun _ => .refl _) <| .step samePorts_modFrame ?_
    exact .ite (fun _ => samePorts_startFrame) fun _ => .refl s

/-- A whole frame of a layer context: its statistics, its image record; it gives no features (R160, R161, R205). -/
theorem samePorts_completeFrame (hc : 24 ≤ c) : SamePorts s (completeFrame c f s) := by
  unfold completeFrame
  dsimp only
  rw [if_neg (Nat.not_lt.2 hc)]
  exact .step (discards_countBacklog.step discards_dropFrame).samePorts <| .step recorded_imageFrame.samePorts (.of_eq rfl rfl)

end Sys2Proof.Machine
end

section
/-!
PROOFS: the frames of the camera contexts arrive, and the pipeline processes them (R149-R152, R165, R167, R239).
-/
namespace Sys2Proof.Machine

variable {s t : State} {c h k n p : Nat} {f : Frame} {x : TileFrame} {q : CsiPacket}

/-! The tiles of a head (R239). -/

theorem tile_heard {w : WireFrame} (hh : h < 24) (hs : hears h s = true) (hg : frameGood 0x83 w.bytes w.bad = true) :
    (if hears h s ∧ !frameGood 0x83 (streamOf h w s) w.bad then askTiles h (crcError h s)
      else hearFrame h 0x83 w (fun l => tile h (tileOf (payloadOf l))) s) = tile h (tileOf (payloadOf w.bytes)) s := by
  rw [streamOf_head w s hh, if_neg (by simp [hg]), hearFrame_good hh hs hg]

theorem link_tile_inSequence (hx : x.seq = (link h s).tileNext) :
    link h (tile h x s) = { link h s with tileNext := ((link h s).tileNext + 1) % 256, retry := none } := by
  have hl : ∀ {u v : State}, SamePorts u v → link h v = link h u := fun hp => by rw [link, link, hp.links]
  unfold tile
  dsimp only
  rw [if_neg (not_not.2 hx), hl samePorts_placeTile, link_modLink_self]
  split <;> rfl

theorem tile_outOfSequence (hx : x.seq ≠ (link h s).tileNext) (hr : (link h s).retry = none) :
    tile h x s = modLink h (fun l => { l with retry := some l.tileNext, retryFrame := s.frame }) s :=
  (if_pos hx).trans (if_pos (by rw [hr]; rfl))

/-! The packets of a CSI-2 port (R151). -/

theorem csiPacket_frameStart (hon : ctxOn (24 + p) s = true) (hh : q.headerOk = true) (hv : q.vc = getN (ci (24 + p) 0) 0x0B s)
    (hd : q.dtype = 0) : csiPacket p q s = frameStartPacket (24 + p) s := by
  simp [csiPacket, hon, hh, hv, hd]

theorem csiPacket_frameEnd (hon : ctxOn (24 + p) s = true) (hh : q.headerOk = true) (hv : q.vc = getN (ci (24 + p) 0) 0x0B s)
    (hd : q.dtype = 1) : csiPacket p q s = frameEndPacket (24 + p) s := by
  simp [csiPacket, hon, hh, hv, hd]

theorem port_frameStartPacket (hf : (ctx c s).frames.find? (fun f => f.arriving && !f.started) = some f) :
    (ctx c (frameStartPacket c s)).port = (true, f.num) := by
  have hb : (ctx c (modFrame c f.num (fun f => { f with started := true })
      (modCtx c (fun x => { x with inFrame := true, frameBase := f.num }) s))).port = (true, f.num) := by
    rw [samePorts_modFrame.port, ctx_modCtx_self]
    rfl
  unfold frameStartPacket
  rw [hf]
  dsimp only
  split
  · rw [(discards_watchOverload.step discards_droppedFrame).samePorts.port, hb]
  · exact hb

theorem inFrame_frameEndPacket (hc : 24 ≤ c) : (ctx c (frameEndPacket c s)).inFrame = false := by
  have hp : ∀ {u v : State}, SamePorts u v → (ctx c v).inFrame = (ctx c u).inFrame := fun h => congrArg Prod.fst (h.port c)
  have hb : (ctx c (modCtx c (fun x => { x with inFrame := false }) s)).inFrame = false := by rw [ctx_modCtx_self]
  unfold frameEndPacket
  dsimp only
  split
  · exact hb
  · split
    · rw [hp samePorts_corruptFrame, hb]
    · split
      · rw [hp (.step discards_watchOverload.samePorts (samePorts_completeFrame hc)), hp samePorts_modFrame, hb]
      · rw [hp samePorts_modFrame, hb]

/-! A frame that stays incomplete (R149, R151, R152). -/

/-- How a context stands once its frame n was discarded as corrupt. -/
structure CountedCorrupt (c n : Nat) (s t : State) : Prop where
  gone : ∀ g ∈ (ctx c t).frames, g.num ≠ n
  count : getN (ci c 5) 5 t = (getN (ci c 5) 5 s + 1) % 2 ^ 32

theorem countedCorrupt_corruptFrame : CountedCorrupt c n s (corruptFrame c n s) where
  gone g hg := by
    have hm : g ∈ (ctx c (dropFrame c n s)).frames := discards_corruptFrame.frames_subset hg
    rw [dropFrame, ctx_modCtx_self] at hm
    exact bne_iff_ne.1 (List.mem_filter.1 hm).2
  count := by
    rw [discards_corruptFrame.getN (not_tallyKey_context (by decide) (by decide) (by decide)), addN, getN_setN_self]
    rfl

theorem countedCorrupt_frameTimeout (hf : (ctx c s).frames.find? (fun f => f.arriving) = some f) :
    CountedCorrupt c f.num s (frameTimeout c s) := by
  unfold frameTimeout
  rw [hf]
  dsimp only
  split
  · have ⟨hg, hn⟩ := countedCorrupt_corruptFrame (c := c) (n := f.num) (s := modCtx c (fun x => { x with inFrame := false }) s)
    exact ⟨hg, hn⟩
  · exact countedCorrupt_corruptFrame

/-! A tile is processed (R165). -/

theorem watchOverload_undeclared (h : getN 0x4000 4 s ≠ 1) : ∃ o, watchOverload s = { s with vision := { s.vision with overSince := o } } := by
  unfold watchOverload
  rw [if_neg h]
  split
  · exact ⟨_, rfl⟩
  · exact ⟨_, rfl⟩

/-- s with a further tile of frame m processed, the pipeline at context c with k tiles of it done. -/
def tileDone (c k m : Nat) (s : State) : State :=
  countBacklog c (modFrame c m (fun f => { f with processed := f.processed + 1 }) { s with vision := { s.vision with turn := c, turnDone := k } })

theorem tileProcessed_arriving (ht : nextTurn s = some (c, n)) (hf : readyFrame c s = some f) (ha : f.arriving = true) :
    tileProcessed c s = watchOverload (tileDone c (n + 1) f.num s) := by
  unfold tileProcessed tileDone
  rw [ht, hf]
  simp [ha]

theorem mem_frames_tileDone (hf : f ∈ (ctx c s).frames) :
    { f with processed := f.processed + 1 } ∈ (ctx c (tileDone c k f.num s)).frames := by
  have hx : ∀ g, ctx c (countBacklog c (modCtx c g { s with vision := { s.vision with turn := c, turnDone := k } })) = g (ctx c s) :=
    fun g => ctx_modCtx_self ..
  rw [tileDone, modFrame, hx]
  exact List.mem_map.2 ⟨f, hf, if_pos rfl⟩

theorem declared_tileDone {m : Nat} : getN 0x4000 4 (tileDone c k m s) = getN 0x4000 4 s := by
  unfold tileDone countBacklog
  rw [getN_setN_sub (by decide), getN_setN_ne _ _ (key_ne_context (by decide) (by decide))]
  rfl

/-! Overload (R167). -/

theorem backlog_setN {v : Nat} (hk : k < 256) : backlog c (setN 0x4000 k v s) = backlog c s :=
  getN_setN_ne _ _ (key_ne_context (by decide) hk).symm

theorem pendingWork_setN {v : Nat} (hk : k < 256) : pendingWork (setN 0x4000 k v s) = pendingWork s := by
  simp only [pendingWork, backlog_setN hk]

theorem declared_droppedFrame {cause : Nat} : getN 0x4000 4 (droppedFrame c n cause s) = getN 0x4000 4 s := by
  have hc : ∀ v s, getN 0x4000 4 (calFrame c v s) = getN 0x4000 4 s := fun v s => by
    unfold calFrame
    dsimp only
    split <;> rfl
  have hb : ∀ s, getN 0x4000 4 (countBacklog c s) = getN 0x4000 4 s := fun s => by
    rw [countBacklog, getN_setN_sub (by decide), getN_setN_ne _ _ (key_ne_context (by decide) (by decide))]
  unfold droppedFrame
  rw [hc, hb, (quiet_notice ..).getN (not_noticeKey (by decide) (by decide)), addN, getN_setN_sub (by decide), addN,
    getN_setN_ne _ _ (key_ne_context (by decide) (by decide))]
  rfl

/-- What a declared overload comes to: it stays declared, or the pending work is no greater than the threshold. -/
def OverloadMet (t : State) : Prop := getN 0x4000 4 t = 1 ∨ getN 0x4000 4 t = 0 ∧ pendingWork t ≤ getN 0x4000 2 t

theorem overloadMet_overloadDrops (h : getN 0x4000 4 s = 1) : OverloadMet (overloadDrops k s) := by
  induction k generalizing s with
  | zero => exact .inl h
  | succ k ih =>
    unfold overloadDrops
    split
    next hp =>
      refine .inr ⟨getN_setN_self .., ?_⟩
      rw [pendingWork_setN (by decide), getN_setN_sub (by decide)]
      exact hp
    · split
      · exact .inl h
      · split
        · exact .inl h
        · exact ih (declared_droppedFrame.trans h)

theorem overloadMet_overload (h : getN 0x4000 2 s < pendingWork s) : OverloadMet (overload s) := by
  rw [overload, if_neg (Nat.not_le.2 h)]
  exact overloadMet_overloadDrops (getN_setN_self ..)

/-- Settles O15: a port and a link see nothing of what the pipeline does with the frames; what follows a corrupt frame only takes frames
away; a drop leaves the declaration of an overload alone. -/
theorem framesArriveAndAreProcessed : Obligations.FramesArriveAndAreProcessed := by
  unfold Obligations.FramesArriveAndAreProcessed
  refine ⟨fun h w f s hr hs hg hf => ?_, fun p q f s hr hon hh hv hd hf => ?_, fun p q s hr hon hh hv hd => ?_, fun c f s hr hc hf => ?_,
    fun c f s hr hc hf => ?_, fun c n f s hr ht hf ha h1 => ?_, fun s hr hp => ?_⟩
  · have he : execTile h w s = .next (tile h f (fresh s)) := by
      rw [execTile, gated_run hr.1 hr.2, tile_heard (s := fresh s) (of_decide_eq_true hr.1) hs hg, hf]
    refine ⟨fun hx => ⟨_, he, ?_⟩, fun hx h0 => ⟨_, he, ?_⟩⟩
    · rw [link_tile_inSequence (s := fresh s) hx]
      exact ⟨rfl, rfl⟩
    · rw [tile_outOfSequence (s := fresh s) hx h0, link_modLink_self]
      exact ⟨rfl, rfl, rfl⟩
  · refine ⟨_, (gated_run hr.1 hr.2 : execCsiPacket p q s = _), ?_⟩
    rw [csiPacket_frameStart (s := fresh s) hon hh hv hd]
    exact Prod.mk.inj (port_frameStartPacket (s := fresh s) hf)
  · refine ⟨_, (gated_run hr.1 hr.2 : execCsiPacket p q s = _), ?_⟩
    rw [csiPacket_frameEnd (s := fresh s) hon hh hv hd]
    exact inFrame_frameEndPacket (by omega)
  · obtain ⟨hg, hn⟩ := countedCorrupt_frameTimeout (s := fresh s) hf
    have he : execTileFrameTimeout c s = .next (frameTimeout c (fresh s)) := by rw [execTileFrameTimeout, gated_run hr.1 hr.2, if_pos hc]
    exact ⟨_, he, hg, hn⟩
  · obtain ⟨hg, hn⟩ := countedCorrupt_frameTimeout (s := fresh s) hf
    have he : execFrameTimeout c s = .next (frameTimeout c (fresh s)) := by rw [execFrameTimeout, gated_run hr.1 hr.2, if_pos hc]
    exact ⟨_, he, hg, hn⟩
  · obtain ⟨o, he⟩ := watchOverload_undeclared (s := tileDone c (n + 1) f.num (fresh s)) (by rw [declared_tileDone]; exact h1)
    refine ⟨_, (gated_run hr.1 hr.2 : execTileProcessed c s = _), ?_⟩
    rw [tileProcessed_arriving (s := fresh s) ht hf ha, he]
    exact ⟨⟨_, mem_frames_tileDone (s := fresh s) (List.mem_of_find?_eq_some hf), rfl, rfl⟩, rfl, rfl⟩
  · exact ⟨_, (gated_run hr.1 hr.2 : execOverload s = _), overloadMet_overload (s := fresh s) hp⟩

end Sys2Proof.Machine
end

section
/-!
PROOFS: the lamp boards, the diagnosis of the channels and the projector sequence (R172, R174, R175).
-/
namespace Sys2Proof.Machine

variable {s t : State} {c d i k n v mv : Nat} {x : Int} {tm : Time}

/-- An operation run for each number of a list, which for every other number keeps to a relation R, meets number b after R and is followed
by R. -/
theorem each_visits {R : State → State → Prop} {f : Nat → State → State} {l : List Nat} {b : Nat} (hrefl : ∀ s, R s s)
    (hstep : ∀ {s t u}, R t u → R s t → R s u) (hf : ∀ n, n ≠ b → ∀ s, R s (f n s)) (hl : l.Nodup) (hb : b ∈ l) :
    ∃ u, R s u ∧ R (f b u) (each l f s) := by
  have h : ∀ l : List Nat, b ∉ l → ∀ s, R s (each l f s) := by
    intro l
    induction l with
    | nil => exact fun _ s => hrefl s
    | cons n l ih =>
      intro hb s
      exact hstep (ih (fun hm => hb (.tail _ hm)) _) (hf n (fun e => hb (e ▸ .head _)) s)
  obtain ⟨l₁, l₂, rfl⟩ := List.append_of_mem hb
  obtain ⟨-, hl₂, hd⟩ := List.nodup_append.1 hl
  have e : each (l₁ ++ b :: l₂) f s = each l₂ f (f b (each l₁ f s)) := by simp [each]
  exact ⟨each l₁ f s, h l₁ (fun hm => hd b hm b (.head _) rfl) s, e ▸ h l₂ (List.nodup_cons.1 hl₂).1 _⟩

/-! The lamp boards (R174). -/

@[simp] theorem board_modBoard_self {g : Board → Board} : board d (modBoard d g s) = g (board d s) := by simp [board, modBoard]

theorem board_modBoard_ne {g : Board → Board} (h : d ≠ n) : board d (modBoard n g s) = board d s := by simp [board, modBoard, h]

/-- From s to t board d and the temperature shown for it stayed. -/
structure SameBoard (d : Nat) (s t : State) : Prop where
  board : Machine.board d t = Machine.board d s
  shown : getI 0x4807 (1 + d) t = getI 0x4807 (1 + d) s

theorem SameBoard.refl (s : State) : SameBoard d s s := ⟨rfl, rfl⟩

/-- `SameBoard` after a step, in the order a proof meets them. -/
theorem SameBoard.step {u : State} (h : SameBoard d t u) (h' : SameBoard d s t) : SameBoard d s u :=
  ⟨h.board.trans h'.board, h.shown.trans h'.shown⟩

theorem SameBoard.ite {p : Prop} [Decidable p] {u : State} (h : p → SameBoard d s t) (h' : ¬ p → SameBoard d s u) :
    SameBoard d s (if p then t else u) := by
  split
  · exact h ‹_›
  · exact h' ‹_›

theorem sameBoard_setI (hk : 1 + d ≠ k) : SameBoard d s (setI 0x4807 k x s) where
  board := rfl
  shown := by rw [getI_eq, getI_eq, setI, getV_setV_ne _ _ (by unfold key; omega)]

theorem sameBoard_modBoard {g : Board → Board} (h : d ≠ n) : SameBoard d s (modBoard n g s) := ⟨board_modBoard_ne h, rfl⟩

theorem SameBoard.of_quiet (h : Quiet s t) (hd : d < 4) : SameBoard d s t where
  board := by rw [Machine.board, Machine.board, h.vision]
  shown := h.getI (not_noticeKey (by decide) (by omega))

theorem sameBoard_boardFault {v : Bool} (hd : d < 4) : SameBoard d s (boardFault i v s) :=
  .ite (fun _ => .refl s) fun _ => .step (.of_quiet (quiet_noticeObj ..) hd) (sameBoard_setI (by omega))

theorem sameBoard_boardRead {r : Option Int} (hd : d < 4) (h : d ≠ n) : SameBoard d s (boardRead n r s) := by
  unfold boardRead
  cases r with
  | some y =>
    have hm : SameBoard d s (boardFault (4 + n) false (setI 0x4807 (1 + n) (roundHalfAway (10 * y) 256)
        (modBoard n (fun x => { x with good := some y, misses := 0, lostAt := none, dark := false }) s))) :=
      .step (sameBoard_boardFault hd) (.step (sameBoard_setI (by omega)) (sameBoard_modBoard h))
    exact .ite (fun _ => .step (sameBoard_boardFault hd) (.step (sameBoard_modBoard h) hm)) fun _ =>
      .ite (fun _ => .step (sameBoard_boardFault hd) (.step (sameBoard_modBoard h) hm)) fun _ => hm
  | none =>
    exact .ite (fun _ => .step (sameBoard_boardFault hd) (.step (sameBoard_modBoard h) (sameBoard_modBoard h))) fun _ => sameBoard_modBoard h

/-- How board d stands once it has answered x, in 1/256 °C. -/
structure Answered (d : Nat) (x : Int) (t : State) : Prop where
  shown : getI 0x4807 (1 + d) t = roundHalfAway (10 * x) 256
  good : (board d t).good = some x
  dark : (board d t).dark = false

theorem Answered.of_same (h : Answered d x s) (hs : SameBoard d s t) : Answered d x t :=
  ⟨hs.shown.trans h.shown, by rw [hs.board, h.good], by rw [hs.board, h.dark]⟩

theorem Answered.hot {b : Bool} (h : Answered d x s) : Answered d x (modBoard d (fun y => { y with hot := b }) s) :=
  ⟨h.shown, by rw [board_modBoard_self]; exact h.good, by rw [board_modBoard_self]; exact h.dark⟩

theorem answered_boardRead (hd : d < 4) : Answered d x (boardRead d (some x) s) := by
  have hm : Answered d x (boardFault (4 + d) false (setI 0x4807 (1 + d) (roundHalfAway (10 * x) 256)
      (modBoard d (fun y => { y with good := some x, misses := 0, lostAt := none, dark := false }) s))) := by
    have hb : ∀ g, board d (setI 0x4807 (1 + d) (roundHalfAway (10 * x) 256) (modBoard d g s)) = g (board d s) :=
      fun _ => board_modBoard_self
    exact .of_same ⟨getI_setI_self .., by rw [hb], by rw [hb]⟩ (sameBoard_boardFault hd)
  unfold boardRead
  dsimp only
  split
  · exact hm.hot.of_same (sameBoard_boardFault hd)
  · split
    · exact hm.hot.of_same (sameBoard_boardFault hd)
    · exact hm

theorem answered_lampTemperatureRead {l : List (Option Int)} (hd : d < 4) (hn : d < getN 0x4806 1 s) (hx : l.getD d none = some x) :
    Answered d x (lampTemperatureRead l s) := by
  obtain ⟨u, -, h⟩ := each_visits (R := SameBoard d) (s := s) (b := d) (l := List.range (getN 0x4806 1 s))
    (f := fun d s => boardRead d (l.getD d none) (emit (.lampRead (getN 0x4806 (2 + d) s) 0) s)) .refl .step
    (fun n hne s => .step (sameBoard_boardRead hd hne.symm) ⟨rfl, rfl⟩) List.nodup_range (List.mem_range.2 hn)
  rw [hx] at h
  exact (answered_boardRead hd).of_same h

theorem dark_lampBoardTimeout (h : (board d s).lostAt.isSome) : (board d (lampBoardTimeout d s)).dark = true := by
  obtain ⟨u, hu⟩ := Option.isSome_iff_exists.1 h
  unfold lampBoardTimeout
  rw [hu]
  dsimp only
  rw [board, (quiet_noticeObj ..).vision]
  exact congrArg Board.dark board_modBoard_self

/-! The diagnosis of the channels: two bits for each (R175). -/

/-- A word with v in the two bits of channel c. -/
def withDiagnosis (w c v : Nat) : Nat := w - bits w (2 * c + 1) (2 * c) * 4 ^ c + v * 4 ^ c

theorem bits_diagnosis {w : Nat} : bits w (2 * c + 1) (2 * c) = w / 4 ^ c % 4 := by
  have h : 2 * c + 1 + 1 - 2 * c = 2 := by omega
  rw [bits, h, Nat.shiftRight_eq_div_pow, Nat.pow_mul]
  rfl

theorem withDiagnosis_eq {w : Nat} : withDiagnosis w c v = w % 4 ^ c + 4 ^ c * (v + 4 * (w / 4 ^ c / 4)) := by
  rw [withDiagnosis, bits_diagnosis]
  have h1 := Nat.mod_add_div w (4 ^ c)
  have h2 := Nat.mod_add_div (w / 4 ^ c) 4
  have h3 : 4 ^ c * (w / 4 ^ c) = (w / 4 ^ c % 4) * 4 ^ c + 4 ^ c * (4 * (w / 4 ^ c / 4)) := by
    conv_lhs => rw [← h2]
    ring
  rw [Nat.mul_add, Nat.mul_comm v]
  omega

theorem bits_withDiagnosis_self {w : Nat} (hv : v < 4) : bits (withDiagnosis w c v) (2 * c + 1) (2 * c) = v := by
  have hp : 0 < 4 ^ c := by positivity
  rw [bits_diagnosis, withDiagnosis_eq, Nat.add_mul_div_left _ _ hp, Nat.div_eq_of_lt (Nat.mod_lt _ hp)]
  omega

theorem bits_withDiagnosis_ne {w : Nat} (hv : v < 4) (h : c ≠ d) :
    bits (withDiagnosis w d v) (2 * c + 1) (2 * c) = bits w (2 * c + 1) (2 * c) := by
  have hp : 0 < 4 ^ d := by positivity
  rw [bits_diagnosis, bits_diagnosis, withDiagnosis_eq]
  rcases Nat.lt_or_gt_of_ne h with h | h
  · have hq : 4 ^ c * 4 ∣ 4 ^ d := pow_dvd_pow 4 (show c + 1 ≤ d from h)
    obtain ⟨m, hm⟩ := hq
    rw [← Nat.mod_mul_right_div_self, ← Nat.mod_mul_right_div_self (m := w), hm, Nat.mul_assoc _ m, Nat.add_mul_mod_self_left,
      Nat.mod_mod_of_dvd _ (Dvd.intro m rfl)]
  · obtain ⟨m, hm⟩ : 4 ^ d * 4 ∣ 4 ^ c := pow_dvd_pow 4 (show d + 1 ≤ c from h)
    have hd : (v + 4 * (w / 4 ^ d / 4)) / 4 = w / 4 ^ d / 4 := by omega
    rw [hm, ← Nat.div_div_eq_div_mul, ← Nat.div_div_eq_div_mul, ← Nat.div_div_eq_div_mul, ← Nat.div_div_eq_div_mul,
      Nat.add_mul_div_left _ _ hp, Nat.div_eq_of_lt (Nat.mod_lt _ hp), Nat.zero_add, hd]

/-- From s to t the diagnosis of channel c stayed, and every other object of the beacon. -/
structure SameDiagnosis (c : Nat) (s t : State) : Prop where
  diagnosis : bits (getN 0x4807 5 t) (2 * c + 1) (2 * c) = bits (getN 0x4807 5 s) (2 * c + 1) (2 * c)
  obj : ∀ i k, 0x4800 ≤ i → i ≠ 0x4807 → k < 256 → getN i k t = getN i k s

theorem SameDiagnosis.refl (s : State) : SameDiagnosis c s s := ⟨rfl, fun _ _ _ _ _ => rfl⟩

/-- `SameDiagnosis` after a step, in the order a proof meets them. -/
theorem SameDiagnosis.step {u : State} (h : SameDiagnosis c t u) (h' : SameDiagnosis c s t) : SameDiagnosis c s u :=
  ⟨h.diagnosis.trans h'.diagnosis, fun i k hi hn hk => (h.obj i k hi hn hk).trans (h'.obj i k hi hn hk)⟩

theorem SameDiagnosis.of_eq (h : t.obj = s.obj) : SameDiagnosis c s t := by
  have hg : ∀ i k, getN i k t = getN i k s := fun i k => by rw [getN_eq, getN_eq, getV_congr h]
  exact ⟨by rw [hg], fun i k _ _ _ => hg i k⟩

/-- The diagnosis of channel d is written, with a notice or without one. -/
theorem setDiagnosis_stages : ∃ u, u = setN 0x4807 5 (withDiagnosis (getN 0x4807 5 s) d v) s ∧
    (setDiagnosis d v s = s ∧ withDiagnosis (getN 0x4807 5 s) d v = getN 0x4807 5 s ∨ Quiet u (setDiagnosis d v s)) := by
  refine ⟨_, rfl, ?_⟩
  unfold setDiagnosis
  dsimp only
  split
  next h => exact .inl ⟨rfl, h⟩
  · split
    · exact .inr (quiet_noticeObj ..)
    · exact .inr (.refl _)

theorem getN_setDiagnosis : getN 0x4807 5 (setDiagnosis d v s) = withDiagnosis (getN 0x4807 5 s) d v := by
  obtain ⟨u, rfl, ⟨h, he⟩ | h⟩ := setDiagnosis_stages (d := d) (v := v) (s := s)
  · rw [h, he]
  · rw [h.getN (not_noticeKey (by decide) (by decide)), getN_setN_self]

theorem sameDiagnosis_setDiagnosis (hv : v < 4) (h : c ≠ d) : SameDiagnosis c s (setDiagnosis d v s) where
  diagnosis := by rw [getN_setDiagnosis, bits_withDiagnosis_ne hv h]
  obj i k hi hn hk := by
    obtain ⟨u, rfl, ⟨h, -⟩ | h⟩ := setDiagnosis_stages (d := d) (v := v) (s := s)
    · rw [h]
    · rw [h.getN (not_noticeKey (by omega) hk), getN_setN_ne _ _ (by unfold key; omega)]

/-- The diagnosis of a channel whose string voltage is mv: above the one limit, below the other, or neither (R175). -/
def stringVerdict (mv : Nat) (s : State) : Nat :=
  if getN 0x4806 9 s ≠ 0 ∧ getN 0x4806 9 s < mv then 1 else if getN 0x4806 0x0A s ≠ 0 ∧ mv < getN 0x4806 0x0A s then 2 else 0

theorem stringVerdict_lt : stringVerdict mv s < 4 := by
  unfold stringVerdict
  split
  · decide
  · split <;> decide

theorem sameDiagnosis_diagnose {r : Option Nat} (h : c ≠ d) : SameDiagnosis c s (diagnose d r s) := by
  unfold diagnose
  split
  · exact .refl s
  · cases r with
    | none =>
      dsimp only
      split
      · exact .step (sameDiagnosis_setDiagnosis (by decide) h) (.of_eq rfl)
      · exact .of_eq rfl
    | some mv => exact .step (sameDiagnosis_setDiagnosis (stringVerdict_lt (s := { s with vision := _ })) h) (.of_eq rfl)

theorem bits_diagnose (h : getN 0x4801 (c + 1) s ≠ 0) :
    bits (getN 0x4807 5 (diagnose c (some mv) s)) (2 * c + 1) (2 * c) = stringVerdict mv s := by
  unfold diagnose
  rw [if_neg h]
  exact (congrArg (bits · _ _) getN_setDiagnosis).trans (bits_withDiagnosis_self (stringVerdict_lt (mv := mv) (s := s)))

/-- s at the start of a diagnostic period. -/
def periodBegun (s : State) : State := { s with vision := { s.vision with tested := 0, stretch := [], diagAt := s.now } }

theorem channelDiagnosis_enabled {l : List (Option Nat)} (h1 : getN 0x4800 1 s ≠ 0) (h3 : getN 0x4800 3 s ≠ 1) :
    channelDiagnosis l s =
      each (List.range 16) (fun d s' => diagnose d (if bit s.vision.tested d then l.getD d none else none) s') (periodBegun s) :=
  if_neg (not_or.2 ⟨h1, h3⟩)

theorem bits_channelDiagnosis {l : List (Option Nat)} (h1 : getN 0x4800 1 s ≠ 0) (h3 : getN 0x4800 3 s ≠ 1) (hc : c < 16)
    (ht : bit s.vision.tested c = true) (hm : getN 0x4801 (c + 1) s ≠ 0) (hx : l.getD c none = some mv) :
    bits (getN 0x4807 5 (channelDiagnosis l s)) (2 * c + 1) (2 * c) = stringVerdict mv s := by
  obtain ⟨u, hu, h⟩ := each_visits (R := SameDiagnosis c) (s := periodBegun s) (b := c) (l := List.range 16)
    (f := fun d s' => diagnose d (if bit s.vision.tested d then l.getD d none else none) s') .refl .step
    (fun d hne s' => sameDiagnosis_diagnose hne.symm) List.nodup_range (List.mem_range.2 hc)
  have ho : ∀ i k, 0x4800 ≤ i → i ≠ 0x4807 → k < 256 → getN i k u = getN i k s := hu.obj
  have hv : stringVerdict mv u = stringVerdict mv s := by
    have hl : ∀ k, k < 256 → getN 0x4806 k u = getN 0x4806 k s := fun k => ho 0x4806 k (by decide) (by decide)
    rw [stringVerdict, stringVerdict, hl 9 (by decide), hl 0xA (by decide)]
  rw [ht, if_pos rfl, hx] at h
  rw [channelDiagnosis_enabled h1 h3, h.diagnosis, bits_diagnose, hv]
  rwa [ho 0x4801 (c + 1) (by decide) (by decide) (by omega)]

/-! The projector sequence (R172). -/

/-- How the sequencer stands while entry k runs. -/
structure EntryRuns (k : Nat) (s t : State) : Prop where
  state : getN 0x4808 6 t = 2
  entry : getN 0x4808 7 t = k
  result : t.result = s.result

/-- An entry pulses PSYNC and triggers the layer cameras; neither reaches the sequencer. -/
theorem entryRuns_projectorBegin : EntryRuns k s (projectorBegin k tm s) := by
  have hp : ∀ {p : Prop} [Decidable p] {o u}, EntryRuns k s u → EntryRuns k s (if p then emit o u else u) := by
    intro p _ o u h
    split
    · exact ⟨h.state, h.entry, h.result⟩
    · exact h
  have hj : ∀ {j u}, j < 2 → ∀ {p : Prop} [Decidable p], EntryRuns k s u →
      EntryRuns k s (if p then cameraTrigger (24 + j) 0 tm u else u) := by
    intro j u hj p _ h
    split
    · have ho : ∀ m, m < 256 → getN 0x4808 m (cameraTrigger (24 + j) 0 tm u) = getN 0x4808 m u := fun m =>
        getN_cameraTrigger_outside (by unfold ci; omega)
      exact ⟨(ho 6 (by decide)).trans h.state, (ho 7 (by decide)).trans h.entry, (acts_cameraTrigger (σ := .none)).result.trans h.result⟩
    · exact h
  unfold projectorBegin
  exact hj (j := 1) (by decide) <| hj (j := 0) (by decide) <|
    hp ⟨(getN_setN_sub (by decide)).trans (getN_setN_self ..), getN_setN_self .., rfl⟩

theorem state_stopSequence : getN 0x4808 6 (stopSequence tm s) = 0 := getN_setN_self ..

theorem sequenceStart_own (h1 : getN 0x4800 1 s = 1) (h6 : getN 0x4808 6 s ≠ 2) (h0 : getN 0x4808 2 s = 0) :
    sequenceStart s = projectorBegin 0 s.now s :=
  (if_neg (by omega)).trans (if_pos h0)

theorem sequenceStart_armed (h1 : getN 0x4800 1 s = 1) (h6 : getN 0x4808 6 s ≠ 2) (h0 : getN 0x4808 2 s ≠ 0) :
    sequenceStart s = setN 0x4808 6 1 s :=
  (if_neg (by omega)).trans (if_neg h0)

/-- The flags of entry k. -/
abbrev entryFlags (k : Nat) (s : State) : Nat := field (getB 0x4808 8 s) (8 * k + 6) 1

theorem projectorEntry_next (h6 : getN 0x4808 6 s = 2) (h7 : getN 0x4808 7 s = k) (h3 : bit (entryFlags k s) 3 = false) (hk : k < 255) :
    ∃ tm, projectorEntry s = projectorBegin (k + 1) tm s := by
  subst h7
  exact ⟨_, (if_neg (not_not.2 h6)).trans ((if_neg (by rw [h3]; decide)).trans (if_neg hk.ne))⟩

theorem projectorEntry_last (h6 : getN 0x4808 6 s = 2) (h7 : getN 0x4808 7 s = k) (h3 : bit (entryFlags k s) 3 = true)
    (h4 : bit (entryFlags k s) 4 = false) : ∃ tm, projectorEntry s = stopSequence tm s := by
  subst h7
  exact ⟨_, (if_neg (not_not.2 h6)).trans ((if_pos h3).trans (if_neg (by rw [h4]; decide)))⟩

theorem projectorEntry_loop (h6 : getN 0x4808 6 s = 2) (h7 : getN 0x4808 7 s = k) (h3 : bit (entryFlags k s) 3 = true)
    (h4 : bit (entryFlags k s) 4 = true) : ∃ tm, projectorEntry s = projectorBegin 0 tm s := by
  subst h7
  exact ⟨_, (if_neg (not_not.2 h6)).trans ((if_pos h3).trans (if_pos h4))⟩

/-- Settles O16: no other board and no other channel reaches what one shows; what an entry drives beside its levels does not reach the
sequencer. -/
theorem beaconCommands : Obligations.BeaconCommands := by
  unfold Obligations.BeaconCommands
  refine ⟨fun d x l s hr hd hn hx => ?_, fun d s hr h => ?_, fun c mv l s hr h1 h3 hc ht hm hx => ?_, fun s hr h1 h6 => ?_,
    fun s hr h2 h1 h6 => ?_, fun k fl s hr h6 h7 hf => ?_, fun s hr => ?_⟩
  · obtain ⟨hs, hg, hk⟩ := answered_lampTemperatureRead (s := fresh s) hd hn hx
    exact ⟨_, (gated_run hr.1 hr.2 : execLampTemperatureRead l s = _), hs, hg, hk⟩
  · exact ⟨_, (gated_run hr.1 hr.2 : execLampBoardTimeout d s = _), dark_lampBoardTimeout (s := fresh s) h⟩
  · exact ⟨_, (gated_run hr.1 hr.2 : execChannelDiagnosis l s = _), bits_channelDiagnosis (s := fresh s) h1 h3 hc ht hm hx⟩
  · refine ⟨_, (gated_run hr.1 hr.2 : execSequenceStart s = _), ?_⟩
    by_cases h0 : getN 0x4808 2 s = 0
    · rw [sequenceStart_own (s := fresh s) h1 h6 h0]
      obtain ⟨hst, hen, hre⟩ := entryRuns_projectorBegin (k := 0) (tm := s.now) (s := fresh s)
      exact ⟨hre, fun _ => ⟨hst, hen⟩, fun h => absurd h0 h⟩
    · rw [sequenceStart_armed (s := fresh s) h1 h6 h0]
      exact ⟨rfl, fun h => absurd h h0, fun _ => getN_setN_self ..⟩
  · have he : execProjectorStartTime s = .next (projectorBegin 0 s.now (fresh s)) := by
      rw [execProjectorStartTime, gated_run hr.1 hr.2, if_pos (show getN 0x4808 2 (fresh s) = 2 from h2)]
      exact congrArg _ (if_pos ⟨h1, h6⟩)
    obtain ⟨hst, hen, -⟩ := entryRuns_projectorBegin (k := 0) (tm := s.now) (s := fresh s)
    exact ⟨_, he, hst, hen⟩
  · subst hf
    refine ⟨_, (gated_run hr.1 hr.2 : execProjectorEntry s = _), fun h3 hk => ?_, fun h3 h4 => ?_, fun h3 h4 => ?_⟩
    · obtain ⟨tm, he⟩ := projectorEntry_next (s := fresh s) h6 h7 h3 hk
      obtain ⟨hst, hen, -⟩ := entryRuns_projectorBegin (k := k + 1) (tm := tm) (s := fresh s)
      exact he ▸ ⟨hst, hen⟩
    · obtain ⟨tm, he⟩ := projectorEntry_last (s := fresh s) h6 h7 h3 h4
      exact he ▸ state_stopSequence
    · obtain ⟨tm, he⟩ := projectorEntry_loop (s := fresh s) h6 h7 h3 h4
      obtain ⟨hst, hen, -⟩ := entryRuns_projectorBegin (k := 0) (tm := tm) (s := fresh s)
      exact he ▸ ⟨hst, hen⟩
  · exact ⟨_, (gated_run hr.1 hr.2 : execSequenceStop s = _), state_stopSequence, rfl, rfl⟩

end Sys2Proof.Machine
end

section
/-!
PROOFS: the buffers of the layer chart: a feature is charted, a buffer closes and its stream takes it, a layer is released, and named to be
read (R176-R190, R201).
-/
namespace Sys2Proof.Machine

variable {s t u : State} {k l n off st : Nat} {d : List Byte} {f : Feature}

/-! The updates of a buffer, and of its bytes in DRAM (R186). -/

@[simp] theorem buffer_modBuffer_self {g : Buffer → Buffer} : buffer k (modBuffer k g s) = g (buffer k s) := by simp [buffer, modBuffer]

/-- From s to t no more was written than DRAM, whose poison goes where it is written anew (R318). -/
def Stored (s t : State) : Prop := ∃ m p, t = { s with dram := m, mem := p }

theorem stored_storeChart : Stored s (storeChart k off d s) := ⟨_, _, rfl⟩

theorem Stored.step (h : Stored t u) (h' : Stored s t) : Stored s u := by
  obtain ⟨m, p, rfl⟩ := h
  obtain ⟨_, _, rfl⟩ := h'
  exact ⟨m, p, rfl⟩

theorem stored_storeCell {b : Bool} : Stored s (storeCell k n b s) := by
  unfold storeCell
  refine .step stored_storeChart ?_
  cases b
  · exact stored_storeChart
  · exact stored_storeChart

/-! A feature inside the grid (R177, R183). -/

/-- A feature was charted: counted, and not among those outside the grid; the queue is as it was (R183). -/
structure Charted (s t : State) : Prop where
  queue : t.chart.queue = s.chart.queue
  count : getN 0x5003 2 t = (getN 0x5003 2 s + 1) % 2 ^ 64
  outside : getN 0x5003 3 t = getN 0x5003 3 s

theorem charted_addN (ho : t.obj = s.obj) (hq : t.chart.queue = s.chart.queue) : Charted s (addN 0x5003 2 64 1 t) where
  queue := hq
  count := by rw [addN, getN_setN_self, getN_eq, getV_congr ho, ← getN_eq]
  outside := by rw [addN, getN_setN_sub (by decide), getN_eq, getV_congr ho, ← getN_eq]

theorem charted_chartInto {b : Buffer} (hb : b = buffer k s) (hp : b.policy = 1 → bit f.flags 2 = false)
    (hx : 0 ≤ ((placeFeature b.mode f).1 - b.originX) / b.cell) (hx' : ((placeFeature b.mode f).1 - b.originX) / b.cell < b.cols)
    (hy : 0 ≤ ((placeFeature b.mode f).2 - b.originY) / b.cell) (hy' : ((placeFeature b.mode f).2 - b.originY) / b.cell < b.rows) :
    Charted s (chartInto k f s) := by
  subst hb
  unfold chartInto
  dsimp only
  rw [if_neg (fun h => Bool.false_ne_true ((hp h.1).symm.trans h.2)), if_neg (by omega)]
  obtain ⟨m, p, hs⟩ := stored_storeCell
  rw [hs]
  exact charted_addN rfl rfl

/-- A feature of the present layer goes into the Charting buffer (R187). -/
theorem featureCharted_current {x : List Feature} (hq : s.chart.queue = f :: x) (hf : s.commit.instant ≤ f.trig) (hk : bufferIn 1 s = some k) :
    featureCharted s = chartInto k f { s with chart := { s.chart with queue := x } } := by
  have hk' : bufferIn 1 { s with chart := { s.chart with queue := x } } = some k := hk
  unfold featureCharted
  rw [hq]
  dsimp only
  rw [if_neg (Nat.not_lt.2 hf), hk']

/-! The compressor takes a buffer that has closed (R187, R201). -/

/-- From s to t a buffer stayed as it was, or it was Closed and has been Released. -/
def Takes (s t : State) : Prop := ∀ k, buffer k t = buffer k s ∨ (buffer k s).state = 3 ∧ (buffer k t).state = 4

theorem Takes.of_chart (h : t.chart = s.chart) : Takes s t := fun k => .inl (by rw [buffer, buffer, h])

theorem Takes.refl (s : State) : Takes s s := .of_chart rfl

/-- `Takes` after a step, in the order a proof meets them: a Released buffer is not taken again. -/
theorem Takes.step (h : Takes t u) (h' : Takes s t) : Takes s u := fun k => by
  rcases h k with e | ⟨h3, h4⟩
  · exact (h' k).imp e.trans fun ⟨h3, h4⟩ => ⟨h3, e ▸ h4⟩
  · rcases h' k with e | ⟨-, h4'⟩
    · exact .inr ⟨e ▸ h3, h4⟩
    · omega

theorem Takes.ite {p : Prop} [Decidable p] (h : p → Takes s t) (h' : ¬ p → Takes s u) : Takes s (if p then t else u) := by
  split
  · exact h ‹_›
  · exact h' ‹_›

theorem Takes.state (h : Takes s t) (h3 : (buffer k s).state = 3) : (buffer k t).state = 3 ∨ (buffer k t).state = 4 :=
  (h k).imp (fun e => by rw [e, h3]) And.right

theorem Recorded.chart (h : Recorded s t) : t.chart = s.chart := by
  obtain ⟨o, d, r, rfl⟩ := h
  rfl

theorem Recorded.takes (h : Recorded s t) : Takes s t := .of_chart h.chart

theorem recorded_setN {i v : Nat} : Recorded s (setN i k v s) := ⟨_, _, _, rfl⟩

theorem recorded_modHead {g : Segment → Segment} : Recorded s (modHead st g s) := recorded_modStream

theorem recorded_refill : Recorded s (refill st s) := by
  unfold refill
  split
  · exact .refl s
  · exact .ite (fun _ => .refl s) fun _ => .step recorded_ringStage recorded_modHead

theorem recorded_codeFront : Recorded s (codeFront st n s) := by
  unfold codeFront
  exact .step recorded_modHead <| .step recorded_setN <| .step recorded_setN <| .step recorded_setN recorded_ringWrite

theorem recorded_startSegment : Recorded s (startSegment st s) := by
  unfold startSegment
  exact .step recorded_setN <| .step recorded_setN <| .step recorded_setN <| .step recorded_ringWrite recorded_modHead

theorem recorded_feedSegment : Recorded s (feedSegment k d s) := .ite (fun _ => .refl s) fun _ => .step recorded_refill recorded_modStream

theorem Tab.find_map_entries {α : Type} {g : Nat → α → α} {x : Tab α} :
    Tab.find k (x.map fun e => (e.1, g e.1 e.2)) = (Tab.find k x).map (g k) := by
  induction x with
  | nil => rfl
  | cons e x ih =>
    obtain ⟨j, v⟩ := e
    rw [List.map_cons, Tab.find, Tab.find, ih]
    split_ifs with hlt he
    · rfl
    · rw [he]; rfl
    · rfl

theorem takes_bufferTaken {o : Option Nat} : Takes s (bufferTaken o s) := by
  cases o with
  | none => exact .refl s
  | some m =>
    intro k
    have h := Tab.find_map_entries (k := k) (x := s.chart.buffers) (g := fun j b => if j = m ∧ b.state = 3 then { b with state := 4 } else b)
    unfold buffer bufferTaken Tab.getD
    rw [h]
    cases Tab.find k s.chart.buffers with
    | none => exact .inl rfl
    | some b =>
      dsimp only [Option.map_some, Option.getD_some]
      split
      · exact .inr ⟨‹_ ∧ _›.2, rfl⟩
      · exact .inl rfl

theorem takes_setNotice {cls i : Nat} {v : Int} : Takes s (setNotice cls n i k v s) := .of_chart (quiet_noticeObj ..).chart

theorem takes_streamStop : Takes s (streamStop st s) := .step takes_setNotice (Recorded.step recorded_setN recorded_modHead).takes

theorem takes_finishSegment : Takes s (finishSegment st s) := by
  unfold finishSegment
  refine .ite (fun _ => ?_) fun _ => .step (Recorded.step recorded_refill recorded_startSegment).takes ?_
  all_goals exact .step takes_bufferTaken (Recorded.step recorded_setN (.step recorded_modStream recorded_ringWrite)).takes

theorem takes_codeNext : Takes s (codeNext st s) := by
  unfold codeNext
  split
  · exact .refl s
  · refine .ite (fun _ => .ite (fun _ => takes_streamStop) fun _ => ?_) fun _ => .ite (fun _ => takes_finishSegment) fun _ => .refl s
    exact (Recorded.step recorded_refill recorded_codeFront).takes

theorem takes_drainSegs : Takes s (drainSegs st n s) := by
  induction n generalizing s with
  | zero => exact .refl s
  | succ n ih => exact .ite (fun _ => .step ih takes_codeNext) fun _ => .refl s

theorem takes_endSegment : Takes s (endSegment st s) :=
  .ite (fun _ => .refl s) fun _ => .step takes_drainSegs recorded_modStream.takes

/-- What opens a segment, once the one before it has ended (R201, R202). -/
theorem recorded_openSegment_ended {tm : Time} : Recorded (endSegment st s) (openSegment st l tm s) := by
  unfold openSegment
  refine .ite (fun _ => .refl _) fun _ => ?_
  exact .ite (fun _ => .step recorded_startSegment recorded_modStream) fun _ => recorded_modStream

theorem takes_openSegment {tm : Time} : Takes s (openSegment st l tm s) := .step recorded_openSegment_ended.takes takes_endSegment

/-- With no segment before it there is none to end, whose buffer could be taken. -/
theorem recorded_openSegment {tm : Time} (h : (stream st s).segs = []) : Recorded s (openSegment st l tm s) := by
  have he : endSegment st s = s := if_pos (by rw [inSeg, h]; rfl)
  simpa only [he] using recorded_openSegment_ended (st := st) (l := l) (tm := tm) (s := s)

/-- The state in which the buffer that closes next meets the chart stream (R187). -/
def closedBuffer (k : Nat) (s : State) : State :=
  let t := modBuffer k (fun b => { b with state := 3, age := s.chart.counter }) s
  { t with chart := { t.chart with counter := t.chart.counter + 1 } }

theorem state_closedBuffer : (buffer k (closedBuffer k s)).state = 3 := by
  simp [closedBuffer, buffer, modBuffer]

theorem bufferClosed_next (h : nextClosing s = some k) : ∃ d l, bufferClosed s = feedSegment k d (openSegment 0x60 l s.now (closedBuffer k s)) := by
  unfold bufferClosed
  rw [h]
  exact ⟨_, _, rfl⟩

theorem state_bufferClosed (h : nextClosing s = some k) :
    ((buffer k (bufferClosed s)).state = 3 ∨ (buffer k (bufferClosed s)).state = 4) ∧
      ((stream 0x60 s).segs = [] → (buffer k (bufferClosed s)).state = 3) := by
  obtain ⟨d, l, he⟩ := bufferClosed_next h
  rw [he]
  refine ⟨(recorded_feedSegment.takes.step takes_openSegment).state state_closedBuffer, fun hs => ?_⟩
  have hr : Recorded (closedBuffer k s) (feedSegment k d (openSegment 0x60 l s.now (closedBuffer k s))) :=
    .step recorded_feedSegment (recorded_openSegment hs)
  rw [buffer, hr.chart]
  exact state_closedBuffer

/-! A layer is released, or named to be read (R187, R189). -/

theorem release_closed (h : (List.range 4).find? (fun j => (buffer j s).state == 3 && (buffer j s).layer == l) = some k) :
    release l s = modBuffer k (fun b => { b with state := 4 }) s := by
  rw [release, h]

theorem exportLayer_held (hk : k < 4) (hs : (buffer k s).state ≠ 0) (hl : (buffer k s).layer = l) : exportLayer l s = setN 0x5004 1 l s :=
  if_pos (List.any_eq_true.2 ⟨k, List.mem_range.2 hk, by simp [hs, hl]⟩)

/-- Settles O17: no byte stored for a cell reaches a counter; what ends in the chart stream takes Closed buffers alone, and where no segment
stands before the buffer's own, nothing ends. -/
theorem chartBuffers : Obligations.ChartBuffers := by
  unfold Obligations.ChartBuffers
  refine ⟨fun f l k b s hr hq hf hk hb hp hx hx' hy hy' => ?_, fun k s hr hk => ?_, fun k l s hr hk => ?_, fun k l s hr hk hs hl => ?_⟩
  · obtain ⟨hql, hc, ho⟩ := charted_chartInto (s := { fresh s with chart := { s.chart with queue := l } }) hb hp hx hx' hy hy'
    refine ⟨_, (gated_run hr.1 hr.2 : execFeatureCharted s = _), ?_⟩
    rw [featureCharted_current (s := fresh s) hq hf hk]
    exact ⟨hql, hc, ho⟩
  · exact ⟨_, (gated_run hr.1 hr.2 : execBufferClosed s = _), state_bufferClosed (s := fresh s) hk⟩
  · exact (gated_run hr.1 hr.2 : execRelease l s = _).trans (congrArg _ (release_closed (s := fresh s) hk))
  · exact (gated_run hr.1 hr.2 : execExportLayer l s = _).trans (congrArg _ (exportLayer_held (s := fresh s) hk hs hl))

end Sys2Proof.Machine
end

section
/-!
PROOFS: the breakwater set and the key slots, whose writes are RWP writes (R194-R196, R199, R296, R299).
-/
namespace Sys2Proof.Machine

variable {s : State} {n i k off : Nat} {d l sig : List Byte} {f : State → State}

/-- An RWP write that passes its check reaches the owner, which finds the key of the session as it was (R296). -/
theorem rwpWrite_passed (h : (rwpCheck n i k off d sig s).1 = 0) :
    ∃ w, rwpWrite n i k off d sig f s = f { s with net := w } ∧ (sess n { s with net := w }).key = (sess n s).key := by
  obtain ⟨w, hw⟩ := rwpCheck_passed h
  refine ⟨w, by rw [rwpWrite, if_pos h, hw], ?_⟩
  rw [← hw]
  unfold rwpCheck at h ⊢
  split_ifs at h ⊢
  · rfl
  · rw [sess_modSess_self]

/-! The breakwater set (R194, R195). -/

/-- The check of a set reads objects alone (R195). -/
theorem setCheck_net {w : Net} : setCheck l { s with net := w } = setCheck l s := rfl

/-- How the owner of the breakwater leaves a set l written to it: its check code shows, and only a valid set enters the shadow. -/
structure SetTaken (l : List Byte) (s t : State) : Prop where
  code : getN 0x5100 2 t = setCheck l s
  valid : setCheck l s = 1 → t.bw.shadow = some l ∧ t.result = s.result
  invalid : setCheck l s ≠ 1 → t.bw.shadow = s.bw.shadow ∧ t.result = 4
  force : t.bw.force = s.bw.force

theorem setTaken_breakwaterTake (h : sealOf 2 s = 0) : SetTaken l s (breakwaterTake l s) := by
  unfold breakwaterTake
  dsimp only
  rw [if_neg (not_not.2 h)]
  split
  · next hc => exact ⟨getN_setN_self .., fun _ => ⟨rfl, rfl⟩, fun hn => absurd hc hn, rfl⟩
  · next hc => exact ⟨getN_setN_self .., fun he => absurd he hc, fun _ => ⟨rfl, rfl⟩, rfl⟩

/-! The key slots (R199). -/

/-- Slot i holds a key hash; the result is as it was. -/
structure KeyHeld (i : Nat) (hash : List Byte) (s t : State) : Prop where
  hash : getB 0x5101 (i + 1) t = hash
  programmed : bit (getN 0x5101 5 t) i = true
  result : t.result = s.result

theorem keyHeld_keyTake (hl : d.length = 33) (hi : field d 0 1 < 4) (he : bit (getN 0x5101 5 s) (field d 0 1) = false) :
    KeyHeld (field d 0 1) (slice d 1 32) s (keyTake d s) := by
  unfold keyTake
  dsimp only
  rw [if_neg (not_not.2 hl), if_neg (by omega), if_neg (by simp [he])]
  refine ⟨?_, by rw [getN_setN_self, bit_setBit_self], rfl⟩
  rw [getB_eq, setN_eq, getV_setV_ne _ _ (by unfold key; omega), ← getB_eq, getB_setB_self]

/-- The first key enters over the SPI port unsigned, every other one signed (R299). -/
theorem keyProgram_admitted (h : n = 16 ∧ getN 0x5101 5 s = 0 ∧ field d 0 1 = 0 ∨ (rwpCheck n 0x5101 6 0 d sig s).1 = 0) :
    ∃ w, keyProgram n d sig s = keyTake d { s with net := w } := by
  unfold keyProgram
  split
  · exact ⟨s.net, rfl⟩
  · next hn =>
    obtain ⟨w, hw, -⟩ := rwpWrite_passed (f := keyTake d) (h.resolve_left hn)
    exact ⟨w, hw⟩

theorem keyDrop_live (hi : i < 4) (hl : slotLive i s = true) (h2 : 2 ≤ ([0, 1, 2, 3].filter (fun j => slotLive j s)).length)
    (hk : getB 0x5101 (i + 1) s ≠ sha256 (sess n s).key) :
    keyDrop n i s = setN 0x5101 5 (setBit (getN 0x5101 5 s) (i + 4) true) s := by
  rw [keyDrop, if_neg (Nat.not_le.2 hi), if_neg]
  rintro (h | h | h)
  · simp [hl] at h
  · omega
  · exact hk h

/-- Settles O18: a write whose signature verifies raises the count of its session before the owner takes it, and no check of the owner
reads that count. -/
theorem breakwaterAndKeys : Obligations.BreakwaterAndKeys := by
  unfold Obligations.BreakwaterAndKeys
  refine ⟨fun n l sig s hr hc h => ?_, fun n d sig s hr hc hl hi he => ?_, fun n i sig s hr hc hi hl h2 hk => ?_⟩
  · obtain ⟨w, hw, -⟩ := rwpWrite_passed (f := breakwaterTake l) hc
    have ht := setTaken_breakwaterTake (l := l) (s := { fresh s with net := w }) h
    have hs : setCheck l { fresh s with net := w } = setCheck l s := setCheck_net (s := fresh s)
    refine ⟨_, (gated_run hr.1 hr.2 : execBreakwaterSet n l sig s = _), ?_⟩
    rw [hw]
    exact ⟨ht.code.trans hs, fun h1 => ht.valid (hs.trans h1), fun h1 => ht.invalid (hs ▸ h1), ht.force⟩
  · obtain ⟨w, hw⟩ := keyProgram_admitted (s := fresh s) hc
    obtain ⟨hh, hb, hres⟩ := keyHeld_keyTake (s := { fresh s with net := w }) hl hi he
    refine ⟨_, (gated_run hr.1 hr.2 : execKeySlotProgram n d sig s = _), ?_⟩
    rw [hw]
    exact ⟨hh, hb, hres⟩
  · obtain ⟨w, hw, hkey⟩ := rwpWrite_passed (f := keyDrop n i) hc
    have hd := keyDrop_live (n := n) (s := { fresh s with net := w }) hi hl h2 (hkey.symm ▸ hk)
    refine ⟨_, (gated_run hr.1 hr.2 : execKeySlotRevoke n i sig s = _), ?_⟩
    rw [keyRevoke, hw, hd]
    exact ⟨by rw [getN_setN_self, bit_setBit_self], rfl⟩

end Sys2Proof.Machine
end

section
/-!
PROOFS: the static table of the block code is canonical (R209).
-/
namespace Sys2Proof.Machine

variable {l : List Nat} {c n : Nat}

/-- The codes at length n that the words of the first c classes take away, as `codeWord` counts them. -/
def codesBefore (l : List Nat) (n c : Nat) : Nat := (List.range c).foldl (fun a k => a + 2 ^ (n - l.getD k 0)) 0

/-- One class more takes its own share away. -/
theorem codesBefore_succ : codesBefore l n (c + 1) = codesBefore l n c + 2 ^ (n - l.getD c 0) := by
  simp only [codesBefore, List.range_succ, List.foldl_append, List.foldl_cons, List.foldl_nil]

theorem getD_le_of_sorted (hl : l.Pairwise (· ≤ ·)) {i j : Nat} (hij : i ≤ j) (hj : j < l.length) : l.getD i 0 ≤ l.getD j 0 := by
  rw [List.getD_eq_getElem l 0 hj, List.getD_eq_getElem l 0 (hij.trans_lt hj)]
  rcases hij.eq_or_lt with rfl | h
  · exact Nat.le_refl _
  · exact List.pairwise_iff_getElem.1 hl i j _ _ h

/-- Where no class is shorter than the one before it, the words of the classes up to c come before that of c in the order of R209. -/
theorem codeWord_of_sorted (hl : l.Pairwise (· ≤ ·)) (hc : c < l.length) :
    codeWord l c = (codesBefore l (l.getD c 0) c, l.getD c 0) := by
  have hf : (List.range l.length).filter (fun k => decide (l.getD k 0 < l.getD c 0) || (l.getD k 0 == l.getD c 0 && decide (k < c))) =
      List.range c := by
    obtain ⟨d, hd⟩ := Nat.exists_eq_add_of_le hc.le
    rw [hd, List.range_add, List.filter_append, List.filter_eq_self.2, List.filter_eq_nil_iff.2, List.append_nil]
    · intro k hk
      obtain ⟨j, hj, rfl⟩ := List.mem_map.1 hk
      have hj := List.mem_range.1 hj
      have := getD_le_of_sorted hl (Nat.le_add_right c j) (by omega)
      simp only [Bool.or_eq_true, Bool.and_eq_true, decide_eq_true_eq, beq_iff_eq]
      omega
    · intro k hk
      have hk := List.mem_range.1 hk
      have := getD_le_of_sorted hl hk.le hc
      simp only [Bool.or_eq_true, Bool.and_eq_true, decide_eq_true_eq, beq_iff_eq]
      omega
  unfold codeWord codesBefore
  dsimp only
  rw [hf]

/-- Lengthening a word by m bits leaves room for 2 ^ m words where there was one. -/
theorem codesBefore_lengthen {m : Nat} (h : ∀ k < c, l.getD k 0 ≤ n) : codesBefore l (n + m) c = codesBefore l n c * 2 ^ m := by
  induction c with
  | zero => simp [codesBefore]
  | succ c ih =>
    have hc : n + m - l.getD c 0 = n - l.getD c 0 + m := Nat.sub_add_comm (h c (by omega))
    rw [codesBefore_succ, codesBefore_succ, ih fun k hk => h k (by omega), hc, pow_add, add_mul]

/-- Each code word is one more than that of the class before it, extended with zeros to its own length (R209). -/
theorem codeWord_succ_of_sorted (hl : l.Pairwise (· ≤ ·)) (hc : c + 1 < l.length) :
    codeWord l (c + 1) = (((codeWord l c).1 + 1) * 2 ^ (l.getD (c + 1) 0 - l.getD c 0), l.getD (c + 1) 0) := by
  obtain ⟨m, hm⟩ := Nat.exists_eq_add_of_le (getD_le_of_sorted hl (Nat.le_add_right c 1) hc)
  rw [codeWord_of_sorted hl hc, codeWord_of_sorted hl (by omega), hm, codesBefore_succ,
    codesBefore_lengthen fun k hk => getD_le_of_sorted hl hk.le (by omega)]
  simp [add_mul]

/-- Settles O57: the static lengths rise with the classes, so the order of the code words is that of the classes. -/
theorem staticTableIsCanonical : Obligations.StaticTableIsCanonical := by
  unfold Obligations.StaticTableIsCanonical
  exact ⟨rfl, by decide, fun c hc => codeWord_succ_of_sorted (by decide) (Nat.succ_lt_succ hc)⟩

end Sys2Proof.Machine
end

section
/-!
PROOFS: the record streams and the host job: a block coded, a stop for output and the resume, gap entries and anchors, the read pointer,
and the commands of a job (R204, R212-R215, R217, R218).
-/
namespace Sys2Proof.Machine

variable {s t : State} {a : Anchor} {b k n st : Nat} {g : Segment} {f : Segment → Segment} {l : List Nat}

/-! The segments of a stream after an update. -/

theorem headSeg_congr (h : (stream st t).segs = (stream st s).segs) : headSeg st t = headSeg st s := by rw [headSeg, headSeg, h]

theorem inSeg_congr (h : (stream st t).segs = (stream st s).segs) : inSeg st t = inSeg st s := by rw [inSeg, inSeg, h]

theorem segs_modStream {m : Stream → Stream} (hm : ∀ x, (m x).segs = x.segs) : (stream st (modStream n m s)).segs = (stream st s).segs := by
  by_cases h : st = n
  · rw [h, stream_modStream_self, hm]
  · rw [stream_modStream_ne _ _ _ h]

theorem headSeg_modHead : headSeg st (modHead st f s) = (headSeg st s).map f := by
  simp only [headSeg, modHead, stream_modStream_self]
  cases (stream st s).segs <;> rfl

theorem inSeg_modLast (hf : ∀ g, (f g).ended = g.ended) : inSeg st (modLast st f s) = (inSeg st s).map f := by
  simp only [inSeg, modLast, stream_modStream_self]
  rcases List.eq_nil_or_concat (stream st s).segs with h | ⟨x, g, h⟩
  · rw [h]; rfl
  · rw [h]; simp [Option.filter_some, hf, apply_ite (Option.map f)]

/-- A ring takes bytes of DRAM alone (R212). -/
theorem stream_ringWrite {base size at' : Nat} {d : List Byte} : stream n (ringWrite base size at' d s) = stream n s :=
  List.foldlRecOn (motive := fun acc : State × Nat => stream n acc.1 = stream n s) d _ rfl fun _ h _ _ => h

theorem stream_setN {i m : Nat} : stream n (setN i k m s) = stream n s := rfl

theorem stream_addN {i w m : Nat} : stream n (addN i k w m s) = stream n s := rfl

theorem segs_ringStage {d : List Byte} : (stream n (ringStage st d s)).segs = (stream n s).segs :=
  (segs_modStream fun _ => by rfl).trans (congrArg Stream.segs stream_ringWrite)

/-! A block coded (R202, R213, R214). -/

theorem blockCoded_served (h8 : getN 0x5801 8 s ≠ 1) (hs : served s = some st) : blockCoded s = codeNext st s := by
  rw [blockCoded, if_neg fun h => h8 h.1, hs]

/-- Where a whole block is staged, the stream codes it or stops before it (R214). -/
theorem codeNext_block (hg : headSeg st s = some g) (hb : blockElems st ≤ g.staging.length) :
    codeNext st s = if outFree st s < blockMost g.mode then streamStop st s else refill st (codeFront st (blockElems st) s) := by
  rw [codeNext, hg]
  exact if_pos (.inl hb)

/-- Coding moves the front of the staging into a block (R202). -/
theorem headSeg_codeFront (hg : headSeg st s = some g) : ∃ x, headSeg st (codeFront st n s) = some x ∧ x.blocks = g.blocks + 1 ∧
    x.staging = g.staging.drop n ∧ x.feed = g.feed := by
  obtain ⟨f, u, hf, hu, he⟩ : ∃ f u, (∀ x : Segment, (f x).blocks = x.blocks + 1 ∧ (f x).staging = x.staging.drop n ∧ (f x).feed = x.feed) ∧
      stream st u = stream st s ∧ codeFront st n s = modHead st f u := by
    refine ⟨_, _, ?_, ?_, rfl⟩
    · exact fun _ => ⟨rfl, rfl, rfl⟩
    · rw [stream_setN, stream_addN, stream_addN, stream_ringWrite]
  exact ⟨f g, by rw [he, headSeg_modHead, headSeg_congr (congrArg Stream.segs hu), hg]; rfl, hf g⟩

/-- A refill moves the front of what a segment is fed with to the end of its staging (R201). -/
theorem headSeg_refill (hg : headSeg st s = some g) :
    ∃ m, headSeg st (refill st s) = some { g with staging := g.staging ++ g.feed.take m, feed := g.feed.drop m } := by
  rw [refill, hg]
  dsimp only
  split
  · exact ⟨0, by simpa using hg⟩
  · exact ⟨_, by rw [headSeg_congr segs_ringStage, headSeg_modHead, hg]; rfl⟩

theorem headSeg_coded (hg : headSeg st s = some g) : ∃ h, headSeg st (refill st (codeFront st n s)) = some h ∧ h.blocks = g.blocks + 1 ∧
    (g.feed = [] → h.staging = g.staging.drop n) := by
  obtain ⟨x, hx, hblocks, hstaging, hfeed⟩ := headSeg_codeFront (n := n) hg
  obtain ⟨m, hm⟩ := headSeg_refill hx
  exact ⟨_, hm, hblocks, fun h => by simp [hstaging, hfeed, h]⟩

theorem not_noticeKey_stream : ¬ noticeKey (key (ssi st n) k) := by unfold noticeKey key ssi; omega

/-- A stop for output shows in the stream's state and writes no byte of DRAM (R214). -/
theorem streamStop_spec : getN (ssi st 1) 1 (streamStop st s) = 2 ∧ (streamStop st s).dram = s.dram := by
  obtain ⟨u, hu, hq⟩ : ∃ u, u.dram = s.dram ∧ Quiet (setI (ssi st 1) 1 2 u) (streamStop st s) := ⟨_, rfl, quiet_noticeObj ..⟩
  exact ⟨by rw [hq.getN not_noticeKey_stream, getN_setI_self]; rfl, hq.dram.trans hu⟩

/-! A stream resumes (R214). -/

theorem drainSegs_open (hg : headSeg st s = some g) (he : g.ended = false) : drainSegs st k s = s := by
  cases k with
  | zero => rfl
  | succ k => exact if_neg fun h => by simp [hg, he] at h

theorem streamResume_open (h2 : getN (ssi st 1) 1 s = 2) (hg : headSeg st s = some g) (he : g.ended = false) (hr : g.resume ≤ outFree st s) :
    streamResume st s = setN (ssi st 1) 1 1 s := by
  rw [streamResume, if_pos ⟨h2, by rw [hg]; exact hr⟩]
  exact drainSegs_open hg he

/-! Gap entries and anchors (R204, R215). -/

/-- Bytes that find room go to the end of the staging. -/
theorem inSeg_stageBytes (h : hasRoom st l.length s = true) :
    inSeg st (stageBytes st l s) = (inSeg st s).map fun g => { g with staging := g.staging ++ l } := by
  have hi : (inSeg st s).isSome = true := (Bool.and_eq_true_iff.1 h).1
  rw [stageBytes, if_neg (by simpa using Option.isSome_iff_ne_none.1 hi), if_pos h, inSeg_congr segs_ringStage]
  exact inSeg_modLast fun _ => by rfl

theorem length_entryBytes {kind hb : Nat} {tm : Time} {p : List Byte} :
    (entryBytes kind hb tm p).length = 16 * (1 + (p.length + 15) / 16) := by
  simp [entryBytes, slice]; omega

@[simp] theorem length_gapBytes : (gapBytes st n s).length = 32 := by simp [gapBytes, length_entryBytes]

@[simp] theorem length_anchorBytes : (anchorBytes b a s).length = 32 := by simp [anchorBytes, length_entryBytes]

theorem gapEntry_written (hl : (stream st s).lost ≠ 0) (hr : roomAgain st s = true)
    (ha : gapTarget st < 24 → (stream (sampleStream (gapTarget st)) s).anchors = []) (h : hasRoom (gapTarget st) 32 s = true) :
    gapEntry st s = modStream st (fun x => { x with lost := 0 }) (stageBytes (gapTarget st) (gapBytes st (stream st s).lost s) s) := by
  have hw : (if gapTarget st < 24 then writeAnchor (gapTarget st) s else s) = s := by
    split
    · exact if_pos (ha ‹_›)
    · rfl
  unfold gapEntry
  dsimp only
  rw [if_neg (by simp [hl, hr]), hw, if_neg (by simp [h])]

theorem writeAnchor_single (ha : (stream (sampleStream b) s).anchors = [a]) (h0 : a.lost = 0) (h : hasRoom (eventStream b) 32 s = true) :
    writeAnchor b s = modStream (sampleStream b) (fun x => { x with anchors := [] }) (stageBytes (eventStream b) (anchorBytes b a s) s) := by
  simp only [writeAnchor, ha, writeAnchors, h, h0, List.cons_ne_nil, Bool.not_true, Bool.false_eq_true, if_false, if_true]

/-! The host job (R217). -/

theorem blockCoded_job (h8 : getN 0x5801 8 s = 1) (hs : streamList.any (fun j => decide (stageSize j s < 2 * stagedBytes j s)) = false) :
    blockCoded s = jobBlock s := by
  rw [blockCoded, hs]
  exact if_pos ⟨h8, rfl⟩

/-- How a job stands after a block: at its position, done where its source ends there. -/
structure JobMoved (s t : State) : Prop where
  pos : t.rcd.jobPos = s.rcd.jobPos + 128
  consumed : getN 0x5801 9 t = s.rcd.jobPos + 128
  status : getN 0x5801 8 t = if getN 0x5801 2 s ≤ s.rcd.jobPos + 128 then 2 else getN 0x5801 8 s

/-- The counts of a job after a block, which made m bytes and left the largest error at w (R217). -/
def jobCounted (m w : Nat) (s : State) : State := setN 0x5801 0x0C w (addN 0x5801 0x0B 32 m (setN 0x5801 9 s.rcd.jobPos s))

theorem consumed_jobCounted {m w : Nat} : getN 0x5801 9 (jobCounted m w s) = s.rcd.jobPos := by
  rw [jobCounted, addN, getN_setN_sub (by decide), getN_setN_sub (by decide), getN_setN_self]

/-- The job's settings and its status are no counts. -/
theorem getN_jobCounted {m w : Nat} (hk : k < 9) : getN 0x5801 k (jobCounted m w s) = getN 0x5801 k s := by
  rw [jobCounted, addN, getN_setN_sub (by omega), getN_setN_sub (by omega), getN_setN_sub (by omega)]

theorem jobBlock_coded (hr : blockMost (getN 0x5801 5 s) ≤ s.rcd.jobRoom) :
    ∃ m w u, u.obj = s.obj ∧ u.rcd.jobPos = s.rcd.jobPos + 128 ∧
      jobBlock s = if getN 0x5801 2 (jobCounted m w u) ≤ u.rcd.jobPos then setN 0x5801 8 2 (jobCounted m w u) else jobCounted m w u := by
  unfold jobBlock
  dsimp only
  rw [if_neg (Nat.not_lt.2 hr)]
  exact ⟨_, _, _, by rfl, by rfl, rfl⟩

theorem jobMoved_jobBlock (hr : blockMost (getN 0x5801 5 s) ≤ s.rcd.jobRoom) : JobMoved s (jobBlock s) := by
  obtain ⟨m, w, u, ho, hp, he⟩ := jobBlock_coded hr
  have hn : ∀ k < 9, getN 0x5801 k (jobCounted m w u) = getN 0x5801 k s := fun k hk => by
    rw [getN_jobCounted hk, getN_eq, getV_congr ho, ← getN_eq]
  have h9 : getN 0x5801 9 (jobCounted m w u) = s.rcd.jobPos + 128 := consumed_jobCounted.trans hp
  rw [he, hn 2 (by decide), hp]
  split
  · next hd => exact ⟨hp, by rw [getN_setN_sub (by decide), h9], by rw [getN_setN_self, if_pos hd]⟩
  · next hd => exact ⟨hp, h9, by rw [hn 8 (by decide), if_neg hd]⟩

/-- How a job stands once it has started: at the beginning of its source, and done where that is empty. -/
structure JobStarted (s t : State) : Prop where
  status : getN 0x5801 8 t = if getN 0x5801 2 s = 0 then 2 else 1
  pos : t.rcd.jobPos = 0
  dst : t.rcd.jobDst = getN 0x5801 3 s
  result : t.result = s.result

theorem jobStarted_jobStart (h8 : getN 0x5801 8 s ≠ 1) (h2 : getN 0x5801 2 s % 128 = 0) (hd : getN 0x5801 0x0D s ≠ 1) :
    JobStarted s (jobStart s) := by
  unfold jobStart
  dsimp only
  rw [if_neg (by simp [h8, h2, hd])]
  refine ⟨?_, rfl, rfl, rfl⟩
  rw [getN_setN_self, getN_setN_sub (by decide), getN_setN_sub (by decide), getN_setN_sub (by decide)]
  rfl

/-- Settles O19: what a stream or a job writes beside the part that a clause names (ring bytes in DRAM, counters, notices) stands apart from
the segments and from the objects that the clause reads. -/
theorem recordStreamsAndJobs : Obligations.RecordStreamsAndJobs := by
  unfold Obligations.RecordStreamsAndJobs
  refine ⟨fun st g s hr h8 hs hg hb => ?_, fun st g s hr h2 hg he hf => ?_, fun st s hr hl ha hn hm => ?_, fun b a s hr ha h0 hm => ?_,
    fun st v s hr hv => ?_, fun s hr h8 h2 hd => ?_, fun s hr h8 hs hm => ?_, fun s hr h3 => ?_, fun s hr h => ?_, fun s hr => ?_⟩
  · have he : execBlockCoded s = .next (codeNext st (fresh s)) :=
      (gated_run hr.1 hr.2).trans (congrArg _ (blockCoded_served (s := fresh s) h8 hs))
    have hc := codeNext_block (s := fresh s) hg hb
    refine ⟨fun hf : blockMost g.mode ≤ outFree st (fresh s) => ?_, fun hf : outFree st (fresh s) < blockMost g.mode => ?_⟩
    · obtain ⟨h, ht⟩ := headSeg_coded (n := blockElems st) (s := fresh s) hg
      exact ⟨_, h, he, by rw [hc, if_neg (Nat.not_lt.2 hf)]; exact ht⟩
    · exact ⟨_, he, by rw [hc, if_pos hf]; exact streamStop_spec⟩
  · exact (gated_run hr.1 hr.2 : execStreamResume st s = _).trans (congrArg _ (streamResume_open (s := fresh s) h2 hg he hf))
  · refine ⟨_, (gated_run hr.1 hr.2 : execGapEntry st s = _), ?_⟩
    rw [gapEntry_written (s := fresh s) hl ha hn hm, stream_modStream_self, inSeg_congr (segs_modStream fun _ => by rfl)]
    exact ⟨rfl, inSeg_stageBytes (by rw [length_gapBytes]; exact hm)⟩
  · refine ⟨_, (gated_run hr.1 hr.2 : execSampleAnchor b s = _), ?_⟩
    rw [writeAnchor_single (s := fresh s) ha h0 hm, stream_modStream_self, inSeg_congr (segs_modStream fun _ => by rfl)]
    exact ⟨rfl, inSeg_stageBytes (by rw [length_anchorBytes]; exact hm)⟩
  · exact (gated_run hr.1 hr.2 : execReadPointer st v s = _).trans (congrArg _ (if_neg (Nat.not_lt.2 hv)))
  · obtain ⟨hst, hpos, hdst, hres⟩ := jobStarted_jobStart (s := fresh s) h8 h2 hd
    exact ⟨_, (gated_run hr.1 hr.2 : execJobStart s = _), hst, hpos, hdst, hres⟩
  · obtain ⟨hpos, hcons, hst⟩ := jobMoved_jobBlock (s := fresh s) hm
    refine ⟨_, (gated_run hr.1 hr.2 : execBlockCoded s = _), ?_⟩
    rw [blockCoded_job (s := fresh s) h8 hs]
    exact ⟨hpos, hcons, hst.trans (by rw [show getN 0x5801 8 (fresh s) = 1 from h8]; rfl)⟩
  · refine ⟨_, (gated_run hr.1 hr.2 : execJobResume s = _), ?_⟩
    rw [jobResume, if_pos (show getN 0x5801 8 (fresh s) = 3 from h3)]
    exact ⟨getN_setN_self .., rfl, rfl, rfl⟩
  · exact (gated_run hr.1 hr.2 : execJobAbort s = _).trans (congrArg _ (if_pos h))
  · exact gated_run hr.1 hr.2

end Sys2Proof.Machine
end

section
/-!
PROOFS, the layer of facts: what the operations of bring-up write (R223-R231): the link's own objects, its record, and the list of Up links.
-/
namespace Sys2Proof.Machine

variable {s t : State} {h j k l n reason v : Nat}

/-! The objects of a link. -/

theorem not_noticeKey_lki : ¬ noticeKey (key (lki l) k) := by
  have h := le_lki (l := l)
  unfold noticeKey key; omega

theorem lki_head (hh : h < 24) : lki h = hi h := if_pos hh

theorem ne_lsub {x y : Nat} (hx : k ≠ x) (hy : k ≠ y) : k ≠ lsub l x y := by
  unfold lsub; split <;> assumption

theorem getN_modLink {i : Nat} {f : Link → Link} : getN i k (modLink l f s) = getN i k s := rfl

theorem linkState_modLink {f : Link → Link} : linkState l (modLink n f s) = linkState l s := rfl

/-! A link enters a state. -/

theorem getN_setLinkState (hk : k < 256) (h2 : k ≠ 2) : getN (lki l) k (setLinkState l n s) = getN (lki l) k s := by
  rw [getN_eq, getV_setLinkState (fun e => h2 ((key_inj hk (by decide)).1 e).2) lki_ne_shown hk, ← getN_eq]

@[simp] theorem link_setLinkState : link j (setLinkState l n s) = link j s := by
  unfold setLinkState; dsimp only; split <;> rfl

@[simp] theorem now_setLinkState : (setLinkState l n s).now = s.now := by
  unfold setLinkState; dsimp only; split <;> rfl

@[simp] theorem dram_setLinkState : (setLinkState l n s).dram = s.dram := by
  unfold setLinkState; dsimp only; split <;> rfl

/-! Bring-up begins at Detect (R220, R223). -/

/-- How link l stands once bring-up has begun; the attempts that failed before stay counted. -/
structure AttemptBegun (l : Nat) (s t : State) : Prop where
  state : linkState l t = 1
  enable : getN (lki l) 1 t = getN (lki l) 1 s
  reason : getN (lki l) 3 t = getN (lki l) 3 s
  began : (link l t).attemptAt = s.now
  failed : (link l t).failed = (link l s).failed
  pending : (link l t).retrainPending = false
  dram : t.dram = s.dram

theorem takeSeat_eq : ∃ x, takeSeat l s = { s with hm := x } := by
  unfold takeSeat
  split
  · exact ⟨s.hm, rfl⟩
  · exact ⟨_, rfl⟩

theorem attemptBegun_enterDetect : AttemptBegun l s (enterDetect l s) := by
  obtain ⟨x, hx⟩ := takeSeat_eq (l := l) (s := s)
  have hobj : ∀ k, k < 4 → getN (lki l) k (enterDetect l s) = getN (lki l) k (setLinkState l 1 (takeSeat l s)) := fun k hk => by
    unfold enterDetect
    dsimp only
    exact (getN_setN_sub (ne_lsub (by omega) (by omega))).trans (getN_setN_sub (ne_lsub (by omega) (by omega)))
  have hset : ∀ k, k < 4 → k ≠ 2 → getN (lki l) k (enterDetect l s) = getN (lki l) k s := fun k hk h2 => by
    rw [hobj k hk, getN_setLinkState (by omega) h2, hx]
    rfl
  have hlink : ∀ f, link l (modLink l f (setN (lki l) (lsub l 0x11 0x05) 0 (setN (lki l) (lsub l 0x0E 0x0A) 0
      (setLinkState l 1 (takeSeat l s))))) = f (link l s) := fun f => by
    rw [link_modLink_self, setN_eq, setN_eq, link_setV, link_setV, link_setLinkState, hx]
    rfl
  refine ⟨(hobj 2 (by decide)).trans linkState_setLinkState, hset 1 (by decide) (by decide), hset 3 (by decide) (by decide), ?_, ?_, ?_, ?_⟩
  · unfold enterDetect
    dsimp only
    rw [link_drawn, hlink, setN_eq, setN_eq, setV_now, setV_now, now_setLinkState, hx]
  · unfold enterDetect
    dsimp only
    rw [link_drawn, hlink]
  · unfold enterDetect
    dsimp only
    rw [link_drawn, hlink]
  · exact dram_setLinkState.trans (by rw [hx])

/-! An attempt fails (R228). -/

/-- How link l stands once an attempt has failed: Failed at the attempt limit, else Down for the retry interval. -/
structure AttemptFailed (l reason : Nat) (s t : State) : Prop where
  state : linkState l t = if getN 0x3800 7 s ≠ 0 ∧ getN 0x3800 7 s ≤ ((link l s).failed + 1) % 2 ^ 32 then 8 else 0
  reason : getN (lki l) 3 t = reason
  failed : (link l t).failed = ((link l s).failed + 1) % 2 ^ 32

theorem AttemptFailed.of_quiet (h : AttemptFailed l reason s t) {u : State} (hq : Quiet t u) : AttemptFailed l reason s u where
  state := (hq.getN not_noticeKey_lki).trans h.state
  reason := (hq.getN not_noticeKey_lki).trans h.reason
  failed := by
    rw [link, hq.links]
    exact h.failed

/-- An attempt that fails shows its reason and is counted (f) before the link leaves bring-up, and is marked as noted (g) after. -/
theorem attemptFailed_of_stages {f g : Link → Link} (hf : ∀ x, (f x).failed = (x.failed + 1) % 2 ^ 32) (hg : ∀ x, (g x).failed = x.failed)
    (hn : (if getN 0x3800 7 s ≠ 0 ∧ getN 0x3800 7 s ≤ ((link l s).failed + 1) % 2 ^ 32 then 8 else 0) = n) :
    AttemptFailed l reason s (modLink l g (setLinkState l n (modLink l f (setN (lki l) 3 reason s)))) where
  state := (linkState_modLink.trans linkState_setLinkState).trans hn.symm
  reason := getN_modLink.trans ((getN_setLinkState (by decide) (by decide)).trans (getN_setN_self ..))
  failed := by rw [link_modLink_self, hg, link_setLinkState, link_modLink_self, hf]; rfl

theorem attemptFailed_attemptFails : AttemptFailed l reason s (attemptFails l reason s) := by
  have h7 : ∀ f, getN 0x3800 7 (modLink l f (setN (lki l) 3 reason s)) = getN 0x3800 7 s := fun f =>
    getN_setN_ne _ _ fun e => lki_ne_shown ((key_inj (by decide) (by decide)).1 e).1.symm
  have hq : ∀ u, Quiet u (linkNote l reason u) := fun _ => quiet_noticeLog ..
  unfold attemptFails
  dsimp only
  rw [h7, link_modLink_self, setN_eq, link_setV, ← setN_eq]
  split
  next hlim =>
    refine AttemptFailed.of_quiet ?_ (hq _)
    exact attemptFailed_of_stages (fun _ => by rfl) (fun _ => by rfl) (if_pos hlim)
  next hlim =>
    split
    · exact attemptFailed_of_stages (fun _ => by rfl) (fun _ => by rfl) (if_neg hlim)
    · refine AttemptFailed.of_quiet ?_ (hq _)
      exact attemptFailed_of_stages (fun _ => by rfl) (fun _ => by rfl) (if_neg hlim)

end Sys2Proof.Machine
end

section
/-!
PROOFS, the layer of facts: what a stop and its reports list (R9). Of a table out of order, which the statements do not rule out, a value that
is listed where a look-up finds it (`Tab.find_filter`) is found after a loss too, so the links' losses need to know that a stop unlists nothing.
-/
namespace Sys2Proof.Machine

/-- Every object that a look-up finds in s, one finds in t, whatever its value. -/
structure Lists (s t : State) : Prop where
  found : ∀ n, (s.obj.find n).isSome → (t.obj.find n).isSome

variable {s t u : State} {b i k n st cause strength place other mask cls num code : Nat} {d : List Byte} {tm : Time}

theorem Lists.refl (s : State) : Lists s s := ⟨fun _ => id⟩

/-- `Lists` after a step, in the order a proof meets them. -/
theorem Lists.step (h : Lists t u) (h' : Lists s t) : Lists s u := ⟨fun n hn => h.found n (h'.found n hn)⟩

theorem Lists.ite {c : Prop} [Decidable c] (h : c → Lists s t) (h' : ¬ c → Lists s u) : Lists s (if c then t else u) := by
  split
  · exact h ‹_›
  · exact h' ‹_›

theorem Lists.foldl_fst {β γ : Type} {g : State × β → γ → State × β} {l : List γ} {a : State × β}
    (h : ∀ x a, Lists a.1 (g a x).1) : Lists a.1 (l.foldl g a).1 := by
  induction l generalizing a with
  | nil => exact .refl _
  | cons x l ih => exact .step ih (h x a)

theorem Lists.each {l : List Nat} {g : Nat → State → State} (h : ∀ n s, Lists s (g n s)) : Lists s (each l g s) := by
  induction l generalizing s with
  | nil => exact .refl s
  | cons n l ih => exact .step ih (h n s)

theorem Lists.of_eq (h : t.obj = s.obj) : Lists s t := ⟨fun n hn => by rwa [h]⟩

theorem lists_setV {v : Val} : Lists s (setV i k v s) := by
  refine ⟨fun n hn => ?_⟩
  by_cases h : n = key i k
  · rw [h, setV, Tab.find_put_self]
    rfl
  · rwa [setV, Tab.find_put_ne _ _ h]

theorem lists_addN {w m : Nat} : Lists s (addN i k w m s) := lists_setV

theorem lists_modBerth {g : Berth → Berth} : Lists s (modBerth b g s) := .of_eq rfl

theorem lists_modStream {g : Stream → Stream} : Lists s (modStream n g s) := .of_eq rfl

/-! Notices and the logbook (R292, R365-R371). -/

theorem lists_logProgram {r : LogRecord} : Lists s (logProgram r s) := by
  unfold logProgram
  exact .ite (fun _ => .of_eq rfl) fun _ => .ite (fun _ => .of_eq rfl) fun _ => .of_eq rfl

theorem lists_logDrain {l : List LogRecord} : Lists s (logDrain l s) := by
  induction l generalizing s with
  | nil => exact .of_eq rfl
  | cons r l ih => exact .ite (fun _ => .of_eq rfl) fun _ => .step ih lists_logProgram

theorem lists_logStage : Lists s (logStage cls num code d tm s) := .step lists_addN (.of_eq rfl)

theorem lists_logCount : Lists s (logCount s) := by
  unfold logCount
  exact .step lists_setV (.ite (fun _ => .refl s) fun _ => lists_setV)

theorem lists_logFlush : Lists s (logFlush s) := by
  have h : ∀ u, Lists u (logLostNote u) := fun u => by
    unfold logLostNote
    exact .ite (fun _ => .step lists_logStage (.of_eq rfl)) fun _ => .refl u
  exact .step lists_logCount (.step (h _) lists_logDrain)

theorem lists_logAdd : Lists s (logAdd cls num code d tm s) := by
  unfold logAdd
  refine .ite (fun _ => ?_) fun _ => .step lists_addN (.of_eq rfl)
  exact .ite (fun _ => .step lists_logFlush lists_logStage) fun _ => .step lists_logCount lists_logStage

theorem lists_queueNotice {m : Notice} : Lists s (queueNotice m k s) := by
  unfold queueNotice
  exact .ite (fun _ => .ite (fun _ => .of_eq rfl) fun _ => .step lists_addN (.of_eq rfl)) fun _ => .refl s

theorem lists_noticeAt : Lists s (noticeAt cls num code d tm s) := by
  have h : ∀ m q, Lists s (each (List.range 17) (queueNotice m) { s with net := { s.net with seqs := q } }) := fun _ _ =>
    .step (.each fun _ _ => lists_queueNotice) (.of_eq rfl)
  unfold noticeAt
  exact .ite (fun _ => .step lists_logAdd (h ..)) fun _ => h ..

theorem lists_noticeLogAt : Lists s (noticeLogAt cls num code d tm s) := by
  unfold noticeLogAt
  exact .ite (fun _ => lists_noticeAt) fun _ => .step lists_logAdd lists_noticeAt

/-! The record streams (R203-R215). -/

theorem lists_ringStage {l : List Byte} : Lists s (ringStage st l s) := by
  have h : ∀ base size at', Lists s (ringWrite base size at' l s) := fun _ _ at' =>
    Lists.foldl_fst (a := (s, at')) fun _ _ => .of_eq rfl
  unfold ringStage
  exact .step lists_modStream (h ..)

theorem lists_stageBytes {l : List Nat} : Lists s (stageBytes st l s) := by
  unfold stageBytes
  refine .ite (fun _ => .refl s) fun _ => .ite (fun _ => .step lists_ringStage lists_modStream) fun _ => ?_
  exact .step lists_addN (.step lists_modStream lists_modStream)

theorem lists_writeAnchors {l : List Anchor} : Lists s (writeAnchors b l s) := by
  induction l generalizing s with
  | nil => exact lists_modStream
  | cons a l ih =>
    have h : Lists s (if a.lost = 0 then s else stageBytes (eventStream b) (gapBytes (sampleStream b) a.lost s) s) :=
      .ite (fun _ => .refl s) fun _ => lists_stageBytes
    simp only [writeAnchors]
    exact .ite (fun _ => lists_modStream) fun _ => .ite (fun _ => .step lists_modStream h) fun _ => .step ih (.step lists_stageBytes h)

theorem lists_writeAnchor : Lists s (writeAnchor b s) := .ite (fun _ => .refl s) fun _ => lists_writeAnchors

theorem lists_gapEntry : Lists s (gapEntry st s) := by
  have h : Lists s (if gapTarget st < 24 then writeAnchor (gapTarget st) s else s) :=
    .ite (fun _ => lists_writeAnchor) fun _ => .refl s
  exact .ite (fun _ => .refl s) fun _ => .ite (fun _ => h) fun _ => .step lists_modStream (.step lists_stageBytes h)

theorem lists_berthEntry {kind : Nat} {l : List Byte} : Lists s (berthEntry b kind tm l s) :=
  .step lists_stageBytes (.step lists_gapEntry lists_writeAnchor)

theorem lists_harbourEntry {kind : Nat} {l : List Byte} : Lists s (harbourEntry kind tm l s) := .step lists_stageBytes lists_gapEntry

/-! The stop of a berth, alone or in its handover window (R31-R35, R109). -/

theorem lists_updateLen : Lists s (updateLen b tm s) := .of_eq updateLen_obj

theorem lists_quiet : Lists s (quiet b tm s) := by
  have hw : Lists s (closeWindow b s) := by
    unfold closeWindow
    exact .ite (fun _ => lists_modBerth) fun _ => .step lists_harbourEntry (.step lists_addN lists_modBerth)
  have hr : ∀ k u, Lists u (endRun b k tm u) := fun k u => by
    unfold endRun
    exact .ite (fun _ => .refl u) fun _ => .step lists_modBerth lists_berthEntry
  have hg : ∀ u, Lists u (setGate b false tm u) := fun u => .ite (fun _ => .refl u) fun _ => .of_eq rfl
  unfold quiet
  exact .step lists_modBerth <| .step lists_setV <| .step lists_setV <| .step (hg _) <| .step (hr ..) <| .ite (fun _ => hw) fun _ => .refl s

theorem lists_enterState : Lists s (enterState b n tm s) := .step (t := setN (bi b 0) 1 n s) (.of_eq enterState_obj) lists_setV

theorem lists_noteStop : Lists s (noteStop b cause k tm s) := .step lists_berthEntry lists_noticeLogAt

theorem lists_stopped : Lists s (stopped b n cause strength tm s) := by
  have ht : ∀ (p : Prop) [Decidable p] (q : List Nat) (u : State), Lists u (if p then { u with hm := { u.hm with trigger := q } } else u) :=
    fun _ _ _ u => .ite (fun _ => .of_eq rfl) fun _ => .refl u
  unfold stopped
  exact .step lists_noteStop <| .step lists_enterState <| .step (ht ..) <| .step lists_modBerth (.step lists_setV lists_quiet)

theorem lists_setResume {ri power kind re : Nat} {arc reArc : Int} : Lists s (setResume b ri arc power tm kind re reArc s) := by
  unfold setResume
  exact .step lists_setV <| .step lists_setV <| .step lists_setV <| .step lists_setV <| .step lists_setV <| .step lists_setV lists_setV

theorem lists_decelerate : Lists s (decelerate b tm s) := by
  unfold decelerate
  split
  · exact lists_modBerth
  · exact lists_modBerth

theorem lists_pauseExposing : Lists s (pauseExposing b cause strength tm s) := by
  have h : ∀ {n u ri arc power t' kind re reArc}, Lists s (stopped b n cause strength u
      (decelerate b tm (setResume b ri arc power t' kind re reArc s))) :=
    .step lists_stopped (.step lists_decelerate lists_setResume)
  unfold pauseExposing
  split
  · exact h
  · dsimp only
    split
    · exact h
    · exact .ite (fun _ => .step lists_stopped lists_decelerate) fun _ => h

theorem lists_pauseToSafe : Lists s (pauseToSafe b cause tm s) := by
  unfold pauseToSafe
  refine .ite (fun _ => lists_pauseExposing) fun _ => .ite (fun _ => .refl s) fun _ => ?_
  split
  · exact lists_modBerth
  · exact .step lists_pauseExposing (.of_eq rfl)

theorem lists_stopOne : Lists s (stopOne b strength cause tm s) := by
  unfold stopOne
  split
  · exact .ite (fun _ => .step lists_stopped lists_setResume) fun _ => .refl s
  · exact .step lists_stopped lists_setResume
  · exact .ite (fun _ => lists_pauseToSafe) fun _ => .ite (fun _ => lists_pauseExposing) fun _ =>
      .step lists_pauseExposing (.of_eq rfl)
  · exact .refl s
  · exact .ite (fun _ => lists_stopped) fun _ => .ite (fun _ => .step lists_modBerth lists_setV) fun _ => .refl s

theorem lists_stopHalf : Lists s (stopHalf b place cause tm s) := by
  unfold stopHalf
  split
  · exact .refl s
  · exact .ite (fun _ => .step lists_stopped (.step lists_decelerate lists_setResume)) fun _ => lists_modBerth
  · exact lists_stopOne

theorem lists_stopPair : Lists s (stopPair b strength cause other tm s) := by
  have h : Lists s (if strength = 3 then stopOne b 3 cause tm s else stopHalf b (pairPlace b tm s) cause tm s) :=
    .ite (fun _ => lists_stopOne) fun _ => lists_stopHalf
  have ht : ∀ p u, Lists u (sameTime b p u) := fun p u => .ite (fun _ => .step lists_setV lists_setV) fun _ => .refl u
  unfold stopPair
  dsimp only
  split
  · exact h
  · exact .step (ht ..) (.step lists_stopHalf h)

theorem lists_handoverRefused {giver taker : Nat} : Lists s (handoverRefused code giver taker tm s) :=
  .step lists_harbourEntry (.step lists_noticeAt (.step lists_addN lists_setV))

theorem lists_stopBerth : Lists s (stopBerth b strength cause tm s) :=
  .ite (fun _ => .step lists_stopPair lists_handoverRefused) fun _ => lists_stopOne

/-! A covered fault (R338), and the end of a calibration (R379). -/

theorem lists_coveredFault : Lists s (coveredFault cause mask tm s) := by
  have hs : Lists s (setTime 0x0406 2 tm (setN 0x0406 1 cause (setN 0x7080 1 1 s))) := .step lists_setV (.step lists_setV lists_setV)
  unfold coveredFault
  refine .step lists_logAdd (.step ?_ hs)
  exact .ite (fun _ => .of_eq rfl) fun _ => .refl _

theorem lists_faultStop : Lists s (faultStop mask strength cause tm s) := by
  unfold faultStop eachBerth
  exact .step lists_coveredFault (.each fun _ _ => lists_stopBerth)

theorem lists_calStop : Lists s (calStop b s) := by
  have he : Lists s (calEnd s) := .each fun _ _ => .step lists_updateLen lists_modBerth
  unfold calStop
  refine .ite (fun _ => ?_) fun _ => .refl s
  exact .step lists_noticeAt <| .step (t := setN 0x0603 4 5 (setN 0x0603 3 6 (calEnd s))) (.of_eq rfl) <|
    .step lists_setV (.step lists_setV he)

end Sys2Proof.Machine
end

section
/-!
PROOFS: links start, stop and fail (R223, R228, R229, R243, R248).
-/
namespace Sys2Proof.Machine

variable {s t : State} {h i k l reason : Nat} {v : Val}

/-! The loss of a link that is disabled: its enable object is listed, so it is found as 0 after the loss, of a table in any order. -/

theorem Stands.find {α : Type} {f : Harbour → α} (h : Stands f s t) (hl : Lists s t) (hn : ¬ stopKey (key i k))
    (hv : s.obj.find (key i k) = some v) : t.obj.find (key i k) = some v := by
  obtain ⟨w, hw⟩ := Option.isSome_iff_exists.1 (hl.found (key i k) (by rw [hv]; rfl))
  have he := h.obj i k hn
  rw [getV, getV, hv, hw] at he
  rw [hw, show w = v from he]

theorem getN_of_find {n : Nat} (hv : s.obj.find (key i k) = some (.int n)) : getN i k s = n := by
  rw [getN_eq, getV, hv]
  rfl

/-- What is listed of a link and is no V object stays. -/
theorem find_resetLink {κ : Kind} (hκ : kindOf (key (lki l) k) = some κ) (hne : κ ≠ .v) (hv : s.obj.find (key (lki l) k) = some v) :
    (resetLink l s).obj.find (key (lki l) k) = some v := by
  refine Tab.find_filter hv ?_
  simp only [hκ, beq_eq_false_iff_ne.2 hne, Bool.and_false, Bool.not_false]

/-- How link l stands once it has been lost or left bring-up while disabled. -/
structure StaysDown (l reason : Nat) (t : State) : Prop where
  state : linkState l t = 0
  enable : getN (lki l) 1 t = 0
  reason : getN (lki l) 3 t = reason

theorem staysDown_dropLink (hl : l < 26) (h0 : s.obj.find (key (lki l) 1) = some (.int 0)) : StaysDown l reason (dropLink l reason s) := by
  have hq : ∀ u, Quiet u (linkNote l reason u) := fun _ => quiet_noticeLog ..
  have hd : ∀ f, StaysDown l reason (linkNote l reason (setLinkState l 0 (resetLink l (setN (lki l) 3 reason (modLink l f s))))) := fun f => by
    refine ⟨?_, ?_, ?_⟩
    · exact ((hq _).getN not_noticeKey_lki).trans linkState_setLinkState
    · rw [(hq _).getN not_noticeKey_lki, getN_setLinkState (by decide) (by decide)]
      exact getN_of_find (n := 0) (find_resetLink (kindOf_enable hl) (by decide) ((Tab.find_put_ne _ _ (by simp)).trans h0))
    · rw [(hq _).getN not_noticeKey_lki, getN_setLinkState (by decide) (by decide)]
      exact getN_of_find (find_resetLink (kindOf_reason hl) (by decide) (Tab.find_put_self ..))
  unfold dropLink
  dsimp only
  obtain ⟨hs, he, hr⟩ := hd fun x => { x with noted := false, failed := 0, downAt := s.now }
  rw [if_neg (by rw [he]; decide)]
  exact ⟨hs, he, hr⟩

theorem staysDown_headLost (hh : h < 24) (h0 : s.obj.find (key (lki h) 1) = some (.int 0)) (h7 : linkState h s = 7) :
    StaysDown h reason (headLost h reason s) := by
  have hst : ∀ m, Stands Harbour.untriggered s (faultStop m 2 0x000A s.now (calStop h s)) := fun _ => .step stands_faultStop stands_calStop
  have hli : ∀ m, Lists s (faultStop m 2 0x000A s.now (calStop h s)) := fun _ => .step lists_faultStop lists_calStop
  unfold headLost
  rw [if_neg (not_not.2 h7)]
  exact staysDown_dropLink (by omega) ((hst _).find (hli _) (not_stopKey_link (by omega) (by decide)) h0)

theorem staysDown_quayLost (hk : k < 2) (h0 : s.obj.find (key (lki (24 + k)) 1) = some (.int 0)) (h7 : linkState (24 + k) s = 7) :
    StaysDown (24 + k) reason (quayLost k reason s) := by
  have hl : 24 + k < 26 := by omega
  unfold quayLost
  rw [if_neg (not_not.2 h7)]
  extract_lets gone s₁ still _ s₂ s₃
  have hst : Stands Harbour.untriggered s s₁ := .step stands_faultStop stands_drawn
  have hli : Lists s s₁ := .step lists_faultStop (.of_eq rfl)
  have hsn : Stands (fun _ => ()) s₂ s₃ := by
    simp only [s₃]
    split
    · exact .refl s₂
    · exact .of_quiet (quiet_notice ..) ordered_noticeAt
  have hln : Lists s₂ s₃ := by
    simp only [s₃]
    split
    · exact .refl s₂
    · exact lists_noticeAt
  have hn := not_stopKey_link hl (j := 1) (by decide)
  exact staysDown_dropLink hl (hsn.find hln hn (hst.find hli hn h0))

theorem staysDown_linkLost (hl : l < 26) (h0 : s.obj.find (key (lki l) 1) = some (.int 0)) (h7 : linkState l s = 7) :
    StaysDown l reason (linkLost l reason s) := by
  unfold linkLost
  split
  next hh => exact staysDown_headLost hh h0 h7
  next hh =>
    obtain ⟨k, rfl⟩ := Nat.exists_eq_add_of_le (Nat.not_lt.1 hh)
    rw [Nat.add_sub_cancel_left]
    exact staysDown_quayLost (by omega) h0 h7

/-! The enable object is written (R223, R228, R243). -/

theorem staysDown_linkDisable (hl : l < 26) (h0 : linkState l s ≠ 0) (h8 : linkState l s ≠ 8) : StaysDown l 9 (linkDisable l s) := by
  have hst : linkState l (setN (lki l) 1 0 s) = linkState l s := getN_setN_sub (by decide)
  unfold linkDisable
  dsimp only
  rw [hst]
  split
  next h7 => exact staysDown_linkLost hl (Tab.find_put_self ..) (hst.trans h7)
  · rw [if_neg (by simp [h0, h8])]
    refine ⟨?_, ?_, ?_⟩
    · exact linkState_modLink.trans ((getN_setN_sub (by decide)).trans linkState_setLinkState)
    · rw [getN_modLink, getN_setN_sub (by decide), getN_setLinkState (by decide) (by decide), getN_setN_self]
    · rw [getN_modLink, getN_setN_self]

theorem linkEnable_begins (h : linkState l s = 8 ∨ (getN (lki l) 1 s = 0 ∧ linkState l s = 0)) :
    linkEnable l s = enterDetect l (modLink l (fun x => { x with failed := 0 }) (setN (lki l) 1 1 s)) := by
  have hst : linkState l (setN (lki l) 1 1 s) = linkState l s := getN_setN_sub (by decide)
  unfold linkEnable
  dsimp only
  rw [hst, if_pos h]

/-- Settles O20: an attempt that begins keeps its link's enable object and count, one that fails shows its reason, and a loss finds the enable
object that the command has just written. -/
theorem linksStartStopAndFail : Obligations.LinksStartStopAndFail := by
  unfold Obligations.LinksStartStopAndFail
  refine ⟨fun l s hr h => ?_, fun l s hr h0 h8 => ?_, fun l s hr h1 h6 => ?_, fun l s hr h0 h1 => ?_⟩
  · have ha := attemptBegun_enterDetect (l := l) (s := modLink l (fun x => { x with failed := 0 }) (setN (lki l) 1 1 (fresh s)))
    refine ⟨_, (gated_run hr.1 hr.2 : execLinkEnable l s = _), ?_⟩
    rw [linkEnable_begins (s := fresh s) h]
    exact ⟨ha.state, ha.enable.trans (getN_setN_self ..), ha.failed.trans (by rw [link_modLink_self]), ha.began, ha.dram⟩
  · obtain ⟨hst, he, hre⟩ := staysDown_linkDisable (s := fresh s) (of_decide_eq_true hr.1) h0 h8
    exact ⟨_, (gated_run hr.1 hr.2 : execLinkDisable l s = _), hst, he, hre⟩
  · obtain ⟨hst, hre, hf⟩ := attemptFailed_attemptFails (l := l) (reason := 5) (s := fresh s)
    refine ⟨_, (gated_run hr.1 hr.2 : execTrainingTimeout l s = _), ?_⟩
    rw [if_pos (show 1 ≤ linkState l (fresh s) ∧ linkState l (fresh s) ≤ 6 from ⟨h1, h6⟩)]
    exact ⟨hre, hf, hst⟩
  · have ha := attemptBegun_enterDetect (l := l) (s := fresh s)
    refine ⟨_, (gated_run hr.1 hr.2 : execRetryInterval l s = _), ?_⟩
    rw [if_pos (show linkState l (fresh s) = 0 ∧ getN (lki l) 1 (fresh s) = 1 from ⟨h0, h1⟩)]
    exact ⟨ha.state, ha.began, ha.failed⟩

end Sys2Proof.Machine
end

section
/-!
PROOFS: the stages of bring-up, from Detect to Up (R223-R227, R238, R250).
-/
namespace Sys2Proof.Machine

variable {s t : State} {h i k l n : Nat} {m order skews : List Nat}

/-! Align and Lanes (R223-R225). -/

theorem commaAligned_head {inv : Nat} (hl : l < 24) (h2 : linkState l s = 2) :
    commaAligned l inv s = setLinkState l 4 (setN (lki l) 0x11 (inv % 2) s) := by
  rw [commaAligned, if_neg (not_not.2 h2), if_pos hl]

theorem commaAligned_quay {inv : Nat} (hl : 24 ≤ l) (h2 : linkState l s = 2) :
    commaAligned l inv s = setLinkState l 3 (setN (lki l) 0x05 (inv % 16) s) := by
  rw [commaAligned, if_neg (not_not.2 h2), if_neg (Nat.not_lt.2 hl)]

/-- A fold that keeps one of two numbers at each step ends at its start or at a member of the list. -/
theorem foldl_eq_or_mem {f : Nat → Nat → Nat} (hf : ∀ a b, f a b = a ∨ f a b = b) {a : Nat} : m.foldl f a = a ∨ m.foldl f a ∈ m := by
  induction m generalizing a with
  | nil => exact .inl rfl
  | cons x m ih =>
    rw [List.foldl_cons]
    rcases ih (a := f a x) with he | hm
    · rw [he]
      exact (hf a x).imp_right fun e => by rw [e]; exact List.mem_cons_self
    · exact .inr (.tail _ hm)

/-- Skews that lie pairwise within 24 characters have no wider spread (R225). -/
theorem skewSpread_le (hs : ∀ x ∈ skews, ∀ y ∈ skews, x ≤ y + 24) : maxN skews - skews.foldl min (maxN skews) ≤ 24 := by
  rcases foldl_eq_or_mem (m := skews) (a := maxN skews) min_choice with hmin | hmin
  · omega
  · rcases foldl_eq_or_mem (m := skews) (a := 0) max_choice with hmax | hmax
    · rw [maxN, hmax]
      omega
    · have hle := hs _ hmax _ hmin
      unfold maxN at *
      omega

theorem lanesDeskewed_good (h3 : linkState (24 + k) s = 3) (ho : order = [0, 1, 2, 3] ∨ order = [3, 2, 1, 0])
    (hs : ∀ x ∈ skews, ∀ y ∈ skews, x ≤ y + 24) : lanesDeskewed k order skews s =
      setLinkState (24 + k) 4 (setN (lki (24 + k)) 6 (packLanes skews) (setN (lki (24 + k)) 4 (b2n (order == [3, 2, 1, 0])) s)) := by
  unfold lanesDeskewed
  dsimp only
  rw [if_neg (not_not.2 h3), if_neg (by tauto), if_neg (Nat.not_lt.2 (skewSpread_le hs))]

/-! Equalise (R223). -/

theorem getN_showMargins (hk : k ≠ 0x0B) (hk' : k ≠ 7) : getN (lki l) k (showMargins l m s) = getN (lki l) k s := by
  unfold showMargins
  split
  · exact getN_setN_sub hk
  · exact getN_setN_sub hk'

theorem equaliseComplete_enough (h4 : linkState l s = 4) (hm : ∀ x ∈ laneMargins l m, getN (lki l) (lsub l 0x0C 0x08) s + 10 ≤ x) :
    ∃ u, equaliseComplete l m s = drawn (setLinkState l 5 u) := by
  unfold equaliseComplete
  dsimp only
  rw [if_neg (not_not.2 h4), getN_showMargins (ne_lsub (by decide) (by decide)).symm (ne_lsub (by decide) (by decide)).symm,
    if_pos (by simpa using hm)]
  exact ⟨_, rfl⟩

/-! Identify (R226). -/

/-- The state in which head link h has shown the CAPS frame f and waits for its burst of echoes. -/
def identified (h : Nat) (f : CapsFrame) (s : State) : State :=
  modLink h (fun x => { x with capsOk := true, capSides := f.largest, capCamera := f.camera, commandFrom := some (s.frame + 1), burst := { left := 16 } })
    (setB (hi h) 0x12 (capsBytes f) s)

theorem caps_good {f : CapsFrame} (h5 : linkState h s = 5) (h1 : f.major = 1) (ho : f.replyOffset ≤ 400) :
    caps h f s = setLinkState h 6 (identified h f s) := by
  unfold caps
  rw [if_neg (not_not.2 h5)]
  exact if_pos ⟨h1, ho⟩

/-! Measure ends in Up (R223, R238, R250). -/

theorem findStanding_eq {sp : Option (List Int)} : ∃ x, findStanding h sp s = { s with berths := x } := by
  unfold findStanding
  dsimp only
  split
  · exact ⟨s.berths, rfl⟩
  · split
    · exact ⟨_, rfl⟩
    · exact ⟨s.berths, rfl⟩

/-- The spot stands where the head holds it: a matter of the berth's record and of whether the link still waits for a FEEDBACK. -/
theorem standAtHead_spec : (standAtHead h s).obj = s.obj ∧ (link h (standAtHead h s)).failed = (link h s).failed := by
  have hl : ∀ v, (link h (modLink h (fun y => { y with standWait := v }) s)).failed = (link h s).failed := fun _ => by
    rw [link_modLink_self]
  unfold standAtHead
  split
  · exact ⟨rfl, hl _⟩
  · dsimp only
    obtain ⟨x, hx⟩ := findStanding_eq
    rw [hx]
    exact ⟨rfl, hl _⟩

/-- How link l stands once it is Up. -/
structure ReachedUp (l : Nat) (s t : State) : Prop where
  state : linkState l t = 7
  failed : (link l t).failed = 0
  other : ∀ k, k < 256 → k ≠ 2 → getN (lki l) k t = getN (lki l) k s

theorem reachedUp_linkUpNow : ReachedUp l s (linkUpNow l s) := by
  have hup : ∀ u, u.obj = (setLinkState l 7 s).obj → (link l u).failed = 0 → ReachedUp l s u := fun u ho hfail =>
    { state := by rw [linkState, getN_eq, getV_congr ho]; exact linkState_setLinkState
      failed := hfail
      other := fun k hk h2 => by rw [getN_eq, getV_congr ho]; exact getN_setLinkState hk h2 }
  unfold linkUpNow
  dsimp only
  split
  · obtain ⟨ho, hfail⟩ := standAtHead_spec (h := l) (s := _)
    exact hup _ ho (hfail.trans (by rw [link_modBerth, link_modLink_self]))
  · exact hup _ rfl (by rw [link_modLink_self, link_modLink_self])

theorem measurementComplete_head (hh : h < 24) (h6 : linkState h s = 6) (he : burstEnded (link h s).burst = true)
    (hg : (link h s).burst.got ≠ []) (hs : spread ((link h s).burst.got.map (fun g => (g.1 : Int) - g.2)) ≤ 64) :
    measurementComplete h s = linkUpNow h (useMeans h (burstMeans h (link h s).burst.got s) s) := by
  unfold measurementComplete
  dsimp only
  rw [if_neg (not_not.2 h6), if_pos hh, he, if_neg (by decide), if_neg (by simp [hg, hs])]

theorem measurementComplete_quay (hl : 24 ≤ l) (h6 : linkState l s = 6) (hn : (link l s).thetas.length = 16)
    (hs : spread (link l s).thetas ≤ 32768) : measurementComplete l s = linkUpNow l s := by
  unfold measurementComplete
  dsimp only
  rw [if_neg (not_not.2 h6), if_neg (Nat.not_lt.2 hl), if_neg (by omega), if_neg (Nat.not_lt.2 hs)]

/-- Settles O21: each stage writes its findings beside the link's state, and what makes a link Up leaves its objects alone. -/
theorem linkTraining : Obligations.LinkTraining := by
  unfold Obligations.LinkTraining
  refine ⟨fun l s hr h1 => ?_, fun l inv s hr h2 => ?_, fun k order skews s hr h3 ho hs => ?_, fun l m s hr h4 hm => ?_,
    fun h w f s hr h5 hg hf h1 ho => ?_, fun h s hr hh h6 he hg hs => ?_, fun l s hr hl h6 hn hs => ?_⟩
  · refine ⟨_, (gated_run hr.1 hr.2 : execSignalDetected l s = _), ?_⟩
    rw [if_pos (show linkState l (fresh s) = 1 from h1)]
    exact linkState_setLinkState
  · refine ⟨_, (gated_run hr.1 hr.2 : execCommaAligned l inv s = _), fun hl => ?_, fun hl => ?_⟩
    · rw [commaAligned_head (s := fresh s) hl h2]
      exact ⟨linkState_setLinkState, (getN_setLinkState (by decide) (by decide)).trans (getN_setN_self ..)⟩
    · have hi : inv < 16 := of_decide_eq_true (Bool.and_eq_true_iff.1 hr.1).2
      rw [commaAligned_quay (s := fresh s) hl h2, Nat.mod_eq_of_lt hi]
      exact ⟨linkState_setLinkState, (getN_setLinkState (by decide) (by decide)).trans (getN_setN_self ..)⟩
  · refine ⟨_, (gated_run hr.1 hr.2 : execLanesDeskewed k order skews s = _), ?_⟩
    rw [lanesDeskewed_good (s := fresh s) h3 ho hs]
    refine ⟨linkState_setLinkState, ?_⟩
    rw [getN_setLinkState (by decide) (by decide), getN_setN_sub (by decide), getN_setN_self]
    simp [b2n]
  · obtain ⟨u, hu⟩ := equaliseComplete_enough (s := fresh s) h4 hm
    exact ⟨_, (gated_run hr.1 hr.2 : execEqualiseComplete l m s = _), by rw [hu]; exact linkState_setLinkState⟩
  · have hh : h < 24 := of_decide_eq_true hr.1
    have hears : hears h (fresh s) = true := by
      have hn : getN (lki h) 2 (fresh s) = 5 := h5
      simp [hears, hn]
    refine ⟨_, (gated_run hr.1 hr.2 : execCaps h w s = _), ?_⟩
    rw [hearFrame_good hh hears hg, ← hf, caps_good (s := fresh s) h5 h1 ho]
    refine ⟨linkState_setLinkState, ?_, ?_, ?_⟩
    · rw [getB_eq, ← lki_head hh, getV_setLinkState (by simp) lki_ne_shown (by decide), lki_head hh]
      exact getB_setB_self ..
    · rw [link_setLinkState, identified, link_modLink_self]
      rfl
    · rw [link_setLinkState, identified, link_modLink_self]
  · obtain ⟨hst, hfa, hot⟩ := reachedUp_linkUpNow (l := h) (s := useMeans h (burstMeans h (link h s).burst.got s) (fresh s))
    refine ⟨_, (gated_run hr.1 hr.2 : execMeasurementComplete h s = _), ?_⟩
    rw [measurementComplete_head (s := fresh s) hh h6 he hg hs, ← lki_head hh]
    refine ⟨hst, hfa, (hot 4 (by decide) (by decide)).trans ?_⟩
    rw [lki_head hh]
    exact getN_setN_self ..
  · obtain ⟨hst, hfa, -⟩ := reachedUp_linkUpNow (l := l) (s := fresh s)
    refine ⟨_, (gated_run hr.1 hr.2 : execMeasurementComplete l s = _), ?_⟩
    rw [measurementComplete_quay (s := fresh s) hl h6 hn hs]
    exact ⟨hst, hfa⟩

end Sys2Proof.Machine
end

section
/-!
PROOFS: a link adapts its lanes and retrains (R230, R231).
-/
namespace Sys2Proof.Machine

variable {s t u : State} {i k l : Nat} {m : List Nat}

/-! A retrain becomes pending (R230). -/

/-- What of link l a pending retrain leaves alone beside showing itself. -/
structure RetrainPends (l : Nat) (s t : State) : Prop where
  pending : (link l t).retrainPending = true
  lanes : (link l t).lanes = (link l s).lanes
  other : ∀ k, k ≠ lsub l 0x0E 0x0A → getN (lki l) k t = getN (lki l) k s

theorem retrain_new (hp : (link l s).retrainPending = false) :
    RetrainPends l s (retrain l s) ∧ getN (lki l) (lsub l 0x0E 0x0A) (retrain l s) = 2 := by
  obtain ⟨u, hu, hq⟩ : ∃ u, u = showAdaptation l (modLink l (fun x => { x with retrainPending := true }) s) ∧ Quiet u (retrain l s) := by
    refine ⟨_, rfl, ?_⟩
    rw [retrain, hp]
    exact quiet_noticeObj ..
  have hlink : link l u = { link l s with retrainPending := true } := by
    rw [hu, showAdaptation, setN_eq, link_setV, link_modLink_self]
  have hlt : link l (retrain l s) = link l u := by rw [link, link, hq.links]
  refine ⟨⟨by rw [hlt, hlink], by rw [hlt, hlink], fun k hk => ?_⟩, ?_⟩
  · rw [hq.getN not_noticeKey_lki, hu]
    exact getN_setN_sub hk
  · rw [hq.getN not_noticeKey_lki, hu, showAdaptation, getN_setN_self, link_modLink_self]
    rfl

theorem retrainPends_retrain : RetrainPends l s (retrain l s) := by
  cases hp : (link l s).retrainPending
  · exact (retrain_new hp).1
  · rw [retrain, hp]
    exact ⟨hp, rfl, fun _ _ => rfl⟩

/-! The margins of a link are measured (R230). -/

theorem laneMargins_getD (hi : i < laneCount l) : (laneMargins l m).getD i 0 = m.getD i 0 % 256 := by
  simp [laneMargins, hi]

theorem laneMargins_head (hl : l < 24) : (laneMargins l m).getD 0 0 = m.getD 0 0 % 256 :=
  laneMargins_getD (by simp [laneCount, hl])

theorem low_adaptLane {step th v : Nat} {tm : Time} {x : Lane} : (adaptLane step th v tm x).low = if v < th then min 10 (x.low + 1) else 0 := by
  unfold adaptLane
  exact (apply_ite Lane.low ..).trans (ite_self _)

/-- The lanes of link l once their margins m have been judged. -/
def adaptedLanes (l : Nat) (m : List Nat) (s : State) : List Lane :=
  (List.range (laneCount l)).map fun i => adaptLane (getN (lki l) (lsub l 0x0D 0x09) s) (getN (lki l) (lsub l 0x0C 0x08) s) (m.getD i 0) s.now
    ((link l s).lanes.getD i {})

theorem low_adaptedLanes (hi : i < laneCount l) : ∃ x, (adaptedLanes l m s)[i]? = some x ∧
    x.low = if m.getD i 0 < getN (lki l) (lsub l 0x0C 0x08) s then min 10 (((link l s).lanes.getD i {}).low + 1) else 0 :=
  ⟨_, by rw [adaptedLanes, List.getElem?_map, List.getElem?_range hi]; rfl, low_adaptLane⟩

/-- How a measurement of margins leaves link l: its lanes judged, but for which of them a notice has named (g). -/
structure LanesJudged (l : Nat) (lanes : List Lane) (v : Nat) (t : State) : Prop where
  lanes : ∃ g : Lane → Lane, (∀ y, (g y).low = y.low) ∧ (link l t).lanes = lanes.map g
  margin : l < 24 → getN (lki l) 0x0B t = v

theorem LanesJudged.of_quiet {lanes : List Lane} {v : Nat} (h : LanesJudged l lanes v t) (hq : Quiet t u) : LanesJudged l lanes v u where
  lanes := by
    rw [link, hq.links]
    exact h.lanes
  margin hl := (hq.getN not_noticeKey_lki).trans (h.margin hl)

theorem LanesJudged.retrain {lanes : List Lane} {v : Nat} (h : LanesJudged l lanes v t) : LanesJudged l lanes v (retrain l t) where
  lanes := by
    rw [retrainPends_retrain.lanes]
    exact h.lanes
  margin hl := (retrainPends_retrain.other _ (ne_lsub (by decide) (by decide))).trans (h.margin hl)

/-- An Up link judges its lanes, and calls for a retrain where one of them has had ten low margins in succession. -/
theorem eyeMargin_up {lanes : List Lane} (h7 : linkState l s = 7)
    (hl : lanes = adaptedLanes l (laneMargins l m) (showMargins l (laneMargins l m) s)) :
    ∃ u, LanesJudged l lanes (m.getD 0 0 % 256) u ∧ eyeMargin l m s = if lanes.any (fun x => x.low == 10) then retrain l u else u := by
  subst hl
  unfold eyeMargin
  rw [if_neg (not_not.2 h7)]
  extract_lets m' s₁ lanes s₂ s₃ s₄
  refine ⟨s₄, ?_, rfl⟩
  have h₃ : LanesJudged l lanes (m.getD 0 0 % 256) s₃ := by
    refine ⟨⟨fun y => if frozenLong s₁.now y then { y with noted := true } else y, fun y => ?_, ?_⟩, fun hl => ?_⟩
    · dsimp only
      split <;> rfl
    · simp only [s₃, s₂]
      rw [showAdaptation, setN_eq, link_setV, link_modLink_self]
    · refine (getN_setN_sub (ne_lsub (by decide) (by decide))).trans ?_
      simp only [s₂, s₁, m']
      rw [getN_modLink, showMargins, if_pos hl, getN_setN_self, laneMargins_head hl, Nat.mod_mod]
  refine h₃.of_quiet ?_
  simp only [s₄]
  split
  · exact quiet_notice ..
  · exact .refl s₃

theorem LanesJudged.retrained {lanes : List Lane} {v : Nat} (h : LanesJudged l lanes v u)
    (ht : t = if lanes.any (fun x => x.low == 10) then Machine.retrain l u else u) :
    LanesJudged l lanes v t ∧ (lanes.any (fun x => x.low == 10) = true → (link l t).retrainPending = true) := by
  subst ht
  split
  · exact ⟨h.retrain, fun _ => retrainPends_retrain.pending⟩
  next hn => exact ⟨h, fun hy => absurd hy hn⟩

theorem link_showMargins : link l (showMargins l m s) = link l s := by
  unfold showMargins
  split <;> rfl

/-- A pending retrain takes the link through bring-up, for reason 8 (R231). -/
theorem retrainStart_allowed (h7 : linkState l s = 7) (hp : (link l s).retrainPending = true) (ha : retrainAllowed l s = true) :
    ∃ u, retrainStart l s = enterDetect l (setN (lki l) 3 8 u) :=
  ⟨_, if_pos ⟨h7, hp, ha⟩⟩

/-- Settles O22: an Up link judges each lane by its own margin; bring-up begins after the reason has been shown, and keeps it. -/
theorem linksAdaptAndRetrain : Obligations.LinksAdaptAndRetrain := by
  unfold Obligations.LinksAdaptAndRetrain
  refine ⟨fun l i m s hr h7 hi => ?_, fun l s hr hp => ?_, fun l s hr h7 hp ha => ?_⟩
  · obtain ⟨u, hu, he⟩ := eyeMargin_up (m := m) (s := fresh s) h7 rfl
    obtain ⟨⟨⟨g, hg, hlanes⟩, hmargin⟩, hpend⟩ := hu.retrained he
    obtain ⟨x, hx, hlow⟩ := low_adaptedLanes (m := laneMargins l m) (s := showMargins l (laneMargins l m) (fresh s)) hi
    have hth : getN (lki l) (lsub l 0x0C 0x08) (showMargins l (laneMargins l m) (fresh s)) = getN (lki l) (lsub l 0x0C 0x08) s :=
      getN_showMargins (ne_lsub (by decide) (by decide)).symm (ne_lsub (by decide) (by decide)).symm
    rw [laneMargins_getD hi, hth, link_showMargins] at hlow
    have hlane : ((link l (eyeMargin l m (fresh s))).lanes.getD i {}).low = x.low := by simp [hlanes, hx, hg]
    refine ⟨_, (gated_run hr.1 hr.2 : execEyeMargin l m s = _), hmargin, fun hm => ?_, fun hm => ?_⟩
    · rw [if_pos hm] at hlow
      refine ⟨hlane.trans hlow, fun h9 => hpend (List.any_eq_true.2 ⟨x, List.mem_of_getElem? hx, ?_⟩)⟩
      rw [hlow, beq_iff_eq]
      exact Nat.min_eq_left (Nat.succ_le_succ h9)
    · rw [if_neg (Nat.not_lt.2 hm)] at hlow
      exact hlane.trans hlow
  · obtain ⟨hpends, hshown⟩ := retrain_new (s := fresh s) hp
    exact ⟨_, (gated_run hr.1 hr.2 : execRetrain l s = _), hpends.pending, hshown⟩
  · obtain ⟨u, hu⟩ := retrainStart_allowed (s := fresh s) h7 hp ha
    have hb := attemptBegun_enterDetect (l := l) (s := setN (lki l) 3 8 u)
    refine ⟨_, (gated_run hr.1 hr.2 : execRetrainStart l s = _), ?_⟩
    rw [hu]
    exact ⟨hb.state, hb.reason.trans (getN_setN_self ..), hb.pending⟩

end Sys2Proof.Machine
end

section
/-!
PROOFS, the layer of facts: the frames that a link sends (R232, R244), and the requests that wait through a notice (R289).
-/
namespace Sys2Proof.Machine

variable {s t : State} {j l n ty seq cls num code : Nat} {p d : List Byte} {tm : Time} {o : Out}

/-! A frame leaves on a link. -/

/-- From s to t link l has sent o, and nothing else changed but the characters it has sent. -/
structure Launched (l : Nat) (o : Out) (s t : State) : Prop where
  obj : t.obj = s.obj
  result : t.result = s.result
  hm : t.hm = s.hm
  out : t.out = s.out ++ [o]
  link : ∃ m, Machine.link l t = { Machine.link l s with chars := m }
  others : ∀ j, j ≠ l → Machine.link j t = Machine.link j s

theorem launched_emit {m : Nat} : Launched l o s (emit o (modLink l (fun x => { x with chars := x.chars + m }) s)) :=
  ⟨rfl, rfl, rfl, rfl, ⟨(link l s).chars + m, by rw [link_emit, link_modLink_self]⟩, fun j h => by rw [link_emit, link_modLink_ne _ _ _ h]⟩

theorem launched_head (hl : l < 24) : Launched l (.frame l (frameBytes ty seq p)) s (launchFrame l ty seq p s) := by
  unfold launchFrame
  dsimp only
  rw [if_pos hl]
  exact launched_emit

theorem launched_quay (hl : 24 ≤ l) : Launched l (.lanes (l - 24) (stripe (frameBytes ty seq p))) s (launchFrame l ty seq p s) := by
  unfold launchFrame
  dsimp only
  rw [if_neg (Nat.not_lt.2 hl)]
  exact launched_emit

/-- What a frame that leaves on link l leaves alone. -/
structure SentOn (l : Nat) (s t : State) : Prop where
  obj : t.obj = s.obj
  hm : t.hm = s.hm
  others : ∀ j, j ≠ l → link j t = link j s

theorem sentOn_sendFrame : SentOn l s (sendFrame l ty p s) := by
  obtain ⟨o, h⟩ : ∃ o, Launched l o (modLink l (fun x => { x with txSeq := ((link l s).txSeq + 1) % 256 }) s) (sendFrame l ty p s) := by
    rcases Nat.lt_or_ge l 24 with hl | hl
    · exact ⟨_, launched_head hl⟩
    · exact ⟨_, launched_quay hl⟩
  exact ⟨h.obj, h.hm, fun j hj => (h.others j hj).trans (link_modLink_ne _ _ _ hj)⟩

/-! The network's part through notices and the logbook (R292, R365-R371). -/

theorem net_logProgram {r : LogRecord} : (logProgram r s).net = s.net := by
  unfold logProgram
  split_ifs <;> rfl

theorem net_logDrain {l : List LogRecord} : (logDrain l s).net = s.net := by
  induction l generalizing s with
  | nil => rfl
  | cons r l ih =>
    unfold logDrain
    split
    · rfl
    · exact ih.trans net_logProgram

theorem net_logCount : (logCount s).net = s.net := by
  unfold logCount
  dsimp only
  exact apply_ite State.net .. |>.trans (ite_self _)

theorem net_logFlush : (logFlush s).net = s.net := by
  have h : ∀ u, (logLostNote u).net = u.net := fun u => by
    unfold logLostNote
    split <;> rfl
  exact net_logCount.trans ((h _).trans net_logDrain)

theorem net_logAdd : (logAdd cls num code d tm s).net = s.net := by
  unfold logAdd
  dsimp only
  split
  · split
    · exact net_logFlush
    · exact net_logCount
  · rfl

theorem deferred_queueNotice {m : Notice} : (sess n (queueNotice m j s)).deferred = (sess n s).deferred := by
  have h : ∀ f : Session → Session, (∀ x, (f x).deferred = x.deferred) → (sess n (modSess j f s)).deferred = (sess n s).deferred := fun f hf => by
    by_cases e : n = j
    · rw [e, sess_modSess_self, hf]
    · rw [sess_modSess_ne _ _ _ e]
  unfold queueNotice
  dsimp only
  split
  · split
    · exact h _ fun _ => rfl
    · exact h (fun q => { q with dropped := q.dropped + 1 }) fun _ => rfl
  · rfl

/-- A notice is queued, and leaves the request that a session waits with. -/
theorem deferred_noticeAt : (sess n (noticeAt cls num code d tm s)).deferred = (sess n s).deferred := by
  have hq : ∀ (m : Notice) (l : List Nat) (u : State), (sess n (each l (queueNotice m) u)).deferred = (sess n u).deferred := by
    intro m l
    induction l with
    | nil => exact fun _ => rfl
    | cons k l ih => exact fun u => (ih _).trans deferred_queueNotice
  have hl : ∀ u, (sess n (logAdd cls num code d tm u)).deferred = (sess n u).deferred := fun u => by rw [sess, sess, net_logAdd]
  unfold noticeAt
  dsimp only
  split
  · exact (hl _).trans (hq ..)
  · exact hq ..

end Sys2Proof.Machine
end

section
/-!
PROOFS: the latency of a head link is measured by echoes (R238), and its head is configured (R240).
-/
namespace Sys2Proof.Machine

variable {s t : State} {h n k tok trip turn res : Nat} {d : List Byte} {a : ConfigAccess}

/-! Echoes (R238). -/

theorem link_noticeObj {j cls num i k : Nat} {v : Int} : link j (noticeObj cls num i k v s) = link j s := by
  rw [link, (quiet_noticeObj ..).links]
  rfl

/-- The end of a burst in Up forgets the burst. -/
theorem burst_burstEnd : (link h (burstEnd h s)).burst = (link h s).burst ∨ (link h (burstEnd h s)).burst = {} := by
  have he : ∀ m, (link h (useMeans h m (modLink h (fun x => { x with burst := {} }) s))).burst = {} := fun m => by
    simp only [useMeans, setN_eq, link_setV, link_modLink_self]
  unfold burstEnd
  dsimp only
  split
  · exact .inl rfl
  · split
    · exact .inr (by rw [link_modLink_self])
    · split
      · right
        rw [link_noticeObj, addN, setN_eq, link_setV]
        exact he _
      · exact .inr (he _)

theorem burstEnd_training (h7 : linkState h s ≠ 7) : burstEnd h s = s := if_pos (.inl h7)

/-- How an ECHO is taken off those that wait for a reply: the burst goes on with the replies it then has, or has ended in Up. -/
structure EchoOver (h tok : Nat) (got : List (Nat × Nat)) (up : Prop) (t : State) : Prop where
  waiting : ∀ e ∈ (link h t).burst.waiting, e.1 ≠ tok
  got : ¬ up → (link h t).burst.got = got

theorem echoOver_burstEnd {x : Burst} (hx : ∀ e ∈ x.waiting, e.1 ≠ tok) :
    EchoOver h tok x.got (linkState h s = 7) (burstEnd h (modLink h (fun l => { l with burst := x }) s)) where
  waiting := by
    rcases burst_burstEnd (h := h) (s := modLink h (fun l => { l with burst := x }) s) with e | e
    · rwa [e, link_modLink_self]
    · simp [e]
  got h7 := by
    rw [burstEnd_training (show linkState h (modLink h (fun l => { l with burst := x }) s) ≠ 7 from h7), link_modLink_self]

theorem echoOver_echoReply (hw : (link h s).burst.waiting.any (fun e => e.1 == tok) = true) :
    EchoOver h tok ((link h s).burst.got ++ [(trip, turn)]) (linkState h s = 7) (echoReply h tok trip turn s) := by
  unfold echoReply
  dsimp only
  rw [hw, if_neg (by decide)]
  exact echoOver_burstEnd (x := { (link h s).burst with waiting := (link h s).burst.waiting.filter (fun e => e.1 != tok), got := _ }) (by simp)

theorem echoOver_echoReplyTimeout (hw : (link h s).burst.waiting.any (fun e => e.1 == tok) = true) :
    EchoOver h tok (link h s).burst.got (linkState h s = 7) (echoReplyTimeout h tok s) := by
  unfold echoReplyTimeout
  dsimp only
  rw [hw, if_neg (by decide)]
  exact echoOver_burstEnd (x := { (link h s).burst with waiting := (link h s).burst.waiting.filter (fun e => e.1 != tok) }) (by simp)

/-- Settles O25: an ECHO that is answered or left out waits no longer, and the end of a burst, which forgets all of it, comes in Up alone. -/
theorem echoesMeasureLatency : Obligations.EchoesMeasureLatency := by
  unfold Obligations.EchoesMeasureLatency
  refine ⟨fun h s hr h7 => ?_, fun h tok trip turn w bad s hr hs hg he hw => ?_, fun h tok s hr hw => ?_⟩
  · refine ⟨_, (gated_run hr.1 hr.2 : execMeasurementInterval h s = _), ?_⟩
    rw [if_pos (show linkState h (fresh s) = 7 from h7), link_modLink_self]
  · have hh : h < 24 := of_decide_eq_true (Bool.and_eq_true_iff.1 hr.1).1
    obtain ⟨hwait, hgot⟩ := echoOver_echoReply (trip := trip) (turn := turn) (s := fresh s) hw
    refine ⟨_, (gated_run hr.1 hr.2 : execEchoReply h w bad trip s = _), ?_⟩
    rw [hearFrame_good (s := fresh s) hh hs hg, he]
    exact ⟨hwait, hgot⟩
  · obtain ⟨hwait, hgot⟩ := echoOver_echoReplyTimeout (s := fresh s) hw
    exact ⟨_, (gated_run hr.1 hr.2 : execEchoReplyTimeout h tok s = _), hwait, hgot⟩

/-! Configuration accesses (R240). -/

/-- How an access of head h has gone out: its frame alone is sent, and the link waits for the reply to it. -/
structure AccessSent (h : Nat) (w : List Byte) (a : ConfigAccess) (s t : State) : Prop where
  obj : t.obj = s.obj
  result : t.result = s.result
  out : t.out = s.out ++ [.frame h w]
  access : (link h t).cfg = some a

theorem accessSent_configFrame (hh : h < 24) (hc : (link h s).cfg = some a) :
    AccessSent h (frameBytes (if a.write then 4 else 5) a.seq (configPayload a.addr a.len a.data)) a s (configFrame h a s) := by
  obtain ⟨ho, hr, -, hout, ⟨m, hl⟩, -⟩ := launched_head (ty := if a.write then 4 else 5) (seq := a.seq) (s := s)
    (p := configPayload a.addr a.len a.data) hh
  exact ⟨ho, hr, hout, by rw [configFrame, hl]; exact hc⟩

/-- The access that session n makes of head h, with the sequence of the link's next frame. -/
def newAccess (h n : Nat) (w : Bool) (d : List Byte) (k : Nat) (s : State) : ConfigAccess :=
  { sess := n, write := w, seq := (link h s).txSeq, sends := 1, addr := getN (hi h) 0x13 s, data := d, len := k }

theorem configSend_idle {w : Bool} (hc : (link h s).cfg = none) (h7 : linkState h s = 7) : configSend h n w d k s =
    configFrame h (newAccess h n w d k s)
      (modLink h (fun x => { x with cfg := some (newAccess h n w d k s), txSeq := ((link h s).txSeq + 1) % 256 }) s) := by
  unfold configSend
  rw [hc, if_neg (by decide), if_neg (not_not.2 h7)]
  rfl

/-- An access of an Up head link that has none pending goes out at once. -/
theorem accessSent_configSend {w : Bool} (hh : h < 24) (hc : (link h s).cfg = none) (h7 : linkState h s = 7) :
    AccessSent h (frameBytes (if w then 4 else 5) (link h s).txSeq (configPayload (getN (hi h) 0x13 s) k d)) (newAccess h n w d k s) s
      (configSend h n w d k s) := by
  rw [configSend_idle hc h7]
  obtain ⟨ho, hr, hout, ha⟩ := accessSent_configFrame (a := newAccess h n w d k s)
    (s := modLink h (fun x => { x with cfg := some (newAccess h n w d k s), txSeq := ((link h s).txSeq + 1) % 256 }) s) hh
    (by rw [link_modLink_self])
  exact ⟨ho, hr, hout, ha⟩

/-- An access that no request waits for is answered to its session (R240). -/
theorem configDone_spec (hd : (sess a.sess s).deferred = none) : (link h (configDone h a res d s)).cfg = none ∧
    (a.sess ≠ 16 → (configDone h a res d s).out = s.out ++ [.value a.sess (if res = 0 then d else [])] ∧ (configDone h a res d s).result = res) := by
  have hc : (link h (modLink h (fun x => { x with cfg := none }) s)).cfg = none := congrArg Link.cfg (link_modLink_self ..)
  unfold configDone
  dsimp only
  rw [sess_modLink, hd]
  dsimp only
  split
  next h16 => exact ⟨hc, fun hn => absurd h16.1 hn⟩
  · exact ⟨hc, fun _ => ⟨rfl, rfl⟩⟩

theorem configTimeout_again (hc : (link h s).cfg = some a) (ha : a.sends < 3) (h7 : linkState h s = 7) :
    configTimeout h s = configFrame h { a with sends := a.sends + 1 } (modLink h (fun x => { x with cfg := some { a with sends := a.sends + 1 } }) s) := by
  unfold configTimeout
  rw [hc]
  dsimp only
  rw [if_pos ha]
  exact if_pos (show linkState h (modLink h (fun x => { x with cfg := some { a with sends := a.sends + 1 } }) s) = 7 from h7)

theorem configTimeout_last (hc : (link h s).cfg = some a) (ha : 3 ≤ a.sends) :
    configTimeout h s = configDone h a 0xE [] (notice 8 h 0x0100 (changeDetail (hi h) 0x14 0 0) s) := by
  unfold configTimeout
  rw [hc]
  exact if_neg (Nat.not_lt.2 ha)

theorem configReply_own {f : ConfigReply} (hc : (link h s).cfg = some a) (hf : f.seq = a.seq) :
    configReply h f s = configDone h a (if f.result = 0 then 0 else 4) f.data s := by
  unfold configReply
  rw [hc]
  exact if_pos hf

/-- Settles O26: every sending of an access goes through `configFrame`, every end through `configDone`. -/
theorem headConfiguration : Obligations.HeadConfiguration := by
  unfold Obligations.HeadConfiguration
  refine ⟨fun n h d s hr h7 hc => ?_, fun n h s hr h7 hc => ?_, fun h w f a s hr hs hg hf hc hq hd => ?_,
    fun h a s hr hc ha h7 => ?_, fun h a s hr hc ha hd hn => ?_⟩
  · have hh : h < 24 := by
      have hw := hr.1
      simp only [Instr.wf, Bool.and_eq_true] at hw
      exact of_decide_eq_true hw.1.1.2
    obtain ⟨ho, hres, hout, hacc⟩ := accessSent_configSend (n := n) (w := true) (d := d) (k := d.length) (s := fresh s) hh hc h7
    refine ⟨_, (gated_run hr.1 hr.2 : execConfigWrite n h d s = _), ?_⟩
    unfold configWrite
    dsimp only
    rw [if_pos (hres.trans (rfl : _ = 0))]
    refine ⟨hres, hout, ?_, ?_, ho⟩
    · rw [link_modLink_self, hacc]
      rfl
    · rw [link_modLink_self]
  · have hh : h < 24 := of_decide_eq_true (Bool.and_eq_true_iff.1 hr.1).2
    obtain ⟨ho, hres, hout, hacc⟩ := accessSent_configSend (n := n) (w := false) (d := []) (k := (link h s).cfgLen) (s := fresh s) hh hc h7
    exact ⟨_, (gated_run hr.1 hr.2 : execConfigRead n h s = _), hres, hout, by rw [configRead]; exact hacc ▸ rfl, ho⟩
  · have hh : h < 24 := of_decide_eq_true hr.1
    obtain ⟨hnone, hans⟩ := configDone_spec (h := h) (res := if f.result = 0 then 0 else 4) (d := f.data) (s := fresh s) hd
    refine ⟨_, (gated_run hr.1 hr.2 : execConfigReply h w s = _), ?_⟩
    rw [hearFrame_good (s := fresh s) hh hs hg, ← hf, configReply_own (s := fresh s) hc hq]
    refine ⟨hnone, fun hn h0 => ?_⟩
    obtain ⟨hout, hres⟩ := hans hn
    rw [hout, hres, if_pos h0]
    exact ⟨rfl, rfl⟩
  · have hh : h < 24 := of_decide_eq_true hr.1
    refine ⟨_, (gated_run hr.1 hr.2 : execConfigTimeout h s = _), ?_⟩
    rw [configTimeout_again (s := fresh s) hc ha h7]
    obtain ⟨-, -, hout, hacc⟩ := accessSent_configFrame (a := { a with sends := a.sends + 1 })
      (s := modLink h (fun x => { x with cfg := some { a with sends := a.sends + 1 } }) (fresh s)) hh (by rw [link_modLink_self])
    exact ⟨hacc, hout⟩
  · have hq := quiet_notice (s := fresh s) 8 h 0x0100 (changeDetail (hi h) 0x14 0 0)
    obtain ⟨hnone, hans⟩ := configDone_spec (h := h) (a := a) (res := 0xE) (d := [])
      (s := notice 8 h 0x0100 (changeDetail (hi h) 0x14 0 0) (fresh s)) (deferred_noticeAt.trans hd)
    refine ⟨_, (gated_run hr.1 hr.2 : execConfigTimeout h s = _), ?_⟩
    rw [configTimeout_last (s := fresh s) hc ha]
    exact ⟨hnone, (hans hn).2⟩

end Sys2Proof.Machine
end

section
/-!
PROOFS: the frames of a quay link arrive: SEAT, SPOT, QTIME and DATA (R227, R245, R249, R250).
-/
namespace Sys2Proof.Machine

variable {s t u : State} {i k l j n ty hops frame size topology : Nat} {w : WireFrame} {f : SeatFrame} {v : Int}

/-- A good frame on a link that hears it has its effect on its bytes (R232). -/
theorem hearFrame_stream {g : List Byte → State → State} (hs : hears l s = true) (hg : frameGood ty (streamOf l w s) w.bad = true) :
    hearFrame l ty w g s = g (streamOf l w s) s := by
  simp only [hearFrame, hs, hg]
  rfl

/-- The effect of a good frame over quay link k whose link stands at an n that hears frames. -/
theorem hearFrame_quay {g : List Byte → State → State} {b : List Byte} (hs : hears (24 + k) s = true) (hb : b = streamOf (24 + k) w s)
    (hg : frameGood ty b w.bad = true) : hearFrame (24 + k) ty w g s = g b s := by
  subst hb
  exact hearFrame_stream hs hg

theorem other_quay (hk : k < 2) : 24 + k ≠ 25 - k := by omega

/-! SEAT (R227, R245). -/

/-- The link hears a SEAT frame: the seat that sent it is heard, and only the link's record changes. -/
def seatHeard (k : Nat) (f : SeatFrame) (s : State) : State :=
  let kept := fun x : Link => if f.seat = getN (lki (24 + k)) 0x0E s ∨ linkState (24 + k) s = 5 then some f else x.seatFrame
  modLink (24 + k) (fun x => { x with heard := x.heard ++ [f.seat], seatFrame := kept x }) s

theorem heard_seatHeard : (link (24 + k) (seatHeard k f s)).heard = (link (24 + k) s).heard ++ [f.seat] := by
  unfold seatHeard
  rw [link_modLink_self]

theorem seat_identifies (h5 : linkState (24 + k) s = 5) : seat k f size topology s = identify k f size topology (seatHeard k f s) := if_pos h5

/-- A neighbour whose harbour and place agree is identified, and the link measures (R227). -/
theorem identify_agrees (hs : f.seat ≠ s.hm.seatNo) (hz : size = s.hm.size) (ht : topology = 1 ↔ s.hm.ring = true)
    (ha : adjacent k s.hm.seatNo f.seat s = true) :
    linkState (24 + k) (identify k f size topology s) = 6 ∧ getN (lki (24 + k)) 0x0E (identify k f size topology s) = f.seat := by
  have hring : (topology == 1) = s.hm.ring := Bool.eq_iff_iff.2 (beq_iff_eq.trans ht)
  have hbar : ¬ (size ≠ s.hm.size ∨ (topology == 1) ≠ s.hm.ring ∨ f.seat = s.hm.seatNo ∨ (!adjacent k s.hm.seatNo f.seat s) = true) := by
    simp [hz, hring, hs, ha]
  unfold identify
  dsimp only
  rw [if_neg hbar]
  exact ⟨linkState_setLinkState, (getN_setLinkState (by decide) (by decide)).trans (getN_setN_self ..)⟩

theorem heardDecision_eq : ∃ c, heardDecision f s = { s with commit := c } := by
  unfold heardDecision
  dsimp only
  split
  · exact ⟨_, rfl⟩
  · exact ⟨s.commit, rfl⟩

/-- What an Up quay link leaves when a SEAT frame comes over it: the other seat's record is kept, and the frame may go on the other way. -/
structure SeatKept (k : Nat) (f : SeatFrame) (s t : State) : Prop where
  obj : t.obj = s.obj
  seats : t.hm.seats.find f.seat = some f
  heard : (link (24 + k) t).heard = (link (24 + k) s).heard ++ [f.seat]

/-- The record of the other seat is kept, and a decision of seat 0 is heard, before the frame goes on. -/
def seatTold (k : Nat) (f : SeatFrame) (s : State) : State :=
  heardDecision f { seatHeard k f s with hm := { s.hm with seats := s.hm.seats.put f.seat f } }

theorem seatKept_seatTold : SeatKept k f s (seatTold k f s) := by
  obtain ⟨c, hc⟩ := heardDecision_eq (f := f) (s := { seatHeard k f s with hm := { s.hm with seats := s.hm.seats.put f.seat f } })
  rw [seatTold, hc]
  exact ⟨rfl, Tab.find_put_self .., heard_seatHeard⟩

theorem seat_other (h5 : linkState (24 + k) s ≠ 5) (hs : f.seat ≠ s.hm.seatNo) : seat k f size topology s =
    if linkUp (25 - k) (seatTold k f s) ∧ getN (lki (25 - k)) 0x0E (seatTold k f s) ≠ f.seat
    then sendFrame (25 - k) 0x12 (seatPayload f) (seatTold k f s) else seatTold k f s :=
  (if_neg (show ¬ linkState (24 + k) (seatHeard k f s) = 5 from h5)).trans (if_neg hs)

/-- The frame that goes on leaves by the other quay link. -/
theorem SeatKept.sent (hk : k < 2) (h : SeatKept k f s t) (hsent : SentOn (25 - k) t u) : SeatKept k f s u where
  obj := hsent.obj.trans h.obj
  seats := hsent.hm ▸ h.seats
  heard := (congrArg Link.heard (hsent.others _ (other_quay hk))).trans h.heard

theorem seatKept_seat (hk : k < 2) (h5 : linkState (24 + k) s ≠ 5) (hs : f.seat ≠ s.hm.seatNo) :
    SeatKept k f s (seat k f size topology s) := by
  rw [seat_other h5 hs]
  split
  · exact seatKept_seatTold.sent hk sentOn_sendFrame
  · exact seatKept_seatTold

/-! SPOT (R94, R245). -/

/-- Takes the records of a SPOT frame into those of the harbour's berths elsewhere. -/
def keepSpots (r : List SpotRecord) (s : State) : State := r.foldl (fun s r => { s with hm := { s.hm with others := s.hm.others.put r.hb r } }) s

/-- Only what is known of the berths elsewhere changes. -/
theorem keepSpots_eq {r : List SpotRecord} : ∃ o, keepSpots r s = { s with hm := { s.hm with others := o } } := by
  induction r generalizing s with
  | nil => exact ⟨s.hm.others, rfl⟩
  | cons r l ih =>
    obtain ⟨o, h⟩ := ih (s := { s with hm := { s.hm with others := s.hm.others.put r.hb r } })
    exact ⟨o, h⟩

/-- What a SPOT frame leaves: the command it carries waits, and a record by itself is found under its berth. -/
structure SpotTaken (f : SpotFrame) (s t : State) : Prop where
  obj : t.obj = s.obj
  arrived : t.hm.arrived = s.hm.arrived ++ if f.command % 4 = 0 then [] else [(f.seat, f.command % 4)]
  others : ∀ r, f.records = [r] → t.hm.others.find r.hb = some r

theorem spotTaken_keepSpots {f : SpotFrame} (ho : t.obj = s.obj) (hm : t.hm = s.hm) :
    SpotTaken f s (if f.command % 4 = 0 then keepSpots f.records t else
      { keepSpots f.records t with hm := { (keepSpots f.records t).hm with arrived := (keepSpots f.records t).hm.arrived ++ [(f.seat, f.command % 4)] } }) := by
  obtain ⟨o, h⟩ := keepSpots_eq (s := t) (r := f.records)
  have hone : ∀ r, f.records = [r] → (keepSpots f.records t).hm.others.find r.hb = some r := fun r hr => by
    rw [hr]
    exact Tab.find_put_self ..
  have harr : (keepSpots f.records t).hm.arrived = s.hm.arrived := by rw [h, ← hm]
  split
  next hc => exact ⟨(congrArg State.obj h).trans ho, by rw [harr, if_pos hc, List.append_nil], hone⟩
  next hc => exact ⟨(congrArg State.obj h).trans ho, by rw [if_neg hc]; exact congrArg (· ++ _) harr, hone⟩

/-- A SPOT frame with hops left goes on over the other quay link. -/
def spotSent (k : Nat) (f : SpotFrame) (s : State) : State :=
  if 1 < f.hops ∧ linkUp (25 - k) s then sendFrame (25 - k) 0x11 (spotPayload { f with hops := f.hops - 1 }) s else s

theorem sentOn_spotSent {f : SpotFrame} : SentOn (25 - k) s (spotSent k f s) := by
  unfold spotSent
  split
  · exact sentOn_sendFrame
  · exact ⟨rfl, rfl, fun _ _ => rfl⟩

theorem spotTaken_spot {f : SpotFrame} (h7 : linkState (24 + k) s = 7) : SpotTaken f s (spot k f s) := by
  have hspot : spot k f s = _ := if_neg (not_not.2 h7)
  rw [hspot]
  exact spotTaken_keepSpots (t := spotSent k f s) sentOn_spotSent.obj sentOn_spotSent.hm

/-! QTIME (R249, R250). -/

/-- What following the offset to seat 0 leaves: the links, and the offset that each link shows (subindex 0x0D). -/
structure Followed (s t : State) : Prop where
  links : t.links = s.links
  offset : ∀ i, getI i 0x0D t = getI i 0x0D s

theorem Followed.trans (h : Followed s t) (h' : Followed t u) : Followed s u where
  links := h'.links.trans h.links
  offset i := (h'.offset i).trans (h.offset i)

theorem Followed.same (h : Followed s t) (ho : u.obj = t.obj) (hl : u.links = t.links) : Followed s u where
  links := hl.trans h.links
  offset i := (congrArg asInt (getV_congr ho)).trans (h.offset i)

theorem Followed.setI (h : Followed s t) (hn : n < 0x0D) : Followed s (setI i n v t) where
  links := h.links
  offset j := by
    refine .trans (congrArg asInt (getV_setV_ne _ _ fun e => ?_)) (h.offset j)
    obtain ⟨-, hk⟩ := (key_inj (by decide) (by omega)).1 e
    omega

theorem Followed.setN {m : Nat} (h : Followed s t) (hn : n < 0x0D) : Followed s (setN i n m t) := h.setI (v := m) hn

theorem followed_steer {dt : Nat} : Followed s (steer dt s) := by
  have hd : Followed s (drawn s) := ⟨rfl, fun _ => rfl⟩
  have hp : ∀ {t : State} {g : Ptp → Ptp}, Followed s t → Followed s (modPtp g t) := fun h => h.same rfl rfl
  unfold steer
  dsimp only
  split
  · exact hp (hd.setI (by decide))
  · exact hp (hd.setI (by decide))

theorem followed_followQuay : Followed s (followQuay frame s) := by
  have h9 : Followed s (setN 0x0804 9 3 s) := Followed.setN ⟨rfl, fun _ => rfl⟩ (by decide)
  have hsteer : Followed s (steer frameT (setN 0x0804 9 3 s)) := h9.trans followed_steer
  unfold followQuay
  dsimp only
  split_ifs
  · exact (h9.setN (i := 0x3800) (n := 5) (m := 1) (by decide)).same rfl rfl
  · exact h9.setN (by decide)
  · exact .setN (n := 3) (.setN (n := 5) (h9.same rfl rfl) (by decide)) (by decide)
  · exact .setN (n := 5) (hsteer.same rfl rfl) (by decide)
  · exact hsteer.setN (by decide)
  · exact hsteer

/-- How quay link k shows a QTIME frame and the stamp of its TICK. -/
structure Timed (k : Nat) (f : QtimeFrame) (arrival : Int) (s t : State) : Prop where
  hops : (link (24 + k) t).neighbourHops = f.hops
  tick : (link (24 + k) t).tickIn = arrival
  offset : getI (lki (24 + k)) 0x0D t = clamp (theta k f arrival s) (-2 ^ 31) (2 ^ 31 - 1)

theorem Timed.followed {f : QtimeFrame} {arrival : Int} (h : Timed k f arrival s t) (hf : Followed t u) : Timed k f arrival s u := by
  have hl : link (24 + k) u = link (24 + k) t := by rw [link, link, hf.links]
  exact ⟨hl ▸ h.hops, hl ▸ h.tick, (hf.offset _).trans h.offset⟩

/-- The link and its object as a QTIME frame leaves them. -/
def qtimeShown (k : Nat) (f : QtimeFrame) (arrival : Int) (s : State) : State :=
  let th := theta k f arrival s
  let s := setI (lki (24 + k)) 0x0D (clamp th (-2 ^ 31) (2 ^ 31 - 1)) s
  let thetas := fun x : Link => if linkState (24 + k) s = 6 then x.thetas.drop (x.thetas.length - 15) ++ [th] else []
  modLink (24 + k) (fun x => { x with tickIn := arrival, neighbourHops := f.hops, neighbourOffset := f.offset, thetas := thetas x }) s

theorem timed_qtimeShown {f : QtimeFrame} {arrival : Int} : Timed k f arrival s (qtimeShown k f arrival s) := by
  refine ⟨?_, ?_, getI_setI_self ..⟩
  · exact congrArg Link.neighbourHops (link_modLink_self ..)
  · exact congrArg Link.tickIn (link_modLink_self ..)

theorem timed_qtime {f : QtimeFrame} {arrival : Int} : Timed k f arrival s (qtime k f arrival s) := by
  have hfollow : ∀ t a b, Followed t (followQuay f.frame (setI 0x1808 6 b (setN 0x3800 6 a t))) := fun t a b =>
    .trans (.setI (.setN ⟨rfl, fun _ => rfl⟩ (by decide)) (by decide)) followed_followQuay
  have hq : qtime k f arrival s = if s.hm.seatNo = 0 ∨ upstream (qtimeShown k f arrival s) ≠ some k then qtimeShown k f arrival s
      else followQuay f.frame (setI 0x1808 6 (clamp (theta k f arrival s + f.offset) (-2 ^ 31) (2 ^ 31 - 1))
        (setN 0x3800 6 ((f.hops + 1) % 256) (qtimeShown k f arrival s))) := rfl
  rw [hq]
  split
  · exact timed_qtimeShown
  · exact timed_qtimeShown.followed (hfollow ..)

/-! DATA (R240, R245). -/

/-- How a DATA frame in sequence is taken: its bytes are in, and its sequence is acknowledged over the link it came by. -/
structure DataTaken (k : Nat) (f : DataFrame) (s t : State) : Prop where
  bytes : (link (24 + k) t).dataIn = f.bytes
  ack : (link (24 + k) t).dataAck = f.seq
  out : t.out = s.out ++ [.lanes k (stripe (frameBytes 0x14 (link (24 + k) s).dataSeq (dataPayload f.seq [])))]

theorem dataTaken_dataFrame {f : DataFrame} (h7 : linkState (24 + k) s = 7) (hq : f.seq = ((link (24 + k) s).dataAck + 1) % 256) :
    DataTaken k f s (dataFrame k f s) := by
  unfold dataFrame
  dsimp only
  rw [if_neg (not_not.2 h7), beq_iff_eq.2 hq]
  simp only [if_true, link_modLink_self]
  obtain ⟨-, -, -, hout, ⟨m, hl⟩, -⟩ := launched_quay (l := 24 + k) (ty := 0x14) (seq := (link (24 + k) s).dataSeq)
    (p := dataPayload f.seq []) (s := modLink (24 + k) (fun y => { y with dataAck := f.seq, dataIn := f.bytes }) s) (by omega)
  rw [Nat.add_sub_cancel_left] at hout
  rw [link_modLink_self] at hl
  exact ⟨by rw [hl], by rw [hl], hout⟩

/-- Settles O27: each of the four frames, once heard, has the effect that a lemma above states of it. -/
theorem quayFramesArrive : Obligations.QuayFramesArrive := by
  unfold Obligations.QuayFramesArrive
  refine ⟨fun k w l f s hr hl hg hf hs => ⟨fun h5 hz ht ha => ?_, fun h7 => ?_⟩, fun k w l f s hr h7 hl hg hf => ?_,
    fun k w l f s hr h7 hl hg hf => ?_, fun k w l f s hr h7 hl hg hf hq => ?_⟩
  · have hear : hears (24 + k) (fresh s) = true := by
      have hn : getN (lki (24 + k)) 2 (fresh s) = 5 := h5
      simp [hears, hn]
    refine ⟨_, (gated_run hr.1 hr.2 : execSeat k w s = _), ?_⟩
    rw [hearFrame_quay (s := fresh s) hear hl hg, ← hf, seat_identifies (s := fresh s) h5]
    exact identify_agrees (s := seatHeard k f (fresh s)) hs hz ht ha
  · have hk : k < 2 := of_decide_eq_true hr.1
    refine ⟨_, (gated_run hr.1 hr.2 : execSeat k w s = _), ?_⟩
    rw [hearFrame_quay (s := fresh s) (hears_of_up h7) hl hg, ← hf]
    obtain ⟨hobj, hseats, hheard⟩ := seatKept_seat (s := fresh s) (size := w.size) (topology := w.topology) hk
      (fun h => absurd (h7.symm.trans h) (by decide)) hs
    exact ⟨hseats, (congrArg Int.toNat (congrArg asInt (getV_congr hobj))).trans h7, hheard⟩
  · refine ⟨_, (gated_run hr.1 hr.2 : execSpot k w s = _), ?_⟩
    rw [hearFrame_quay (s := fresh s) (hears_of_up h7) hl hg, ← hf]
    obtain ⟨hobj, harr, hone⟩ := spotTaken_spot (f := f) (s := fresh s) h7
    exact ⟨hobj, harr, hone⟩
  · refine ⟨_, (gated_run hr.1 hr.2 : execQtime k w s = _), ?_⟩
    rw [hearFrame_quay (s := fresh s) (hears_of_up h7) hl hg, ← hf]
    obtain ⟨hhops, htick, hoff⟩ := timed_qtime (k := k) (f := f) (arrival := w.arrival) (s := fresh s)
    exact ⟨hhops, htick, hoff⟩
  · refine ⟨_, (gated_run hr.1 hr.2 : execData k w s = _), ?_⟩
    rw [hearFrame_quay (s := fresh s) (hears_of_up h7) hl hg, ← hf]
    obtain ⟨hin, hack, hout⟩ := dataTaken_dataFrame (f := f) (s := fresh s) h7 hq
    exact ⟨hin, hack, hout⟩

end Sys2Proof.Machine
end

section
/-!
PROOFS: the frame of the chamber's commands: a retrain's start at a table in the order of its keys, and at one that is not (R231, R350).
-/
namespace Sys2Proof.Machine

variable {s : State} {i k l : Nat} {κ : Kind}

/-! A table in order. -/

/-- Bring-up writes the link's own objects and the lists of Up links alone. -/
theorem getV_enterDetect (hk : k < 256) (hn : ¬ lossKey l (key i k)) : getV i k (enterDetect l s) = getV i k s :=
  (Lost.enterDetect (s := s) (reason := getN (lki l) 3 s) ⟨rfl, rfl, fun _ _ _ _ => rfl, rfl, rfl⟩).obj i k hk hn

/-- O60, the start of a retrain in a state in order: an object with a row, other than the link's and those of bring-up, reads what it read. -/
theorem getV_retrainStart_of_sorted (hs : Tab.sorted s.obj = true) (hk : k < 256) (hκ : kindOf (key i k) = some κ) (hi : 0x0806 ≤ i)
    (h0 : i ≠ 0x3800) (hl : i ≠ lki l) : getV i k (retrainStart l s) = getV i k s := by
  have hn : ¬ lossKey l (key i k) := not_lossKey hκ hk hi h0 (.inl hl)
  have hreset : getV i k (resetLink l s) = getV i k s := by
    rw [resetLink, getV_modLink]
    exact getV_keepObjects_of_sorted hs hk hκ (by simp [hl])
  have hstate : getV i k (setLinkState l 0 (resetLink l s)) = getV i k s :=
    (getV_setLinkState (fun e => hl ((key_inj hk (by decide)).1 e).1) h0 hk).trans hreset
  unfold retrainStart
  split
  · exact (getV_enterDetect hk hn).trans ((getV_setV_of_lossKey hn (lossKey_own (by decide))).trans hstate)
  · rfl

/-! A table out of order. -/

/-- Head link 0 is Up with a retrain pending, and the state of berth 0 is listed as 1 behind the link's state, where a look-up by rising keys
does not find it: the berth reads as Idle. -/
def berthOutOfOrder : State := { State.reset with
  obj := [(key (lki 0) 2, .int 7), (key (bi 0 0) 1, .int 1)], links := [(0, { retrainPending := true })] }

theorem berth_berthOutOfOrder : getV (bi 0 0) 1 berthOutOfOrder = .int 0 := by decide

/-- The retrain takes the V objects of the link from the table; that brings the berth's state to light. -/
theorem berth_retrainStart_berthOutOfOrder : getV (bi 0 0) 1 (retrainStart 0 (fresh berthOutOfOrder)) = .int 1 := by decide +kernel

/-- Refutes O60: at `berthOutOfOrder`, whose table is not in the order of its keys, the start of a retrain of head link 0 turns what berth 0
shows as its state from Idle to Armed. In a state in order a retrain leaves the berths' objects (`getV_retrainStart_of_sorted`). -/
theorem not_chamberCommandsLeaveTheBerths : ¬ Obligations.ChamberCommandsLeaveTheBerths := by
  unfold Obligations.ChamberCommandsLeaveTheBerths
  intro h
  have hr : Ready (.retrainStart 0) berthOutOfOrder := by decide
  obtain ⟨⟨-, -, -, -, -, -, -, hobj⟩, -⟩ := h (.retrainStart 0) _ _ rfl
    (gated_run hr.1 hr.2 : execRetrainStart 0 berthOutOfOrder = _)
  have he := hobj (bi 0 0) 1 (by decide) (by decide)
  rw [berth_retrainStart_berthOutOfOrder, berth_berthOutOfOrder] at he
  cases he

end Sys2Proof.Machine
end

section
/-!
PROOFS, the layer of facts: the registers of an axis and of a counter (R251-R264), and the bits of their flag words, after one of them was
put.
-/
namespace Sys2Proof.Machine

variable {s : State} {f i j k m w : Nat} {v : Int} {b : Bool}

/-! A bit of a number after another bit was set. -/

theorem testBit_add_two_pow_ne (h : w.testBit i = false) (hj : j ≠ i) : (w + 2 ^ i).testBit j = w.testBit j := by
  rcases Nat.lt_or_gt_of_ne hj with hj | hj
  · rw [Nat.add_comm, Nat.testBit_two_pow_add_gt hj]
  · obtain ⟨d, rfl⟩ : ∃ d, j = i + 1 + d := ⟨j - (i + 1), by omega⟩
    have heven : w / 2 ^ i % 2 = 0 := by simpa [Nat.testBit_eq_decide_div_mod_eq] using h
    have hq : (w + 2 ^ i) / 2 ^ (i + 1) = w / 2 ^ (i + 1) := by
      rw [Nat.pow_succ, ← Nat.div_div_eq_div_mul, ← Nat.div_div_eq_div_mul, Nat.add_div_right _ (Nat.two_pow_pos i)]
      omega
    simp only [Nat.testBit_eq_decide_div_mod_eq, Nat.pow_add 2 (i + 1) d, ← Nat.div_div_eq_div_mul, hq]

theorem bit_setBit_ne (hj : j ≠ i) : bit (setBit w i b) j = bit w j := by
  unfold bit setBit
  split
  · rfl
  · next h =>
    cases b
    · have h1 : w.testBit i = true := Bool.of_not_eq_false h
      have hadd := testBit_add_two_pow_ne (testBit_sub_two_pow_self h1) hj
      rw [Nat.sub_add_cancel (Nat.ge_two_pow_of_testBit h1)] at hadd
      exact hadd.symm
    · exact testBit_add_two_pow_ne (Bool.of_not_eq_true h) hj

/-! A register after another of the same index was put. -/

theorem getV_setV_sub {x : Val} (h : j ≠ k) : getV i j (setV i k x s) = getV i j s := getV_setV_ne _ _ (by unfold key; omega)

theorem getI_setI_sub (h : j ≠ k) : getI i j (setI i k v s) = getI i j s := congrArg asInt (getV_setV_sub h)

theorem getI_setN_sub {n : Nat} (h : j ≠ k) : getI i j (setN i k n s) = getI i j s := congrArg asInt (getV_setV_sub h)

theorem getN_setI_sub (h : j ≠ k) : getN i j (setI i k v s) = getN i j s := congrArg Int.toNat (getI_setI_sub h)

theorem getN_setN_index {i' n : Nat} (h : i ≠ i') (hj : j < 256) (hk : k < 256) : getN i j (setN i' k n s) = getN i j s :=
  getN_setN_ne _ _ (by unfold key; omega)

theorem getN_setI_index {i' : Nat} (h : i ≠ i') (hj : j < 256) (hk : k < 256) : getN i j (setI i' k v s) = getN i j s :=
  getN_setI_ne _ _ (by unfold key; omega)

/-! The flags of an axis, in register 9 of Mm+0x01. -/

@[simp] theorem bit_axisFlag_self : bit (getN (mi m 1) 9 (axisFlag m f b s)) f = b := by
  rw [axisFlag, getN_setN_self, bit_setBit_self]

theorem bit_axisFlag_ne (h : i ≠ f) : bit (getN (mi m 1) 9 (axisFlag m f b s)) i = bit (getN (mi m 1) 9 s) i := by
  rw [axisFlag, getN_setN_self, bit_setBit_ne h]

@[simp] theorem axisState_axisFlag : axisState m (axisFlag m f b s) = axisState m s := getN_setN_sub (by decide)

theorem getI_axisFlag (h : k ≠ 9) : getI (mi m 1) k (axisFlag m f b s) = getI (mi m 1) k s := getI_setN_sub h

theorem getN_settings_axisFlag (hk : k < 256) : getN (mi m 2) k (axisFlag m f b s) = getN (mi m 2) k s :=
  getN_setN_index (by unfold mi; omega) hk (by decide)

@[simp] theorem axis_axisFlag : axis j (axisFlag m f b s) = axis j s := rfl

@[simp] theorem result_axisFlag : (axisFlag m f b s).result = s.result := rfl

/-! The flags of a counter, in register 5 of Ei+0x1. -/

@[simp] theorem ctrHas_ctrFlag_self : ctrHas i f (ctrFlag i f b s) = b := by rw [ctrHas, ctrFlag, getN_setN_self, bit_setBit_self]

theorem ctrHas_ctrFlag_ne (h : j ≠ f) : ctrHas i j (ctrFlag i f b s) = ctrHas i j s := by
  rw [ctrHas, ctrFlag, getN_setN_self, bit_setBit_ne h, ← ctrHas]

theorem getI_ctrFlag (h : k ≠ 5) : getI (ei i 1) k (ctrFlag i f b s) = getI (ei i 1) k s := getI_setN_sub h

theorem ctrHas_setI (h : k ≠ 5) : ctrHas i f (setI (ei i 1) k v s) = ctrHas i f s := congrArg (bit · f) (getN_setI_sub h.symm)

theorem ctrHas_setN {n : Nat} (h : k ≠ 5) : ctrHas i f (setN (ei i 1) k n s) = ctrHas i f s := congrArg (bit · f) (getN_setN_sub h.symm)

end Sys2Proof.Machine
end

section
/-!
PROOFS, the layer of facts: what a change of a counter brings with it (R60, R264, R266, R267): hits of its compare units, with their camera
triggers and projector sequences, the wake and the lock window. It leaves what axes and counters show as it was (`SameMotion`).
-/
namespace Sys2Proof.Machine

/-- The indexes at which axes and counters show themselves, and their first settings: Mm+0x00 and +0x01, Ei+0x0 and +0x1. -/
def shownIndex (i : Nat) : Prop := 0x7000 ≤ i ∧ i < 0x7300 ∧ i % 16 < 2

/-- From s to t the objects at those indexes and the records of axes and counters stayed. -/
structure SameMotion (s t : State) : Prop where
  obj : ∀ i k, shownIndex i → k < 256 → getV i k t = getV i k s
  axes : t.axes = s.axes
  ctrs : t.ctrs = s.ctrs

variable {s t u : State} {c i k m n : Nat} {tm : Time} {x : Int}

theorem shownIndex_axis (hm : m < 4) : shownIndex (mi m 1) := by unfold shownIndex mi; omega

theorem shownIndex_counter (hi : i < 8) : shownIndex (ei i 1) := by unfold shownIndex ei; omega

theorem not_shownIndex_unit (hn : n < 4) : ¬ shownIndex (ei i (2 + n)) := by unfold shownIndex ei; omega

/-! How `SameMotion` is put together. -/

theorem SameMotion.of_eq (ho : t.obj = s.obj) (ha : t.axes = s.axes) (hc : t.ctrs = s.ctrs) : SameMotion s t where
  obj _ _ _ _ := getV_congr ho
  axes := ha
  ctrs := hc

theorem SameMotion.refl (s : State) : SameMotion s s := .of_eq rfl rfl rfl

/-- `SameMotion` after a step, in the order a proof meets them. -/
theorem SameMotion.step (h : SameMotion t u) (h' : SameMotion s t) : SameMotion s u where
  obj i k hi hk := (h.obj i k hi hk).trans (h'.obj i k hi hk)
  axes := h.axes.trans h'.axes
  ctrs := h.ctrs.trans h'.ctrs

theorem SameMotion.ite {p : Prop} [Decidable p] (h : p → SameMotion s t) (h' : ¬ p → SameMotion s u) :
    SameMotion s (if p then t else u) := by
  split
  · exact h ‹_›
  · exact h' ‹_›

theorem SameMotion.each {l : List Nat} {f : Nat → State → State} (h : ∀ n ∈ l, ∀ s, SameMotion s (f n s)) :
    SameMotion s (each l f s) := by
  induction l generalizing s with
  | nil => exact .refl s
  | cons n l ih => exact .step (ih fun j hj => h j (.tail _ hj)) (h n (.head _) s)

theorem SameMotion.of_quiet (h : Quiet s t) : SameMotion s t where
  obj i k hi hk := h.obj i k (not_noticeKey (by unfold shownIndex at hi; omega) hk)
  axes := h.axes
  ctrs := h.ctrs

theorem sameMotion_setV {v : Val} (hi : ¬ shownIndex i) (hk : k < 256) : SameMotion s (setV i k v s) where
  obj _ _ hj hl := getV_setV_ne _ _ fun e => hi (((key_inj hl hk).1 e).1 ▸ hj)
  axes := rfl
  ctrs := rfl

theorem sameMotion_emit {o : Out} : SameMotion s (emit o s) := .of_eq rfl rfl rfl

theorem sameMotion_modCtx {g : Context → Context} : SameMotion s (modCtx c g s) := .of_eq rfl rfl rfl

/-! What `SameMotion` leaves as it was. -/

theorem SameMotion.getI (h : SameMotion s t) (hi : shownIndex i) (hk : k < 256) : getI i k t = getI i k s :=
  congrArg asInt (h.obj i k hi hk)

theorem SameMotion.ctrHas {f : Nat} (h : SameMotion s t) (hi : i < 8) : ctrHas i f t = ctrHas i f s :=
  congrArg (fun y : Int => bit y.toNat f) (h.getI (shownIndex_counter hi) (by decide))

theorem SameMotion.ctr (h : SameMotion s t) : ctr i t = ctr i s := by rw [Machine.ctr, h.ctrs, ← Machine.ctr]

theorem SameMotion.axis (h : SameMotion s t) : axis m t = axis m s := by rw [Machine.axis, h.axes, ← Machine.axis]

/-! The camera triggers and the projector (R153, R156, R157, R172). -/

theorem not_shownIndex_context (hc : c < 26) (hk : k < 8) : ¬ shownIndex (ci c k) := by unfold shownIndex ci; omega

theorem sameMotion_commitCtx (hc : c < 26) : SameMotion s (commitCtx c n s) where
  obj i k hi hk := by
    unfold shownIndex at hi
    exact getV_commitCtx (inCtx_outside (by unfold ci; omega) hk) (by unfold key ci; omega)
  axes := by unfold commitCtx; split <;> rfl
  ctrs := by unfold commitCtx; split <;> rfl

theorem sameMotion_openStrobe {v : Tab Val} : SameMotion s (openStrobe c v tm s) := .ite (fun _ => .refl s) fun _ => .of_eq rfl rfl rfl

theorem sameMotion_cameraTrigger {why : Nat} (h24 : 24 ≤ c) (hc : c < 26) : SameMotion s (cameraTrigger c why tm s) := by
  have h : ∀ n v f g, SameMotion s (openStrobe c v tm (modCtx c f (commitCtx c n (setN (ci c 5) 1 g s)))) := fun _ _ _ _ =>
    .step sameMotion_openStrobe <| .step sameMotion_modCtx <| .step (sameMotion_commitCtx hc) <|
      sameMotion_setV (not_shownIndex_context hc (by decide)) (by decide)
  unfold cameraTrigger
  refine .ite (fun _ => .refl s) fun _ => .ite (fun _ => sameMotion_setV (not_shownIndex_context hc (by decide)) (by decide)) fun _ => ?_
  exact .ite (fun hlt => absurd hlt (Nat.not_lt.2 h24)) fun _ => .step sameMotion_emit (.step sameMotion_modCtx (h ..))

/-- A trigger of one of the two layer contexts, where its condition holds. -/
theorem sameMotion_layerTrigger {p : Prop} [Decidable p] (hk : k < 2) :
    SameMotion s (if p then cameraTrigger (24 + k) 0 tm s else s) :=
  .ite (fun _ => sameMotion_cameraTrigger (by omega) (by omega)) fun _ => .refl s

theorem not_shownIndex_projector : ¬ shownIndex 0x4808 := by unfold shownIndex; omega

theorem sameMotion_projectorBegin : SameMotion s (projectorBegin k tm s) := by
  have hentry : ∀ w, SameMotion s (setN 0x4808 7 k (setN 0x4808 6 2 { s with vision := w })) := fun _ =>
    .step (sameMotion_setV not_shownIndex_projector (by decide)) <|
      .step (sameMotion_setV not_shownIndex_projector (by decide)) (.of_eq rfl rfl rfl)
  unfold projectorBegin
  refine .step (.each fun j hj _ => sameMotion_layerTrigger (by simp at hj; omega)) ?_
  exact .ite (fun _ => .step sameMotion_emit (hentry _)) fun _ => hentry _

theorem sameMotion_projectorStart : SameMotion s (projectorStart tm s) := .ite (fun _ => sameMotion_projectorBegin) fun _ => .refl s

/-! The compare units (R264). -/

theorem sameMotion_wakeStep : SameMotion s (wakeStep x s) := .ite (fun _ => .refl s) fun _ => .of_eq rfl rfl rfl

theorem sameMotion_compareActions : SameMotion s (compareActions i n x tm s) := by
  unfold compareActions
  refine .step (.ite (fun _ => sameMotion_wakeStep) fun _ => .refl _) ?_
  refine .step (.ite (fun _ => .of_quiet (quiet_noticeAt ..)) fun _ => .refl _) ?_
  refine .step (.ite (fun _ => sameMotion_projectorStart) fun _ => .refl _) ?_
  exact .step (sameMotion_layerTrigger (k := 1) (by decide)) (sameMotion_layerTrigger (k := 0) (by decide))

theorem sameMotion_compareUnit (hn : n < 4) : SameMotion s (compareUnit i tm n s) := by
  have hset : ∀ {k v s}, k < 256 → SameMotion s (setV (ei i (2 + n)) k v s) := sameMotion_setV (not_shownIndex_unit hn)
  unfold compareUnit
  refine .ite (fun _ => .refl s) fun _ => .ite (fun _ => ?_) fun _ => .refl s
  refine .step sameMotion_compareActions ?_
  refine .step (.ite (fun _ => hset (by decide)) fun _ => .refl _) ?_
  refine .step (.ite (fun _ => .refl _) fun _ => hset (by decide)) ?_
  exact .step (hset (by decide)) <| .step (hset (by decide)) <| .step (hset (by decide)) <| .step (hset (by decide)) (hset (by decide))

theorem sameMotion_compareAll : SameMotion s (compareAll i tm s) := .each fun n hn _ => sameMotion_compareUnit (by simp at hn; omega)

/-! The wake and the lock window (R60, R267). -/

theorem not_shownIndex_wake : ¬ shownIndex 0x7300 := by unfold shownIndex; omega

theorem sameMotion_wakeCheck : SameMotion s (wakeCheck s) := by
  have hset : ∀ {k v s}, k < 256 → SameMotion s (setV 0x7300 k v s) := sameMotion_setV not_shownIndex_wake
  have hw : ∀ w, SameMotion s { s with wake := w } := fun _ => .of_eq rfl rfl rfl
  unfold wakeCheck
  refine .ite (fun _ => ?_) fun _ => .ite (fun _ => .ite (fun _ => ?_) fun _ => ?_) fun _ => hw _
  · exact .step (.of_quiet (quiet_noticeObj ..)) <| .step (hset (by decide)) <| .step (hset (by decide)) (hw _)
  · exact .step (hset (by decide)) <| .step (hset (by decide)) (hw _)
  · exact .step (hset (by decide)) (hw _)

theorem sameMotion_afterCounter : SameMotion s (afterCounter i s) := by
  unfold afterCounter
  refine .step (.ite (fun _ => sameMotion_wakeCheck) fun _ => .refl _) ?_
  exact .ite (fun _ => .of_eq rfl rfl rfl) fun _ => .refl s

/-! A counter becomes referenced, and its count is set (R259, R262). -/

@[simp] theorem ctrHas_setReferenced : ctrHas i 0 (setReferenced i s) = true :=
  (ctrHas_ctrFlag_ne (by decide)).trans ctrHas_ctrFlag_self

@[simp] theorem ctrHas_frozen_setReferenced : ctrHas i 4 (setReferenced i s) = false := ctrHas_ctrFlag_self

theorem getI_setReferenced (h : k ≠ 5) : getI (ei i 1) k (setReferenced i s) = getI (ei i 1) k s :=
  (getI_ctrFlag h).trans (getI_ctrFlag h)

theorem ctr_setReferenced : ctr i (setReferenced i s) = { ctr i s with limitNoted := false } :=
  ctr_modCtr_self i (fun y => { y with limitNoted := false }) s

/-- A count set reaches no register of an axis. -/
theorem getV_axis_countSet (hm : m < 4) (hk : k < 256) : getV (mi m 1) k (countSet i x s) = getV (mi m 1) k s := by
  have hne : ∀ l, l < 256 → key (mi m 1) k ≠ key (ei i 1) l := fun l hl => by unfold key mi ei; omega
  have hflag : ∀ f b s, getV (mi m 1) k (ctrFlag i f b s) = getV (mi m 1) k s := fun _ _ s => getV_setV_ne _ s (hne 5 (by decide))
  exact (sameMotion_afterCounter.obj _ k (shownIndex_axis hm) hk).trans <| (hflag ..).trans <| (hflag ..).trans <| getV_setV_ne _ s (hne 1 (by decide))

end Sys2Proof.Machine
end

section
/-!
PROOFS: the strokes of an axis, its stalls and homing, and its standstill (R253-R258).
-/
namespace Sys2Proof.Machine

variable {s t : State} {f i k m n : Nat} {p v : Int} {b : Bool}

/-! An axis that stands (R254, R256, R258), and one whose profile is frozen. -/

/-- Axis m shows state st at position p. -/
structure Shows (m st : Nat) (p : Int) (t : State) : Prop where
  state : axisState m t = st
  position : getI (mi m 1) 6 t = p

theorem Shows.axisFlag {st : Nat} (h : Shows m st p s) : Shows m st p (axisFlag m f b s) :=
  ⟨axisState_axisFlag.trans h.state, (getI_axisFlag (by decide)).trans h.position⟩

/-- A register of the axis that shows neither its state nor its position. -/
theorem Shows.setI {st : Nat} (h : Shows m st p s) (h6 : 6 ≠ k) (h8 : 8 ≠ k) : Shows m st p (setI (mi m 1) k v s) :=
  ⟨(getN_setI_sub h8).trans h.state, (getI_setI_sub h6).trans h.position⟩

theorem Shows.of_same {st : Nat} (h : Shows m st p s) (hs : SameMotion s t) (hm : m < 4) : Shows m st p t :=
  ⟨(congrArg Int.toNat (hs.getI (shownIndex_axis hm) (by decide))).trans h.state,
    (hs.getI (shownIndex_axis hm) (by decide)).trans h.position⟩

/-- A register of the axis's second record. -/
theorem Shows.setN_settings {st : Nat} (h : Shows m st p s) (hk : k < 256) : Shows m st p (setN (mi m 2) k n s) where
  state := (getN_setN_index (by unfold mi; omega) (by decide) hk).trans h.state
  position := (congrArg asInt (getV_setV_ne _ _ (by unfold key mi; omega))).trans h.position

/-- The axis's record is no object. -/
theorem Shows.modAxis {st : Nat} {g : Axis → Axis} (h : Shows m st p s) : Shows m st p (modAxis m g s) := ⟨h.state, h.position⟩

theorem Shows.startProfile {st : Nat} {w : Nat} (h : Shows m st p s) : Shows m st p (startProfile m v w s) := h.modAxis

theorem shows_axisStand : Shows m 1 p (axisStand m p s) := by
  refine .axisFlag <| .axisFlag <| .axisFlag <| .modAxis <| .setI ?_ (by decide) (by decide)
  exact ⟨(getN_setI_sub (by decide)).trans (getN_setN_self ..), getI_setI_self ..⟩

theorem speed_axisStand : getI (mi m 1) 7 (axisStand m p s) = 0 := by
  rw [axisStand, getI_axisFlag (by decide), getI_axisFlag (by decide), getI_axisFlag (by decide), getI_eq, getV_modAxis, ← getI_eq,
    getI_setI_self]

theorem shows_axisFreeze : Shows m (axisState m s) (axisAt m s.now s).1 (axisFreeze m s) :=
  .setI ⟨getN_setI_sub (by decide), getI_setI_self ..⟩ (by decide) (by decide)

@[simp] theorem axisState_modAxis {g : Axis → Axis} : axisState m (modAxis i g s) = axisState m s := rfl

@[simp] theorem axisState_setN_self : axisState m (setN (mi m 1) 8 n s) = n := getN_setN_self ..

/-! A stroke (R253, R254). -/

/-- The axis moves from where it stands to a goal at a speed, at the run current. -/
def strokeTo (m : Nat) (goal : Int) (s : State) : State :=
  axisFlag m 1 false (axisFlag m 2 false (axisFlag m 3 false (startProfile m goal (getN (mi m 1) 2 s) (setN (mi m 1) 8 2 s))))

theorem target_standing (h1 : axisState m s = 1) (hh : motionHeld s = false) (hb : axisBarred m s = false) :
    target m p s =
      if (axis m s).hold == 2 then modAxis m (fun x => { x with hold := 3, energiseAt := (strokeTo m p s).now }) (strokeTo m p s)
      else strokeTo m p s := by
  unfold target
  rw [if_neg (by simp [h1, hh, hb])]
  rfl

/-- How a state differs from s when axis m has begun a stroke to p. -/
structure StrokeBegun (m : Nat) (p : Int) (hold : Nat) (s t : State) : Prop where
  state : axisState m t = 2
  goal : (axis m t).goal = p
  start : (axis m t).start = getI (mi m 1) 6 s
  hold : (axis m t).hold = hold
  result : t.result = s.result

theorem strokeBegun_strokeTo : StrokeBegun m p 0 s (strokeTo m p s) where
  state := by simp [strokeTo, startProfile]
  goal := by simp [strokeTo, startProfile]
  start := by simp [strokeTo, startProfile, getI_setN_sub]
  hold := by simp [strokeTo, startProfile]
  result := by simp [strokeTo, startProfile, setN_eq]

/-- A stroke that waits until the axis is energised (R258). -/
theorem StrokeBegun.energising {tm : Time} (h : StrokeBegun m p n s t) :
    StrokeBegun m p 3 s (modAxis m (fun x => { x with hold := 3, energiseAt := tm }) t) where
  state := h.state
  goal := by rw [axis_modAxis_self, h.goal]
  start := by rw [axis_modAxis_self, h.start]
  hold := by rw [axis_modAxis_self]
  result := h.result

theorem strokeBegun_target (h1 : axisState m s = 1) (hh : motionHeld s = false) (hb : axisBarred m s = false) :
    StrokeBegun m p (if (axis m s).hold = 2 then 3 else 0) s (target m p s) := by
  have h : StrokeBegun m p 0 s (strokeTo m p s) := strokeBegun_strokeTo
  rw [target_standing h1 hh hb]
  by_cases h2 : (axis m s).hold = 2
  · rw [h2, if_pos (beq_self_eq_true 2), if_pos rfl]
    exact h.energising
  · rwa [if_neg h2, if_neg (by simpa using h2)]

theorem stopDecelerate_moving (h : axisState m s = 2 ∨ axisState m s = 3) :
    Shows m 2 (axisAt m s.now s).1 (stopDecelerate m s) ∧ (axis m (stopDecelerate m s)).stopping = true ∧
      (axis m (stopDecelerate m s)).homing = 0 := by
  unfold stopDecelerate
  rw [if_pos h, axis_modAxis_self]
  exact ⟨.modAxis ⟨getN_setN_self .., (getI_setN_sub (by decide)).trans (getI_setI_self ..)⟩, rfl, rfl⟩

/-- Settles O11: a stroke begins and ends in the registers of its axis alone. -/
theorem axisStrokes : Obligations.AxisStrokes := by
  unfold Obligations.AxisStrokes
  refine ⟨fun m p s hr h1 hh hb => ?_, fun m s hr h2 => ?_, fun m s hr h => ?_, fun m s hr h => ?_, fun s hr => gated_run hr.1 hr.2⟩
  · have ht := strokeBegun_target (s := fresh s) (p := p) h1 hh hb
    exact ⟨_, (gated_run hr.1 hr.2 : execTarget m p s = _), ht.state, ht.goal, ht.start, ht.hold, ht.result, still_target.dram⟩
  · have he : execStrokeEnd m s = .next (axisStand m (axis m s).goal (fresh s)) :=
      (gated_run hr.1 hr.2).trans (congrArg _ (if_pos (show axisState m (fresh s) = 2 from h2)))
    exact ⟨_, he, shows_axisStand.state, shows_axisStand.position, speed_axisStand⟩
  · obtain ⟨ht, hstop, hhome⟩ := stopDecelerate_moving (s := fresh s) h
    exact ⟨_, (gated_run hr.1 hr.2 : execStopDecelerate m s = _), ht.state, hstop, hhome, ht.position⟩
  · have he : execStopFreeze m s = .next (axisStand m (axisAt m s.now s).1 (fresh s)) :=
      (gated_run hr.1 hr.2).trans (congrArg _ (if_pos h))
    exact ⟨_, he, shows_axisStand.state, shows_axisStand.position, speed_axisStand⟩

/-! Stalls (R255, R256). -/

/-- A stroke that stalls, frozen and flagged, before it is counted. -/
def strokeStalled (m : Nat) (s : State) : State := axisFlag m 4 true (axisFlag m 0 false (setN (mi m 1) 8 4 (axisFreeze m s)))

theorem stall_stroke (h2 : axisState m s = 2) (hv : getN (mi m 2) 3 s ≤ (axisAt m s.now s).2.natAbs) :
    stall m s = noticeObj 9 m (mi m 2) 0x15 (getI (mi m 2) 0x15 (strokeStalled m s)) (addN (mi m 2) 0x15 32 1 (strokeStalled m s)) := by
  unfold stall
  rw [h2]
  exact if_neg (Nat.not_lt.2 hv)

theorem shows_strokeStalled : Shows m 4 (axisAt m s.now s).1 (strokeStalled m s) :=
  .axisFlag (.axisFlag ⟨axisState_setN_self, (getI_setN_sub (by decide)).trans shows_axisFreeze.position⟩)

/-- The registers that freeze the axis lie apart from its count of stalls. -/
theorem stallCount_strokeStalled : getN (mi m 2) 0x15 (strokeStalled m s) = getN (mi m 2) 0x15 s := by
  have hne : mi m 2 ≠ mi m 1 := by unfold mi; omega
  rw [strokeStalled, getN_settings_axisFlag (by decide), getN_settings_axisFlag (by decide), getN_setN_index hne (by decide) (by decide),
    axisFreeze, getN_setI_index hne (by decide) (by decide), getN_setI_index hne (by decide) (by decide), getN_eq, getV_modAxis,
    ← getN_eq]

theorem stall_moving (hm : m < 4) (h2 : axisState m s = 2) (hv : getN (mi m 2) 3 s ≤ (axisAt m s.now s).2.natAbs) :
    Shows m 4 (axisAt m s.now s).1 (stall m s) ∧ getN (mi m 2) 0x15 (stall m s) = (getN (mi m 2) 0x15 s + 1) % 2 ^ 32 := by
  rw [stall_stroke h2 hv]
  refine ⟨(shows_strokeStalled.setN_settings (by decide)).of_same (.of_quiet (quiet_noticeObj ..)) hm, ?_⟩
  rw [(quiet_noticeObj ..).getN (not_noticeKey (by unfold mi; omega) (by decide)), addN, getN_setN_self, stallCount_strokeStalled]

/-! Homing (R257). -/

/-- The stall that ends the search of a homing: the home position is the axis's, and it backs off. -/
theorem shows_homed (hm : m < 4) : Shows m (axisState m s) (getI (mi m 2) 0x11 s) (homed m s) := by
  have hp : Shows m (axisState m s) (getI (mi m 2) 0x11 s) (setI (mi m 1) 6 (getI (mi m 2) 0x11 s) (axisFreeze m s)) :=
    ⟨(getN_setI_sub (by decide)).trans shows_axisFreeze.state, getI_setI_self ..⟩
  unfold homed
  refine .modAxis (.startProfile ?_)
  split
  · exact ⟨(congrArg (fun x => (asInt x).toNat) (getV_axis_countSet hm (by decide))).trans hp.state,
      (congrArg asInt (getV_axis_countSet hm (by decide))).trans hp.position⟩
  · exact hp

theorem homing_homed : (axis m (homed m s)).homing = 2 := congrArg Axis.homing (axis_modAxis_self ..)

theorem stall_homing (h3 : axisState m s = 3) (h1 : (axis m s).homing = 1)
    (hd : getN (mi m 2) 0x0F s ≤ ((axisAt m s.now s).1 - (axis m s).homeStart).natAbs) : stall m s = homed m s := by
  unfold stall
  rw [h3]
  exact if_pos ⟨h1, hd⟩

/-- A home command that nothing bars begins the search where the axis stands. -/
theorem home_allowed (h : axisState m s = 1 ∨ axisState m s = 4 ∨ axisState m s = 5) (hh : motionHeld s = false)
    (hb : axisBarred m s = false) : axisState m (home m s) = 3 ∧ (axis m (home m s)).homing = 1 ∧
      (axis m (home m s)).homeStart = getI (mi m 1) 6 s ∧ (home m s).result = s.result := by
  unfold home
  dsimp only
  rw [if_neg (by simp only [hh, hb, Bool.false_eq_true, false_or]; omega), axis_modAxis_self]
  exact ⟨by simp [startProfile], rfl, by dsimp only, by simp [startProfile, setN_eq]⟩

theorem homingTravelLimit_searching (hm : m < 4) (h3 : axisState m s = 3) (h1 : (axis m s).homing = 1) :
    axisState m (homingTravelLimit m s) = 5 ∧ (axis m (homingTravelLimit m s)).homing = 0 := by
  unfold homingTravelLimit setNotice
  rw [if_pos ⟨h3, h1⟩, axisState, (quiet_noticeObj ..).getN (not_noticeKey (by unfold mi; omega) (by decide)),
    (SameMotion.of_quiet (quiet_noticeObj ..)).axis, setI, axis_setV, axis_modAxis_self]
  exact ⟨getN_setI_self .., rfl⟩

theorem backOffComplete_backing (h3 : axisState m s = 3) (h2 : (axis m s).homing = 2) :
    Shows m 1 (axis m s).goal (backOffComplete m s) ∧ bit (getN (mi m 1) 9 (backOffComplete m s)) 0 = true := by
  unfold backOffComplete
  rw [if_pos ⟨h3, h2⟩]
  exact ⟨shows_axisStand.axisFlag, bit_axisFlag_self⟩

/-! The standstill (R258). -/

theorem standstillDelay_standing (h1 : axisState m s = 1) (h0 : (axis m s).hold = 0) :
    (axis m (standstillDelay m s)).hold = 1 ∧ bit (getN (mi m 1) 9 (standstillDelay m s)) 1 = true := by
  unfold standstillDelay
  rw [if_pos ⟨h1, h0⟩, axis_axisFlag, axis_modAxis_self]
  exact ⟨rfl, bit_axisFlag_self⟩

/-- Freewheel (1) and brake (2) take the position's reference away and set the flag of their own. -/
theorem idleAction_held (h1 : axisState m s = 1) (hh : (axis m s).hold = 1) (h9 : getN (mi m 2) 9 s ≠ 0)
    (ha : getN (mi m 2) 8 s = 1 ∨ getN (mi m 2) 8 s = 2) :
    (axis m (idleAction m s)).hold = 2 ∧ bit (getN (mi m 1) 9 (idleAction m s)) 0 = false ∧
      bit (getN (mi m 1) 9 (idleAction m s)) (getN (mi m 2) 8 s + 1) = true := by
  have hf : (if getN (mi m 2) 8 s = 1 then 2 else 3) = getN (mi m 2) 8 s + 1 := by
    rcases ha with h | h <;> rw [h] <;> rfl
  unfold idleAction
  dsimp only
  rw [if_neg (by omega), hf, axis_axisFlag, axis_axisFlag, axis_modAxis_self]
  exact ⟨rfl, bit_axisFlag_self, (bit_axisFlag_ne (by omega)).trans bit_axisFlag_self⟩

/-- Settles O12: a frozen profile shows where the stall met it, and what homing sets of a counter reaches no register of the axis. -/
theorem axisStallsHomingAndStandstill : Obligations.AxisStallsHomingAndStandstill := by
  unfold Obligations.AxisStallsHomingAndStandstill
  refine ⟨fun m s hr h2 hv => ?_, fun m s hr h3 h1 hd => ?_, fun m s hr h4 => ?_, fun m s hr h hh hb => ?_, fun m s hr h3 h1 => ?_,
    fun m s hr h3 h2 => ?_, fun m s hr h1 h0 => ?_, fun m s hr h1 hh h9 ha => ?_, fun m s hr h3 => ?_⟩
  · have hm : m < 4 := of_decide_eq_true hr.1
    obtain ⟨ht, hn⟩ := stall_moving (s := fresh s) hm h2 hv
    exact ⟨_, (gated_run hr.1 hr.2 : execStall m s = _), ht.state, ht.position, hn⟩
  · have hm : m < 4 := of_decide_eq_true hr.1
    have he : execStall m s = .next (homed m (fresh s)) :=
      (gated_run hr.1 hr.2).trans (congrArg _ (stall_homing (s := fresh s) h3 h1 hd))
    have ht := shows_homed (s := fresh s) hm
    exact ⟨_, he, ht.state.trans h3, homing_homed, ht.position⟩
  · have he : execStallClear m s = .next (axisStand m (getI (mi m 1) 6 s) (fresh s)) :=
      (gated_run hr.1 hr.2).trans (congrArg _ (if_pos h4))
    exact ⟨_, he, shows_axisStand.state, shows_axisStand.position, rfl⟩
  · exact ⟨_, (gated_run hr.1 hr.2 : execHome m s = _), home_allowed (s := fresh s) h hh hb⟩
  · have hm : m < 4 := of_decide_eq_true hr.1
    exact ⟨_, (gated_run hr.1 hr.2 : execHomingTravelLimit m s = _), homingTravelLimit_searching (s := fresh s) hm h3 h1⟩
  · obtain ⟨ht, hb⟩ := backOffComplete_backing (s := fresh s) h3 h2
    exact ⟨_, (gated_run hr.1 hr.2 : execBackOffComplete m s = _), ht.state, ht.position, hb⟩
  · exact ⟨_, (gated_run hr.1 hr.2 : execStandstillDelay m s = _), standstillDelay_standing (s := fresh s) h1 h0⟩
  · exact ⟨_, (gated_run hr.1 hr.2 : execIdleAction m s = _), idleAction_held (s := fresh s) h1 hh h9 ha⟩
  · exact (gated_run hr.1 hr.2 : execEnergiseComplete m s = _).trans (congrArg _ (if_pos h3))

end Sys2Proof.Machine
end

section
/-!
PROOFS: the counters count, are referenced and read from SSI frames, and the release of a held wake (R259-R264, R267).
-/
namespace Sys2Proof.Machine

variable {s t : State} {f i k w off : Nat} {c d x : Int} {tm : Time} {a b : Bool}

/-! An edge inside the soft limits (R259, R263). -/

/-- Counter i shows count c and direction d. -/
structure Counted (i : Nat) (c d : Int) (t : State) : Prop where
  count : getI (ei i 1) 1 t = c
  direction : getI (ei i 1) 4 t = d

theorem Counted.ctrFlag (h : Counted i c d s) : Counted i c d (ctrFlag i f b s) :=
  ⟨(getI_ctrFlag (by decide)).trans h.count, (getI_ctrFlag (by decide)).trans h.direction⟩

theorem Counted.of_same (h : Counted i c d s) (hs : SameMotion s t) (hi : i < 8) : Counted i c d t :=
  ⟨(hs.getI (shownIndex_counter hi) (by decide)).trans h.count, (hs.getI (shownIndex_counter hi) (by decide)).trans h.direction⟩

theorem direction_edgeSpeed : getI (ei i 1) 4 (edgeSpeed i d tm s) = d := getI_setI_self ..

/-- The speed and direction of an edge are no settings. -/
theorem getI_settings_edgeSpeed (hk : k < 256) : getI (ei i 0) k (edgeSpeed i d tm s) = getI (ei i 0) k s := by
  have hne : ∀ l, l < 256 → key (ei i 0) k ≠ key (ei i 1) l := fun l hl => by unfold key ei; omega
  exact congrArg asInt ((getV_setV_ne _ _ (hne 4 (by decide))).trans (getV_setV_ne _ _ (hne 3 (by decide))))

/-- The levels of A and B that an edge brings to counter i. -/
def levelsSeen (i : Nat) (a b : Bool) (s : State) : State := modCtr i (fun x => { x with a := a, b := b }) s

/-- One edge, which no soft limit stops: it counts. -/
theorem encoderEdge_inside (h1 : getN (ei i 0) 1 s ≠ 0)
    (hone : (ctr i s).a ≠ a ∧ (ctr i s).b = b ∨ (ctr i s).a = a ∧ (ctr i s).b ≠ b)
    (hd : d = quadStep (ctr i s).a (ctr i s).b a b * (if getN (ei i 0) 2 s = 1 then -1 else 1))
    (hlo : getI (ei i 0) 4 s ≤ getI (ei i 1) 1 s + d) (hhi : getI (ei i 1) 1 s + d ≤ getI (ei i 0) 5 s) :
    encoderEdge i a b off s = afterCounter i (compareAll i (timeAt off s) (ctrFlag i 1 false (ctrFlag i 2 false
      (setI (ei i 1) 1 (getI (ei i 1) 1 s + d) (edgeSpeed i d (timeAt off s) (levelsSeen i a b s)))))) := by
  have hnone : ¬ (getN (ei i 0) 1 s = 0 ∨ (ctr i s).a = a ∧ (ctr i s).b = b) := by
    rintro (h0 | ⟨ha, hb⟩)
    · exact h1 h0
    · exact hone.elim (fun h => h.1 ha) fun h => h.2 hb
  have hboth : ¬ ((ctr i s).a ≠ a ∧ (ctr i s).b ≠ b) := fun ⟨ha, hb⟩ => hone.elim (fun h => hb h.2) fun h => ha h.1
  have hin : ¬ (getI (ei i 1) 1 s + d < getI (ei i 0) 4 (edgeSpeed i d (timeAt off s) (levelsSeen i a b s)) ∨
      getI (ei i 0) 5 (edgeSpeed i d (timeAt off s) (levelsSeen i a b s)) < getI (ei i 1) 1 s + d) := by
    have hset : ∀ k, getI (ei i 0) k (levelsSeen i a b s) = getI (ei i 0) k s := fun _ => rfl
    rw [getI_settings_edgeSpeed (by decide), getI_settings_edgeSpeed (by decide), hset, hset]
    omega
  subst hd
  exact (if_neg hnone).trans ((if_neg hboth).trans (if_neg hin))

theorem counted_encoderEdge (hi : i < 8) (h1 : getN (ei i 0) 1 s ≠ 0)
    (hone : (ctr i s).a ≠ a ∧ (ctr i s).b = b ∨ (ctr i s).a = a ∧ (ctr i s).b ≠ b)
    (hd : d = quadStep (ctr i s).a (ctr i s).b a b * (if getN (ei i 0) 2 s = 1 then -1 else 1))
    (hlo : getI (ei i 0) 4 s ≤ getI (ei i 1) 1 s + d) (hhi : getI (ei i 1) 1 s + d ≤ getI (ei i 0) 5 s) :
    Counted i (getI (ei i 1) 1 s + d) d (encoderEdge i a b off s) := by
  have hset : ∀ {c u}, Counted i c d (setI (ei i 1) 1 c (edgeSpeed i d (timeAt off s) u)) := fun {_ _} =>
    ⟨getI_setI_self .., (getI_setI_sub (by decide)).trans direction_edgeSpeed⟩
  rw [encoderEdge_inside h1 hone hd hlo hhi]
  exact hset.ctrFlag.ctrFlag.of_same (.step sameMotion_afterCounter sameMotion_compareAll) hi

/-! A counter is referenced: by an index, and by a count that is set (R259, R262). -/

/-- Counter i shows count c and is referenced. -/
structure Referenced (i : Nat) (c : Int) (t : State) : Prop where
  count : getI (ei i 1) 1 t = c
  flag : ctrHas i 0 t = true

theorem referenced_setReferenced : Referenced i c (setReferenced i (setI (ei i 1) 1 c s)) :=
  ⟨(getI_setReferenced (by decide)).trans (getI_setI_self ..), ctrHas_setReferenced⟩

theorem Referenced.ctrFlag (h : Referenced i c s) (hf : 0 ≠ f) : Referenced i c (ctrFlag i f b s) :=
  ⟨(getI_ctrFlag (by decide)).trans h.count, (ctrHas_ctrFlag_ne hf).trans h.flag⟩

theorem Referenced.of_same (h : Referenced i c s) (hs : SameMotion s t) (hi : i < 8) : Referenced i c t :=
  ⟨(hs.getI (shownIndex_counter hi) (by decide)).trans h.count, (hs.ctrHas hi).trans h.flag⟩

/-- An index that is armed, or the first. -/
theorem indexPulse_referencing (hi : i < 8) (h1 : getN (ei i 0) 1 s ≠ 0)
    (hg : bit (getN (ei i 0) 9 s) 2 = true ∨ a = bit (getN (ei i 0) 9 s) 0 ∧ b = bit (getN (ei i 0) 9 s) 1)
    (ha : ctrHas i 5 s = true ∨ ctrHas i 0 s = false) :
    Referenced i (nearestIndex i (getI (ei i 1) 1 s) s) (indexPulse i a b off s) ∧ ctrHas i 5 (indexPulse i a b off s) = false := by
  have hgate : (bit (getN (ei i 0) 9 s) 2 || (a == bit (getN (ei i 0) 9 s) 0 && b == bit (getN (ei i 0) 9 s) 1)) = true := by
    rcases hg with h | ⟨rfl, rfl⟩
    · rw [h, Bool.true_or]
    · simp
  have harm : ∀ v tm, ctrHas i 5 (setTime (ei i 1) 8 tm (setI (ei i 1) 7 v s)) = true ∨
      (!ctrHas i 0 (setTime (ei i 1) 8 tm (setI (ei i 1) 7 v s))) = true := fun v tm => by
    rw [setTime, ctrHas_setN (by decide), ctrHas_setI (by decide), ctrHas_setN (by decide), ctrHas_setI (by decide)]
    simpa using ha
  unfold indexPulse
  dsimp only
  rw [hgate, if_neg (by simpa using h1), if_pos (harm _ _)]
  have hs : ∀ {cls num code l u v}, SameMotion v (afterCounter i (logAdd cls num code l u v)) := fun {_ _ _ _ _ _} =>
    .step sameMotion_afterCounter (.of_quiet (quiet_logAdd ..))
  exact ⟨(referenced_setReferenced.ctrFlag (by decide)).of_same hs hi, (hs.ctrHas hi).trans ctrHas_ctrFlag_self⟩

theorem countSet_referenced (hi : i < 8) : Referenced i (inLimits i x s) (countSet i x s) ∧ ctrHas i 4 (countSet i x s) = false :=
  ⟨referenced_setReferenced.of_same sameMotion_afterCounter hi, (sameMotion_afterCounter.ctrHas hi).trans ctrHas_frozen_setReferenced⟩

/-! A good SSI frame (R260, R261). -/

/-- The position in an SSI frame of counter i, in its sense and with its offset. -/
def ssiPosition (i w : Nat) (s : State) : Int :=
  let n := getN (ei i 0) 0x0C s
  let z : Int := (if getN (ei i 0) 0x0D s = 1 then grayDecode (w % 2 ^ n) n else w % 2 ^ n : Nat)
  (if getN (ei i 0) 2 s = 1 then -z else z) + getI (ei i 0) 0x0F s

/-- Counter i is referenced, with count c and no bad frame behind it. -/
structure Good (i : Nat) (c : Int) (t : State) : Prop extends Referenced i c t where
  badRun : (ctr i t).badRun = 0

theorem Good.ctrFlag (h : Good i c s) (hf : 0 ≠ f) : Good i c (ctrFlag i f b s) := ⟨h.toReferenced.ctrFlag hf, h.badRun⟩

theorem Good.of_same (h : Good i c s) (hs : SameMotion s t) (hi : i < 8) : Good i c t :=
  ⟨h.toReferenced.of_same hs hi, by rw [hs.ctr, h.badRun]⟩

theorem Good.count_set (h : Good i x s) : Good i c (setI (ei i 1) 1 c s) :=
  ⟨⟨getI_setI_self .., (ctrHas_setI (by decide)).trans h.flag⟩, h.badRun⟩

/-- Its record changes, but for the run of bad frames. -/
theorem Good.modCtr {g : Counter → Counter} (h : Good i c s) (hg : ∀ y, (g y).badRun = y.badRun) : Good i c (modCtr i g s) :=
  ⟨⟨h.count, h.flag⟩, by rw [ctr_modCtr_self, hg, h.badRun]⟩

/-- A good frame references a counter that is not. -/
theorem good_ifReferenced (h : (ctr i s).badRun = 0) :
    Good i (getI (ei i 1) 1 s) (if ctrHas i 0 s then s else setReferenced i s) := by
  split
  · next hf => exact ⟨⟨rfl, hf⟩, h⟩
  · exact ⟨⟨getI_setReferenced (by decide), ctrHas_setReferenced⟩, by rw [ctr_setReferenced, h]⟩

theorem Good.ssiSpeed (h : Good i c s) : Good i c (ssiSpeed i x tm s) := by
  have hspeed : ∀ {n : Nat} {y : Int} {u}, Good i c u → Good i c (setI (ei i 1) 4 y (setN (ei i 1) 3 n u)) := fun {_ _ _} h =>
    ⟨⟨(getI_setI_sub (by decide)).trans ((getI_setN_sub (by decide)).trans h.count),
      (ctrHas_setI (by decide)).trans ((ctrHas_setN (by decide)).trans h.flag)⟩, h.badRun⟩
  unfold Machine.ssiSpeed
  dsimp only
  split
  · exact h.modCtr fun _ => rfl
  · split
    · exact h
    · exact hspeed (h.modCtr fun _ => rfl)

theorem Good.limitNote {old : Int} (h : Good i c s) (hi : i < 8) : Good i c (limitNote i tm old s) := by
  unfold Machine.limitNote
  split
  · exact h
  · exact (h.modCtr (g := fun y => { y with limitNoted := true }) fun _ => rfl).of_same (.of_quiet (quiet_noticeAt ..)) hi

theorem good_ssiFrame (hi : i < 8) (h1 : getN (ei i 0) 1 s ≠ 0) :
    Good i (inLimits i (ssiPosition i w s) s) (ssiFrame i w true true off s) := by
  unfold ssiFrame
  extract_lets tm n u z c₀ c old begun referenced sided shown noted
  rw [if_neg h1, if_neg (by decide)]
  have hreferenced : Good i _ referenced := good_ifReferenced (by unfold begun; rw [ctr_modCtr_self])
  have hsided : Good i _ sided := (hreferenced.ctrFlag (f := 1) (by decide)).ctrFlag (f := 2) (by decide)
  have hshown : Good i c shown := hsided.count_set.ssiSpeed
  have hnoted : Good i c noted := by
    unfold noted
    split
    · exact hshown
    · exact hshown.limitNote hi
  exact (hnoted.ctrFlag (f := 4) (by decide)).of_same (.step sameMotion_afterCounter sameMotion_compareAll) hi

/-! The standstill of a counter (R263) and the release of the wake (R267). -/

theorem counterStandstill_speed : getN (ei i 1) 3 (counterStandstill i s) = 0 ∧ getI (ei i 1) 4 (counterStandstill i s) = 0 ∧
    (ctr i (counterStandstill i s)).lastEdge = none :=
  ⟨(getN_setI_sub (by decide)).trans (getN_setN_self ..), getI_setI_self ..,
    by rw [counterStandstill, setI, setN, ctr_setV, ctr_setV, ctr_modCtr_self]⟩

theorem wakeRelease_held (h2 : getN 0x7300 0x0A s = 2) (h0 : wakeCause s = 0) :
    wakeRelease s = setN 0x7300 0x0B 0 (setN 0x7300 0x0A 1 s) :=
  (if_neg (not_not.2 h2)).trans (if_pos h0)

/-- Settles O13: what a counter shows is its own; compare units, the wake and the lock window that follow it do not reach it. -/
theorem countersAndWakeRelease : Obligations.CountersAndWakeRelease := by
  unfold Obligations.CountersAndWakeRelease
  refine ⟨fun i off a b d s hr h1 hone hd hlo hhi => ?_, fun i off a b s hr h1 hg ha => ?_, fun i v s hr => ?_, fun i s hr => ?_,
    fun i w off z c s hr h1 hz hc => ?_, fun i s hr => ?_, fun s hr h2 h0 => ?_⟩
  · have hi : i < 6 := of_decide_eq_true (Bool.and_eq_true_iff.1 hr.1).1
    have ht := counted_encoderEdge (s := fresh s) (off := off) (by omega) h1 hone hd hlo hhi
    exact ⟨_, (gated_run hr.1 hr.2 : execEncoderEdge i a b off s = _), ht.count, ht.direction, still_encoderEdge.dram⟩
  · have hi : i < 6 := of_decide_eq_true (Bool.and_eq_true_iff.1 hr.1).1
    obtain ⟨ht, h5⟩ := indexPulse_referencing (s := fresh s) (off := off) (by omega) h1 hg ha
    exact ⟨_, (gated_run hr.1 hr.2 : execIndexPulse i a b off s = _), ht.count, ht.flag, h5⟩
  · have hi : i < 8 := of_decide_eq_true (Bool.and_eq_true_iff.1 (Bool.and_eq_true_iff.1 hr.1).1).1
    obtain ⟨ht, h4⟩ := countSet_referenced (s := fresh s) (x := v) hi
    exact ⟨_, (gated_run hr.1 hr.2 : execCountSet i v s = _), ht.count, ht.flag, h4⟩
  · exact ⟨_, (gated_run hr.1 hr.2 : execReferenceArm i s = _), ctrHas_ctrFlag_self,
      (ctrHas_ctrFlag_ne (by decide)).trans ctrHas_ctrFlag_self⟩
  · have hi : i < 8 := by
      have hw := (Bool.and_eq_true_iff.1 (Bool.and_eq_true_iff.1 hr.1).1).1
      simp only [Bool.or_eq_true, beq_iff_eq] at hw
      omega
    subst hz hc
    have ht := good_ssiFrame (s := fresh s) (w := w) (off := off) hi h1
    exact ⟨_, (gated_run hr.1 hr.2 : execSsiFrame i w true true off s = _), ht.count, ht.badRun, ht.flag⟩
  · exact ⟨_, (gated_run hr.1 hr.2 : execCounterStandstill i s = _), counterStandstill_speed (s := fresh s)⟩
  · exact (gated_run hr.1 hr.2 : execWakeRelease s = _).trans (congrArg _ (wakeRelease_held (s := fresh s) h2 h0))

end Sys2Proof.Machine
end

section
/-!
PROOFS: every command completes (R288, R306, log 2), the domains (R340, R346), and what each command leaves alone: the queue, DRAM and the
clock (log 1, log 6).
-/
namespace Sys2Proof.Machine

variable {c : Instr} {s t : State}

/-! Which commands are gated alone. -/

theorem exec_memoryRequest {r : MemReq} (h : beyondMemory r s = false) :
    exec (.memoryRequest r) s = gated (.memoryRequest r) (effect (.memoryRequest r)) s :=
  if_neg (by simp [h])

theorem exec_memoryRequest_beyond {r : MemReq} (hw : (Instr.memoryRequest r).wf = true) (h : beyondMemory r s = true) :
    exec (.memoryRequest r) s = .fault (.noSuchAddress r.addr) :=
  if_pos (by simp [hw, h])

theorem exec_memoryRequest_ill {r : MemReq} (hw : (Instr.memoryRequest r).wf = false) :
    exec (.memoryRequest r) s = gated (.memoryRequest r) (effect (.memoryRequest r)) s :=
  if_neg (by simp [hw])

theorem beyondMemory_off {r : MemReq} (h : running (.memoryRequest r) s = false) : beyondMemory r s = false := by
  simp [beyondMemory, h]

/-- The table of `Effects.lean` and the arms of `exec` agree: a command is gated by its domain alone, but a memory request that names
something of the part and reaches beyond the capacity. -/
theorem exec_eq_gated (h : ∀ r, c = .memoryRequest r → c.wf = false ∨ beyondMemory r s = false) : exec c s = gated c (effect c) s := by
  cases c with
  | memoryRequest r => exact (h r rfl).elim exec_memoryRequest_ill exec_memoryRequest
  | _ => rfl

/-- A command that names something of the part and whose domain runs has its effect. -/
theorem exec_effect (hr : Ready c s) (h : ∀ r, c ≠ .memoryRequest r) : exec c s = .next (effect c (fresh s)) :=
  (exec_eq_gated fun r e => absurd e (h r)).trans (gated_run hr.1 hr.2)

/-- Settles O52: a command is gated by its domain alone, and the one that may reach beyond memory faults there. -/
theorem everyCommandCompletes : Obligations.EveryCommandCompletes := by
  unfold Obligations.EveryCommandCompletes
  refine fun c s => ⟨fun hr hb => ?_, fun hw => ?_, fun _ hb => ?_, ?_⟩
  · exact (exec_eq_gated fun r e => .inr (hb r e)).trans (gated_run hr.1 hr.2)
  · exact (exec_eq_gated fun _ _ => .inl hw).trans (gated_ill hw)
  · exact ⟨_, exec_eq_gated fun r e => .inr (hb r e)⟩
  · rintro r rfl hw hb
    exact exec_memoryRequest_beyond hw hb

/-! The domains of the commands (R340, R346). -/

theorem running_chip (h : commandDomain c = 0) : running c s = true := by simp [running, h]

/-- Below P1 the pilot's commands run on P2 alone, and the chip's on every rung. -/
theorem domain_of_running_below (hg : 2 ≤ rung s) (h : running c s = true) :
    commandDomain c = 0 ∨ ((commandDomain c = 1 ∨ commandDomain c = 10 ∨ commandDomain c = 11) ∧ rung s = 2) := by
  unfold rung at hg ⊢
  unfold running at h
  dsimp only at h
  split_ifs at h
  · exact .inl ‹_›
  all_goals
    have hrung := of_decide_eq_true h
    omega

/-- On P1 domains D5 to D7 run for an access alone. -/
theorem isAccess_of_running (hg : rung s = 1) (h : running c s = true) (h5 : 5 ≤ commandDomain c) (h7 : commandDomain c ≤ 7) :
    isAccess c = true := by
  unfold rung at hg
  by_contra ha
  unfold running at h
  simp only [hg, ha, or_false] at h
  split_ifs at h
  · omega
  all_goals
    have hrung := of_decide_eq_true h
    omega

/-- Settles O53. -/
theorem gatedDomains : Obligations.GatedDomains := by
  unfold Obligations.GatedDomains
  refine ⟨fun c s hw hr => ?_, fun c s => domain_of_running_below, fun c s => isAccess_of_running, fun c s => running_chip⟩
  refine (exec_eq_gated ?_).trans (gated_off hw hr)
  rintro r rfl
  exact .inr (beyondMemory_off hr)

/-! What a command leaves alone, command by command. -/

/-- A command outside the list of `writesDram`, but for a bulk time-out, leaves the queue, DRAM and the clock alone. -/
theorem exec_still (hw : writesDram c = false) (hb : ∀ n id, c ≠ .bulkTimeout n id) (h : exec c s = .next t) : Still s t := by
  cases c with
  | bulkTimeout n id => exact absurd rfl (hb n id)
  | harbourPauseAtSafePoint => exact still_execHarbourPauseAtSafePoint h
  | harbourPauseNow => exact still_execHarbourPauseNow h
  | harbourResume => exact still_execHarbourResume h
  | decelerationComplete _ => exact still_execDecelerationComplete h
  | fence _ => exact still_execFence h
  | closeLength _ _ => exact still_execCloseLength h
  | validationComplete _ _ => exact still_execValidationComplete h
  | slotClear _ _ => exact still_execSlotClear h
  | groupSeal _ _ _ _ => exact still_execSeal h
  | groupUnseal _ _ _ => exact still_execUnseal h
  | commitRequest _ => exact still_execCommitRequest h
  | lockWindowOpen => exact still_execLockWindowOpen h
  | commitAbort => exact still_execCommitAbort h
  | exposingStart => exact still_execExposingStart h
  | fenceComplete _ => exact still_execFenceComplete h
  | waitComplete _ => exact still_execWaitComplete h
  | powerSample _ _ => exact still_execPowerSample h
  | reassignBerth _ => exact still_execReassignBerth h
  | bankSelect _ _ => exact still_execBankSelect h
  | loopMode _ _ => exact still_execLoopMode h
  | tripClear _ => exact still_execTripClear h
  | hostTrigger _ _ => exact still_execHostTrigger h
  | contextEnable _ _ => exact still_execContextEnable h
  | tileFrameTimeout _ => exact still_execTileFrameTimeout h
  | frameTimeout _ => exact still_execFrameTimeout h
  | overload => exact still_execOverload h
  | lampTemperatureRead _ => exact still_execLampTemperatureRead h
  | lampBoardTimeout _ => exact still_execLampBoardTimeout h
  | channelDiagnosis _ => exact still_execChannelDiagnosis h
  | sequenceStart => exact still_execSequenceStart h
  | projectorStartTime => exact still_execProjectorStartTime h
  | projectorEntry => exact still_execProjectorEntry h
  | sequenceStop => exact still_execSequenceStop h
  | release _ => exact still_execRelease h
  | exportLayer _ => exact still_execExportLayer h
  | breakwaterSet _ _ _ => exact still_execBreakwaterSet h
  | keySlotProgram _ _ _ => exact still_execKeySlotProgram h
  | keySlotRevoke _ _ _ => exact still_execKeySlotRevoke h
  | readPointer _ _ => exact still_execReadPointer h
  | jobStart => exact still_execJobStart h
  | jobResume => exact still_execJobResume h
  | jobAbort => exact still_execJobAbort h
  | jobSaveState => exact still_execJobSaveState h
  | linkEnable _ => exact still_execLinkEnable h
  | signalDetected _ => exact still_execSignalDetected h
  | commaAligned _ _ => exact still_execCommaAligned h
  | lanesDeskewed _ _ _ => exact still_execLanesDeskewed h
  | equaliseComplete _ _ => exact still_execEqualiseComplete h
  | caps _ _ => exact still_execCaps h
  | measurementComplete _ => exact still_execMeasurementComplete h
  | trainingTimeout _ => exact still_execTrainingTimeout h
  | retryInterval _ => exact still_execRetryInterval h
  | eyeMargin _ _ => exact still_execEyeMargin h
  | retrain _ => exact still_execRetrain h
  | retrainStart _ => exact still_execRetrainStart h
  | measurementInterval _ => exact still_execMeasurementInterval h
  | echoReply _ _ _ _ => exact still_execEchoReply h
  | configWrite _ _ _ => exact still_execConfigWrite h
  | configRead _ _ => exact still_execConfigRead h
  | spot _ _ => exact still_execSpot h
  | seat _ _ => exact still_execSeat h
  | qtime _ _ => exact still_execQtime h
  | data _ _ => exact still_execData h
  | target _ _ => exact still_execTarget h
  | strokeEnd _ => exact still_execStrokeEnd h
  | stopDecelerate _ => exact still_execStopDecelerate h
  | stopFreeze _ => exact still_execStopFreeze h
  | motionHoldClear => exact still_execMotionHoldClear h
  | stall _ => exact still_execStall h
  | stallClear _ => exact still_execStallClear h
  | home _ => exact still_execHome h
  | homingTravelLimit _ => exact still_execHomingTravelLimit h
  | standstillDelay _ => exact still_execStandstillDelay h
  | idleAction _ => exact still_execIdleAction h
  | energiseComplete _ => exact still_execEnergiseComplete h
  | encoderEdge _ _ _ _ => exact still_execEncoderEdge h
  | indexPulse _ _ _ _ => exact still_execIndexPulse h
  | countSet _ _ => exact still_execCountSet h
  | referenceArm _ => exact still_execReferenceArm h
  | ssiFrame _ _ _ _ _ => exact still_execSsiFrame h
  | counterStandstill _ => exact still_execCounterStandstill h
  | wakeRelease => exact still_execWakeRelease h
  | wakeResume _ => exact still_execWakeResume h
  | openSession _ => exact still_execOpenSession h
  | sessionTimeout _ => exact still_execSessionTimeout h
  | discover => exact still_execDiscover h
  | presence _ => exact still_execPresence h
  | bulkAck _ _ _ => exact still_execBulkAck h
  | bulkResendTimeout _ _ => exact still_execBulkResendTimeout h
  | noticeBatch _ => exact still_execNoticeBatch h
  | reportPeriod _ _ => exact still_execReportPeriod h
  | spiReadRequest _ _ _ _ _ => exact still_execSpiReadRequest h
  | spiStatus => exact still_execSpiStatus h
  | fetchReply => exact still_execFetchReply h
  | fetchNotices => exact still_execFetchNotices h
  | store => exact still_execStore h
  | storeComplete _ => exact still_execStoreComplete h
  | restoreDefaults => exact still_execRestoreDefaults h
  | ethernetFrame _ _ => exact still_execEthernetFrame h
  | portLinkUp _ => exact still_execPortLinkUp h
  | sync _ => exact still_execSync h
  | followUp _ => exact still_execFollowUp h
  | delayReq _ => exact still_execDelayReq h
  | delayResp _ => exact still_execDelayResp h
  | pdelayReq _ => exact still_execPdelayReq h
  | pdelayResp _ => exact still_execPdelayResp h
  | announce _ => exact still_execAnnounce h
  | announceReceiptTimeout => exact still_execAnnounceReceiptTimeout h
  | servoLocked => exact still_execServoLocked h
  | timeSet _ => exact still_execTimeSet h
  | trainingComplete _ => exact still_execTrainingComplete h
  | dqsOscillatorCheck _ => exact still_execDqsOscillatorCheck h
  | refresh _ _ => exact still_execRefresh h
  | pageIdleClose _ _ => exact still_execPageIdleClose h
  | selfRefreshEntry _ => exact still_execSelfRefreshEntry h
  | inputFaultClear _ => exact still_execInputFaultClear h
  | tideLock => exact still_execTideLock h
  | tideLockLost => exact still_execTideLockLost h
  | acknowledge _ => exact still_execAcknowledge h
  | imageData _ _ => exact still_execImageData h
  | verifyAndWrite => exact still_execVerifyAndWrite h
  | updateReady _ => exact still_execUpdateReady h
  | activate => exact still_execActivate h
  | updateDiscard => exact still_execUpdateDiscard h
  | confirm => exact still_execConfirm h
  | logbookFlushTimer => exact still_execLogbookFlushTimer h
  | flush => exact still_execFlush h
  | blockEraseComplete => exact still_execBlockEraseComplete h
  | clear _ => exact still_execClear h
  | window _ => exact still_execWindow h
  | calibrationStart => exact still_execCalibrationStart h
  | settleTime _ => exact still_execSettleTime h
  | runComplete => exact still_execRunComplete h
  | calibrationAbort => exact still_execCalibrationAbort h
  | apply => exact still_execApply h
  | calibrationDiscard => exact still_execCalibrationDiscard h
  | dieTemperature _ => exact still_execDieTemperature h
  | echoReplyTimeout _ _ => exact still_execEchoReplyTimeout h
  | backOffComplete _ => exact still_execBackOffComplete h
  | syncInterval => exact still_execSyncInterval h
  | announceInterval => exact still_execAnnounceInterval h
  | minimumDelayInterval => exact still_execMinimumDelayInterval h
  | signedLockoutEnd => exact still_execSignedLockoutEnd h
  | bulkAckInterval _ _ => exact still_execBulkAckInterval h
  | portLinkDown _ => exact still_execPortLinkDown h
  | positiveGoingZeroCrossing => exact still_execPositiveGoingZeroCrossing h
  | _ => nomatch hw

/-- But for a loop frame and a reset of the whole chip, a command leaves the clock alone and keeps DRAM canonical. -/
theorem exec_keeps (hf : ∀ i, c ≠ .loopFrame i) (hp : ∀ p, c ≠ .powerOnReset p) (hn : ∀ p, c ≠ .nrst p) (h : exec c s = .next t) :
    Keeps s t := by
  cases c with
  | loopFrame i => exact absurd rfl (hf i)
  | powerOnReset p => exact absurd rfl (hp p)
  | nrst p => exact absurd rfl (hn p)
  | pauseAtSafePoint _ => exact keeps_execPauseAtSafePoint h
  | pauseNow _ _ => exact keeps_execPauseNow h
  | resume _ _ => exact keeps_execResume h
  | berthReset _ _ => exact keeps_execBerthReset h
  | safePointReached _ => exact keeps_execSafePointReached h
  | objectWrite _ _ _ _ => exact keeps_execObjectWrite h
  | loadData _ _ => exact keeps_execLoadData h
  | repairComplete _ _ => exact keeps_execRepairComplete h
  | noHostCopy _ => exact keeps_execNoHostCopy h
  | lockGateCommit => exact keeps_execLockGateCommit h
  | lockTimeout => exact keeps_execLockTimeout h
  | endReached _ => exact keeps_execEndReached h
  | waitTimeout _ => exact keeps_execWaitTimeout h
  | feedback _ _ => exact keeps_execFeedback h
  | eventGroup _ => exact keeps_execEventGroup h
  | status _ _ => exact keeps_execStatus h
  | temperatureReportTimeout _ => exact keeps_execTemperatureReportTimeout h
  | recordMissing _ => exact keeps_execRecordMissing h
  | budgetWaitTimeout _ => exact keeps_execBudgetWaitTimeout h
  | budgetWithdrawal _ => exact keeps_execBudgetWithdrawal h
  | reassignment => exact keeps_execReassignment h
  | tile _ _ => exact keeps_execTile h
  | csiPacket _ _ => exact keeps_execCsiPacket h
  | tileProcessed _ => exact keeps_execTileProcessed h
  | featureCharted => exact keeps_execFeatureCharted h
  | bufferClosed => exact keeps_execBufferClosed h
  | blockCoded => exact keeps_execBlockCoded h
  | streamResume _ => exact keeps_execStreamResume h
  | gapEntry _ => exact keeps_execGapEntry h
  | sampleAnchor _ => exact keeps_execSampleAnchor h
  | linkDisable _ => exact keeps_execLinkDisable h
  | feedbackMissing _ => exact keeps_execFeedbackMissing h
  | configReply _ _ => exact keeps_execConfigReply h
  | configTimeout _ => exact keeps_execConfigTimeout h
  | seatFrameMissing _ => exact keeps_execSeatFrameMissing h
  | closeSession _ _ => exact keeps_execCloseSession h
  | keepalive _ _ => exact keeps_execKeepalive h
  | read _ _ _ => exact keeps_execRead h
  | write _ _ _ => exact keeps_execWrite h
  | writeFenced _ _ _ => exact keeps_execWriteFenced h
  | bulkBegin _ _ _ => exact keeps_execBulkBegin h
  | bulkData _ _ _ _ => exact keeps_execBulkData h
  | bulkTimeout _ _ => exact keeps_execBulkTimeout h
  | subscribe _ _ _ => exact keeps_execSubscribe h
  | signProof _ _ _ _ => exact keeps_execSignProof h
  | hostSilence => exact keeps_execHostSilence h
  | spiWrite _ _ => exact keeps_execSpiWrite h
  | spiWriteFenced _ _ => exact keeps_execSpiWriteFenced h
  | memoryRequest _ => exact keeps_execMemoryRequest h
  | patrolScrub _ => exact keeps_execPatrolScrub h
  | evaluationPoint _ => exact keeps_execEvaluationPoint h
  | holdOffComplete => exact keeps_execHoldOffComplete h
  | tideEnable _ => exact keeps_execTideEnable h
  | inputFault _ => exact keeps_execInputFault h
  | bollardLatch _ _ => exact keeps_execBollardLatch h
  | activeLevel _ => exact keeps_execActiveLevel h
  | rungRequest _ => exact keeps_execRungRequest h
  | wake _ _ => exact keeps_execWake h
  | watchdog => exact keeps_execWatchdog h
  | warmReset => exact keeps_execWarmReset h
  | lockOrAlignmentLost _ => exact keeps_execLockOrAlignmentLost h
  | _ => exact (exec_still rfl (by simp) h).keeps

theorem exec_holds (h : exec c s = .next t) : Holds s t := by
  cases c with
  | loopFrame i => exact holds_execLoopFrame h
  | powerOnReset p => exact holds_execPowerOnReset h
  | nrst p => exact holds_execNrst h
  | _ => exact (exec_keeps (by simp) (by simp) (by simp) h).holds

/-- Settles O51. -/
theorem resetIsSafe : Obligations.ResetIsSafe := reset_dram_wf

/-- Settles O50: every command keeps DRAM canonical, and a step is a command or none. -/
theorem everyStepKeepsDramCanonical : Obligations.EveryStepKeepsDramCanonical := by
  unfold Obligations.EveryStepKeepsDramCanonical
  intro s t hs h
  unfold step at h
  split at h
  · cases h
    exact hs
  · exact (exec_holds h).wf hs

/-! A bulk time-out lets a waiting WRITE go on (R289, R290), which may write DRAM. -/

/-- Session 0 has a bulk read open, and a WRITE of one byte of load data that waits. -/
def writeWaits : State := modSess 0 (fun q => { q with
  opened := true, cls := 1, bulks := [(1, { read := true })],
  deferred := some { rest := [{ idx := 0x8100, sub := 3, part := true, offset := 0, len := 0, data := [1#8], sig := [] }] } }) State.reset

theorem dram_bulkTimeout_writeWaits : (goOn 0 (bulkTimeout 0 1 (fresh writeWaits))).dram ≠ writeWaits.dram := by decide +kernel

/-- Refutes O58: at `writeWaits` the time-out of the transfer, which is not in the list of `writesDram`, lets the WRITE behind it go on,
and the byte enters DRAM. Every other command outside the list leaves DRAM alone (`exec_still`), and no command touches the
queue (`exec_holds`). -/
theorem not_whatNoCommandTouches : ¬ Obligations.WhatNoCommandTouches := by
  unfold Obligations.WhatNoCommandTouches
  intro h
  have hr : Ready (.bulkTimeout 0 1) writeWaits := by decide
  obtain ⟨-, -, hdram⟩ := h (.bulkTimeout 0 1) _ _ (gated_run hr.1 hr.2 : execBulkTimeout 0 1 writeWaits = _)
  exact dram_bulkTimeout_writeWaits (hdram rfl)

end Sys2Proof.Machine
end

section
/-!
PROOFS, the layer of facts: a datagram arrives, is answered, and is received in its place of the session's order (R284-R287, R297).
-/
namespace Sys2Proof.Machine

variable {n m q i k : Nat} {r : Request} {s t u : State}

/-! A datagram is counted, and may feed the watchdog: two objects, 0x0805:01 and 0x0211:02. -/

theorem setV_eq {v : Val} : setV i k v s = { s with obj := (setV i k v s).obj } := rfl

theorem feed_eq : feed s = { s with obj := (feed s).obj } := by
  unfold feed
  split
  · exact setV_eq
  · rfl

theorem datagram_eq : datagram n s = { s with obj := (datagram n s).obj } := by
  unfold datagram
  dsimp only
  split
  · exact feed_eq
  · exact setV_eq

@[simp] theorem datagram_net : (datagram n s).net = s.net := by rw [datagram_eq]
@[simp] theorem datagram_out : (datagram n s).out = s.out := by rw [datagram_eq]
@[simp] theorem datagram_dram : (datagram n s).dram = s.dram := by rw [datagram_eq]
@[simp] theorem datagram_pilot : (datagram n s).pilot = s.pilot := by rw [datagram_eq]
@[simp] theorem datagram_hm : (datagram n s).hm = s.hm := by rw [datagram_eq]
@[simp] theorem datagram_shadow : (datagram n s).shadow = s.shadow := by rw [datagram_eq]
@[simp] theorem datagram_mem : (datagram n s).mem = s.mem := by rw [datagram_eq]
@[simp] theorem datagram_now : (datagram n s).now = s.now := by rw [datagram_eq]
@[simp] theorem sess_datagram : sess m (datagram n s) = sess m s := by rw [sess, datagram_net]; rfl
@[simp] theorem bulkOf_datagram {id : Nat} : bulkOf m id (datagram n s) = bulkOf m id s := by rw [bulkOf, sess_datagram]; rfl

theorem getV_feed (h : key i k ≠ key 0x0211 2) : getV i k (feed s) = getV i k s := by
  unfold feed
  split
  · exact getV_setV_ne _ _ h
  · rfl

theorem getV_datagram (h1 : key i k ≠ key 0x0805 1) (h2 : key i k ≠ key 0x0211 2) : getV i k (datagram n s) = getV i k s := by
  have hc : getV i k (addN 0x0805 1 64 1 s) = getV i k s := getV_setV_ne _ _ h1
  unfold datagram
  dsimp only
  split
  · exact (getV_feed h2).trans hc
  · exact hc

theorem getN_datagram (h1 : key i k ≠ key 0x0805 1) (h2 : key i k ≠ key 0x0211 2) : getN i k (datagram n s) = getN i k s := by
  rw [getN_eq, getV_datagram h1 h2, ← getN_eq]

/-! The addresses the node sends from (R274). -/

/-- What the node's addresses are formed from. -/
def SameAddress (s t : State) : Prop :=
  t.net.withdrawn = s.net.withdrawn ∧ t.pilot = s.pilot ∧ getV 0x0802 1 t = getV 0x0802 1 s ∧ getV 0x0802 2 t = getV 0x0802 2 s ∧
    getV 0x0802 6 t = getV 0x0802 6 s ∧ getV 0x0801 1 t = getV 0x0801 1 s

theorem SameAddress.ipv4 (h : SameAddress s t) : ipv4 t = ipv4 s := by
  obtain ⟨hw, hp, h1, h2, -, hn⟩ := h
  simp only [Machine.ipv4, hw, hp, getN_eq, h1, h2, hn]

theorem SameAddress.sourceOf (h : SameAddress s t) : sourceOf t = sourceOf s := by
  rw [Machine.sourceOf, h.ipv4, getB_eq, h.2.2.2.2.1]
  rfl

theorem SameAddress.trans (h : SameAddress t u) (h' : SameAddress s t) : SameAddress s u := by
  obtain ⟨hw, hp, h1, h2, h6, hn⟩ := h
  obtain ⟨hw', hp', h1', h2', h6', hn'⟩ := h'
  exact ⟨hw.trans hw', hp.trans hp', h1.trans h1', h2.trans h2', h6.trans h6', hn.trans hn'⟩

theorem sameAddress_datagram : SameAddress s (datagram n s) :=
  ⟨by rw [datagram_net], datagram_pilot, getV_datagram (by decide) (by decide), getV_datagram (by decide) (by decide),
    getV_datagram (by decide) (by decide), getV_datagram (by decide) (by decide)⟩

@[simp] theorem sourceOf_datagram : sourceOf (datagram n s) = sourceOf s := sameAddress_datagram.sourceOf
@[simp] theorem sourceOf_modSess {f : Session → Session} : sourceOf (modSess n f s) = sourceOf s := rfl
@[simp] theorem sourceOf_fresh : sourceOf (fresh s) = sourceOf s := rfl
@[simp] theorem sess_fresh : sess n (fresh s) = sess n s := rfl
@[simp] theorem fresh_out : (fresh s).out = [] := rfl
@[simp] theorem emit_out {o : Out} : (emit o s).out = s.out ++ [o] := rfl

/-! A reply, and the place of a request in the session's order. -/

/-- The reply is kept with the last 16 (R287). -/
def keepReply (q type : Nat) (p : List Byte) (x : Session) : Session :=
  { x with replies := x.replies.drop (x.replies.length - 15) ++ [(q, type, p)] }

theorem replyFrom_opened {src : Nat × List Byte} {type : Nat} {p : List Byte} (h : (sess n s).opened = true) :
    replyFrom src n q type p s = modSess n (keepReply q type p) (emit (.mop n src (mopBytes n type q 1 p)) s) :=
  if_neg (by simp [h])

theorem reply_opened {type : Nat} {p : List Byte} (h : (sess n s).opened = true) :
    reply n q type p s = modSess n (keepReply q type p) (emit (.mop n (sourceOf s) (mopBytes n type q 1 p)) s) := replyFrom_opened h

theorem runHeld_closed {j : Nat} (h : (sess n s).opened = false) : runHeld n j s = s := by
  cases j with
  | zero => rfl
  | succ j => exact if_pos (by simp [h])

theorem runHeld_nil {j : Nat} (h : (sess n s).held = []) : runHeld n j s = s := by
  cases j with
  | zero => rfl
  | succ j =>
    unfold runHeld
    dsimp only
    split
    · rfl
    · rw [h]
      rfl

/-- A session whose next request has come in order. -/
def atTurn (n q : Nat) (s : State) : State := modSess n (fun x => { x with last := q }) (datagram n s)

theorem sess_atTurn : sess n (atTurn n q s) = { sess n s with last := q } := by rw [atTurn, sess_modSess_self, sess_datagram]
@[simp] theorem sourceOf_atTurn : sourceOf (atTurn n q s) = sourceOf s := by rw [atTurn, sourceOf_modSess, sourceOf_datagram]
theorem sess_atTurn_ne (h : m ≠ n) : sess m (atTurn n q s) = sess m s := by rw [atTurn, sess_modSess_ne _ _ _ h, sess_datagram]
@[simp] theorem atTurn_out : (atTurn n q s).out = s.out := by rw [atTurn, modSess_out, datagram_out]
@[simp] theorem atTurn_dram : (atTurn n q s).dram = s.dram := by rw [atTurn, modSess_dram, datagram_dram]

theorem getV_atTurn (h1 : key i k ≠ key 0x0805 1) (h2 : key i k ≠ key 0x0211 2) : getV i k (atTurn n q s) = getV i k s := by
  rw [atTurn, getV_modSess, getV_datagram h1 h2]

theorem receive_inOrder (ho : (sess n s).opened = true) (hq : q = (sess n s).last + 1) (hd : (sess n s).deferred = none) :
    receive n q r s = runHeld n 8 (request n q r (atTurn n q s)) := by
  have hlt : ¬ q ≤ (sess n s).last := by omega
  unfold receive
  dsimp only
  rw [sess_datagram, ho, if_neg (by simp), if_neg hlt, if_pos ⟨hq, by rw [hd]; rfl⟩]
  rfl

/-- A request in order that is answered with one reply and leaves no other behind it. -/
theorem receive_replied {src : Nat × List Byte} {type : Nat} {p : List Byte} (ho : (sess n s).opened = true)
    (hq : q = (sess n s).last + 1) (hd : (sess n s).deferred = none) (hr : request n q r (atTurn n q s) = replyFrom src n q type p u)
    (hh : (sess n u).held = []) (hu : (sess n u).opened = true) :
    receive n q r s = modSess n (keepReply q type p) (emit (.mop n src (mopBytes n type q 1 p)) u) := by
  rw [receive_inOrder ho hq hd, hr, replyFrom_opened hu]
  exact runHeld_nil (by rw [sess_modSess_self]; exact hh)

end Sys2Proof.Machine
end

section
/-!
PROOFS: sessions open and close (R285, R286), and their requests are answered (R285, R287-R289, R301).
-/
namespace Sys2Proof.Machine

variable {n m q v : Nat} {s : State}

/-! OPEN, CLOSE and the time-out of a session (R286). -/

/-- The session an OPEN makes. -/
def sessionOf (r : OpenReq) (nonce : List Byte) : Session :=
  { opened := true, cls := r.cls, watched := r.watched, port := r.port, addr := slice r.addr 0 16, hostNonce := r.nonce, nodeNonce := nonce }

/-- An OPEN that nothing bars takes the lowest free session; only the nonce is drawn, and the reply goes out. -/
theorem openSession_lowest {r : OpenReq} (hb : openBar r s = 0) (hn : n < 16) (hc : (sess n s).opened = false)
    (hl : ∀ m, m < n → (sess m s).opened = true) :
    ∃ u nonce, u.net = s.net ∧ (openSession r s).net = (modSess n (fun _ => sessionOf r nonce) u).net := by
  have hbar : openBar r (datagram 0xFF s) = 0 := by
    rw [← hb]
    simp only [openBar, sess_datagram, getN_datagram (n := 0xFF) (s := s) (show key 0x0200 5 ≠ key 0x0805 1 by decide) (by decide)]
  have hfind : (List.range 16).find? (fun n => !(sess n (datagram 0xFF s)).opened) = some n := by
    refine List.find?_range_eq_some.2 ⟨by simp [hc], by simpa using hn, fun m hm => by simp [hl m hm]⟩
  unfold openSession
  dsimp only
  rw [if_neg (not_not.2 hbar), hfind]
  refine ⟨if r.cls = 2 then drawn (datagram 0xFF s) else datagram 0xFF s, _, ?_, rfl⟩
  split
  · exact datagram_net
  · exact datagram_net

theorem sess_congr {t u : State} (h : t.net = u.net) : sess m t = sess m u := by rw [sess, h]; rfl

theorem request_close : request n q .close s = closeNow n (reply n q 0x04 [] s) := rfl

/-- Settles O28. -/
theorem sessionsOpenAndClose : Obligations.SessionsOpenAndClose := by
  unfold Obligations.SessionsOpenAndClose
  refine ⟨fun r n s hr hb hn hc hl => ?_, fun n q s hr ho hq hd => ?_, fun n s hr => ?_⟩
  · obtain ⟨u, nonce, hu, ht⟩ := openSession_lowest (s := fresh s) hb hn hc hl
    have hself : sess n (openSession r (fresh s)) = sessionOf r nonce := (sess_congr ht).trans (sess_modSess_self ..)
    refine ⟨_, gated_run hr.1 hr.2, ?_⟩
    rw [hself]
    refine ⟨rfl, rfl, rfl, rfl, fun m hm => ?_⟩
    exact (sess_congr ht).trans ((sess_modSess_ne _ _ _ hm).trans (sess_congr hu))
  · have ho' : (sess n (atTurn n q (fresh s))).opened = true := by rw [sess_atTurn]; exact ho
    have hclosed : receive n q .close (fresh s) = closeNow n (reply n q 0x04 [] (atTurn n q (fresh s))) := by
      rw [receive_inOrder (s := fresh s) ho hq hd]
      exact runHeld_closed (by rw [request_close, closeNow, sess_modSess_self])
    refine ⟨_, gated_run hr.1 hr.2, ?_⟩
    rw [hclosed, reply_opened ho', sourceOf_atTurn, closeNow]
    refine ⟨by rw [sess_modSess_self], by simp, fun m hm => ?_⟩
    rw [sess_modSess_ne _ _ _ hm, sess_modSess_ne _ _ _ hm, sess_emit, sess_atTurn_ne hm]
    rfl
  · exact ⟨_, gated_run hr.1 hr.2, sess_modSess_self .., fun m hm => sess_modSess_ne _ _ _ hm, rfl⟩

/-! A message of one entry that need not wait is answered at once (R287, R289). -/

variable {d : Deferred} {e : Entry}

theorem ownBulk_nil {p : Bulk → Bool} (h : (sess n s).bulks = []) : ownBulk n p s = false := by rw [ownBulk, h]; rfl

theorem entryWaits_nil (hb : (sess n s).bulks = []) (hp : d.parts = []) : entryWaits n d e s = false := by
  simp only [entryWaits, ownBulk_nil hb, hp, List.any_nil, Option.any_false, Bool.or_self, Bool.and_false]

/-- A message of one entry, whose part waits for no head, is replied to. -/
theorem settle_single {p : Part × State} (he : d.rest = [e]) (hb : (sess n s).bulks = []) (hp : d.parts = [])
    (hr : d.read = true → readEntry n d.room e s = p)
    (hw : d.read = false → writeEntry n e s = p) (hh : p.1.head = none) :
    settle n d s = partsReply n { d with fence := false, rest := [], parts := [p.1], room := d.room - (p.1.data.length + 3) / 4 * 4 } p.2 := by
  have hrun : runEntries n d.rest { d with fence := false } s =
      ({ d with fence := false, rest := [], parts := [p.1], room := d.room - (p.1.data.length + 3) / 4 * 4 }, p.2) := by
    rw [he, runEntries, if_neg (by rw [entryWaits_nil (d := { d with fence := false, rest := [e] }) hb hp]; decide)]
    dsimp only
    have hpart : (if d.read = true then readEntry n d.room e s else writeEntry n e s) = p := by
      cases h : d.read
      · exact hw h
      · exact hr h
    rw [hpart, hp]
    rfl
  unfold settle
  dsimp only
  rw [hrun, if_neg (by rw [ownBulk_nil hb]; simp), if_neg (by simp [hh])]

/-- What a request reads or writes, and its reply, in a message of one entry. -/
theorem partsReply_read (h : d.read = true) :
    partsReply n d s = replyFrom d.src n d.seq 0x11 (d.parts.flatMap Part.bytes) s := if_pos h

theorem partsReply_write (h : d.read = false) :
    partsReply n d s = replyFrom d.src n d.seq 0x14 (pad4 (d.parts.flatMap (fun p => toLe 2 p.res))) s := if_neg (by simp [h])

/-! The class mask of the logbook, 0x0500:09, is read and written (R287, R288, R301). -/

/-- An entry that names the whole class mask. -/
structure NamesMask (e : Entry) : Prop where
  idx : e.idx = 0x0500
  sub : e.sub = 9
  part : e.part = false
  offset : e.offset = 0

theorem readBarred_classMask : readBarred 0x0500 9 s = awayResult 0x0500 9 false s := by
  unfold readBarred
  rw [findRow_classMask]
  by_cases h : awayResult 0x0500 9 false s = 0
  · exact (if_neg (not_not.2 h)).trans h.symm
  · exact if_pos h

theorem writeBarred_classMask (ha : awayResult 0x0500 9 true s = 0) (hb : writeBar n s = 0) : writeBarred n 0x0500 9 s = 0 := by
  unfold writeBarred
  rw [findRow_classMask]
  simp [ha, hb]

theorem readObject_classMask {x : Int} (ha : awayResult 0x0500 9 false s = 0) (hv : shadowV 0x0500 9 s = .int x) :
    readObject n 0x0500 9 false 0 2 s = (0, toLeI 2 x, s) := by
  have hlive : liveValue n 0x0500 9 s = .int x := hv
  unfold readObject
  rw [if_neg (by rw [readBarred_classMask, ha]; decide), if_neg (by decide), if_neg (by decide), findRow_classMask, hlive]
  rfl

theorem readEntry_classMask {x : Int} {room : Nat} (he : NamesMask e) (hl : e.len = 2) (hr : 4 ≤ room)
    (ha : awayResult 0x0500 9 false s = 0) (hv : shadowV 0x0500 9 s = .int x) :
    readEntry n room e s = ({ hdr := entryHead e, data := toLeI 2 x }, s) := by
  have hlen : (toLeI 2 x).length = 2 := toLe_length ..
  have hnone : configHead e.idx e.sub = none := by rw [he.idx, he.sub]; decide
  unfold readEntry
  rw [hnone, he.idx, he.sub, he.part, he.offset, hl, readObject_classMask ha hv]
  dsimp only
  rw [if_neg (by rw [hlen]; omega)]

/-- The class mask is no RWP object: the signed bytes and their signature play no part in its write. -/
theorem applyWrite_unsigned {x : Int} {d d' g : List Byte} (s : State) :
    applyWrite n 0x0500 9 false 0 (.int x) d g s = applyWrite n 0x0500 9 false 0 (.int x) d' [] s := by
  unfold applyWrite
  rw [findRow_classMask]
  rfl

theorem applyEntry_classMask (he : NamesMask e) (hd : e.data = toLe 2 v) (hv : v ≤ 1023)
    (hw : writeBarred n 0x0500 9 s = 0) : applyEntry n e s = setV 0x0500 9 (.int v) (withResult 0 s) := by
  have hdec : decodeVal .u16 (toLe 2 v) = some (.int v) := by
    have h : ofLe (toLe 2 v) = v := (ofLe_toLe 2 v).trans (Nat.mod_eq_of_lt (by omega))
    simp [decodeVal, Ty.width, h]
  have hw' : writeBarred n 0x0500 9 (withResult 0 s) = 0 := hw
  unfold applyEntry
  dsimp only
  rw [he.idx, he.sub, he.offset, he.part, hd, findRow_classMask]
  dsimp only
  rw [if_neg (not_not.2 hw'), if_neg (by decide), hdec]
  exact (applyWrite_unsigned (withResult 0 s)).trans (applyWrite_classMask (d := []) hw' hv)

theorem writeEntry_classMask (he : NamesMask e) (hd : e.data = toLe 2 v) (hv : v ≤ 1023)
    (hw : writeBarred n 0x0500 9 s = 0) : writeEntry n e s = ({}, setV 0x0500 9 (.int v) (withResult 0 s)) := by
  have hnone : configHead e.idx e.sub = none := by rw [he.idx, he.sub]; decide
  unfold writeEntry
  dsimp only
  rw [applyEntry_classMask he hd hv hw, hnone]
  rfl

/-- A message of the session's order finds the power state and the class of the session as they were. -/
theorem awayResult_atTurn {w : Bool} {i k : Nat} : awayResult i k w (atTurn n q s) = awayResult i k w s := by
  have hp : (atTurn n q s).pilot = s.pilot := datagram_pilot
  have hg : getN 0x0300 2 (atTurn n q s) = getN 0x0300 2 s := by
    rw [getN_eq, getV_atTurn (by decide) (by decide), ← getN_eq]
  unfold awayResult rung
  rw [hp, hg]

theorem writeBar_atTurn : writeBar n (atTurn n q s) = writeBar n s := by simp only [writeBar, sess_atTurn]

/-- A WRITE of the class mask in its place of the order, fenced or not (R24, R287-R289). -/
theorem receive_write_classMask {fence : Bool} (ho : (sess n s).opened = true) (hq : q = (sess n s).last + 1)
    (hdf : (sess n s).deferred = none) (hh : (sess n s).held = []) (hb : (sess n s).bulks = []) (he : NamesMask e)
    (hd : e.data = toLe 2 v) (hs : e.sig = []) (hv : v ≤ 1023) (ha : awayResult 0x0500 9 true s = 0) (hw : writeBar n s = 0) :
    receive n q (.write fence [e]) s = modSess n (keepReply q 0x14 (toLe 4 0))
      (emit (.mop n (sourceOf s) (mopBytes n 0x14 q 1 (toLe 4 0))) (setV 0x0500 9 (.int v) (withResult 0 (atTurn n q s)))) := by
  have hsess := sess_atTurn (n := n) (q := q) (s := s)
  have hbar : writeBarred n 0x0500 9 (atTurn n q s) = 0 := writeBarred_classMask (awayResult_atTurn.trans ha) (writeBar_atTurn.trans hw)
  have hreq : request n q (.write fence [e]) (atTurn n q s) =
      replyFrom (sourceOf s) n q 0x14 (toLe 4 0) (setV 0x0500 9 (.int v) (withResult 0 (atTurn n q s))) := by
    have hsize : ¬ (64 < [e].length ∨ 1416 < writeBytes' [e]) := by simp [writeBytes', hd, hs]
    rw [request, if_neg hsize, settle_single rfl (by rw [hsess]; exact hb) rfl
      Bool.noConfusion
      (fun _ => writeEntry_classMask he hd hv hbar) rfl, partsReply_write rfl, sourceOf_atTurn]
    rfl
  exact receive_replied ho hq hdf hreq (by simpa [hsess] using hh) (by simpa [hsess] using ho)

/-- A READ of the class mask in its place of the order (R287). -/
theorem receive_read_classMask {x : Int} (ho : (sess n s).opened = true) (hq : q = (sess n s).last + 1)
    (hdf : (sess n s).deferred = none) (hh : (sess n s).held = []) (hb : (sess n s).bulks = []) (he : NamesMask e)
    (hl : e.len = 2) (ha : awayResult 0x0500 9 false s = 0) (hv : shadowV 0x0500 9 s = .int x) :
    receive n q (.read [e]) s = modSess n (keepReply q 0x11 (entryHead e ++ toLe 2 2 ++ toLe 2 0 ++ toLeI 2 x ++ [0#8, 0#8]))
      (emit (.mop n (sourceOf s) (mopBytes n 0x11 q 1 (entryHead e ++ toLe 2 2 ++ toLe 2 0 ++ toLeI 2 x ++ [0#8, 0#8]))) (atTurn n q s)) := by
  have hsess := sess_atTurn (n := n) (q := q) (s := s)
  have hshadow : shadowV 0x0500 9 (atTurn n q s) = .int x := by
    rw [← hv, shadowV, shadowV, getV_atTurn (by decide) (by decide), atTurn, modSess_shadow, datagram_shadow]
  have hread := fun room (hr : 4 ≤ room) => readEntry_classMask (n := n) he hl hr (awayResult_atTurn (n := n) (q := q) |>.trans ha) hshadow
  have hreq : request n q (.read [e]) (atTurn n q s) =
      replyFrom (sourceOf s) n q 0x11 (entryHead e ++ toLe 2 2 ++ toLe 2 0 ++ toLeI 2 x ++ [0#8, 0#8]) (atTurn n q s) := by
    have hsize : ¬ (64 < [e].length ∨ 1416 < 12 * [e].length) := by simp
    rw [request, if_neg hsize, settle_single rfl (by rw [hsess]; exact hb) rfl (fun _ => hread _ (by simp)) Bool.noConfusion rfl,
      partsReply_read rfl, sourceOf_atTurn]
    have hpart : ([({ hdr := entryHead e, data := toLeI 2 x } : Part)].flatMap Part.bytes) =
        entryHead e ++ toLe 2 2 ++ toLe 2 0 ++ toLeI 2 x ++ [0#8, 0#8] := by
      have hlen : (toLeI 2 x).length = 2 := toLe_length ..
      simp [Part.bytes, pad4, hlen, List.replicate]
    exact congrArg (fun p => replyFrom (sourceOf s) n q 0x11 p (atTurn n q s)) hpart
  exact receive_replied ho hq hdf hreq (by simpa [hsess] using hh) (by simpa [hsess] using ho)

/-- What a WRITE of the class mask leaves: its place in the order, the value in force, one reply, and DRAM. -/
theorem written_classMask {f : Session → Session} {o : Out} (hf : ∀ x, (f x).last = x.last) (t : State)
    (ht : t = modSess n f (emit o (setV 0x0500 9 (.int v) (withResult 0 (atTurn n q (fresh s)))))) :
    (sess n t).last = q ∧ getN 0x0500 9 t = v ∧ t.out = [o] ∧ t.dram = s.dram := by
  subst ht
  refine ⟨by rw [sess_modSess_self, hf, sess_emit, sess_setV, sess_withResult, sess_atTurn], ?_, by simp, by simp; rfl⟩
  rw [getN_eq, getV_modSess, getV_emit, getV_setV_self]
  rfl

/-- Settles O29: each request is received in its place of the order and answered with one reply. -/
theorem requestsAreAnswered : Obligations.RequestsAreAnswered := by
  unfold Obligations.RequestsAreAnswered
  refine ⟨fun n q s hr ho hq hd hh => ?_, fun n q v e s hr ho hq hd hh hb hi hk hp hoff hl ha hv => ?_,
    fun n q v e s hr ho hq hd hh hb hi hk hp hoff hdat hs hv ha hw => ?_,
    fun n q v e s hr ho hq hd hh hb hi hk hp hoff hdat hs hv ha hw => ?_⟩
  · have hsess := sess_atTurn (n := n) (q := q) (s := fresh s)
    refine ⟨_, gated_run hr.1 hr.2, ?_⟩
    rw [receive_replied (s := fresh s) (src := sourceOf (atTurn n q (fresh s))) (type := 0x07) (p := []) ho hq hd rfl
      (by simpa [hsess] using hh) (by simpa [hsess] using ho)]
    exact ⟨by simp, by rw [sess_modSess_self, sess_emit, hsess]; rfl⟩
  · refine ⟨_, gated_run hr.1 hr.2, ?_⟩
    rw [receive_read_classMask (s := fresh s) ho hq hd hh hb ⟨hi, hk, hp, hoff⟩ hl ha hv]
    exact ⟨by rw [sess_modSess_self, sess_emit, sess_atTurn]; rfl, by simp⟩
  · obtain ⟨hlast, hval, hout, hdram⟩ := written_classMask (s := s) (f := keepReply q 0x14 (toLe 4 0)) (fun _ => rfl) _
      (receive_write_classMask (s := fresh s) (fence := false) ho hq hd hh hb ⟨hi, hk, hp, hoff⟩ hdat hs hv ha hw)
    exact ⟨_, gated_run hr.1 hr.2, hlast, hval, hout, hdram⟩
  · obtain ⟨hlast, hval, hout, hdram⟩ := written_classMask (s := s) (f := keepReply q 0x14 (toLe 4 0)) (fun _ => rfl) _
      (receive_write_classMask (s := fresh s) (fence := true) ho hq hd hh hb ⟨hi, hk, hp, hoff⟩ hdat hs hv ha hw)
    exact ⟨_, gated_run hr.1 hr.2, hlast, hval, hout, hdram⟩

end Sys2Proof.Machine
end

section
/-!
PROOFS: bulk transfers open, carry their bytes, and end (R285, R290, R291).
-/
namespace Sys2Proof.Machine

variable {n id q : Nat} {b : Bulk} {s t : State}

/-! What the transfers of a session are after an update. -/

theorem bulkOf_congr (h : (sess n t).bulks = (sess n s).bulks) : bulkOf n id t = bulkOf n id s := congrArg (Tab.find id) h

theorem sess_modBulks {f : Tab Bulk → Tab Bulk} : sess n (modBulks n f s) = { sess n s with bulks := f (sess n s).bulks } := sess_modSess_self ..

theorem bulkOf_put : bulkOf n id (modBulks n (fun l => l.put id b) s) = some b := by
  rw [bulkOf, sess_modBulks]
  exact Tab.find_put_self ..

theorem bulks_keepReply {type : Nat} {p : List Byte} {x : Session} : (keepReply q type p x).bulks = x.bulks := rfl

theorem goOn_none (h : (sess n s).deferred = none) : goOn n s = s := by
  unfold goOn
  rw [h]

/-! A BULK_BEGIN of a write (R290, R291). -/

theorem bulkBegin_write {r : BulkBegin} (hb : bulkBar n r s = 0) (hr : r.read = false) (hl : 0 < r.len) :
    ∃ b : Bulk, bulkBegin n q r s = modBulks n (fun l => l.put q b) (reply n q 0x22 (ackPayload q 0 0 0 0) s) ∧ b.read = false ∧
      b.idx = r.idx ∧ b.sub = r.sub ∧ b.len = r.len ∧ b.crc = r.crc ∧ b.got = 0 := by
  unfold bulkBegin
  dsimp only
  rw [if_neg (not_not.2 hb), if_neg (by simp [hr]), if_neg (by omega)]
  exact ⟨_, rfl, hr, rfl, rfl, rfl, rfl, rfl⟩

/-! A piece of a bulk write (R290, R291). -/

/-- The bytes of a piece lie in DRAM at its place, and no others change. -/
theorem placePiece_dram {off : Nat} {d : List Byte} (hw : Memory.wf s.dram) :
    readBytes (bulkAddr b s + off) d.length (placePiece b off d s).dram = d ∧
      ∀ a, a < bulkAddr b s + off ∨ bulkAddr b s + off + d.length ≤ a → readByte a (placePiece b off d s).dram = readByte a s.dram :=
  ⟨readBytes_writeBytes_self hw, fun _ ha => readByte_writeBytes_out hw ha⟩

theorem absorb_nil {j : Nat} (h : b.ahead = []) : absorb j b = b := by
  cases j with
  | zero => rfl
  | succ j =>
    unfold absorb
    rw [h]
    rfl

theorem pieceTaken_inOrder {m : Nat} (ha : b.ahead = []) (hl : b.got + m < b.len) (hg : b.grams < 15) :
    pieceTaken n id b b.got m s = modBulks n (fun l => l.put id { b with got := b.got + m, grams := b.grams + 1 }) s := by
  unfold pieceTaken
  dsimp only
  rw [if_pos rfl, absorb_nil (b := { b with got := b.got + m }) ha, if_neg (show ¬ b.got + m = b.len by omega), if_neg (show ¬ 16 ≤ b.grams + 1 by omega)]

theorem bulkData_inOrder {d : List Byte} (hb : bulkOf n id s = some b) (hr : b.read = false) (hi : isLoad b.idx b.sub = false)
    (hd : d ≠ []) (hp : d.length ≤ pieceLen) (ha : b.ahead = []) (hl : b.got + d.length < b.len) (hg : b.grams < 15) :
    bulkData n id b.got d s =
      modBulks n (fun l => l.put id { b with got := b.got + d.length, grams := b.grams + 1 }) (placePiece b b.got d s) := by
  have hlen : d.length ≠ 0 := fun e => hd (List.eq_nil_of_length_eq_zero e)
  unfold bulkData
  rw [hb]
  dsimp only
  rw [if_neg (by simp only [hr, Bool.false_eq_true, false_or]; omega), if_neg (by simp [ha, Tab.find]), if_neg (by simp [hi])]
  exact pieceTaken_inOrder ha hl hg

theorem bulkAddr_datagram (hi : isLoad b.idx b.sub = false) : bulkAddr b (datagram n s) = bulkAddr b s := by
  have hlayout : layoutMB (datagram n s) = layoutMB s := by
    funext i
    rw [layoutMB, datagram_mem]
    rfl
  simp only [bulkAddr, hi, stageBase, regionBase, hlayout, Bool.false_eq_true, if_false]

/-! A BULK_ACK, the sender's pieces, and a time-out (R290). -/

theorem sess_sendPieces {m top off k : Nat} : sess m (sendPieces n id b top k off s) = sess m s := by
  induction k generalizing off s with
  | zero => rfl
  | succ k ih =>
    unfold sendPieces
    split
    · rfl
    · exact ih

theorem out_sendPieces {top off k : Nat} : ∃ l, (sendPieces n id b top k off s).out = s.out ++ l := by
  induction k generalizing off s with
  | zero => exact ⟨[], by simp [sendPieces]⟩
  | succ k ih =>
    unfold sendPieces
    split
    · exact ⟨[], by simp⟩
    · obtain ⟨l, hl⟩ := ih (off := off + min pieceLen (top - off))
        (s := mopOut n 0x21 id 0 (toLe 4 id ++ toLe 4 off ++ readPiece n b off (min pieceLen (top - off)) s) s)
      exact ⟨_, hl.trans (List.append_assoc ..)⟩

/-- What is not yet sent below the limit is sent. -/
theorem out_sendPieces_ne {top off k : Nat} (h : off < top) : (sendPieces n id b top (k + 1) off s).out ≠ [] := by
  unfold sendPieces
  rw [if_neg (by omega)]
  obtain ⟨l, hl⟩ := out_sendPieces (n := n) (id := id) (b := b) (top := top) (off := off + min pieceLen (top - off)) (k := k)
    (s := mopOut n 0x21 id 0 (toLe 4 id ++ toLe 4 off ++ readPiece n b off (min pieceLen (top - off)) s) s)
  dsimp only
  rw [hl]
  simp [mopOut, mopFrom]

/-- A sender that is not stopped by poison counts what the acknowledged count allows as sent. -/
theorem bulkSend_sent (h : b.idx ≠ 0x6010) : bulkSend n id b s =
    modBulks n (fun l => l.put id { b with sent := max b.sent (min b.len (b.acked + 64 * pieceLen)) })
      (sendPieces n id b (min b.len (b.acked + 64 * pieceLen)) 64 b.sent s) :=
  if_neg fun hx => h hx.1

theorem bulkAck_all (hb : bulkOf n id s = some b) (hr : b.read = true) (ha : b.acked ≤ b.len) :
    bulkAck n id b.len s = modBulks n (fun l => l.del id) s := by
  have hmax : max b.acked (min b.len b.len) = b.len := by omega
  unfold bulkAck
  rw [hb]
  dsimp only
  rw [if_neg (by simp [hr]), if_pos hmax]

theorem bulkResend_read (hb : bulkOf n id s = some b) (hr : b.read = true) :
    bulkResend n id s = bulkSend n id { b with sent := b.acked } s := by
  unfold bulkResend
  rw [hb]
  exact if_pos hr

theorem bulkTimeout_open (hb : bulkOf n id s = some b) : bulkTimeout n id s = bulkEnd n id b 0xE s := by
  unfold bulkTimeout
  rw [hb]

theorem bulkAckInterval_write (hb : bulkOf n id s = some b) (hr : b.read = false) :
    bulkAckInterval n id s = modBulks n (fun l => l.put id { b with grams := 0 }) (ackOut n id b 0 0 s) := by
  unfold bulkAckInterval
  rw [hb]
  exact if_neg (by simp [hr])

/-- Settles O31. -/
theorem bulkTransfers : Obligations.BulkTransfers := by
  unfold Obligations.BulkTransfers
  refine ⟨fun n q r s hr ho hq hd hh hread hl hb => ?_, fun n id d b s hr hw hdf hb hread hi hd hp ha hl hg => ?_,
    fun n id b s hr hb hread ha => ?_, fun n id b s hr hb hread ha hi => ?_, fun n id b s hr hb hd => ?_,
    fun n id b s hr hb hread => ?_⟩
  · obtain ⟨b, hbegin, hb1, hb2, hb3, hb4, hb5, hb6⟩ := bulkBegin_write (q := q) (s := atTurn n q (fresh s)) hb hread hl
    have hsess := sess_atTurn (n := n) (q := q) (s := fresh s)
    have hall : receive n q (.bulk r) (fresh s) =
        modBulks n (fun l => l.put q b) (reply n q 0x22 (ackPayload q 0 0 0 0) (atTurn n q (fresh s))) := by
      rw [receive_inOrder (s := fresh s) ho hq hd]
      refine (congrArg (runHeld n 8) hbegin).trans (runHeld_nil ?_)
      rw [reply_opened (by simpa [hsess] using ho), sess_modBulks, sess_modSess_self, sess_emit, hsess]
      exact hh
    refine ⟨_, b, gated_run hr.1 hr.2, ?_⟩
    rw [hall]
    refine ⟨bulkOf_put, hb1, hb2, hb3, hb4, hb5, hb6, ?_⟩
    rw [reply_opened (by simpa [hsess] using ho), sourceOf_atTurn, modBulks]
    exact ⟨by simp, by simp; rfl⟩
  · have hdata := bulkData_inOrder (n := n) (id := id) (s := datagram n (fresh s)) (bulkOf_datagram.trans hb) hread hi hd hp ha hl hg
    obtain ⟨hin, hout⟩ := placePiece_dram (b := b) (s := datagram n (fresh s)) (off := b.got) (d := d) (by rw [datagram_dram]; exact hw)
    rw [bulkAddr_datagram (s := fresh s) hi] at hin hout
    have hall : effect (.bulkData n id b.got d) (fresh s) = _ := (congrArg (goOn n) hdata).trans
      (goOn_none (by rw [sess_modBulks]; exact (congrArg Session.deferred (sess_datagram (s := fresh s))).trans hdf))
    refine ⟨_, exec_effect hr nofun, ?_⟩
    rw [hall]
    exact ⟨bulkOf_put, hin, fun a ha => (hout a ha).trans (by simp; rfl)⟩
  · have hall : effect (.bulkAck n id b.len) (fresh s) = _ :=
      bulkAck_all (s := datagram n (fresh s)) (bulkOf_datagram.trans hb) hread ha
    refine ⟨_, exec_effect hr nofun, ?_⟩
    rw [hall]
    exact ⟨by rw [sess_modBulks, sess_datagram]; rfl, by simp [modBulks]⟩
  · have hmax : max b.acked (min b.len (b.acked + 64 * pieceLen)) = min b.len (b.acked + 64 * pieceLen) := by omega
    have hpiece : 0 < pieceLen := by decide
    refine ⟨_, gated_run hr.1 hr.2, ?_⟩
    rw [bulkResend_read (s := fresh s) hb hread, bulkSend_sent (b := { b with sent := b.acked }) hi]
    refine ⟨?_, out_sendPieces_ne (k := 63) ?_⟩
    · rw [bulkOf_put, hmax]
    · dsimp only
      omega
  · have hend : effect (.bulkTimeout n id) (fresh s) = bulkEnd n id b 0xE (fresh s) :=
      (congrArg (goOn n) (bulkTimeout_open (s := fresh s) hb)).trans (goOn_none (by rw [bulkEnd, sess_modBulks]; exact hd))
    refine ⟨_, exec_effect hr nofun, ?_⟩
    rw [hend]
    exact ⟨sess_modBulks, rfl, rfl⟩
  · refine ⟨_, gated_run hr.1 hr.2, ?_⟩
    rw [bulkAckInterval_write (s := fresh s) hb hread]
    exact ⟨bulkOf_put, rfl⟩

end Sys2Proof.Machine
end

section
/-!
PROOFS: subscriptions, notices and reports (R293, R294), signed sessions (R295), and the host-silence watchdog (R297).
-/
namespace Sys2Proof.Machine

variable {n q k : Nat} {s t : State}

/-! SUBSCRIBE (R293, R294). -/

/-- The session's settings after a SUBSCRIBE of a report set. -/
def subscribed (r : Subscription) (good : List (Nat × Nat)) (x : Session) : Session :=
  { x with mask := r.mask % 1024, sets := x.sets.put r.set { objs := good, period := r.period } }

theorem request_subscribe {r : Subscription} (hk : r.set < 4) (hne : r.objs ≠ []) (hlen : r.objs.length ≤ 32) (hp : 1 ≤ r.period)
    (hp' : r.period ≤ 60000) : ∃ good p u, request n q (.subscribe r) s = reply n q 0x31 p u ∧
      sess n u = subscribed r good (sess n s) ∧ ∀ o ∈ good, o ∈ r.objs := by
  rw [request, subscribe, if_neg (by omega)]
  dsimp only
  rw [if_neg (show ¬ r.set = 0xFF by omega)]
  refine ⟨r.objs.filter (fun o => reportEntry o (modSess n (fun x => { x with mask := r.mask % 1024 }) s) == 0), _, _, rfl, ?_,
    fun o ho => (List.mem_filter.1 ho).1⟩
  rw [sess_modSess_self, sess_modSess_self, if_neg hne]
  rfl

/-! A batch of notices, 44 a datagram (R285, R293). -/

/-- As many datagrams as the queue needs empty it. -/
theorem sendNotices_all {j : Nat} (h : (sess n s).queue.length ≤ 44 * j) : (sess n (sendNotices n j s)).queue = [] ∧
    (sendNotices n j s).out.length = s.out.length + ((sess n s).queue.length + 43) / 44 ∧ (sendNotices n j s).obj = s.obj := by
  induction j generalizing s with
  | zero =>
    have hnil : (sess n s).queue = [] := List.eq_nil_of_length_eq_zero (by omega)
    exact ⟨hnil, by simp [sendNotices, hnil], rfl⟩
  | succ j ih =>
    unfold sendNotices
    dsimp only
    split
    case isTrue hnil => exact ⟨hnil, by simp [hnil], rfl⟩
    case isFalse hne =>
      have hpos : 0 < (sess n s).queue.length := List.length_pos_iff.2 hne
      obtain ⟨hq, ho, hobj⟩ := ih (s := nextOut n (modSess n (fun x => { x with queue := (sess n s).queue.drop 44 })
        (mopOut n 0x32 (sess n s).outSeq (if (sess n s).queue.drop 44 = [] then 0 else 4)
          (((sess n s).queue.take 44).flatMap Notice.bytes) s))) (by
        rw [nextOut, sess_modSess_self, sess_modSess_self, List.length_drop]
        omega)
      refine ⟨hq, ho.trans ?_, hobj⟩
      rw [nextOut, sess_modSess_self, sess_modSess_self, List.length_drop]
      simp only [modSess_out, mopOut, mopFrom, emit_out, List.length_append, List.length_singleton]
      omega

/-! A report (R294). -/

theorem sendReport_set {r : ReportSet} (h : (sess n s).sets.find k = some r) : ∃ l,
    sendReport n k s = nextOut n (mopOut n 0x33 (sess n s).outSeq 0 (toLe 1 k ++ toLe 1 r.objs.length ++ l) s) := by
  unfold sendReport
  rw [h]
  exact ⟨_, by simp only [List.append_assoc]; rfl⟩

/-- Settles O32. -/
theorem noticesAndReports : Obligations.NoticesAndReports := by
  unfold Obligations.NoticesAndReports
  refine ⟨fun n q r s hr ho hq hd hh hk hne hlen hp hp' => ?_, fun n s hr hlen => ?_, fun n k r s hr hset => ?_⟩
  · have hsess := sess_atTurn (n := n) (q := q) (s := fresh s)
    obtain ⟨good, p, u, hreq, hu, hgood⟩ := request_subscribe (n := n) (q := q) (s := atTurn n q (fresh s)) hk hne hlen hp hp'
    rw [hsess] at hu
    refine ⟨_, { objs := good, period := r.period }, gated_run hr.1 hr.2, ?_⟩
    rw [receive_replied (s := fresh s) ho hq hd hreq (by rw [hu]; exact hh) (by rw [hu]; exact ho), sess_modSess_self, sess_emit, hu]
    exact ⟨rfl, Tab.find_put_self .., rfl, hgood, rfl⟩
  · obtain ⟨hqueue, hout, hobj⟩ := sendNotices_all (n := n) (j := 6) (s := fresh s) (hlen.trans (by decide))
    exact ⟨_, gated_run hr.1 hr.2, hqueue, by simpa using hout, hobj⟩
  · obtain ⟨l, hl⟩ := sendReport_set (s := fresh s) hset
    refine ⟨_, toLe 1 k ++ toLe 1 r.objs.length ++ l, gated_run hr.1 hr.2, ?_⟩
    rw [hl]
    exact ⟨rfl, rfl, by rw [nextOut, sess_modSess_self]; rfl⟩

/-! SIGN_PROOF (R295). -/

theorem keyKnown_congr {key : List Byte} (h : ∀ j, j < 256 → getV 0x5101 j t = getV 0x5101 j s) : keyKnown key t = keyKnown key s := by
  have hslots : getN 0x5101 5 t = getN 0x5101 5 s := by rw [getN_eq, h 5 (by decide), ← getN_eq]
  have hhash : ∀ i ∈ List.range 4, getB 0x5101 (i + 1) t = getB 0x5101 (i + 1) s := fun i hi => by
    have hi' : i < 4 := List.mem_range.1 hi
    rw [getB_eq, h _ (by omega), ← getB_eq]
  unfold keyKnown
  rw [hslots, Bool.eq_iff_iff, List.any_eq_true, List.any_eq_true]
  exact exists_congr fun i => and_congr_right fun hi => by rw [hhash i hi]

theorem keyKnown_atTurn {key : List Byte} : keyKnown key (atTurn n q s) = keyKnown key s :=
  keyKnown_congr fun j hj => getV_atTurn (by unfold Machine.key; omega) (by unfold Machine.key; omega)

theorem proofMessage_atTurn : proofMessage n (atTurn n q s) = proofMessage n s := by
  have hid : chipId (atTurn n q s) = chipId s := by
    rw [chipId, getN_eq, getV_atTurn (by decide) (by decide)]
    rfl
  rw [proofMessage, proofMessage, sess_atTurn, hid]

/-- The session is proven under a key. -/
def proved (n : Nat) (key : List Byte) (s : State) : State := modSess n (fun x => { x with proven := true, key := key, rwp := 0 }) s

/-- A proof that verifies under a known key (R295). -/
theorem signProof_good {key sig : List Byte} (hc : (sess n s).cls = 2) (hp : (sess n s).proven = false) (hk : keyKnown key s = true)
    (hv : verify key sig (proofMessage n s) = true) :
    signProof n q key sig s = reply n q 0x41 (toLe 2 0) (proved n key s) := by
  unfold signProof
  rw [if_neg (by simp [hc, hp]), if_pos ⟨hk, hv⟩]
  rfl

/-- A proof under a key that is not known fails (R295). -/
theorem signProof_unknown {key sig : List Byte} (hc : (sess n s).cls = 2) (hp : (sess n s).proven = false) (hk : keyKnown key s = false) :
    signProof n q key sig s = proofFailed n q s := by
  unfold signProof
  rw [if_neg (by simp [hc, hp]), if_neg (by simp [hk])]

/-- A failed proof closes the session; the lockout that may follow adds no output and opens no session. -/
theorem proofFailed_closes (ho : (sess n s).opened = true) :
    (sess n (proofFailed n q s)).opened = false ∧ (proofFailed n q s).out = s.out ++ [.mop n (sourceOf s) (mopBytes n 0x41 q 1 (toLe 2 8))] := by
  have hclosed : sess n (closeNow n (reply n q 0x41 (toLe 2 8) s)) = {} := sess_modSess_self ..
  have hout : (closeNow n (reply n q 0x41 (toLe 2 8) s)).out = s.out ++ [.mop n (sourceOf s) (mopBytes n 0x41 q 1 (toLe 2 8))] := by
    rw [closeNow, modSess_out, reply_opened ho, modSess_out, emit_out]
  unfold proofFailed
  dsimp only
  split
  · exact ⟨congrArg Session.opened hclosed, hout⟩
  · have hquiet := fun v u => quiet_noticeObj (s := setI 0x0200 5 1 u) 0 0 0x0200 5 v
    exact ⟨((hquiet _ _).sessions n).1.trans (congrArg Session.opened hclosed), (hquiet _ _).out.trans hout⟩

/-! The host-silence watchdog (R297). -/

theorem hostSilence_expires (h : watchdogState s = 1) : getN 0x0211 2 (hostSilence s) = 2 ∧
    getN 0x0211 4 (hostSilence s) = (getN 0x0211 4 s + 1) % 2 ^ 32 ∧ getN 0x0406 1 (hostSilence s) = 0x0013 := by
  have hstop : hostSilence s = faultStop allBerths 1 0x0013 s.now (noticeObj 0 0 0x0211 2 1 (addN 0x0211 4 32 1 (setN 0x0211 2 2 s))) :=
    if_neg (not_not.2 h)
  have hkeeps : ∀ k, k < 256 → getN 0x0211 k (hostSilence s) = getN 0x0211 k (addN 0x0211 4 32 1 (setN 0x0211 2 2 s)) := fun k hk => by
    rw [hstop, stands_faultStop.getN (by unfold stopKey noticeKey berthKey key; omega),
      (quiet_noticeObj ..).getN (by unfold noticeKey key; omega)]
  refine ⟨?_, ?_, ?_⟩
  · rw [hkeeps 2 (by decide), addN, getN_setN_ne _ _ (by decide), getN_setN_self]
  · rw [hkeeps 4 (by decide), addN, getN_setN_self, getN_setN_ne _ _ (by decide)]
  · rw [hstop]
    exact faultShown_coveredFault.last

/-- Settles O33. -/
theorem proofsAndSilence : Obligations.ProofsAndSilence := by
  unfold Obligations.ProofsAndSilence
  refine ⟨fun n q key sig s hr ho hq hd hh hc hp hk hv => ?_, fun n q key sig s hr ho hq hd hc hp hk => ?_, fun s hr => ?_,
    fun s hr hw => ?_⟩
  · have hsess := sess_atTurn (n := n) (q := q) (s := fresh s)
    have hgood : request n q (.proof key sig) (atTurn n q (fresh s)) = reply n q 0x41 (toLe 2 0) (proved n key (atTurn n q (fresh s))) :=
      signProof_good (by rw [hsess]; exact hc) (by rw [hsess]; exact hp) (keyKnown_atTurn.trans hk) (by rw [proofMessage_atTurn]; exact hv)
    have hproved : sess n (proved n key (atTurn n q (fresh s))) = _ := (sess_modSess_self ..).trans (by rw [hsess])
    refine ⟨_, gated_run hr.1 hr.2, ?_⟩
    rw [receive_replied (s := fresh s) ho hq hd hgood (by rw [hproved]; exact hh) (by rw [hproved]; exact ho), sess_modSess_self,
      sess_emit, hproved]
    exact ⟨rfl, rfl, by simp [proved]⟩
  · have hsess := sess_atTurn (n := n) (q := q) (s := fresh s)
    obtain ⟨hclosed, hout⟩ := proofFailed_closes (q := q) (s := atTurn n q (fresh s)) (by rw [hsess]; exact ho)
    have hfail : request n q (.proof key sig) (atTurn n q (fresh s)) = proofFailed n q (atTurn n q (fresh s)) :=
      signProof_unknown (by rw [hsess]; exact hc) (by rw [hsess]; exact hp) (keyKnown_atTurn.trans hk)
    refine ⟨_, gated_run hr.1 hr.2, ?_⟩
    rw [receive_inOrder (s := fresh s) ho hq hd, hfail, runHeld_closed hclosed]
    exact ⟨hclosed, hout.trans (by simp)⟩
  · exact ⟨_, gated_run hr.1 hr.2, getN_setN_self ..⟩
  · exact ⟨_, gated_run hr.1 hr.2, hostSilence_expires (s := fresh s) hw⟩

end Sys2Proof.Machine
end

section
/-!
PROOFS: the SPI maintenance port (R298, R299).
-/
namespace Sys2Proof.Machine

variable {n i k v : Nat} {s : State}

/-! A transaction is seen: it may feed the watchdog, 0x0211:02 (R297). -/

theorem spiSeen_eq : spiSeen s = { s with obj := (spiSeen s).obj } := by
  unfold spiSeen
  split
  · exact feed_eq
  · rfl

@[simp] theorem spiSeen_net : (spiSeen s).net = s.net := by rw [spiSeen_eq]
@[simp] theorem spiSeen_out : (spiSeen s).out = s.out := by rw [spiSeen_eq]
@[simp] theorem spiSeen_dram : (spiSeen s).dram = s.dram := by rw [spiSeen_eq]
@[simp] theorem spiSeen_pilot : (spiSeen s).pilot = s.pilot := by rw [spiSeen_eq]
@[simp] theorem spiSeen_shadow : (spiSeen s).shadow = s.shadow := by rw [spiSeen_eq]
@[simp] theorem sess_spiSeen : sess n (spiSeen s) = sess n s := by rw [sess, spiSeen_net]; rfl

theorem getV_spiSeen (h : key i k ≠ key 0x0211 2) : getV i k (spiSeen s) = getV i k s := by
  unfold spiSeen
  split
  · exact getV_feed h
  · rfl

theorem awayResult_spiSeen {w : Bool} : awayResult i k w (spiSeen s) = awayResult i k w s := by
  have hg : getN 0x0300 2 (spiSeen s) = getN 0x0300 2 s := by rw [getN_eq, getV_spiSeen (by decide), ← getN_eq]
  unfold awayResult rung
  rw [spiSeen_pilot, hg]

/-! A request of the port (R298, R299). -/

theorem spiRequest_run {f : State → State} (h : s.net.spiState ≠ 1) : spiRequest true f s = f (spiSeen s) := by
  unfold spiRequest
  dsimp only
  rw [spiSeen_net, if_neg h, if_neg (by decide)]

theorem spiRequest_turnedAway {crc : Bool} {f : State → State} (h : s.net.spiState = 1 ∨ crc = false) :
    (spiRequest crc f s).net.spiResult = if s.net.spiState = 1 then 0xB else 0xD := by
  unfold spiRequest
  dsimp only
  rw [spiSeen_net]
  split
  · rfl
  · rw [if_pos (by simp [h.resolve_left (by assumption)])]
    rfl

theorem spiAnswer_done {read : Bool} {p : Part} (h : p.head = none) : spiAnswer read p s = spiDone read p.res p.data s :=
  if_neg (by simp [h])

theorem spiRead_classMask {x : Int} (ha : awayResult 0x0500 9 false s = 0) (hv : shadowV 0x0500 9 s = .int x) :
    spiRead 0x0500 9 0 2 s = spiDone true 0 (toLeI 2 x) s := by
  unfold spiRead
  dsimp only
  rw [if_neg (by decide), readEntry_classMask ⟨rfl, rfl, rfl, rfl⟩ rfl (by decide) ha hv, spiAnswer_done rfl]

theorem spiWriteEntry_classMask {e : Entry} (hi : e.idx = 0x0500) (hk : e.sub = 9) (ho : e.offset = 0) (hd : e.data = toLe 2 v)
    (hv : v ≤ 1023) (hw : writeBarred 16 0x0500 9 s = 0) :
    spiWriteEntry e s = spiDone false 0 [] (setV 0x0500 9 (.int v) (withResult 0 s)) := by
  unfold spiWriteEntry
  dsimp only
  rw [writeEntry_classMask (e := { e with part := e.offset != 0 }) ⟨hi, hk, by rw [ho]; rfl, ho⟩ hd hv hw, spiAnswer_done rfl]

/-- A write of the class mask over the port: the value is in force, and the result stands. -/
theorem spiRequest_write_classMask {e : Entry} (hst : s.net.spiState ≠ 1) (hi : e.idx = 0x0500) (hk : e.sub = 9) (ho : e.offset = 0)
    (hd : e.data = toLe 2 v) (hv : v ≤ 1023) (ha : awayResult 0x0500 9 true s = 0) (hb : writeBar 16 s = 0) (t : State)
    (ht : t = spiRequest true (spiWriteEntry e) s) :
    getN 0x0500 9 t = v ∧ t.net.spiState = 3 ∧ t.net.spiResult = 0 ∧ t.dram = s.dram := by
  have hbar : writeBarred 16 0x0500 9 (spiSeen s) = 0 :=
    writeBarred_classMask (awayResult_spiSeen.trans ha) (by rw [writeBar, sess_spiSeen]; exact hb)
  have he : t = spiDone false 0 [] (setV 0x0500 9 (.int v) (withResult 0 (spiSeen s))) := by
    rw [ht, spiRequest_run hst, spiWriteEntry_classMask hi hk ho hd hv hbar]
  subst he
  refine ⟨?_, rfl, rfl, spiSeen_dram⟩
  have hv' : getV 0x0500 9 (spiDone false 0 [] (setV 0x0500 9 (.int v) (withResult 0 (spiSeen s)))) = .int v := getV_setV_self ..
  rw [getN_eq, hv']
  rfl

/-- Settles O34. -/
theorem spiPort : Obligations.SpiPort := by
  unfold Obligations.SpiPort
  refine ⟨fun v s hr hst ha hv => ?_, fun i k off len crc s hr h => ?_, fun v e s hr hst hi hk ho hd hv ha hb => ?_,
    fun v e s hr hst hi hk ho hd hv ha hb => ?_, fun l s hr hl => ?_, fun s hr => ?_, fun l s hr hl => ?_⟩
  · have hshadow : shadowV 0x0500 9 (spiSeen (fresh s)) = .int v := by
      rw [← hv, shadowV, shadowV, getV_spiSeen (by decide), spiSeen_shadow]
      rfl
    refine ⟨_, gated_run hr.1 hr.2, ?_⟩
    rw [spiRequest_run (s := fresh s) hst, spiRead_classMask ((awayResult_spiSeen (s := fresh s)).trans ha) hshadow]
    exact ⟨rfl, rfl, rfl⟩
  · exact ⟨_, gated_run hr.1 hr.2, spiRequest_turnedAway (s := fresh s) h⟩
  · exact ⟨_, gated_run hr.1 hr.2, spiRequest_write_classMask (s := fresh s) hst hi hk ho hd hv ha hb _ rfl⟩
  · exact ⟨_, gated_run hr.1 hr.2, spiRequest_write_classMask (s := fresh s) hst hi hk ho hd hv ha hb _ rfl⟩
  · refine ⟨_, exec_effect hr nofun, ?_, spiSeen_net⟩
    subst hl
    simp only [effect, spiOut, emit_out, spiSeen_out, spiSeen_net, sess_spiSeen]
    rfl
  · refine ⟨_, exec_effect hr nofun, ?_, spiSeen_net⟩
    simp only [effect, spiOut, emit_out, spiSeen_out]
    rfl
  · refine ⟨_, exec_effect hr nofun, ?_, ?_⟩
    · subst hl
      simp only [effect, fetchNotices, spiOut, emit_out, modSess_out, spiSeen_out]
      rfl
    · simp only [effect, fetchNotices, spiOut, sess_emit, sess_modSess_self, sess_spiSeen]
      rfl

end Sys2Proof.Machine
end

section
/-!
PROOFS: presence, the port links and the frames of the Ethernet ports (R271, R272, R275).
-/
namespace Sys2Proof.Machine

variable {n p i k : Nat} {f : EthFrame} {s t u : State}

/-! PRESENCE (R275). -/

/-- What a PRESENCE says of the node is formed from its addresses, its harbour and some objects of its identity. -/
theorem presenceOut_congr (ha : SameAddress s t) (hh : t.hm = s.hm) (ho : t.out = s.out)
    (hi : ∀ k, k < 256 → getV 0x0100 k t = getV 0x0100 k s) (hm : getV 0x0801 6 t = getV 0x0801 6 s) :
    (presenceOut t).out = s.out ++ [.multicast (presencePayload (ipv4 s) s)] := by
  have hpay : presencePayload (ipv4 t) t = presencePayload (ipv4 s) s := by
    simp only [presencePayload, ha.ipv4, hh, ha.2.1, getN_eq, hi 4 (by decide), hi 5 (by decide), hi 7 (by decide), hm, ha.2.2.2.2.2]
  rw [presenceOut, emit_out, ho, hpay]

theorem sameAddress_setV {v : Val} (h : ∀ j, j < 256 → key 0x0802 j ≠ key i k) (h1 : key 0x0801 1 ≠ key i k) : SameAddress s (setV i k v s) :=
  ⟨rfl, rfl, getV_setV_ne _ _ (h 1 (by decide)), getV_setV_ne _ _ (h 2 (by decide)), getV_setV_ne _ _ (h 6 (by decide)), getV_setV_ne _ _ h1⟩

theorem out_discover : (presenceOut (datagram n s)).out = s.out ++ [.multicast (presencePayload (ipv4 s) s)] :=
  presenceOut_congr sameAddress_datagram datagram_hm datagram_out
    (fun k hk => getV_datagram (by unfold key; omega) (by unfold key; omega)) (getV_datagram (by decide) (by decide))

/-- A notice leaves the node's address with it. -/
theorem withdrawn_noticeAt {cls num code : Nat} {d : List Byte} {tm : Time} :
    (noticeAt cls num code d tm s).net.withdrawn = s.net.withdrawn := by
  have hone : ∀ (m : Notice) (j : Nat) (u : State), (queueNotice m j u).net.withdrawn = u.net.withdrawn := fun m j u => by
    unfold queueNotice
    dsimp only
    split_ifs <;> rfl
  have hall : ∀ (m : Notice) (l : List Nat) (u : State), (each l (queueNotice m) u).net.withdrawn = u.net.withdrawn := by
    intro m l
    induction l with
    | nil => exact fun _ => rfl
    | cons j l ih => exact fun u => (ih _).trans (hone ..)
  unfold noticeAt
  dsimp only
  split
  · rw [net_logAdd]
    exact hall ..
  · exact hall ..

/-- The state after a PRESENCE has shown the node's number twice. -/
theorem presence_duplicate {m : PresenceMsg} (hn : m.node = getN 0x0801 1 s) (hm : m.mac ≠ getN 0x0801 6 s) :
    getN 0x0801 5 (presence m s) = 1 ∧ (getN 0x0802 1 s = 1 → (presence m s).net.withdrawn = true) := by
  have hget : ∀ i k, key i k ≠ key 0x0805 1 → key i k ≠ key 0x0211 2 → getN i k (datagram 0xFF s) = getN i k s := fun i k => getN_datagram
  have hshown : ∀ u, getN 0x0801 5 (setNotice 0 0 0x0801 5 1 u) = 1 := fun u => by
    rw [setNotice, (quiet_noticeObj ..).getN (by simp [noticeKey, key]), getN_setI_self]
    rfl
  have hmode : getN 0x0802 1 (setNotice 0 0 0x0801 5 1 (datagram 0xFF s)) = getN 0x0802 1 s := by
    rw [setNotice, (quiet_noticeObj ..).getN (by simp [noticeKey, key]), getN_setI_ne _ _ (by decide), hget _ _ (by decide) (by decide)]
  unfold presence
  dsimp only
  rw [hget 0x0801 1 (by decide) (by decide), hget 0x0801 6 (by decide) (by decide), if_neg (by simp [hn, hm]), hmode]
  split
  case isTrue => exact ⟨hshown _, fun _ => rfl⟩
  case isFalse h => exact ⟨hshown _, fun h1 => by simpa [h1] using h⟩

/-! The port links (R271). -/

theorem portUp_portBit_self {v : Bool} : portUp p (portBit p v s) = v := by
  rw [portUp, portBit, getN_setN_self, bit_setBit_self]

theorem portUp_portBit_ne {q : Nat} {v : Bool} (h : q ≠ p) : portUp q (portBit p v s) = portUp q s := by
  rw [portUp, portBit, getN_setN_self, bit_setBit_ne h]
  rfl

theorem portLinkUp_comes (ha : portAllowed p s = true) (hu : portUp p s = false) : portLinkUp p s = presenceOut (portBit p true s) :=
  if_pos ⟨ha, by simp [hu]⟩

theorem out_portBit : (presenceOut (portBit p true s)).out = s.out ++ [.multicast (presencePayload (ipv4 s) s)] :=
  presenceOut_congr (sameAddress_setV (fun j _ => by unfold key; omega) (by decide)) rfl rfl
    (fun k hk => getV_setV_ne _ _ (by unfold key; omega)) (getV_setV_ne _ _ (by decide))

/-! Frames (R271, R272, R281). -/

/-- A frame goes on: the ports' objects and the network's records stand, and outputs may follow. -/
structure GoesOn (s t : State) : Prop where
  ports : ∀ k, k < 256 → getV 0x0800 k t = getV 0x0800 k s
  net : t.net = s.net
  out : ∃ l, t.out = s.out ++ l

theorem GoesOn.refl (s : State) : GoesOn s s := ⟨fun _ _ => rfl, rfl, [], by simp⟩

theorem GoesOn.step (h : GoesOn t u) (h' : GoesOn s t) : GoesOn s u := by
  obtain ⟨l, hl⟩ := h.out
  obtain ⟨l', hl'⟩ := h'.out
  exact ⟨fun k hk => (h.ports k hk).trans (h'.ports k hk), h.net.trans h'.net, l' ++ l, by rw [hl, hl', List.append_assoc]⟩

theorem goesOn_emit {o : Out} : GoesOn s (emit o s) := ⟨fun _ _ => rfl, rfl, [o], rfl⟩

theorem goesOn_addN {w m : Nat} (h : 0x0801 ≤ i) (hk : k < 256) : GoesOn s (addN i k w m s) :=
  ⟨fun j hj => getV_setV_ne _ _ (by unfold key; omega), rfl, [], by simp [addN, setN_eq]⟩

theorem goesOn_modPtp {g : Ptp → Ptp} : GoesOn s (modPtp g s) := ⟨fun _ _ => rfl, rfl, [], by simp [modPtp]⟩

theorem goesOn_transparent : GoesOn s (transparent p f s).2 := by
  unfold transparent
  dsimp only
  split
  · exact .refl s
  · split
    · split
      · exact goesOn_modPtp (g := fun p => { p with residences := _ })
      · exact goesOn_addN (by decide) (by decide)
    · split
      · split
        · exact goesOn_addN (by decide) (by decide)
        · exact .step (goesOn_addN (by decide) (by decide)) goesOn_modPtp
      · exact .refl s

theorem goesOn_forward : GoesOn s (forward p f s) := by
  unfold forward
  split
  · have h := goesOn_transparent (p := p) (f := f) (s := s)
    split
    · rename_i he
      rw [he] at h
      exact h
    · rename_i he
      rw [he] at h
      exact .step goesOn_emit h
  · exact goesOn_emit

/-- A source address that is not a group's is learned with its port and time, while the table has a place (R272). -/
theorem macs_learn (hg : isGroup f.src = false) (hl : s.net.macs.length < 4096) :
    (learn p f s).net.macs.find f.src = some (p, s.now) := by
  have hput : ∀ l : Tab (Nat × Time), (Tab.put f.src (p, s.now) l).length ≤ l.length + 1 := by
    intro l
    induction l with
    | nil => exact Nat.le_refl 1
    | cons e l ih =>
      obtain ⟨k, v⟩ := e
      unfold Tab.put
      split_ifs <;> simp only [List.length_cons] <;> omega
  have hyoung := List.length_filter_le (fun e : Nat × Nat × Time => decide (s.now ≤ e.2.2 + msT 300000)) s.net.macs
  have hlen := hput (s.net.macs.filter (fun e => decide (s.now ≤ e.2.2 + msT 300000)))
  unfold learn
  rw [if_neg (by simp [hg])]
  dsimp only
  rw [if_neg (by omega)]
  exact Tab.find_put_self ..

theorem getV_learn : getV i k (learn p f s) = getV i k s := by
  unfold learn
  split <;> rfl

theorem out_learn : (learn p f s).out = s.out := by
  unfold learn
  split <;> rfl

/-- A frame that is for the node is delivered; only the count of bad MOP datagrams may change. -/
def deliverTo (f : EthFrame) (s : State) : State :=
  if forNode f s then emit (.deliver f) (if f.mop = [] ∨ mopGood f.mop then s else addN 0x0805 2 32 1 s) else s

theorem goesOn_deliverTo : GoesOn s (deliverTo f s) := by
  unfold deliverTo
  split
  · refine .step goesOn_emit ?_
    split
    · exact .refl s
    · exact goesOn_addN (by decide) (by decide)
  · exact .refl s

theorem deliver_mem (h : forNode f s = true) : .deliver f ∈ (deliverTo f s).out := by
  rw [deliverTo, if_pos h, emit_out]
  exact List.mem_append_right _ (.head _)

/-- Whether a frame is for the node is judged by objects other than the count of frames, and by the state's objects alone. -/
theorem forNode_congr (h : ∀ i j, key i j ≠ key 0x0800 0x0A → getV i j t = getV i j s) : forNode f t = forNode f s := by
  have hN : ∀ i j, key i j ≠ key 0x0800 0x0A → getN i j t = getN i j s := fun i j hk => by rw [getN_eq, h i j hk, ← getN_eq]
  have hB : getB 0x0802 6 t = getB 0x0802 6 s := by rw [getB_eq, h _ _ (by decide), ← getB_eq]
  simp only [forNode, joined, solicited, tcOn, hB, hN 0x0801 6 (by decide), hN 0x0803 1 (by decide), hN 0x0803 2 (by decide), hN 0x0800 3 (by decide)]

/-- The state as a frame that is counted, and not discarded, leaves the bridge's table. -/
def bridged (p : Nat) (f : EthFrame) (s : State) : State :=
  if bridgeOn s then learn p f s else s

theorem getV_bridged : getV i k (bridged p f s) = getV i k s := by
  unfold bridged
  split
  · exact getV_learn
  · rfl

/-- The count of frames stands when that of discarded frames goes up. -/
theorem frames_addN {m : Nat} (h : key 0x0800 0x0A ≠ key i k) :
    getN 0x0800 0x0A (addN i k 32 m (addN 0x0800 0x0A 64 1 s)) = (getN 0x0800 0x0A s + 1) % 2 ^ 64 := by
  rw [addN, getN_setN_ne _ _ h]
  exact getN_setN_self ..

theorem ethernetFrame_good (hu : portUp p s = true) (hb : frameBad f = false) : ∃ t, ethernetFrame p f s = t ∧
    GoesOn (deliverTo f (bridged p f (addN 0x0800 0x0A 64 1 s))) t := by
  unfold ethernetFrame
  rw [if_neg (by simp [hu])]
  dsimp only
  rw [if_neg (by simp [hb])]
  refine ⟨_, rfl, ?_⟩
  split
  · exact goesOn_forward
  · exact .refl _

theorem ethernetFrame_bad (hu : portUp p s = true) (hb : frameBad f = true) :
    ethernetFrame p f s = addN 0x0800 0x0B 32 1 (addN 0x0800 0x0A 64 1 s) := by
  unfold ethernetFrame
  rw [if_neg (by simp [hu])]
  exact if_pos hb

/-- Settles O35. -/
theorem networkPorts : Obligations.NetworkPorts := by
  unfold Obligations.NetworkPorts
  refine ⟨fun s hr => ?_, fun m s hr hn hm => ?_, fun p s hr ha hu => ?_, fun p s hr => ?_, fun p f s hr hu => ?_⟩
  · exact ⟨_, exec_effect hr nofun, out_discover (s := fresh s)⟩
  · exact ⟨_, gated_run hr.1 hr.2, presence_duplicate (s := fresh s) hn hm⟩
  · have hcomes := portLinkUp_comes (s := fresh s) ha hu
    exact ⟨_, gated_run hr.1 hr.2, by rw [hcomes]; exact portUp_portBit_self, by rw [hcomes]; exact out_portBit⟩
  · have hp : p < 2 := of_decide_eq_true hr.1
    exact ⟨_, gated_run hr.1 hr.2, portUp_portBit_self, portUp_portBit_ne (by omega)⟩
  · refine ⟨_, gated_run hr.1 hr.2, ?_⟩
    cases hb : frameBad f
    case true =>
      rw [ethernetFrame_bad (s := fresh s) hu hb]
      exact ⟨frames_addN (by decide), fun _ => ⟨(getN_setN_self ..).trans (by rw [addN, getN_setN_ne _ _ (by decide)]; rfl), rfl⟩, nofun, nofun⟩
    case false =>
      obtain ⟨t, ht, hgo⟩ := ethernetFrame_good (s := fresh s) (f := f) hu hb
      rw [ht]
      have hall : GoesOn (bridged p f (addN 0x0800 0x0A 64 1 (fresh s))) t := .step hgo goesOn_deliverTo
      refine ⟨?_, nofun, fun _ hf => ?_, fun _ hbr hg hl => ?_⟩
      · rw [getN_eq, hall.ports 0x0A (by decide), getV_bridged, ← getN_eq]
        exact getN_setN_self ..
      · obtain ⟨l, hl⟩ := hgo.out
        rw [hl]
        refine List.mem_append_left _ (deliver_mem ((forNode_congr fun i j hk => ?_).trans hf))
        rw [getV_bridged]
        exact getV_setV_ne _ _ hk
      · rw [hall.net, bridged, if_pos ?_]
        · exact macs_learn hg hl
        · rw [bridgeOn, addN, getN_setN_ne _ _ (by decide)]
          exact hbr

end Sys2Proof.Machine
end

section
/-!
PROOFS: the clock's messages, its roles, and the setting of harbour time (R276 to R282).
-/
namespace Sys2Proof.Machine

variable {i k : Nat} {m : PtpMsg} {s t u : State}

/-! The servo (R278, R282). -/

/-- A step of the clock keeps to the servo: of the objects only 0x0804:03, :06 and :09 change, of the time unit only the base of its slew. -/
structure Steers (s t : State) : Prop where
  obj : ∀ i k, key i k ≠ key 0x0804 3 → key i k ≠ key 0x0804 6 → key i k ≠ key 0x0804 9 → getV i k t = getV i k s
  ptp : t.ptp = { s.ptp with slewBase := t.ptp.slewBase }

theorem Steers.refl (s : State) : Steers s s := ⟨fun _ _ _ _ _ => rfl, rfl⟩

theorem Steers.step (h : Steers t u) (h' : Steers s t) : Steers s u :=
  ⟨fun i k h3 h6 h9 => (h.obj i k h3 h6 h9).trans (h'.obj i k h3 h6 h9), h.ptp.trans (by rw [h'.ptp])⟩

theorem Steers.getN (h : Steers s t) (h3 : key i k ≠ key 0x0804 3) (h6 : key i k ≠ key 0x0804 6) (h9 : key i k ≠ key 0x0804 9) :
    getN i k t = getN i k s := by
  rw [getN_eq, h.obj i k h3 h6 h9, ← getN_eq]

theorem Steers.getI (h : Steers s t) (h3 : key i k ≠ key 0x0804 3) (h6 : key i k ≠ key 0x0804 6) (h9 : key i k ≠ key 0x0804 9) :
    getI i k t = getI i k s := by
  rw [getI_eq, h.obj i k h3 h6 h9, ← getI_eq]

theorem steers_setN {v : Nat} (h : k = 3 ∨ k = 9) : Steers s (setN 0x0804 k v s) := by
  refine ⟨fun i j h3 _ h9 => getV_setV_ne _ _ ?_, rfl⟩
  obtain rfl | rfl := h
  · exact h3
  · exact h9

/-- The new base of the slew, as a change of the time unit. -/
theorem steers_modPtp {b : Option Int} {v : Int} :
    Steers s (modPtp (fun p => { p with slewBase := b }) (setI 0x0804 6 v (drawn s))) :=
  ⟨fun _ _ _ h6 _ => getV_setV_ne _ _ h6, rfl⟩

theorem steers_steer {dt : Nat} : Steers s (steer dt s) := by
  unfold steer
  split
  · exact steers_modPtp
  · exact steers_modPtp

theorem steers_servoOffset {off : Int} {dt : Nat} : Steers s (servoOffset off dt s) := by
  unfold servoOffset
  dsimp only
  generalize (if s.ptp.master.any (fun m => m.ptpScale) then 1 else 2 : Nat) = v
  split
  · exact .refl s
  · split
    · exact .step (steers_setN (.inl rfl)) (.step (t := setN 0x0804 9 v s) ⟨fun _ _ _ _ _ => rfl, rfl⟩ (steers_setN (.inr rfl)))
    · exact .step steers_steer (.step (steers_setN (.inl rfl)) (steers_setN (.inr rfl)))

/-- The delay that an offset takes off: that of the link under P2P, else that of the path. -/
def delayOf (port : Nat) (s : State) : Int :=
  if getN 0x0803 5 s = 1 then s.ptp.linkDelay.getD port 0 else s.ptp.pathDelay

/-- The node follows its master, and shows the offset of the Sync, which no longer waits (R282). -/
theorem syncOffset_shows {t1 t2 : Int} {port : Nat} : getN 0x0803 0x0D (syncOffset t1 t2 port s) = 9 ∧
    getI 0x0804 4 (syncOffset t1 t2 port s) = sat32 (t2 - t1 - delayOf port s) ∧ (syncOffset t1 t2 port s).ptp.syncWait = none := by
  unfold syncOffset
  dsimp only
  refine ⟨?_, ?_, ?_⟩
  · rw [steers_servoOffset.getN (by decide) (by decide) (by decide), getN_setI_ne _ _ (by decide)]
    exact getN_setN_self ..
  · rw [steers_servoOffset.getI (by decide) (by decide) (by decide), getI_setI_self]
    rfl
  · rw [steers_servoOffset.ptp]
    rfl

/-! Messages (R279, R280, R282). -/

theorem sync_waits (h : fromMaster m s = true) (h2 : m.twoStep = true) : sync m s = modPtp (fun p => { p with syncWait := some m }) s := by
  rw [sync, if_neg (by simp [h]), if_pos h2]

theorem sync_offset (h : fromMaster m s = true) (h2 : m.twoStep = false) :
    sync m s = syncOffset (m.origin + m.correction) (rxAt m s) m.port s := by
  rw [sync, if_neg (by simp [h]), if_neg (by simp [h2])]

theorem followUp_completes {y : PtpMsg} (hy : s.ptp.syncWait = some y) (h : fromMaster m s = true) (hq : m.seqId = y.seqId) (hs : m.source = y.source) :
    followUp m s = syncOffset (m.origin + m.correction + y.correction) (rxAt y s) y.port s := by
  simp only [followUp, hy, h, hq, hs, and_self, if_true]

theorem delayReq_answered (h : ptpHears m s = true) (h6 : getN 0x0803 0x0D s = 6) (h0 : getN 0x0803 5 s = 0) :
    delayReq m s = emit (.ptp 9 m.seqId m.source (rxAt m s)) s := if_pos ⟨h, h6, h0⟩

theorem delayResp_completes {q : Nat} {t1 t2 t3 : Int} (hd : s.ptp.delaySent = some (q, t3)) (hl : s.ptp.lastSync = some (t1, t2))
    (h : fromMaster m s = true) (hq : m.seqId = q) :
    delayResp m s = setI 0x0804 5 (sat32 (((t2 - t1) + (m.origin - m.correction - t3)) / 2))
      (modPtp (fun p => { p with pathDelay := ((t2 - t1) + (m.origin - m.correction - t3)) / 2, delaySent := none }) s) := by
  simp only [delayResp, hd, hl, h, hq, and_self, if_true]

theorem pdelayResp_completes {q : Nat} {t1 : Int} (hd : s.ptp.pdelaySent = some (q, t1)) (h : peerDelays s = true) (hq : m.seqId = q) :
    pdelayResp m s = setI 0x0804 5 (sat32 ((rxAt m s - (t1 + txCorrection m.port s) - m.origin - m.correction) / 2))
      (modPtp (fun p => { p with
        linkDelay := p.linkDelay.put m.port ((rxAt m s - (t1 + txCorrection m.port s) - m.origin - m.correction) / 2) }) s) := by
  simp only [pdelayResp, hd]
  exact if_neg (by simp [h, hq])

/-- A Pdelay_Req under P2P is answered, in two-step mode with the stamp of the answer. -/
theorem pdelayReq_answered (h : peerDelays s = true) : (pdelayReq m s).obj = s.obj ∧ (pdelayReq m s).out = s.out ++
    .ptp 3 m.seqId m.source (rxAt m s) ::
      (if getN 0x0803 3 s = 1 then [.ptp 0x0A m.seqId m.source (s.now + txCorrection m.port s)] else []) := by
  unfold pdelayReq
  dsimp only
  rw [if_neg (by simp [h])]
  split
  · exact ⟨rfl, by simp only [emit_out, List.append_assoc, List.cons_append, List.nil_append]⟩
  · exact ⟨rfl, emit_out ..⟩

/-- Settles O36. -/
theorem ptpMessages : Obligations.PtpMessages := by
  unfold Obligations.PtpMessages
  refine ⟨fun m s hr hm => ?_, fun m y s hr hy hm hq hs => ?_, fun m s hr hh h6 h0 => ?_, fun m q t1 t2 t3 s hr hd hl hm hq => ?_,
    fun m s hr hp => ?_, fun m q t1 d s hr hd hp hq hv => ?_⟩
  · refine ⟨_, gated_run hr.1 hr.2, fun h2 => ?_, fun h2 => ?_⟩
    · rw [sync_waits (s := fresh s) hm h2]
      exact ⟨rfl, rfl⟩
    · rw [sync_offset (s := fresh s) hm h2]
      exact ⟨syncOffset_shows.1, syncOffset_shows.2.1⟩
  · refine ⟨_, gated_run hr.1 hr.2, ?_⟩
    rw [followUp_completes (s := fresh s) hy hm hq hs]
    exact ⟨syncOffset_shows.1, syncOffset_shows.2.2, syncOffset_shows.2.1⟩
  · refine ⟨_, gated_run hr.1 hr.2, ?_⟩
    rw [delayReq_answered (s := fresh s) hh h6 h0]
    exact ⟨rfl, rfl⟩
  · refine ⟨_, gated_run hr.1 hr.2, ?_⟩
    rw [delayResp_completes (s := fresh s) hd hl hm hq]
    exact ⟨rfl, getI_setI_self .., rfl⟩
  · have h := pdelayReq_answered (m := m) (s := fresh s) hp
    exact ⟨_, gated_run hr.1 hr.2, h.1, h.2⟩
  · subst hv
    refine ⟨_, gated_run hr.1 hr.2, ?_⟩
    rw [pdelayResp_completes (s := fresh s) hd hp hq]
    exact ⟨Tab.find_put_self .., getI_setI_self ..⟩

/-! Roles (R279). -/

/-- Of a list of announced masters that all come from one source, the best comes from it. -/
theorem bestOf_source {src : Nat} {l : List PtpMsg} (hl : l ≠ []) (h : ∀ x ∈ l, x.source = src) :
    ∃ b, bestOf l = some b ∧ b.source = src := by
  induction l with
  | nil => exact absurd rfl hl
  | cons x l ih =>
    obtain ⟨hx, htail⟩ := List.forall_mem_cons.mp h
    cases hb : bestOf l with
    | none => exact ⟨x, by simp only [bestOf, hb], hx⟩
    | some y =>
      have hy : y.source = src := by
        cases l with
        | nil => nomatch hb
        | cons z l =>
          obtain ⟨c, hc, hsrc⟩ := ih (List.cons_ne_nil z l) htail
          rw [hb, Option.some.injEq] at hc
          exact hc ▸ hsrc
      by_cases hlt : lexLt (dataSet y) (dataSet x) = true
      · exact ⟨y, by simp only [bestOf, hb, if_pos hlt], hy⟩
      · exact ⟨x, by simp only [bestOf, hb, if_neg hlt], hx⟩

theorem getN_modPtp {f : Ptp → Ptp} : getN i k (modPtp f s) = getN i k s := rfl

/-- The node has a master that it did not have: it is the one in use, and shown. -/
theorem becomeSlave_new {b : PtpMsg} (h : s.ptp.master = none) : (becomeSlave b s).ptp.master = some b ∧
    getN 0x0803 0x0D (becomeSlave b s) = 8 ∧ getN 0x0803 0x0E (becomeSlave b s) = b.gm := by
  unfold becomeSlave
  dsimp only
  rw [h, if_neg (by simp)]
  refine ⟨rfl, getN_setN_self .., ?_⟩
  rw [getN_setN_ne _ _ (by decide), getN_modPtp, getN_setN_ne _ _ (by decide)]
  exact getN_setN_self ..

/-- A second Announce of a source, in time, qualifies it (R279). -/
theorem announce_qualifies {m0 : PtpMsg} (hh : ptpHears m s = true) (hst : m.steps < 255) (hf : s.ptp.foreign = [m0]) (hs : m0.source = m.source)
    (hrx : (m.rx - m0.rx).natAbs ≤ 4 * announceT s) (h2 : getN 0x0803 1 s ≠ 2) :
    ∃ b, b.source = m.source ∧ announce m s = becomeSlave b (modPtp (fun p => { p with foreign := [m0, m] }) s) := by
  obtain ⟨b, hb, hsrc⟩ := bestOf_source (src := m.source) (l := [m0, m]) nofun (by simp [hs])
  have hq : qualified (modPtp (fun p => { p with foreign := [m0, m] }) s) = [m0, m] := by
    simp [qualified, modPtp, hs]
  refine ⟨b, hsrc, ?_⟩
  unfold announce
  rw [if_neg (by simp [hh, hst])]
  simp only [hf, List.filter_cons, hrx, decide_true, if_true, List.filter_nil, List.length_cons, List.length_nil, List.drop_zero,
    List.cons_append, List.nil_append, Nat.zero_add, Nat.reduceSub, hq, hb]
  exact if_neg fun h => h2 h.1

/-- Without an announced master the node has none, and its role shows (R279, R282). -/
theorem announceReceiptTimeout_role : (announceReceiptTimeout s).ptp.master = none ∧ (announceReceiptTimeout s).ptp.foreign = [] ∧
    getN 0x0803 0x0D (announceReceiptTimeout s) = if getN 0x0803 1 s = 2 then 6 else if getN 0x0803 1 s = 0 then 1 else 4 := by
  unfold announceReceiptTimeout
  split
  next h =>
    rw [h]
    unfold becomeMaster
    dsimp only
    refine ⟨?_, ?_, ?_⟩
    · split <;> rfl
    · split <;> rfl
    · rw [getN_setN_ne _ _ (by decide), getN_setN_ne _ _ (by decide)]
      exact getN_setN_self ..
  next h =>
    dsimp only
    refine ⟨?_, ?_, ?_⟩
    · split <;> rfl
    · split <;> rfl
    · rw [getN_setN_self, if_neg h]

/-! Messages of the node's own (R279). -/

theorem syncInterval_sends (h : getN 0x0803 0x0D s = 6) : (syncInterval s).ptp.outSeq = (s.ptp.outSeq + 1) % 2 ^ 16 ∧
    (syncInterval s).obj = s.obj ∧ ∃ l, (syncInterval s).out = s.out ++ .ptp 0 s.ptp.outSeq 0 (s.now + txCorrection 0 s) :: l := by
  unfold syncInterval
  dsimp only
  rw [if_neg (by simp [h])]
  split
  · exact ⟨rfl, rfl, _, List.append_assoc ..⟩
  · exact ⟨rfl, rfl, [], rfl⟩

theorem minimumDelayInterval_sends (h : peerDelays s = true ∨ (getN 0x0803 1 s ≠ 0 ∧ s.ptp.master.isSome = true)) :
    (minimumDelayInterval s).ptp.outSeq = (s.ptp.outSeq + 1) % 2 ^ 16 ∧ (minimumDelayInterval s).obj = s.obj ∧
      (peerDelays s = true → (minimumDelayInterval s).ptp.pdelaySent = some (s.ptp.outSeq, (s.now : Int))) ∧
      (peerDelays s = false → (minimumDelayInterval s).ptp.delaySent.map (·.1) = some s.ptp.outSeq) := by
  unfold minimumDelayInterval
  dsimp only
  cases hp : peerDelays s
  case true => exact ⟨rfl, rfl, fun _ => rfl, nofun⟩
  case false =>
    rw [if_neg Bool.false_ne_true, if_pos (h.resolve_left (by simp [hp]))]
    exact ⟨rfl, rfl, nofun, fun _ => rfl⟩

theorem timeSet_taken {ns : Nat} (hseat : s.hm.seatNo = 0) (hst : getN 0x0804 3 s = 0 ∨ getN 0x0804 3 s = 4) (hm : mayStep s = true) :
    timeSet ns s = setN 0x0804 9 0 (stepTo ns s) := by
  unfold timeSet
  exact if_neg (by simp only [hseat, hm, ne_eq, not_true_eq_false, Bool.not_true, Bool.false_eq_true, false_or, or_false]; omega)

/-- Settles O37. -/
theorem ptpRolesAndTime : Obligations.PtpRolesAndTime := by
  unfold Obligations.PtpRolesAndTime
  refine ⟨fun m m0 s hr hh hst hf hs hrx h2 hm => ?_, fun s hr => ⟨_, gated_run hr.1 hr.2, announceReceiptTimeout_role⟩, fun s hr h6 => ?_,
    fun s hr h6 => ?_, fun s hr h => ⟨_, gated_run hr.1 hr.2, minimumDelayInterval_sends (s := fresh s) h⟩, fun s hr h2 => ?_,
    fun ns s hr hseat hst hm => ?_⟩
  · obtain ⟨b, hsrc, ht⟩ := announce_qualifies (s := fresh s) hh hst hf hs hrx h2
    obtain ⟨hmaster, hrole, hgm⟩ := becomeSlave_new (b := b) (s := modPtp (fun p => { p with foreign := [m0, m] }) (fresh s)) hm
    exact ⟨_, b, gated_run hr.1 hr.2, by rw [ht, hmaster], hsrc, by rw [ht, hrole], by rw [ht, hgm]⟩
  · obtain ⟨hq, ho, l, hl⟩ := syncInterval_sends (s := fresh s) h6
    exact ⟨_, gated_run hr.1 hr.2, hq, ho, by rw [hl]; rfl⟩
  · refine ⟨_, exec_effect hr nofun, ?_⟩
    dsimp only [effect]
    rw [if_pos (show getN 0x0803 0x0D (fresh s) = 6 from h6)]
    exact ⟨rfl, rfl, rfl⟩
  · refine ⟨_, exec_effect hr nofun, ?_⟩
    dsimp only [effect]
    rw [if_pos (show getN 0x0804 3 (fresh s) = 2 from h2)]
    exact getN_setN_self ..
  · refine ⟨_, gated_run hr.1 hr.2, ?_⟩
    rw [timeSet_taken (s := fresh s) hseat hst hm]
    exact ⟨rfl, getN_setN_self .., rfl, rfl⟩

end Sys2Proof.Machine
end

section
/-!
PROOFS: the parameter store (R300).
-/
namespace Sys2Proof.Machine

variable {v : Tab Val} {s : State}

theorem storeStart_runs (h : getN 0x0220 2 s ≠ 1) (h2 : updateState s ≠ 2) (h3 : updateState s ≠ 3) :
    storeStart s = setN 0x0220 2 1 { s with pilot := { s.pilot with storing := some (storedValues s) } } :=
  if_neg (by simp [h, h2, h3])

theorem storeComplete_failed (h : s.pilot.storing = some v) :
    storeComplete false s = setN 0x0220 2 3 { s with pilot := { s.pilot with storing := none } } := by
  simp only [storeComplete, h, Bool.not_false, if_true]

/-- A store that ends well shows its end and its count, and its copy joins the copy before (R300). -/
theorem storeComplete_well (h : s.pilot.storing = some v) : getN 0x0220 2 (storeComplete true s) = 2 ∧
    getN 0x0220 3 (storeComplete true s) = (getN 0x0220 3 s + 1) % 2 ^ 32 ∧ (storeComplete true s).flash.store.isSome = true ∧
      (storeComplete true s).flash.storeOld = s.flash.store ∧ (storeComplete true s).pilot.storing = none := by
  have hstate : ∀ (t : Time) (u : State), getN 0x0220 2 (setTime 0x0220 4 t (addN 0x0220 3 32 1 (setN 0x0220 2 2 u))) = 2 := fun t u => by
    rw [setTime, getN_setN_ne _ _ (by decide), addN, getN_setN_ne _ _ (by decide), getN_setN_self]
  have hcount : ∀ (t : Time) (u : State),
      getN 0x0220 3 (setTime 0x0220 4 t (addN 0x0220 3 32 1 (setN 0x0220 2 2 u))) = (getN 0x0220 3 u + 1) % 2 ^ 32 := fun t u => by
    rw [setTime, getN_setN_ne _ _ (by decide), addN, getN_setN_self, getN_setN_ne _ _ (by decide)]
  simp only [storeComplete, h]
  exact ⟨hstate .., hcount .., rfl, rfl, rfl⟩

theorem restoreDefaults_erases (h : getN 0x0220 2 s ≠ 1) (hc : commitWaiting s = false) (hb : ∀ b, b < 24 → bState b s = 0) :
    restoreDefaults s = setN 0x0220 2 4
      { s with flash := { s.flash with store := none, storeOld := none }, pilot := { s.pilot with restorePending := true } } :=
  if_neg fun hn => by
    obtain h1 | h1 | h1 := hn
    · exact h h1
    · exact absurd h1 (by simp [hc])
    · obtain ⟨b, hmem, hne⟩ := List.any_eq_true.mp h1
      exact absurd hne (by simp [hb b (List.mem_range.mp hmem)])

/-- Settles O38. -/
theorem parameterStore : Obligations.ParameterStore := by
  unfold Obligations.ParameterStore
  refine ⟨fun s hr h h2 h3 => ⟨_, gated_run hr.1 hr.2, ?_⟩, fun v s hr h => ⟨_, gated_run hr.1 hr.2, storeComplete_well (s := fresh s) h⟩,
    fun v s hr h => ⟨_, gated_run hr.1 hr.2, ?_⟩, fun s hr h hc hb => ⟨_, gated_run hr.1 hr.2, ?_⟩⟩
  · rw [storeStart_runs (s := fresh s) h h2 h3]
    exact ⟨getN_setN_self .., rfl, rfl, rfl⟩
  · rw [storeComplete_failed (s := fresh s) h]
    exact ⟨getN_setN_self .., rfl, rfl⟩
  · rw [restoreDefaults_erases (s := fresh s) h hc hb]
    exact ⟨getN_setN_self .., rfl, rfl, rfl⟩

end Sys2Proof.Machine
end

section
/-!
PROOFS: the requests of memory's clients and the upkeep of the memory controller (R302 to R320).
-/
namespace Sys2Proof.Machine

variable {a b c i k n : Nat} {w : Bool} {r : MemReq} {q : Queued} {s t u : State}

/-! The records of the subchannels. -/

@[simp] theorem subch_modSub_self {f : Subchannel → Subchannel} : subch c (modSub c f s) = f (subch c s) := by
  simp [subch, modSub]

theorem subch_modSub_ne {f : Subchannel → Subchannel} (h : a ≠ c) : subch a (modSub c f s) = subch a s := by
  simp [subch, modSub, h]

/-- Bursts go to the devices: what is queued and what is poisoned stand, and so does the patrol. -/
structure Issues (s t : State) : Prop where
  queue : ∀ c, (subch c t).queue = (subch c s).queue
  poison : t.mem.poison = s.mem.poison

theorem Issues.refl (s : State) : Issues s s := ⟨fun _ => rfl, rfl⟩

theorem Issues.step (h : Issues t u) (h' : Issues s t) : Issues s u :=
  ⟨fun c => (h.queue c).trans (h'.queue c), h.poison.trans h'.poison⟩

theorem Issues.folded {α : Type} {f : State → α → State} {l : List α} (h : ∀ x s, Issues s (f s x)) : Issues s (l.foldl f s) := by
  induction l generalizing s with
  | nil => exact .refl s
  | cons x l ih => exact .step ih (h x s)

theorem issues_modSub {f : Subchannel → Subchannel} (h : (f (subch c s)).queue = (subch c s).queue) : Issues s (modSub c f s) := by
  refine ⟨fun a => ?_, rfl⟩
  by_cases ha : a = c
  · subst ha
    rw [subch_modSub_self, h]
  · rw [subch_modSub_ne ha]

theorem issues_addN {m : Nat} : Issues s (addN i k n m s) := ⟨fun _ => rfl, rfl⟩

theorem issues_activate {p : Place} : Issues s (activate c p s) := by
  unfold activate
  dsimp only
  split
  · exact .step issues_addN (.step (issues_modSub rfl) (t := drawn s) ⟨fun _ => rfl, rfl⟩)
  · exact ⟨fun _ => rfl, rfl⟩

theorem issues_neighbourRefresh : Issues s (neighbourRefresh c s) :=
  .step (.folded fun _ _ => .step (issues_modSub rfl) (.folded fun _ _ => ⟨fun _ => rfl, rfl⟩)) (issues_modSub rfl)

theorem issues_lateNote {age : Nat} : Issues s (lateNote c age s) := by
  unfold lateNote
  split
  · exact issues_addN
  · exact .refl s

theorem issues_issueBurst : Issues s (issueBurst a w s) := by
  unfold issueBurst
  dsimp only
  refine .step issues_neighbourRefresh (.step (t := modBank _ _ _ _) ⟨fun _ => rfl, rfl⟩ (.step (issues_modSub rfl) ?_))
  split
  · exact .refl s
  · exact issues_activate

/-- A queued write that is issued leaves the queue of its subchannel, and nothing else leaves a queue. -/
theorem issueQueued_takes : Issues (modSub c (fun x => { x with queue := x.queue.filter (fun y => y.order != q.order) }) s) (issueQueued c q s) := by
  unfold issueQueued
  dsimp only
  refine .step issues_issueBurst ?_
  split
  · exact .refl _
  · exact issues_lateNote

theorem queue_issueQueued : (subch c (issueQueued c q s)).queue = (subch c s).queue.filter (fun y => y.order != q.order) := by
  rw [issueQueued_takes.queue, subch_modSub_self]

theorem queue_issueQueued_ne (h : a ≠ c) : (subch a (issueQueued c q s)).queue = (subch a s).queue := by
  rw [issueQueued_takes.queue, subch_modSub_ne h]

theorem poison_issueQueued : (issueQueued c q s).mem.poison = s.mem.poison := issueQueued_takes.poison

/-! The requests of clients (R306, R312, R313). -/

theorem poison_issueAll {l : List Queued} : (l.foldl (fun s q => issueQueued c q s) s).mem.poison = s.mem.poison := by
  induction l generalizing s with
  | nil => rfl
  | cons q l ih => exact ih.trans poison_issueQueued

theorem poison_readBurst : (readBurst r a s).mem.poison = s.mem.poison :=
  (Issues.step issues_issueBurst issues_lateNote).poison.trans poison_issueAll

theorem poison_folded {f : State → Nat → State} {l : List Nat} (h : ∀ x s, (f s x).mem.poison = s.mem.poison) :
    (l.foldl f s).mem.poison = s.mem.poison := by
  induction l generalizing s with
  | nil => rfl
  | cons x l ih => exact ih.trans (h x s)

theorem eccCheck_clean {cl : Nat} : eccCheck cl a [] s = s := rfl

/-- A write of a client without errors writes its bytes to memory and nothing else. -/
theorem dram_clientWrite (h : r.errors = []) : (clientWrite r s).dram = writeBytes r.addr r.data s.dram := by
  unfold clientWrite
  dsimp only
  rw [(Still.folded (fun _ _ => still_queueWrite) (.refl _)).dram]
  refine congrArg (writeBytes r.addr r.data) ?_
  split
  · rw [(Still.folded (fun _ _ => still_readBurst) (.refl s)).dram]
  · rw [h, eccCheck_clean, (Still.folded (fun _ _ => still_readBurst) (.refl s)).dram]

/-- A read of a client, without errors and with nothing poisoned, delivers the bytes that stand in memory. -/
theorem clientRead_delivers (h : r.errors = []) (hp : s.mem.poison = []) :
    .dram r.client r.addr (readBytes r.addr r.len s.dram) false ∈ (clientRead r s).out ∧ (clientRead r s).dram = s.dram := by
  unfold clientRead
  dsimp only
  rw [h, eccCheck_clean, poison_folded (fun _ _ => poison_readBurst), hp]
  have hbad : ((burstsOf r.addr r.len).filter fun a => (Tab.find a ([] : Tab Nat)).isSome) = [] := List.filter_eq_nil_iff.mpr fun _ _ => nofun
  have hd : ((burstsOf r.addr r.len).foldl (fun s a => readBurst r a s) s).dram = s.dram := (Still.folded (fun _ _ => still_readBurst) (.refl s)).dram
  rw [hbad]
  dsimp only [List.head?_nil]
  rw [emit_out, dramRead, hd]
  exact ⟨List.mem_append_right _ (.head _), hd⟩

/-- A request of ready memory wakes its channels and is carried out. -/
theorem memoryRequest_ready (h : getN 0x6000 1 s = 2) (hl : 0 < r.len) : ∃ u, Still s u ∧ u.mem.poison = s.mem.poison ∧
    memoryRequest r s = if r.write then clientWrite r u else clientRead r u := by
  refine ⟨(burstsOf r.addr r.len).foldl (fun s a => wakeChannel a s) s, Still.folded (fun _ _ => still_wakeChannel) (.refl s),
    poison_folded (fun _ _ => rfl), ?_⟩
  unfold memoryRequest
  rw [if_neg (by omega)]

theorem beyondMemory_false (h : r.addr + r.len ≤ capacity s) : beyondMemory r s = false := by
  simp [beyondMemory, h]

theorem length_data (hw : (Instr.memoryRequest r).wf = true) (h : r.write = true) : r.data.length = r.len := by
  simp only [Instr.wf, h, Bool.and_eq_true, Bool.not_true, Bool.false_or, beq_iff_eq] at hw
  exact hw.2

/-- Settles O39. -/
theorem memoryRequests : Obligations.MemoryRequests := by
  unfold Obligations.MemoryRequests
  refine ⟨fun r s hr h2 hc => ?_, fun r s hr hwf h2 hl hc he hw => ?_, fun r s hr h2 hl hc he hp hw => ?_⟩
  · exact exec_memoryRequest_beyond hr.1 (by simp [beyondMemory, hr.2, h2, hc])
  · obtain ⟨u, hu, -, ht⟩ := memoryRequest_ready (r := r) (s := fresh s) h2 hl
    have hdram : (effect (.memoryRequest r) (fresh s)).dram = writeBytes r.addr r.data s.dram := by
      rw [effect, ht, if_pos hw, dram_clientWrite he, hu.dram]
      rfl
    have hlen := length_data hr.1 hw
    refine ⟨_, (exec_memoryRequest (beyondMemory_false hc)).trans (gated_run hr.1 hr.2), ?_, fun a ha => ?_⟩
    · rw [hdram, ← hlen]
      exact readBytes_writeBytes_self hwf
    · rw [hdram]
      exact readByte_writeBytes_out hwf (by omega)
  · obtain ⟨u, hu, hpu, ht⟩ := memoryRequest_ready (r := r) (s := fresh s) h2 hl
    obtain ⟨hout, hd⟩ := clientRead_delivers (s := u) he (hpu.trans hp)
    rw [hu.dram] at hout hd
    refine ⟨_, (exec_memoryRequest (beyondMemory_false hc)).trans (gated_run hr.1 hr.2), ?_⟩
    rw [effect, ht, if_neg (by simp [hw])]
    exact ⟨hout, hd⟩

/-! Training (R302 to R304). -/

theorem getN_takeLayout {l : List Nat} (hk : k < 256) : getN 0x6000 k (takeLayout l s) = getN 0x6000 k s := by
  rw [takeLayout, getN_eq, setB_eq, getV_setV_ne _ _ (by unfold key; omega), ← getN_eq, getN_setN_ne _ _ (by unfold key; omega)]
  rfl

/-- What a training that succeeds writes last leaves the state and the capacity as they are. -/
theorem getN_layoutTaken {l : List Nat} {v x : Nat} {d : List Byte} {m : MemCtl} (hk : k < 4) :
    getN 0x6000 k (setN 0x6001 7 v (takeLayout l (setB 0x6000 5 d { setN 0x6000 4 x s with mem := m }))) = getN 0x6000 k s := by
  rw [getN_setN_ne _ _ (by unfold key; omega), getN_takeLayout (by omega), getN_eq, setB_eq, getV_setV_ne _ _ (by unfold key; omega)]
  exact getN_setN_ne x s (by unfold key; omega)

theorem trained_shows {x : TrainingIn} : getN 0x6000 1 (trained x s) = 2 ∧ getN 0x6000 3 (trained x s) = configMB x := by
  have h1 : getN 0x6000 1 (setN 0x6000 3 (configMB x) (setN 0x6000 1 2 s)) = 2 := by
    rw [getN_setN_ne _ _ (by decide), getN_setN_self]
  have h3 : getN 0x6000 3 (setN 0x6000 3 (configMB x) (setN 0x6000 1 2 s)) = configMB x := getN_setN_self ..
  unfold trained
  dsimp only
  split
  · exact ⟨(getN_layoutTaken (by decide)).trans h1, (getN_layoutTaken (by decide)).trans h3⟩
  · rw [(quiet_noticeObj ..).getN (by simp [noticeKey, key]), (quiet_noticeObj ..).getN (by simp [noticeKey, key])]
    exact ⟨(getN_layoutTaken (by decide)).trans h1, (getN_layoutTaken (by decide)).trans h3⟩

/-- A training that fails counts, and the third in a row reads failed. -/
theorem training_fails {x : TrainingIn} (h2 : getN 0x6000 1 s < 2) (h : x.ok = false ∨ x.supported = false) :
    (trainingComplete x s).mem.attempts = s.mem.attempts + 1 ∧
      getN 0x6000 1 (trainingComplete x s) = if 2 ≤ s.mem.attempts then 3 else 1 := by
  have hfail : ¬ (x.ok = true ∧ x.supported = true) := by
    obtain h | h := h <;> simp [h]
  unfold trainingComplete
  rw [if_neg (by omega), if_neg hfail]
  dsimp only
  split
  · rw [if_pos (by omega), setNotice, (quiet_noticeObj ..).mem, (quiet_noticeObj ..).getN (by simp [noticeKey, key])]
    exact ⟨rfl, getN_setI_self ..⟩
  · rw [if_neg (by omega)]
    exact ⟨rfl, getN_setN_self ..⟩

theorem training_succeeds {x : TrainingIn} (h2 : getN 0x6000 1 s < 2) (h : x.ok = true ∧ x.supported = true) :
    trainingComplete x s = trained x s := by
  rw [trainingComplete, if_neg (by omega), if_pos h]

/-! Refresh, pages, self-refresh and the patrol (R305, R314, R315, R317, R320). -/

theorem refreshDue_refreshAll {l : List Nat} :
    (subch c (each l (fun _ s => refreshBank c s) s)).refreshDue = (subch c s).refreshDue - l.length := by
  induction l generalizing s with
  | nil => rfl
  | cons x l ih =>
    rw [each, List.foldl_cons, ← each, ih, refreshBank, subch_modSub_self, List.length_cons]
    dsimp only
    omega

/-- A refresh may wait while a request of urgency 3 waits and fewer than four are due; else all that are due are carried out. -/
theorem refreshDue_refresh : (subch c (refresh c s)).refreshDue =
    if urgent c s = true ∧ (subch c s).refreshDue < 4 then (subch c s).refreshDue + 1 else 0 := by
  have hurgent : urgent c (modSub c (fun x => { x with refreshDue := (subch c s).refreshDue + 1 }) s) = urgent c s := by
    unfold urgent
    rw [subch_modSub_self]
    rfl
  unfold refresh
  dsimp only
  rw [hurgent]
  by_cases h : urgent c s = true ∧ (subch c s).refreshDue < 4
  · rw [if_pos ⟨h.1, h.2⟩, if_pos h, subch_modSub_self]
  · rw [if_neg (fun hn => h ⟨hn.1, by omega⟩), if_neg h]
    have hdone : (subch c (each (List.range ((subch c s).refreshDue + 1)) (fun _ s => refreshBank c s)
        (modSub c (fun x => { x with refreshDue := (subch c s).refreshDue + 1 }) s))).refreshDue = 0 := by
      rw [refreshDue_refreshAll, subch_modSub_self, List.length_range]
      exact Nat.sub_self _
    split
    · exact hdone
    · exact hdone

theorem pageIdleClose_closes : ∃ t, effect (.pageIdleClose c k) s = t ∧ ((subch c t).banks.getD k {}).openRow = none ∧
    (subch c t).queue = (subch c s).queue := by
  refine ⟨_, rfl, ?_⟩
  dsimp only [effect]
  split
  · rw [modBank, subch_modSub_self]
    exact ⟨by rw [Tab.getD_put_self], rfl⟩
  · rename_i h
    exact ⟨by simpa using h, rfl⟩

/-- Of the queue of a subchannel whose writes are issued one by one, only what none of them is stays. -/
theorem queue_issueAll {l : List Queued} :
    (subch c (l.foldl (fun s q => issueQueued c q s) s)).queue = (subch c s).queue.filter (fun y => l.all (fun q => y.order != q.order)) := by
  induction l generalizing s with
  | nil => exact (List.filter_eq_self.mpr fun _ _ => rfl).symm
  | cons q l ih => simp only [List.foldl_cons, ih, queue_issueQueued, List.filter_filter, List.all_cons, Bool.and_comm]

theorem queue_issueAll_ne {l : List Queued} (h : a ≠ c) : (subch a (l.foldl (fun s q => issueQueued c q s) s)).queue = (subch a s).queue := by
  induction l generalizing s with
  | nil => rfl
  | cons q l ih => rw [List.foldl_cons, ih, queue_issueQueued_ne h]

/-- A subchannel comes to rest: all of its queue is issued, then its pages close. -/
def rest (c : Nat) (s : State) : State :=
  modSub c (fun x => { x with banks := x.banks.map (fun e => (e.1, { e.2 with openRow := none })) })
    ((subch c s).queue.foldl (fun s q => issueQueued c q s) s)

theorem queue_rest : (subch c (rest c s)).queue = [] := by
  rw [rest, subch_modSub_self]
  dsimp only
  rw [queue_issueAll, List.filter_eq_nil_iff]
  intro y hy hall
  have := List.all_eq_true.mp hall y hy
  simp at this

theorem queue_rest_ne (h : a ≠ c) : (subch a (rest c s)).queue = (subch a s).queue := by
  rw [rest, subch_modSub_ne h, queue_issueAll_ne h]

theorem selfRefresh_rests (h : getN 0x6000 1 s = 2) : bit (getN 0x6002 7 (selfRefresh a s)) a = true ∧
    (subch (2 * a) (selfRefresh a s)).queue = [] ∧ (subch (2 * a + 1) (selfRefresh a s)).queue = [] := by
  have heq : selfRefresh a s = setN 0x6002 7 (setBit (getN 0x6002 7 (rest (2 * a + 1) (rest (2 * a) s))) a true)
      (rest (2 * a + 1) (rest (2 * a) s)) := by
    rw [selfRefresh, if_neg (by omega)]
    rfl
  rw [heq]
  refine ⟨by rw [getN_setN_self, bit_setBit_self], ?_, queue_rest⟩
  exact (queue_rest_ne (by omega)).trans queue_rest

theorem selfRefreshEntry_enters (h3 : getN 0x6002 3 s ≠ 0) (hc : commitWaiting s = false)
    (hb : ∀ b, b < 24 → bState b s ≠ 1 ∧ bState b s ≠ 2) : selfRefreshEntry a s = selfRefresh a s := by
  have hquiet : berthList.any (fun b => bState b s == 1 || bState b s == 2) = false := List.any_eq_false.mpr fun b hmem => by
    simp [hb b (List.mem_range.mp hmem)]
  unfold selfRefreshEntry
  dsimp only
  rw [hquiet, hc]
  exact if_neg (by simp [h3])

/-- The patrol reads its burst and moves on, to the start of memory after the last. -/
theorem patrolScrub_moves (h6 : getN 0x6002 6 s ≠ 0) (hc : s.mem.scrubPos < capacity s) : (patrolScrub [] s).dram = s.dram ∧
    (patrolScrub [] s).mem.scrubPos = if capacity s ≤ s.mem.scrubPos + 64 then 0 else s.mem.scrubPos + 64 := by
  have hdram := (still_issueBurst (x0 := s.mem.scrubPos) (x1 := false) (s := s)).dram
  unfold patrolScrub
  dsimp only
  rw [if_neg (by omega), eccCheck_clean, if_neg (show ¬ 2 ≤ ([] : List Nat).eraseDups.length by decide)]
  refine ⟨?_, rfl⟩
  split
  · exact hdram
  · exact hdram

/-- Settles O40. -/
theorem memoryUpkeep : Obligations.MemoryUpkeep := by
  unfold Obligations.MemoryUpkeep
  refine ⟨fun x s hr h2 => ?_, fun d s hr h2 => ?_, fun c hot s hr h2 => ?_, fun c k s hr => ?_, fun ch s hr h2 h3 hc hb => ?_, fun s hr h6 hc => ?_⟩
  · refine ⟨_, gated_run hr.1 hr.2, (still_trainingComplete).dram, fun h => ?_, fun h => training_fails (s := fresh s) h2 h⟩
    rw [training_succeeds (s := fresh s) h2 h]
    exact trained_shows
  · refine ⟨_, exec_effect hr nofun, ?_⟩
    dsimp only [effect]
    by_cases hd : 200 < d
    · rw [if_pos ⟨h2, hd⟩, if_pos hd]
      exact ⟨rfl, rfl⟩
    · rw [if_neg (fun h => hd h.2), if_neg hd]
      exact ⟨rfl, rfl⟩
  · refine ⟨_, exec_effect hr nofun, ?_⟩
    dsimp only [effect]
    rw [if_pos (show getN 0x6000 1 (fresh s) = 2 from h2)]
    exact refreshDue_refresh (s := fresh s)
  · obtain ⟨t, ht, hclose⟩ := pageIdleClose_closes (c := c) (k := k) (s := fresh s)
    exact ⟨t, ht ▸ exec_effect hr nofun, hclose⟩
  · refine ⟨_, gated_run hr.1 hr.2, ?_⟩
    rw [selfRefreshEntry_enters (s := fresh s) h3 hc hb]
    exact selfRefresh_rests (s := fresh s) h2
  · exact ⟨_, gated_run hr.1 hr.2, patrolScrub_moves (s := fresh s) h6 hc⟩

end Sys2Proof.Machine
end

section
/-!
PROOFS, the layer of facts: a resume leaves the objects of the chip as a whole alone (R90, R102, R110).
-/
namespace Sys2Proof.Machine

variable {s t u : State} {b i k ri : Nat} {p : Pt} {tm : Time}

theorem ChipStands.foldl {α : Type} {f : State → α → State} {l : List α} (h : ∀ x s, ChipStands s (f s x)) : ChipStands s (l.foldl f s) := by
  induction l generalizing s with
  | nil => exact .refl s
  | cons x l ih => exact .step ih (h x s)

theorem ChipStands.getN (h : ChipStands s t) (hi : i < 0x1000) (hk : k < 256) (hn : ¬ noticeKey (key i k)) : getN i k t = getN i k s := by
  rw [getN_eq, h i k hi hk hn, ← getN_eq]

theorem chip_onPlan {l : List Phase} : ChipStands s (onPlan b l p s) := chip_modBerth

theorem chip_setDone {f : Event → Bool} : ChipStands s (setDone b f s) := chip_modBerth

theorem chip_toRunUp {r : Rec} {join : Int} : ChipStands s (toRunUp b ri r join p tm s) := .step chip_modBerth chip_onPlan

theorem chip_beginRecord : ChipStands s (beginRecord b ri p tm s) := by
  unfold beginRecord
  split
  · exact chip_onPlan
  · refine .ite (fun _ => .step chip_modBerth chip_onPlan) fun _ => .ite (fun _ => chip_onPlan) fun _ => .ite (fun _ => chip_toRunUp) fun _ =>
      .ite (fun _ => .step chip_onPlan chip_modBerth) fun _ => ?_
    dsimp only
    exact .ite (fun _ => chip_onPlan) fun _ => chip_onPlan

theorem chip_resumePath {join : Option Int} : ChipStands s (resumePath b join tm s) := by
  unfold resumePath
  dsimp only
  split
  · exact .step chip_toRunUp <| .step chip_setDone <| .step chip_modBerth chip_modBerth
  · exact .ite (fun _ => .step chip_setDone <| .step chip_modBerth <| .step chip_onPlan chip_modBerth) fun _ =>
      .step chip_beginRecord <| .step chip_setDone <| .step chip_modBerth chip_modBerth

theorem chip_resumeRefused {new : Int} : ChipStands s (resumeRefused b i k new tm s) := .step (.of_quiet (quiet_noticeAt ..)) (.of_eq rfl)

theorem chip_resumeGranted {mW : Nat} : ChipStands s (resumeGranted b mW tm s) :=
  .step chip_enterState <| .step chip_modBerth <| .step chip_berthObject chip_berthEntry

theorem chip_resumeAll {l : List (Nat × Option Int)} : ChipStands s (resumeAll l tm s) := by
  unfold resumeAll
  split
  · exact chip_resumeRefused
  · dsimp only
    split
    · exact .step chip_resumeRefused (.refl s)
    · exact .step (.foldl fun _ _ => chip_resumeGranted) (.foldl fun _ _ => chip_resumePath)

theorem chip_drawn : ChipStands s (drawn s) := .of_eq rfl

theorem chip_resumeHalf {r : Rec} : ChipStands s (resumeHalf b r tm s) :=
  .ite (fun _ => .step chip_resumeAll chip_drawn) fun _ => .step chip_resumeAll chip_modBerth

theorem chip_resume : ChipStands s (resume b tm s) := by
  unfold resume
  refine .ite (fun _ => chip_resumeRefused) fun _ => ?_
  split
  · exact .step chip_resumeAll chip_modBerth
  · dsimp only
    split
    · exact .ite (fun _ => .step chip_resumeHalf chip_drawn) fun _ => .step chip_resumeRefused chip_drawn
    · exact .ite (fun _ => chip_resumeRefused) fun _ => .ite (fun _ => .step chip_resumeAll chip_modBerth) fun _ => .step chip_resumeAll chip_modBerth

end Sys2Proof.Machine
end

section
/-!
PROOFS: the tide tracker and the states of the mains (R322 to R330).
-/
namespace Sys2Proof.Machine

variable {s t u : State} {i k n m ph low old mask : Nat}

/-! What a judgement leaves alone. -/

/-- The objects that the mains' state and its changes write. -/
def judged : List Nat := [key 0x0400 9, key 0x0401 8, key 0x0401 9, key 0x0401 0x0A, key 0x0401 0x0B, key 0x0401 0x0C, key 0x0401 0x0D, key 0x0401 0x10]

/-- From s to t no objects of the tracker and the mains changed but those of `K`. -/
def Leaves (K : List Nat) (s t : State) : Prop := ∀ i k, i = 0x0400 ∨ i = 0x0401 → k < 256 → key i k ∉ K → getV i k t = getV i k s

variable {K : List Nat}

theorem Leaves.refl (s : State) : Leaves K s s := fun _ _ _ _ _ => rfl

theorem Leaves.step (h : Leaves K t u) (h' : Leaves K s t) : Leaves K s u := fun i k hi hk hn => (h i k hi hk hn).trans (h' i k hi hk hn)

theorem Leaves.ite {c : Prop} [Decidable c] (h : c → Leaves K s t) (h' : ¬ c → Leaves K s u) : Leaves K s (if c then t else u) := by
  split
  · exact h ‹_›
  · exact h' ‹_›

theorem Leaves.all (h : Leaves [] s t) : Leaves K s t := fun i k hi hk _ => h i k hi hk nofun

theorem Leaves.of_chip (h : ChipStands s t) : Leaves K s t :=
  fun i k hi hk _ => h i k (by omega) hk (by unfold noticeKey key; omega)

theorem Leaves.of_quiet (h : Quiet s t) : Leaves K s t := .of_chip (.of_quiet h)

theorem Leaves.of_stands {α : Type} {f : Harbour → α} (h : Stands f s t) : Leaves K s t :=
  fun i k hi hk _ => h.obj i k (by unfold stopKey noticeKey berthKey key; omega)

theorem leaves_setV {v : Val} (h : key i k ∈ K) : Leaves K s (setV i k v s) :=
  fun _ _ _ _ hn => getV_setV_ne _ _ fun e => hn (by rw [e]; exact h)

theorem leaves_addN {w x : Nat} (h : key i k ∈ K) : Leaves K s (addN i k w x s) := leaves_setV h

theorem leaves_modMains {f : Mains → Mains} : Leaves K s (modMains f s) := fun _ _ _ _ _ => rfl

theorem Leaves.getN (h : Leaves K s t) (hi : i = 0x0400 ∨ i = 0x0401) (hk : k < 256) (hn : key i k ∉ K) : getN i k t = getN i k s := by
  rw [getN_eq, h i k hi hk hn, ← getN_eq]

theorem Leaves.mainsState (h : Leaves [] s t) : mainsState t = mainsState s := h.getN (.inr rfl) (by decide) nofun

theorem Leaves.tideState (h : Leaves [] s t) : tideState t = tideState s := h.getN (.inl rfl) (by decide) nofun

theorem leaves_calStops {l : List Nat} : Leaves K s (each l calStop s) := by
  induction l generalizing s with
  | nil => exact .refl s
  | cons b l ih => exact .step ih (.of_stands (f := Harbour.untriggered) stands_calStop)

theorem leaves_mainsNote : Leaves K s (mainsNote old mask s) := .of_quiet (quiet_noticeLog ..)

/-! The state of the mains (R325). -/

theorem mainsState_setN : mainsState (setN 0x0401 8 n s) = n := getN_setN_self ..

theorem mainsState_setMains : mainsState (setMains n s) = n := by
  unfold setMains
  dsimp only
  split
  · exact (getN_setN_ne _ _ (by decide)).trans mainsState_setN
  · split
    · exact (getN_setN_ne _ _ (by decide)).trans mainsState_setN
    · exact mainsState_setN

theorem leaves_setMains : Leaves judged s (setMains n s) := by
  have h8 : Leaves judged s (setN 0x0401 8 n s) := leaves_setV (by decide)
  unfold setMains
  refine .ite (fun _ => .step (leaves_setV (by decide)) ?_) fun _ => .ite (fun _ => .step (leaves_setV (by decide)) h8) fun _ => h8
  exact fun i k hi hk hn => h8 i k hi hk hn

theorem below_setMains : (setMains n s).mains.below = s.mains.below := by
  unfold setMains
  dsimp only
  split
  · rfl
  · split <;> rfl

/-- A tracker that is off stays off. -/
theorem tideState_setMains (h : tideState s = 0) : tideState (setMains n s) = 0 := by
  have h8 : tideState (setN 0x0401 8 n s) = 0 := (getN_setN_ne _ _ (by decide)).trans h
  unfold setMains
  dsimp only
  rw [if_neg (by simp [h8]), if_neg (by simp [h8])]
  exact h8

theorem mainsState_modMains {f : Mains → Mains} : mainsState (modMains f s) = mainsState s := rfl

theorem mainsState_ne (h : k ≠ 8) (v : Nat) : mainsState (setN 0x0401 k v s) = mainsState s :=
  getN_setN_ne _ _ (by unfold key; omega)

theorem enterWarning_spec : mainsState (enterWarning low s) = 1 ∧ Leaves judged s (enterWarning low s) := by
  unfold enterWarning
  dsimp only
  refine ⟨?_, ?_⟩
  · rw [leaves_mainsNote.mainsState, (Leaves.of_stands stands_faultStop).mainsState, leaves_calStops.mainsState, addN, mainsState_ne (by decide),
      mainsState_ne (by decide), mainsState_modMains, mainsState_setMains]
  · exact .step leaves_mainsNote <| .step (.of_stands stands_faultStop) <| .step leaves_calStops <| .step (leaves_addN (by decide)) <|
      .step (leaves_setV (by decide)) <| .step leaves_modMains leaves_setMains

theorem enterReset_spec : mainsState (enterReset low s) = 2 ∧ Leaves judged s (enterReset low s) := by
  unfold enterReset
  dsimp only
  refine ⟨?_, ?_⟩
  · rw [leaves_mainsNote.mainsState, (Leaves.of_stands stands_faultStop).mainsState, addN, mainsState_ne (by decide), mainsState_ne (by decide),
      mainsState_modMains, mainsState_setMains]
  · exact .step leaves_mainsNote <| .step (.of_stands stands_faultStop) <| .step (leaves_addN (by decide)) <|
      .step (leaves_setV (by decide)) <| .step leaves_modMains leaves_setMains

theorem enterRecovering_spec : mainsState (enterRecovering s) = 3 ∧ Leaves judged s (enterRecovering s) := by
  refine ⟨mainsState_setMains, .step leaves_setMains (.ite (fun _ => leaves_setV (by decide)) fun _ => .refl s)⟩

theorem dipLogged_spec : mainsState (dipLogged s) = mainsState s ∧ tideState (dipLogged s) = tideState s ∧ Leaves judged s (dipLogged s) := by
  unfold dipLogged
  dsimp only
  split
  · exact ⟨rfl, rfl, .refl s⟩
  · have hq := quiet_logAdd 5 0 0x0210 (toLe 2 s.mains.lowest ++ toLe 1 s.mains.lowPhase ++ toLe 1 s.mains.below ++ toLe 4 s.mains.runAngle ++ toLe 4 0)
      s.mains.runTime (s := addN 0x0401 0x0B 32 1 (modMains (fun m => { m with below := 0 }) s))
    refine ⟨?_, ?_, .step (.of_quiet hq) (.step (leaves_addN (by decide)) leaves_modMains)⟩
    · rw [(Leaves.of_quiet hq).mainsState]
      exact mainsState_ne (by decide) _
    · rw [(Leaves.of_quiet hq).tideState]
      exact getN_setN_ne _ _ (by decide)

theorem dwell_spec : mainsState (dwell m ph s) = (if getN 0x0401 5 s ≤ s.mains.below + 1 then 1 else mainsState s) ∧
    Leaves judged s (dwell m ph s) := by
  unfold dwell
  dsimp only
  split
  · rename_i h
    rw [if_pos (by exact h)]
    exact ⟨enterWarning_spec.1, .step enterWarning_spec.2 leaves_modMains⟩
  · rename_i h
    rw [if_neg (by exact h)]
    exact ⟨rfl, leaves_modMains⟩

/-- The judgement of a level, by the state before (R325). -/
theorem judgeLevel_spec (h4 : mainsState s ≤ 4) : mainsState (judgeLevel m ph s) =
    (if mainsState s = 2 then (if getN 0x0401 2 s + getN 0x0401 4 s ≤ m then 3 else 2)
     else if m < getN 0x0401 3 s then 2
     else if mainsState s = 0 ∨ mainsState s = 4 then
       (if m < getN 0x0401 2 s ∧ getN 0x0401 5 s ≤ s.mains.below + 1 then 1 else 0)
     else if getN 0x0401 2 s + getN 0x0401 4 s ≤ m then 3 else 1) := by
  have hst : mainsState (setN 0x0401 9 m s) = mainsState s := mainsState_ne (by decide) m
  have hd : ∀ u, u = setN 0x0401 9 m s ∨ u = setMains 0 (setN 0x0401 9 m s) → mainsState u = 0 →
      mainsState (dwell m ph u) = if getN 0x0401 5 s ≤ s.mains.below + 1 then 1 else 0 := fun u hu h0 => by
    have h5 : getN 0x0401 5 u = getN 0x0401 5 s ∧ u.mains.below = s.mains.below := by
      have h9 : getN 0x0401 5 (setN 0x0401 9 m s) = getN 0x0401 5 s := getN_setN_ne _ _ (by decide)
      obtain rfl | rfl := hu
      · exact ⟨h9, rfl⟩
      · exact ⟨(leaves_setMains.getN (.inr rfl) (by decide) (by decide)).trans h9, below_setMains⟩
    rw [dwell_spec.1, h5.1, h5.2, h0]
  have hdwell : mainsState s = 0 → mainsState (dwell m ph (setN 0x0401 9 m s)) = if getN 0x0401 5 s ≤ s.mains.below + 1 then 1 else 0 :=
    fun h0 => hd _ (.inl rfl) (hst.trans h0)
  have hdwell4 : mainsState (dwell m ph (setMains 0 (setN 0x0401 9 m s))) = if getN 0x0401 5 s ≤ s.mains.below + 1 then 1 else 0 :=
    hd _ (.inr rfl) mainsState_setMains
  clear hd
  obtain h | h | h | h | h : mainsState s = 0 ∨ mainsState s = 1 ∨ mainsState s = 2 ∨ mainsState s = 3 ∨ mainsState s = 4 := by omega
  case inl =>
    simp [judgeLevel, hst, h, apply_ite mainsState, enterReset_spec.1, hdwell h, dipLogged_spec.1]
    split_ifs <;> omega
  case inr.inl =>
    simp [judgeLevel, hst, h, apply_ite mainsState, enterReset_spec.1, enterRecovering_spec.1, mainsState_ne (show 0x0A ≠ 8 by decide)]
  case inr.inr.inl =>
    simp [judgeLevel, hst, h, apply_ite mainsState, enterRecovering_spec.1, mainsState_ne (show 0x0A ≠ 8 by decide)]
  case inr.inr.inr.inl =>
    simp [judgeLevel, hst, h, apply_ite mainsState, enterReset_spec.1, enterWarning_spec.1]
    split_ifs <;> omega
  case inr.inr.inr.inr =>
    simp [judgeLevel, hst, h, apply_ite mainsState, enterReset_spec.1, hdwell4, mainsState_setMains]
    split_ifs <;> omega

theorem leaves_judgeLevel : Leaves judged s (judgeLevel m ph s) := by
  have h9 : Leaves judged s (setN 0x0401 9 m s) := leaves_setV (by decide)
  have hA : ∀ {v u}, Leaves judged u (setN 0x0401 0x0A v u) := leaves_setV (by decide)
  unfold judgeLevel
  dsimp only
  refine .step ?_ h9
  split
  · exact .ite (fun _ => enterReset_spec.2) fun _ => .ite (fun _ => dwell_spec.2) fun _ => dipLogged_spec.2.2
  · exact .ite (fun _ => enterReset_spec.2) fun _ => .ite (fun _ => enterRecovering_spec.2) fun _ => hA
  · exact .ite (fun _ => enterRecovering_spec.2) fun _ => hA
  · exact .ite (fun _ => enterReset_spec.2) fun _ => .ite (fun _ => enterWarning_spec.2) fun _ => .refl _
  · exact .ite (fun _ => enterReset_spec.2) fun _ => .ite (fun _ => .step dwell_spec.2 leaves_setMains) fun _ => leaves_setMains

/-- Where no supervised reset is due, the mains are not monitored any longer, and a tracker that is off stays off. -/
theorem notMonitored_spec (h2 : mainsState s ≠ 2) (h10 : getN 0x0401 0x10 s ≠ 1) : mainsState (notMonitored s) = 4 ∧
    (tideState s = 0 → tideState (notMonitored s) = 0) ∧ Leaves judged s (notMonitored s) := by
  unfold notMonitored
  dsimp only
  split
  · exact ⟨‹_›, id, .refl s⟩
  · rw [if_neg (by simp [h2, h10])]
    refine ⟨?_, fun h0 => ?_, .step leaves_modMains (.step (leaves_setV (by decide)) (.step leaves_setMains dipLogged_spec.2.2))⟩
    · rw [mainsState_modMains, mainsState_ne (by decide), mainsState_setMains]
    · exact (getN_setN_ne _ _ (by decide)).trans (tideState_setMains (dipLogged_spec.2.1.trans h0))

/-! The tracker (R322 to R324). -/

theorem tideEnable_on (h : getN 0x0400 1 s = 0) : getN 0x0400 1 (tideEnable true s) = 1 ∧ tideState (tideEnable true s) = 1 ∧
    getN 0x0400 7 (tideEnable true s) = 0 ∧ (tideEnable true s).mains.advancing = false := by
  have heq : tideEnable true s = acquireFromRest (setN 0x0400 1 1 s) := by
    simp only [tideEnable, h, if_true, b2n]
  rw [heq]
  refine ⟨?_, getN_setN_self .., ?_, rfl⟩
  · rw [acquireFromRest, getN_setN_ne _ _ (by decide), getN_setN_ne _ _ (by decide), getN_setN_ne _ _ (by decide)]
    exact getN_setN_self ..
  · rw [acquireFromRest, getN_setN_ne _ _ (by decide)]
    exact getN_setN_self ..

theorem tideEnable_off (h2 : mainsState s ≠ 2) (h10 : getN 0x0401 0x10 s ≠ 1) : getN 0x0400 1 (tideEnable false s) = 0 ∧
    tideState (tideEnable false s) = 0 ∧ mainsState (tideEnable false s) = 4 := by
  unfold tideEnable
  rw [if_neg (by decide)]
  obtain ⟨h4, h0, hl⟩ := notMonitored_spec (s := setN 0x0400 9 0 (setN 0x0400 7 0
      (modMains (fun m => { m with advancing := false, v2 := [[], [], []], i2 := [[], [], []], p := [[], [], []] }) (setN 0x0400 1 (b2n false) s))))
    (by rw [mainsState, getN_setN_ne _ _ (by decide), getN_setN_ne _ _ (by decide)]; exact (getN_setN_ne _ _ (by decide)).trans_ne h2)
    (by rw [getN_setN_ne _ _ (by decide), getN_setN_ne _ _ (by decide)]; exact (getN_setN_ne _ _ (by decide)).trans_ne h10)
  refine ⟨?_, h0 (getN_setN_self ..), h4⟩
  rw [hl.getN (.inl rfl) (by decide) (by decide), getN_setN_ne _ _ (by decide), getN_setN_ne _ _ (by decide)]
  exact getN_setN_self ..

/-- The figures of a phase. -/
def figures : List Nat := (List.range 9).map (fun j => key 0x0400 (0x0B + j))

theorem leaves_phaseFigures {r : MainsIn} (hi : i < 3) : Leaves figures s (phaseFigures r i s) := by
  have h : ∀ j, j < 9 → key 0x0400 (0x0B + j) ∈ figures := fun j hj => List.mem_map.mpr ⟨j, List.mem_range.mpr hj, rfl⟩
  have h6 := h (6 + i) (by omega)
  have h3 := h (3 + i) (by omega)
  unfold phaseFigures
  dsimp only
  exact .step (leaves_setV (by rwa [← Nat.add_assoc] at h6)) (.step (leaves_setV (by rwa [← Nat.add_assoc] at h3))
    (.step (leaves_setV (h i (by omega))) leaves_modMains))

theorem leaves_allFigures {r : MainsIn} {l : List Nat} (hl : ∀ i ∈ l, i < 3) : Leaves figures s (each l (phaseFigures r) s) := by
  induction l generalizing s with
  | nil => exact .refl s
  | cons i l ih =>
    obtain ⟨hi, ht⟩ := List.forall_mem_cons.mp hl
    exact .step (ih ht) (leaves_phaseFigures hi)

/-- An evaluation once it has written the angle and the frequency. -/
def evaluated (r : MainsIn) (q : Nat) (s : State) : State :=
  let s := setN 0x0400 0x0A q s
  let s := each ([0, 1, 2].filter (fun i => bit (getN 0x0400 5 s) i)) (phaseFigures r) s
  match mainsLevel s with
  | none => s
  | some (m, ph) => judgeLevel m ph s

theorem evaluationPoint_eq {r : MainsIn} (h0 : tideState s ≠ 0) (ha : s.mains.advancing = true) : ∃ q, ∀ u,
    u = setN 0x0400 7 ((getN 0x0400 7 s / 2 ^ 26 + 1) * 2 ^ 26 % 2 ^ 32) s →
      evaluationPoint r s = evaluated r q (if referenceFaulted u ∨ tideState u = 3 then u else setN 0x0400 8 r.freq u) := by
  refine ⟨if 1100 ≤ r.sequence ∧ r.sequence ≤ 1300 then 1 else if 2300 ≤ r.sequence ∧ r.sequence ≤ 2500 then 2 else 0, fun u hu => ?_⟩
  subst hu
  exact if_neg (by simp [h0, ha])

theorem getN_evaluated {r : MainsIn} {q : Nat} (hk : k = 7 ∨ k = 8) : getN 0x0400 k (evaluated r q s) = getN 0x0400 k s := by
  have hfig : ∀ v u, getN 0x0400 k (each ([0, 1, 2].filter (fun i => bit v i)) (phaseFigures r) u) = getN 0x0400 k u :=
    fun v u => (leaves_allFigures fun i hi => by
      have := (List.mem_filter.mp hi).1
      simp at this
      omega).getN (.inl rfl) (by omega) (by obtain rfl | rfl := hk <;> decide)
  have hq : getN 0x0400 k (setN 0x0400 0x0A q s) = getN 0x0400 k s := getN_setN_ne _ _ (by unfold key; omega)
  unfold evaluated
  dsimp only
  split
  · rw [hfig, hq]
  · rw [leaves_judgeLevel.getN (.inl rfl) (by omega) (by obtain rfl | rfl := hk <;> decide), hfig, hq]

/-- What an evaluation writes of the angle and the frequency stands at its end. -/
theorem evaluationPoint_shows {r : MainsIn} (h0 : tideState s ≠ 0) (ha : s.mains.advancing = true) :
    getN 0x0400 7 (evaluationPoint r s) = (getN 0x0400 7 s / 2 ^ 26 + 1) * 2 ^ 26 % 2 ^ 32 ∧
      (referenceFaulted s = false → tideState s ≠ 3 → getN 0x0400 8 (evaluationPoint r s) = r.freq) := by
  obtain ⟨q, heq⟩ := evaluationPoint_eq (r := r) h0 ha
  rw [heq _ rfl]
  generalize (getN 0x0400 7 s / 2 ^ 26 + 1) * 2 ^ 26 % 2 ^ 32 = a
  have href : referenceFaulted (setN 0x0400 7 a s) = referenceFaulted s := by
    rw [referenceFaulted, inputFaulted, getN_setN_ne _ _ (by decide), getN_setN_ne _ _ (by decide)]
    rfl
  have htide : tideState (setN 0x0400 7 a s) = tideState s := getN_setN_ne _ _ (by decide)
  refine ⟨?_, fun hr h3 => ?_⟩
  · rw [getN_evaluated (.inl rfl)]
    split
    · exact getN_setN_self ..
    · exact (getN_setN_ne _ _ (by decide)).trans (getN_setN_self ..)
  · rw [getN_evaluated (.inr rfl), if_neg (by simp [href, htide, hr, h3])]
    exact getN_setN_self ..

/-- The reference input has a fault: the tracker acquires at the frequency it last had. -/
def referenceLost (f : Nat) (s : State) : State := setN 0x0400 9 1 (setN 0x0400 8 f (modMains (fun m => { m with freqHeld := f }) s))

theorem inputFaulted_inputFault (h : inputFaulted i s = false) (h0 : tideState s ≠ 0) (h2 : mainsState s ≠ 2) (h10 : getN 0x0401 0x10 s ≠ 1) :
    inputFaulted i (inputFault i s) = true := by
  have hmark : ∀ u, Leaves [key 0x0400 8, key 0x0400 9, key 0x0400 0x14] s u → getN 0x0400 0x14 u = setBit (getN 0x0400 0x14 s) i true →
      inputFaulted i (if i < 3 ∧ phasesJudged u = [] then notMonitored u else u) = true := fun u hl hu => by
    have hbit : inputFaulted i u = true := by rw [inputFaulted, hu, bit_setBit_self]
    split
    · have hm : mainsState u = mainsState s := hl.getN (.inr rfl) (by decide) (by decide)
      obtain ⟨-, -, hn⟩ := notMonitored_spec (s := u) (by rw [hm]; exact h2) (by rw [hl.getN (.inr rfl) (by decide) (by decide)]; exact h10)
      rw [inputFaulted, hn.getN (.inl rfl) (by decide) (by decide)]
      exact hbit
    · exact hbit
  have hnote : ∀ v, Leaves [key 0x0400 8, key 0x0400 9, key 0x0400 0x14] s (setNotice 5 0 0x0400 0x14 v s) ∧
      getI 0x0400 0x14 (setNotice 5 0 0x0400 0x14 v s) = v := fun v =>
    ⟨.step (.of_quiet (quiet_noticeObj ..)) (leaves_setV (by decide)),
      ((quiet_noticeObj ..).getI (by simp [noticeKey, key])).trans (getI_setI_self ..)⟩
  obtain ⟨hl, hv⟩ := hnote (setBit (getN 0x0400 0x14 s) i true : Nat)
  have hv : getN 0x0400 0x14 (setNotice 5 0 0x0400 0x14 (setBit (getN 0x0400 0x14 s) i true : Nat) s) = setBit (getN 0x0400 0x14 s) i true :=
    congrArg Int.toNat hv
  unfold inputFault
  rw [if_neg (by simp [h, h0])]
  dsimp only
  split
  · refine hmark (referenceLost (tideRate s) _) (.step (leaves_setV (by decide)) (.step (leaves_setV (by decide)) (.step leaves_modMains hl))) ?_
    rw [referenceLost, getN_setN_ne _ _ (by decide), getN_setN_ne _ _ (by decide)]
    exact hv
  · exact hmark _ hl hv

/-- The automatic resume leaves the mains' state (R329). -/
theorem mainsState_autoResume : mainsState (autoResume s) = mainsState s := by
  have hall : ∀ (l : List Nat) (u : State), mainsState (each l (fun b s => resume b s.now s) u) = mainsState u := by
    intro l
    induction l with
    | nil => exact fun _ => rfl
    | cons b l ih => exact fun u => (ih _).trans (Leaves.of_chip chip_resume).mainsState
  unfold autoResume
  dsimp only
  split
  · exact hall ..
  · exact (getN_setN_ne _ _ (by decide)).trans (hall ..)

theorem mainsState_holdOffComplete (h : mainsState s = 3) : mainsState (holdOffComplete s) = 0 := by
  unfold holdOffComplete
  rw [if_neg (by simp [h])]
  split
  · exact mainsState_setMains
  · dsimp only
    split
    · exact mainsState_autoResume.trans mainsState_setMains
    · exact mainsState_setMains

/-- Settles O41. -/
theorem tideTrackerAndMains : Obligations.TideTrackerAndMains := by
  unfold Obligations.TideTrackerAndMains
  refine ⟨fun s hr h => ⟨_, gated_run hr.1 hr.2, tideEnable_on (s := fresh s) h⟩,
    fun s hr h2 h10 => ⟨_, gated_run hr.1 hr.2, tideEnable_off (s := fresh s) h2 h10⟩, fun s hr h1 ha => ⟨_, exec_effect hr nofun, ?_⟩,
    fun s hr h1 ha => ⟨_, exec_effect hr nofun, ?_⟩, fun s hr h2 => ⟨_, exec_effect hr nofun, ?_⟩,
    fun r s hr h0 ha => ⟨_, gated_run hr.1 hr.2, evaluationPoint_shows (s := fresh s) h0 ha⟩,
    fun i s hr h h0 h2 h10 => ⟨_, gated_run hr.1 hr.2, inputFaulted_inputFault (s := fresh s) h h0 h2 h10⟩,
    fun i s hr => ⟨_, exec_effect hr nofun, ?_⟩, fun m ph s h4 => judgeLevel_spec h4,
    fun s hr h => ⟨_, gated_run hr.1 hr.2, mainsState_holdOffComplete (s := fresh s) h⟩⟩
  · dsimp only [effect]
    rw [if_pos (show tideState (fresh s) = 1 ∧ (!(fresh s).mains.advancing) = true from ⟨h1, by simp [fresh, ha]⟩)]
    exact ⟨rfl, getN_setN_self ..⟩
  · dsimp only [effect]
    rw [if_pos (show tideState (fresh s) = 1 ∧ (fresh s).mains.advancing = true from ⟨h1, ha⟩)]
    exact getN_setN_self ..
  · dsimp only [effect]
    rw [if_pos (show tideState (fresh s) = 2 from h2)]
    exact getN_setN_self ..
  · refine ⟨?_, fun j hj => ?_⟩
    · exact (congrArg (bit · i) (getN_setN_self ..)).trans bit_setBit_self
    · exact (congrArg (bit · j) (getN_setN_self ..)).trans (bit_setBit_ne hj)

end Sys2Proof.Machine
end

section
/-!
PROOFS: the bollards: their latches, what a latch forces, and their release (R332 to R337, R388).
-/
namespace Sys2Proof.Machine

variable {s t u : State} {b i k m : Nat} {tm : Time} {l : List Nat}

/-! What a latched bollard leaves alone. -/

/-- From s to t the bollards' objects and the result stand. -/
structure Moors (s t : State) : Prop where
  obj : ∀ i k, 0x0402 ≤ i → i ≤ 0x0405 → k < 256 → getV i k t = getV i k s
  result : t.result = s.result

theorem Moors.refl (s : State) : Moors s s := ⟨fun _ _ _ _ _ => rfl, rfl⟩

theorem Moors.step (h : Moors t u) (h' : Moors s t) : Moors s u :=
  ⟨fun i k hi hi' hk => (h.obj i k hi hi' hk).trans (h'.obj i k hi hi' hk), h.result.trans h'.result⟩

theorem Moors.each {f : Nat → State → State} (h : ∀ n s, Moors s (f n s)) : Moors s (each l f s) := by
  induction l generalizing s with
  | nil => exact .refl s
  | cons n l ih => exact .step ih (h n s)

theorem Moors.of {σ : Scope} {α : Type} {f : Harbour → α} (hs : Stands f s t) (ha : Acts σ s t) : Moors s t :=
  ⟨fun i k _ _ _ => hs.obj i k (by unfold stopKey noticeKey berthKey key; omega), ha.result⟩

theorem Moors.of_quiet (h : Quiet s t) : Moors s t := ⟨fun i k _ _ _ => h.obj i k (by unfold noticeKey key; omega), h.result⟩

theorem Moors.getN (h : Moors s t) (hi : 0x0402 ≤ i) (hi' : i ≤ 0x0405) (hk : k < 256) : getN i k t = getN i k s := by
  rw [getN_eq, h.obj i k hi hi' hk, ← getN_eq]

theorem Moors.bolLatched (h : Moors s t) : bolLatched i t = bolLatched i s := by
  rw [Machine.bolLatched, h.getN (by decide) (by decide) (by decide)]
  rfl

theorem moors_calStop : Moors s (calStop b s) := .of (f := Harbour.untriggered) stands_calStop acts_calStop

theorem moors_updateLen : Moors s (updateLen b tm s) :=
  .of (f := Harbour.untriggered) (σ := stopScope) stands_updateLen (acts_updateLen trivial fun _ _ _ => rfl)

theorem moors_stopDecelerate : Moors s (stopDecelerate m s) := by
  unfold stopDecelerate
  dsimp only
  split
  · refine ⟨fun i k hi hi' hk => ?_, rfl⟩
    rw [getV_modAxis, setN_eq, setI_eq, getV_setV_ne _ _ (by unfold key mi; omega), getV_setV_ne _ _ (by unfold key mi; omega)]
  · exact .refl s

theorem moors_faultStop {mask strength cause : Nat} : Moors s (faultStop mask strength cause tm s) := .of stands_faultStop acts_faultStop

/-- The berths of a mask are stopped: each is, in the order of their numbers. -/
theorem moors_stopBerths {strength cause : Nat} : Moors s (eachBerth m (fun b => stopBerth b strength cause tm) s) :=
  .of (.eachBerth fun _ _ => stands_stopBerth) (acts_eachBerth fun _ _ => acts_stopBerth)

/-! The outputs of a bollard's berths (R82, R333). -/

theorem any_congr_mem {f g : Nat → Bool} (h : ∀ j ∈ l, f j = g j) : l.any f = l.any g := by
  induction l with
  | nil => rfl
  | cons j l ih =>
    obtain ⟨hj, hl⟩ := List.forall_mem_cons.mp h
    rw [List.any_cons, List.any_cons, hj, ih hl]

theorem bollardForced_congr (h : Moors s t) : bollardForced b t = bollardForced b s := by
  have hall : ∀ j, (bit (getN 0x0402 0x15 t) j && getN 0x0402 (j + 1) t != 0 && bit (getN 0x0403 (j + 1) t) b) =
      (bit (getN 0x0402 0x15 s) j && getN 0x0402 (j + 1) s != 0 && bit (getN 0x0403 (j + 1) s) b) ∨ 16 ≤ j := fun j => by
    by_cases hj : j < 16
    · refine .inl ?_
      rw [h.getN (by decide) (by decide) (by decide), h.getN (by decide) (by decide) (by omega), h.getN (by decide) (by decide) (by omega)]
    · exact .inr (by omega)
  unfold bollardForced
  exact any_congr_mem fun j hj => (hall j).resolve_right (by have := List.mem_range.mp hj; omega)

theorem len_updateLen_forced (h : bollardForced b s = true) : (berth b (updateLen b tm s)).len = false := by
  have hw : lenWanted b s = false := by simp [lenWanted, h]
  unfold updateLen
  dsimp only
  rw [hw]
  split
  · rename_i h
    exact h.1.symm
  · split
    · rw [berth_modBerth_self]
    · rw [berth, emit_berths, ← berth, berth_modBerth_self]

theorem berth_updateLen_ne {c : Nat} (h : b ≠ c) : berth b (updateLen c tm s) = berth b s :=
  (acts_updateLen (σ := .all (· = c)) rfl fun _ _ _ => rfl).berth b h

/-- Once the outputs of a list of berths are driven, those of a forced berth of the list are low. -/
theorem len_updateAll_forced (h : bollardForced b s = true) (hb : b ∈ l ∨ (berth b s).len = false) :
    (berth b (each l (fun b => updateLen b tm) s)).len = false := by
  induction l generalizing s with
  | nil => exact hb.resolve_left nofun
  | cons c l ih =>
    refine ih (s := updateLen c tm s) ((bollardForced_congr moors_updateLen).trans h) ?_
    by_cases hc : b = c
    · subst hc
      exact .inr (len_updateLen_forced h)
    · refine hb.imp (fun hm => (List.mem_cons.mp hm).resolve_left hc) fun hl => ?_
      rw [berth_updateLen_ne hc, hl]

theorem updateAll_obj : (each l (fun b => updateLen b tm) s).obj = s.obj := by
  induction l generalizing s with
  | nil => rfl
  | cons c l ih => exact (ih (s := updateLen c tm s)).trans updateLen_obj

/-! A latch (R332, R333). -/

theorem Moors.ite {c : Prop} [Decidable c] (h : c → Moors s t) (h' : ¬ c → Moors s u) : Moors s (if c then t else u) := by
  split
  · exact h ‹_›
  · exact h' ‹_›

theorem bolRole_congr (h : Moors s t) (hi : i < 16) : bolRole i t = bolRole i s := h.getN (by decide) (by decide) (by omega)

theorem bolBerths_congr (h : Moors s t) (hi : i < 16) : bolBerths i t = bolBerths i s := h.getN (by decide) (by decide) (by omega)

/-- What a latched bollard does ends with its berths' outputs, after steps that leave its objects alone. -/
theorem bolActs_stages (hi : i < 16) : ∃ u, Moors s u ∧ bolActs i tm s = eachBerth (bolBerths i s) (fun b => updateLen b tm) u ∧
    (bolRole i s = 1 → u = faultStop (bolBerths i s) 2 0x000F tm (eachBerth (bolBerths i s) calStop s)) := by
  have hcal : Moors s (eachBerth (bolBerths i s) calStop s) := .each fun _ _ => moors_calStop
  refine ⟨_, .step (.ite (fun _ => .each fun _ _ => moors_stopDecelerate) fun _ => .refl _)
    (.step (.ite (fun _ => moors_faultStop) fun _ => .ite (fun _ => moors_stopBerths) fun _ => .refl _) hcal), rfl, fun h1 => ?_⟩
  have hrole := (bolRole_congr hcal hi).trans h1
  rw [if_pos hrole, if_neg (by rw [bolRole_congr moors_faultStop hi, hrole]; decide)]

/-- A latched bollard with a role forces the outputs of its berths. -/
theorem bollardForced_latched (hi : i < 16) (h : bolLatched i s = true) (h0 : bolRole i s ≠ 0) (hb : bit (bolBerths i s) b = true) :
    bollardForced b s = true :=
  List.any_eq_true.mpr ⟨i, List.mem_range.mpr hi, by
    simp only [bolLatched, bolRole, bolBerths] at h h0 hb
    simp [h, h0, hb]⟩

theorem moors_bolActs (hi : i < 16) : Moors s (bolActs i tm s) := by
  obtain ⟨u, hu, heq, -⟩ := bolActs_stages (i := i) (tm := tm) (s := s) hi
  rw [heq]
  exact .step (.each fun _ _ => moors_updateLen) hu

theorem len_bolActs (hi : i < 16) (h : bolLatched i s = true) (h0 : bolRole i s ≠ 0) (hb : b < 24) (hm : bit (bolBerths i s) b = true) :
    (berth b (bolActs i tm s)).len = false := by
  obtain ⟨u, hu, heq, -⟩ := bolActs_stages (i := i) (tm := tm) (s := s) hi
  rw [heq]
  exact len_updateAll_forced ((bollardForced_congr hu).trans (bollardForced_latched hi h h0 hm))
    (.inl (List.mem_filter.mpr ⟨List.mem_range.mpr hb, hm⟩))

/-- A latched bollard of the role pause pauses its berth, where that is Armed. -/
theorem paused_bolActs (hi : i < 16) (hb : b < 24) (h1 : bolRole i s = 1) (hm : bolBerths i s = 2 ^ b) (ha : bState b s = 1) :
    bState b (bolActs i tm s) = 4 ∧ getN (bi b 0) 6 (bolActs i tm s) = 0x000F := by
  obtain ⟨u, -, heq, hu⟩ := bolActs_stages (i := i) (tm := tm) (s := s) hi
  have hobj : (bolActs i tm s).obj = u.obj := by
    rw [heq]
    exact updateAll_obj
  have hget : ∀ j, getN (bi b 0) j (bolActs i tm s) = getN (bi b 0) j u := fun j => by rw [getN_eq, getV_congr hobj, ← getN_eq]
  have hstop : StoppedIn b 4 0x000F u := by
    rw [hu h1, hm, eachBerth_single hb]
    exact stoppedIn_faultStop_armed hb ((acts_calStop_records.bState hb (.inr id)).trans ha)
  exact ⟨(hget 1).trans hstop.state, (hget 6).trans hstop.cause⟩

/-- A bollard latches and is counted. -/
def bolCounted (i : Nat) (s : State) : State :=
  let s := setN 0x0402 0x15 (setBit (getN 0x0402 0x15 s) i true) s
  let s := setN 0x0402 0x14 (setBit (getN 0x0402 0x14 s) i true) { s with mains := { s.mains with inactiveSince := s.mains.inactiveSince.del i } }
  addN 0x0405 (i + 1) 32 1 s

/-- A latch is noted. -/
def bolNoted (i : Nat) (tm : Time) (s : State) : State :=
  drawn (noticeLogAt 5 0 0x0212 (toLe 1 i ++ toLe 1 (bolRole i s) ++ toLe 1 (bolAxes i s) ++ toLe 1 0 ++ toLe 4 (bolBerths i s) ++ toLe 4 0) tm s)

theorem bolLatch_acts (hl : bolLatched i s = false) (h0 : bolRole i s ≠ 0) : ∃ d, bolLatch i tm s = bolActs i d (bolNoted i tm (bolCounted i s)) :=
  ⟨_, if_neg (by simp [hl, h0])⟩

theorem bolLatch_off (h0 : bolRole i s = 0) : bolLatch i tm s = s := if_pos (.inr h0)

theorem getV_bolNoted (h : ¬ noticeKey (key i k)) {j : Nat} : getV i k (bolNoted j tm s) = getV i k s := (quiet_noticeLogAt ..).obj i k h

theorem moors_bolNoted : Moors s (bolNoted i tm s) :=
  ⟨fun _ _ _ _ _ => getV_bolNoted (by unfold noticeKey key; omega), (quiet_noticeLogAt ..).result⟩

theorem getV_bolCounted {j : Nat} (h15 : key i k ≠ key 0x0402 0x15) (h14 : key i k ≠ key 0x0402 0x14) (hc : key i k ≠ key 0x0405 (j + 1)) :
    getV i k (bolCounted j s) = getV i k s :=
  (getV_setV_ne _ _ hc).trans ((getV_setV_ne _ _ h14).trans (getV_setV_ne _ _ h15))

theorem getN_bolCounted {j : Nat} (h15 : key i k ≠ key 0x0402 0x15) (h14 : key i k ≠ key 0x0402 0x14) (hc : key i k ≠ key 0x0405 (j + 1)) :
    getN i k (bolCounted j s) = getN i k s := by
  rw [getN_eq, getV_bolCounted h15 h14 hc, ← getN_eq]

theorem bolLatched_bolCounted (hi : i < 16) : bolLatched i (bolCounted i s) = true := by
  unfold bolCounted
  dsimp only
  rw [bolLatched, addN, getN_setN_ne _ _ (by unfold key; omega), getN_setN_ne _ _ (by decide)]
  exact (congrArg (bit · i) (getN_setN_self ..)).trans bit_setBit_self

theorem count_bolCounted (hi : i < 16) : getN 0x0405 (i + 1) (bolCounted i s) = (getN 0x0405 (i + 1) s + 1) % 2 ^ 32 := by
  unfold bolCounted
  dsimp only
  rw [addN, getN_setN_self, getN_setN_ne _ _ (by unfold key; omega)]
  exact congrArg (fun n => (n + 1) % 2 ^ 32) (getN_setN_ne _ _ (by unfold key; omega))

theorem bState_latched (hi : i < 16) (hb : b < 24) : bState b (bolNoted i tm (bolCounted i s)) = bState b s := by
  rw [bState, getN_eq, getV_bolNoted (by unfold noticeKey key bi; omega), ← getN_eq, getN_bolCounted (by unfold key bi; omega) (by unfold key bi; omega) (by unfold key bi; omega)]
  rfl

/-- What a bollard that latches leaves (R332, R333). -/
theorem bolLatch_spec (hi : i < 16) (hl : bolLatched i s = false) (h0 : bolRole i s ≠ 0) : bolLatched i (bolLatch i tm s) = true ∧
    getN 0x0405 (i + 1) (bolLatch i tm s) = (getN 0x0405 (i + 1) s + 1) % 2 ^ 32 ∧
    (∀ b, b < 24 → bit (bolBerths i s) b = true → (berth b (bolLatch i tm s)).len = false) ∧
    (∀ b, b < 24 → bolRole i s = 1 → bolBerths i s = 2 ^ b → bState b s = 1 →
      bState b (bolLatch i tm s) = 4 ∧ getN (bi b 0) 6 (bolLatch i tm s) = 0x000F) := by
  obtain ⟨d, heq⟩ := bolLatch_acts (tm := tm) hl h0
  have hacts := moors_bolActs (i := i) (tm := d) (s := bolNoted i tm (bolCounted i s)) hi
  have hall : Moors (bolCounted i s) (bolLatch i tm s) := by
    rw [heq]
    exact .step hacts moors_bolNoted
  have hlatched : bolLatched i (bolNoted i tm (bolCounted i s)) = true := moors_bolNoted.bolLatched.trans (bolLatched_bolCounted hi)
  have hrole : bolRole i (bolNoted i tm (bolCounted i s)) = bolRole i s :=
    (bolRole_congr moors_bolNoted hi).trans (getN_bolCounted (by unfold key; omega) (by unfold key; omega) (by unfold key; omega))
  have hberths : bolBerths i (bolNoted i tm (bolCounted i s)) = bolBerths i s :=
    (bolBerths_congr moors_bolNoted hi).trans (getN_bolCounted (by unfold key; omega) (by unfold key; omega) (by unfold key; omega))
  refine ⟨hall.bolLatched.trans (bolLatched_bolCounted hi), ?_, fun b hb hm => ?_, fun b hb h1 hm ha => ?_⟩
  · rw [hall.getN (by decide) (by decide) (by omega), count_bolCounted hi]
  · rw [heq]
    exact len_bolActs hi hlatched (hrole.trans_ne h0) hb (hberths ▸ hm)
  · rw [heq]
    exact paused_bolActs hi hb (hrole.trans h1) (hberths.trans hm) ((bState_latched hi hb).trans ha)

/-! The acknowledge object (R334). -/

/-- From s to t at most the latches changed of what a release rests on. -/
structure Unmoors (s t : State) : Prop where
  release : ∀ i, bolMayRelease i t = bolMayRelease i s
  result : t.result = s.result

theorem updateAll_mains : (each l (fun b s => updateLen b s.now s) s).mains = s.mains ∧ (each l (fun b s => updateLen b s.now s) s).now = s.now ∧
    (each l (fun b s => updateLen b s.now s) s).obj = s.obj ∧ (each l (fun b s => updateLen b s.now s) s).result = s.result := by
  have hone : ∀ (b : Nat) (tm : Time) (s : State), (updateLen b tm s).mains = s.mains := fun b tm s => by
    unfold updateLen
    dsimp only
    split
    · rfl
    · split <;> rfl
  induction l generalizing s with
  | nil => exact ⟨rfl, rfl, rfl, rfl⟩
  | cons c l ih =>
    obtain ⟨hm, hn, ho, hr⟩ := ih (s := updateLen c s.now s)
    exact ⟨hm.trans (hone ..), hn.trans still_updateLen.now, ho.trans updateLen_obj, hr.trans moors_updateLen.result⟩

theorem bolRelease_releases (h : bolLatched i s = true ∧ bolMayRelease i s = true) : Unmoors s (bolRelease i s) ∧ ∀ j,
    bolLatched j (bolRelease i s) = if j = i then false else bolLatched j s := by
  obtain ⟨hm, hn, ho, hr⟩ := updateAll_mains (l := berthList.filter (fun b => bit (bolBerths i s) b))
    (s := setN 0x0402 0x15 (setBit (getN 0x0402 0x15 s) i false) s)
  have heq : bolRelease i s = each (berthList.filter (fun b => bit (bolBerths i s) b)) (fun b s => updateLen b s.now s)
    (setN 0x0402 0x15 (setBit (getN 0x0402 0x15 s) i false) s) := if_pos h
  rw [← heq] at hm hn ho hr
  have hget : ∀ k, k < 256 → k ≠ 0x15 → getN 0x0402 k (bolRelease i s) = getN 0x0402 k s := fun k hk h15 => by
    rw [getN_eq, getV_congr ho, ← getN_eq, getN_setN_ne _ _ (by unfold key; omega)]
  refine ⟨⟨fun j => ?_, hr⟩, fun j => ?_⟩
  · rw [bolMayRelease, hget 0x14 (by decide) (by decide), hget 0x13 (by decide) (by decide), hm, hn]
    rfl
  · rw [bolLatched, getN_eq, getV_congr ho, ← getN_eq, getN_setN_self]
    split
    · rename_i hj
      rw [hj, bit_setBit_self]
    · exact bit_setBit_ne ‹_›

theorem bolRelease_spec : Unmoors s (bolRelease i s) ∧ ∀ j,
    bolLatched j (bolRelease i s) = (bolLatched j s && !(decide (j = i) && bolMayRelease i s)) := by
  by_cases h : bolLatched i s = true ∧ bolMayRelease i s = true
  · obtain ⟨hu, hj⟩ := bolRelease_releases h
    refine ⟨hu, fun j => ?_⟩
    rw [hj, h.2]
    by_cases hji : j = i <;> simp [hji]
  · have heq : bolRelease i s = s := if_neg h
    refine ⟨by rw [heq]; exact ⟨fun _ => rfl, rfl⟩, fun j => ?_⟩
    rw [heq]
    by_cases hji : j = i
    · subst hji
      cases hl : bolLatched j s <;> simp_all
    · simp [hji]

/-- Of the bollards of a list, those that may be released are. -/
theorem bolReleases_spec : (each l bolRelease s).result = s.result ∧ ∀ j,
    bolLatched j (each l bolRelease s) = (bolLatched j s && !(decide (j ∈ l) && bolMayRelease j s)) := by
  induction l generalizing s with
  | nil => exact ⟨rfl, fun j => by simp [each]⟩
  | cons i l ih =>
    obtain ⟨hu, hone⟩ := bolRelease_spec (i := i) (s := s)
    obtain ⟨hr, hall⟩ := ih (s := bolRelease i s)
    refine ⟨hr.trans hu.result, fun j => ?_⟩
    refine (hall j).trans ?_
    rw [hone, hu.release]
    by_cases hji : j = i
    · subst hji
      cases bolMayRelease j s <;> simp
    · simp [hji]

theorem mem_bitsOf {n : Nat} : i ∈ bitsOf n m ↔ i < n ∧ bit m i = true := by
  simp [bitsOf]

/-- An acknowledge releases the bollards of its mask that may be released, and is refused where one of them stays latched. -/
theorem acknowledge_spec (h0 : s.result = 0) : (∀ i, i < 16 →
      (bolLatched i (acknowledge m s) = true ↔ bolLatched i s = true ∧ ¬(bit m i = true ∧ bolMayRelease i s = true))) ∧
    ((acknowledge m s).result = 0 ↔ ∀ i, i < 16 → bit m i = true → bolLatched i (acknowledge m s) = false) := by
  obtain ⟨hr, hall⟩ := bolReleases_spec (l := bitsOf 16 m) (s := s)
  have hsame : ∀ i, bolLatched i (acknowledge m s) = bolLatched i (each (bitsOf 16 m) bolRelease s) := fun i => by
    unfold acknowledge
    dsimp only
    split <;> rfl
  refine ⟨fun i hi => ?_, ?_⟩
  · rw [hsame, hall]
    cases hb : bit m i <;> simp [mem_bitsOf, hi, hb]
  · simp only [hsame]
    unfold acknowledge
    dsimp only
    split
    · rename_i hany
      obtain ⟨i, hmem, hl⟩ := List.any_eq_true.mp hany
      obtain ⟨hi, hb⟩ := mem_bitsOf.mp hmem
      refine ⟨fun h => absurd h (show ¬ (4 : Nat) = 0 by decide), fun h => ?_⟩
      rw [h i hi hb] at hl
      exact nomatch hl
    · rename_i hany
      refine ⟨fun _ i hi hb => ?_, fun _ => hr.trans h0⟩
      exact Bool.eq_false_iff.mpr fun hl => hany (List.any_eq_true.mpr ⟨i, mem_bitsOf.mpr ⟨hi, hb⟩, hl⟩)

/-! The active levels (R336). -/

theorem anyExposing_of_all (h : anyExposing allBerths s = false) : anyExposing m s = false := by
  refine List.any_eq_false.mpr fun b hb => ?_
  have hall : bit allBerths b = true := by
    have : ∀ b < 24, bit allBerths b = true := by decide
    exact this b (List.mem_range.mp hb)
  have := List.any_eq_false.mp h b hb
  rw [hall] at this
  simp only [Bool.true_and] at this
  simp [this]

/-- A latch leaves the active levels and the result. -/
theorem bolLatch_level (hi : i < 16) : getN 0x0402 0x11 (bolLatch i tm s) = getN 0x0402 0x11 s ∧ (bolLatch i tm s).result = s.result := by
  by_cases h : bolLatched i s = true ∨ bolRole i s = 0
  · have heq : bolLatch i tm s = s := if_pos h
    rw [heq]
    exact ⟨rfl, rfl⟩
  · obtain ⟨d, heq⟩ := bolLatch_acts (i := i) (s := s) (tm := tm) (by simpa using fun hl => h (.inl hl)) fun h0 => h (.inr h0)
    have hm : Moors (bolCounted i s) (bolLatch i tm s) := by
      rw [heq]
      exact .step (moors_bolActs hi) moors_bolNoted
    exact ⟨(hm.getN (by decide) (by decide) (by decide)).trans (getN_bolCounted (by decide) (by decide) (by unfold key; omega)), hm.result⟩

theorem bolLatches_level (hl : ∀ i ∈ l, i < 16) : getN 0x0402 0x11 (each l (fun i s => bolLatch i s.now s) s) = getN 0x0402 0x11 s ∧
    (each l (fun i s => bolLatch i s.now s) s).result = s.result := by
  induction l generalizing s with
  | nil => exact ⟨rfl, rfl⟩
  | cons i l ih =>
    obtain ⟨hi, ht⟩ := List.forall_mem_cons.mp hl
    obtain ⟨h1, h2⟩ := ih (s := bolLatch i s.now s) ht
    exact ⟨h1.trans (bolLatch_level hi).1, h2.trans (bolLatch_level hi).2⟩

theorem activeLevel_taken (hl : ∀ i, i < 16 → bolLatched i s = false) (hx : anyExposing allBerths s = false) :
    getN 0x0402 0x11 (activeLevel m s) = m ∧ (activeLevel m s).result = s.result := by
  have hnone : (levelChanges m s).any (fun i => bolLatched i s || anyExposing (bolBerths i s) s) = false := List.any_eq_false.mpr fun i hi => by
    have h16 : i < 16 := List.mem_range.mp (List.mem_filter.mp hi).1
    simp [hl i h16, anyExposing_of_all hx]
  unfold activeLevel
  dsimp only
  rw [if_neg (by simp [hnone]), if_neg (by simp [hx])]
  obtain ⟨h1, h2⟩ := bolLatches_level (s := bolInputs s.mains.input (setN 0x0402 0x11 m s))
    (l := (levelChanges m s).filter (fun i => !bit (activeOf s.mains.input (getN 0x0402 0x11 s)) i && bit (activeOf s.mains.input m) i))
    fun i hi => List.mem_range.mp (List.mem_filter.mp (List.mem_filter.mp hi).1).1
  exact ⟨h1.trans ((getN_setN_ne _ _ (by decide)).trans (getN_setN_self ..)), h2⟩

/-- Settles O42. -/
theorem bollards : Obligations.Bollards := by
  unfold Obligations.Bollards
  refine ⟨fun i off s hr hl h0 => ?_, fun i off s hr h0 => ?_, fun m s hr => ⟨_, gated_run hr.1 hr.2, acknowledge_spec (s := fresh s) rfl⟩,
    fun m s hr hl hx => ⟨_, gated_run hr.1 hr.2, activeLevel_taken (s := fresh s) hl hx⟩⟩
  · have hi : i < 16 := by
      have := hr.1
      simp [Instr.wf] at this
      omega
    exact ⟨_, exec_effect hr nofun, bolLatch_spec (s := fresh s) hi hl h0⟩
  · rw [exec_effect hr nofun]
    exact congrArg _ (bolLatch_off (s := fresh s) h0)

end Sys2Proof.Machine
end

section
/-!
PROOFS: the power ladder, waking and the die temperature (R341 to R347, R397).
-/
namespace Sys2Proof.Machine

variable {s t u : State} {a b c i k l n st : Nat} {tm : Time} {w : Bool}

/-! What a move on the ladder leaves of the chip's objects. -/

theorem ChipStands.each {f : Nat → State → State} {x : List Nat} (h : ∀ n s, ChipStands s (f n s)) : ChipStands s (each x f s) :=
  .foldl fun n s => h n s

theorem le_index_lki : 0x1000 ≤ lki l := by unfold lki; split <;> omega

theorem chip_setLinkState : ChipStands s (setLinkState l n s) :=
  .ite (fun _ => .step (chip_setV (by decide)) (chip_setV le_index_lki)) fun _ => .step (chip_setV (by decide)) (chip_setV le_index_lki)

theorem chip_linksDown : ChipStands s (linksDown s) :=
  .each fun _ _ => .ite (fun _ => .refl _) fun _ => .step (.of_eq rfl) (.step (chip_setV le_index_lki) chip_setLinkState)

theorem chip_outputsOff : ChipStands s (outputsOff s) := by
  have h : ChipStands s (Machine.each (s.vision.pins.map (fun e => e.1)) (fun k s => emit (.lamp k (lampLevel k false s) s.now) s) s) := .each fun _ _ => .of_eq rfl
  exact .step (.of_eq rfl) h

theorem chip_modSub {f : Subchannel → Subchannel} : ChipStands s (modSub c f s) := .of_eq rfl

theorem chip_activate {p : Place} : ChipStands s (activate c p s) :=
  .ite (fun _ => .step (chip_addN (by decide)) (.of_eq rfl)) fun _ => .of_eq rfl

theorem chip_neighbourRefresh : ChipStands s (neighbourRefresh c s) :=
  .step (.foldl fun _ _ => .step chip_modSub (.foldl fun _ _ => .of_eq rfl)) chip_modSub

theorem chip_modBank {f : Bank → Bank} : ChipStands s (modBank c k f s) := chip_modSub

theorem chip_issueBurst : ChipStands s (issueBurst a w s) := by
  have hissue : ∀ c k f o u, ChipStands u (neighbourRefresh c (emit o (modBank c k f u))) := fun c k f o u =>
    .step chip_neighbourRefresh (.step (t := modBank c k f u) (.of_eq rfl) chip_modBank)
  exact .step (hissue _ _ _ _ _) (.ite (fun _ => .refl s) fun _ => chip_activate)

theorem chip_issueQueued {q : Queued} : ChipStands s (issueQueued c q s) :=
  .step chip_issueBurst (.step (.ite (fun _ => .refl _) fun _ => .ite (fun _ => chip_addN (by decide)) fun _ => .refl _) chip_modSub)

theorem chip_selfRefresh : ChipStands s (selfRefresh c s) := by
  have hrest : ∀ u, ChipStands u (Machine.each [2 * c, 2 * c + 1] (fun c s => rest c s) u) := fun u =>
    .each fun _ _ => .step chip_modSub (.foldl fun _ _ => chip_issueQueued)
  exact .ite (fun _ => .refl s) fun _ => .step (chip_setV (by decide)) (hrest s)

/-! The record streams end (R214, R348). -/

theorem le_index_ssi : 0x1000 ≤ ssi st k := by unfold ssi; omega

theorem chip_startSegment : ChipStands s (startSegment st s) :=
  .step (chip_setV le_index_ssi) <| .step (chip_setV le_index_ssi) <| .step (chip_addN le_index_ssi) <| .step chip_ringWrite chip_modStream

theorem chip_ringStage {d : List Byte} : ChipStands s (ringStage st d s) := .step chip_modStream chip_ringWrite

theorem chip_refill : ChipStands s (refill st s) := by
  unfold refill
  split
  · exact .refl s
  · exact .ite (fun _ => .refl s) fun _ => .step chip_ringStage chip_modStream

theorem chip_codeFront : ChipStands s (codeFront st n s) :=
  .step chip_modStream <| .step (chip_setV le_index_ssi) <| .step (chip_addN le_index_ssi) <| .step (chip_addN le_index_ssi) chip_ringWrite

theorem chip_streamStop : ChipStands s (streamStop st s) :=
  .step (.of_quiet (quiet_noticeObj ..)) <| .step (chip_setV le_index_ssi) <| .step (chip_addN (by decide)) chip_modStream

theorem chip_bufferTaken {o : Option Nat} : ChipStands s (bufferTaken o s) := by
  cases o with
  | none => exact .refl s
  | some m => exact .of_eq rfl

theorem chip_finishSegment : ChipStands s (finishSegment st s) := by
  unfold finishSegment
  refine .ite (fun _ => ?_) fun _ => .step (.step chip_refill chip_startSegment) ?_
  all_goals exact .step chip_bufferTaken (.step (chip_setV le_index_ssi) (.step chip_modStream chip_ringWrite))

theorem chip_codeNext : ChipStands s (codeNext st s) := by
  unfold codeNext
  split
  · exact .refl s
  · exact .ite (fun _ => .ite (fun _ => chip_streamStop) fun _ => .step chip_refill chip_codeFront) fun _ =>
      .ite (fun _ => chip_finishSegment) fun _ => .refl s

theorem chip_drainSegs : ChipStands s (drainSegs st n s) := by
  induction n generalizing s with
  | zero => exact .refl s
  | succ n ih => exact .ite (fun _ => .step ih chip_codeNext) fun _ => .refl s

theorem chip_endSegment : ChipStands s (endSegment st s) := .ite (fun _ => .refl s) fun _ => .step chip_drainSegs chip_modStream

theorem chip_beforeOff : ChipStands s (beforeOff n s) := by
  have h : ChipStands s (logFlush (Machine.each (List.range 0x62) endSegment s)) := .step (.of_quiet quiet_logFlush) (.each fun _ _ => chip_endSegment)
  unfold beforeOff
  generalize logFlush (Machine.each (List.range 0x62) endSegment s) = u at h ⊢
  exact .ite (fun _ => .step (t := u) (.of_eq rfl) h) fun _ => h

/-! The objects of the ladder. -/

/-- From s to t the objects of the power ladder stand. -/
def RungStands (s t : State) : Prop := ∀ k, k < 256 → getV 0x0300 k t = getV 0x0300 k s

theorem RungStands.refl (s : State) : RungStands s s := fun _ _ => rfl

theorem RungStands.step (h : RungStands t u) (h' : RungStands s t) : RungStands s u := fun k hk => (h k hk).trans (h' k hk)

theorem RungStands.ite {c : Prop} [Decidable c] (h : c → RungStands s t) (h' : ¬ c → RungStands s u) : RungStands s (if c then t else u) := by
  split
  · exact h ‹_›
  · exact h' ‹_›

theorem RungStands.of_chip (h : ChipStands s t) : RungStands s t := fun k hk => h 0x0300 k (by decide) hk (by unfold noticeKey key; omega)

theorem rungs_setV {v : Val} (hi : 0x0301 ≤ i) : RungStands s (setV i k v s) := fun _ _ => getV_setV_ne _ _ (by unfold key; omega)

theorem RungStands.getN (h : RungStands s t) (hk : k < 256) : getN 0x0300 k t = getN 0x0300 k s := by rw [getN_eq, h k hk, ← getN_eq]

theorem rungs_setMains : RungStands s (setMains n s) := by
  unfold setMains
  dsimp only
  split
  · exact .step (rungs_setV (by decide)) (rungs_setV (by decide) (s := s))
  · split
    · exact .step (rungs_setV (by decide)) (rungs_setV (by decide))
    · exact rungs_setV (by decide)

theorem rungs_dipLogged : RungStands s (dipLogged s) :=
  .ite (fun _ => .refl s) fun _ => .step (.of_chip (.of_quiet (quiet_logAdd ..))) (rungs_setV (by decide) (s := s))

/-- Where no supervised reset is due, Not monitored leaves the ladder, and DRAM. -/
theorem notMonitored_stands (h2 : mainsState s ≠ 2) (h10 : getN 0x0401 0x10 s ≠ 1) : RungStands s (notMonitored s) ∧ (notMonitored s).dram = s.dram := by
  unfold notMonitored
  dsimp only
  split
  · exact ⟨.refl s, rfl⟩
  · rw [if_neg (by simp [h2, h10])]
    have hd : ∀ u, (setMains 4 u).dram = u.dram := fun u => still_setMains.dram
    exact ⟨.step (rungs_setV (by decide) (s := setMains 4 (dipLogged s))) (.step rungs_setMains rungs_dipLogged), (hd _).trans still_dipLogged.dram⟩

theorem rungs_enterDetect : RungStands s (enterDetect l s) := by
  have h : ChipStands s (enterDetect l s) := .step (.of_eq rfl) <| .step (chip_setV le_index_lki) <| .step (chip_setV le_index_lki) <|
    .step chip_setLinkState <| .ite (fun _ => .refl s) fun _ => .of_eq rfl
  exact .of_chip h

theorem rungs_tideUp : RungStands s (tideUp s) :=
  .step (rungs_setV (by decide)) <| .step (rungs_setV (by decide)) (rungs_setV (by decide) (s := s))

theorem rungs_comeUp : RungStands s (comeUp s) := by
  have h : ∀ (l : List Nat) (u : State), RungStands u (each l (fun l s => if getN (lki l) 1 s = 1 then enterDetect l s else s) u) := by
    intro l
    induction l with
    | nil => exact .refl
    | cons a l ih => exact fun u => .step (ih _) (.ite (fun _ => rungs_enterDetect) fun _ => .refl u)
  unfold comeUp
  exact .ite (fun _ => .step (rungs_setV (by decide)) (.step (h _ _) rungs_tideUp)) fun _ => .step (h _ _) rungs_tideUp

/-! The ladder (R341 to R347). -/

theorem rung_setN : rung (setN 0x0300 2 n s) = n := getN_setN_self ..

theorem rung_rungNote : rung (rungNote a b s) = rung s := (RungStands.of_chip (.of_quiet (quiet_noticeLog ..))).getN (by decide)

/-- What is done before a lower rung is in force. -/
theorem goDown_stages : ∃ u, RungStands s u ∧ (n < 4 → u.dram = s.dram) ∧ goDown n s = setN 0x0300 2 n u := by
  have hdown : ∀ u, ChipStands u (each [0, 1] selfRefresh (linksDown (outputsOff u))) ∧
      (each [0, 1] selfRefresh (linksDown (outputsOff u))).dram = u.dram := fun u =>
    ⟨.step (.each fun _ _ => chip_selfRefresh) (.step chip_linksDown chip_outputsOff),
      (Still.each (fun _ _ => still_selfRefresh) (.step still_linksDown still_outputsOff)).dram⟩
  have hnote : ∀ u, ChipStands u (rungNote (rung s) n u) ∧ (rungNote (rung s) n u).dram = u.dram := fun u =>
    ⟨.of_quiet (quiet_noticeLog ..), (quiet_noticeLog ..).dram⟩
  refine ⟨_, ?_, fun h4 => ?_, rfl⟩
  · refine .of_chip (.ite (fun _ => .step chip_beforeOff ?_) fun _ => ?_)
    all_goals exact .step (hnote _).1 (.ite (fun _ => (hdown s).1) fun _ => .refl s)
  · rw [if_neg (by omega), (hnote _).2]
    split
    · exact (hdown s).2
    · rfl

theorem rungRequest_lower (h5 : n ≤ 5) (h : rung s < n) (h0 : rungRefusal n s = 0) (h2 : mainsState s ≠ 2) (h10 : getN 0x0401 0x10 s ≠ 1) :
    rung (rungRequest n s) = n ∧ getN 0x0300 4 (rungRequest n s) = 0 ∧ (n < 4 → (rungRequest n s).dram = s.dram) := by
  have heq : rungRequest n s = goDown n (setN 0x0300 4 0 (if 2 ≤ n then notMonitored s else s)) := by
    unfold rungRequest
    rw [if_neg (by omega), if_neg (by omega)]
    dsimp only
    rw [if_neg (by omega), if_neg (by simp [h2, h10])]
  obtain ⟨u, hu, hd, hgo⟩ := goDown_stages (n := n) (s := setN 0x0300 4 0 (if 2 ≤ n then notMonitored s else s))
  rw [heq, hgo]
  refine ⟨rung_setN, ?_, fun h4 => (hd h4).trans ?_⟩
  · rw [getN_setN_ne _ _ (by decide), hu.getN (by decide)]
    exact getN_setN_self ..
  · show (if 2 ≤ n then notMonitored s else s).dram = s.dram
    split
    · exact (notMonitored_stands h2 h10).2
    · rfl

theorem rungRequest_refused (h5 : n ≤ 5) (h : rung s < n) (h0 : rungRefusal n s ≠ 0) :
    rungRequest n s = withResult 4 (setN 0x0300 4 (rungRefusal n s) s) := by
  unfold rungRequest
  rw [if_neg (by omega), if_neg (by omega)]
  exact if_pos h0

/-- A rung request is taken on P0 to P2 alone. -/
theorem rung_of_ready (hr : Ready (.rungRequest n) s) : rung s ≤ 2 := by
  have h := hr.2
  cases hrom : s.pilot.romRecovery <;> simp [running, commandDomain, hrom] at h
  exact h

theorem rungRequest_higher (h2 : rung s ≤ 2) (h : n < rung s) : rungRequest n s = goUp n s := by
  unfold rungRequest
  rw [if_neg (by omega), if_pos (by omega), if_neg (by omega)]

theorem goUp_reaches : rung (goUp n s) = n ∧ ∀ k, k < 256 → k ≠ 2 → getN 0x0300 k (goUp n s) = getN 0x0300 k s := by
  have hnote : ∀ u, RungStands u (rungNote (rung s) n u) := fun u => .of_chip (.of_quiet (quiet_noticeLog ..))
  have hup : RungStands s (if 2 ≤ rung s ∧ n < 2 then setN 0x6002 7 0 (if s.pilot.anchorage then tideUp s else comeUp s) else s) :=
    .ite (fun _ => .step (rungs_setV (by decide)) (.ite (fun _ => rungs_tideUp) fun _ => rungs_comeUp)) fun _ => .refl s
  unfold goUp
  dsimp only
  refine ⟨((hnote _).getN (by decide)).trans rung_setN, fun k hk h2 => ?_⟩
  rw [(hnote _).getN hk, getN_setN_ne _ _ (by unfold key; omega), hup.getN hk]

theorem wakeUp_wakes {src us : Nat} (h1 : 1 ≤ rung s) (h3 : rung s ≤ 3) (hb : bit (getN 0x0300 3 s % 16) src = true)
    (ha : src = 1 → getN 0x0300 5 s ≠ 0) : rung (wakeUp src us s) = 0 ∧ getN 0x0300 6 (wakeUp src us s) = src ∧ getN 0x0300 7 (wakeUp src us s) = us := by
  have heq : wakeUp src us s = goUp 0 (setN 0x0300 7 us (setN 0x0300 6 src s)) := by
    unfold wakeUp
    dsimp only
    rw [if_neg (by simp only [hb]; rintro (h | h | h); exacts [absurd h (by omega), absurd h (by decide), ha h.1 h.2]), if_pos h3]
  obtain ⟨hr, hk⟩ := goUp_reaches (n := 0) (s := setN 0x0300 7 us (setN 0x0300 6 src s))
  rw [heq]
  refine ⟨hr, ?_, ?_⟩
  · rw [hk 6 (by decide) (by decide), getN_setN_ne _ _ (by decide), getN_setN_self]
  · rw [hk 7 (by decide) (by decide), getN_setN_self]

theorem wakeUp_stays {src us : Nat} (h : rung s = 0 ∨ bit (getN 0x0300 3 s % 16) src = false ∨ src = 1 ∧ getN 0x0300 5 s = 0) :
    wakeUp src us s = s :=
  if_pos (h.imp_right (Or.imp_left fun hb => by simp [hb]))

/-- The die temperature is shown, with its step (R397). -/
theorem dieTemperature_shown {v : Int} : getI 0xF000 1 (dieTemperature v s) = v ∧ (dieTemperature v s).pilot.hot = heatStep v ∧
    (dieTemperature v s).dram = s.dram := by
  unfold dieTemperature
  dsimp only
  split
  · rw [(quiet_noticeObj ..).getI (by simp [noticeKey, key]), (quiet_noticeObj ..).pilot, (quiet_noticeObj ..).dram]
    exact ⟨getI_setI_self .., rfl, rfl⟩
  · exact ⟨getI_setI_self .., rfl, rfl⟩

/-- Settles O43. -/
theorem rungsWakingAndDieTemperature : Obligations.RungsWakingAndDieTemperature := by
  unfold Obligations.RungsWakingAndDieTemperature
  refine ⟨fun n s hr h5 h h0 h2 h10 => ⟨_, gated_run hr.1 hr.2, rungRequest_lower (s := fresh s) h5 h h0 h2 h10⟩, fun n s hr h5 h h0 => ?_,
    fun n s hr h => ⟨_, gated_run hr.1 hr.2, ?_⟩, fun src us s hr h1 h3 hb ha => ⟨_, gated_run hr.1 hr.2, wakeUp_wakes (s := fresh s) h1 h3 hb ha⟩,
    fun src us s hr h => ?_, fun v s hr => ⟨_, gated_run hr.1 hr.2, dieTemperature_shown (s := fresh s)⟩⟩
  · refine ⟨_, gated_run hr.1 hr.2, ?_⟩
    rw [rungRequest_refused (s := fresh s) h5 h h0]
    exact ⟨getN_setN_ne _ _ (by decide), rfl, getN_setN_self ..⟩
  · have hon : rung s ≤ 2 := rung_of_ready hr
    rw [rungRequest_higher (s := fresh s) hon h]
    exact goUp_reaches.1
  · exact (gated_run hr.1 hr.2).trans (congrArg _ (wakeUp_stays (s := fresh s) h))

end Sys2Proof.Machine
end

section
/-!
PROOFS: what flash holds: field update and its boot record, the logbook's flushes, its clear and its window (R357, R363 to R373).
-/
namespace Sys2Proof.Machine

variable {s t u : State} {cls num code n : Nat} {d : List Byte} {tm : Time} {r : LogRecord}

/-! The boot record stays as the logbook writes (R357, R370). -/

theorem boot_logProgram : (logProgram r s).flash.boot = s.flash.boot := by
  unfold logProgram
  split
  · rfl
  · split <;> rfl

theorem boot_logDrain {l : List LogRecord} : (logDrain l s).flash.boot = s.flash.boot := by
  induction l generalizing s with
  | nil => rfl
  | cons r l ih =>
    unfold logDrain
    split
    · rfl
    · exact ih.trans boot_logProgram

theorem logCount_flash : (logCount s).flash = s.flash ∧ (logCount s).log = s.log := by
  unfold logCount
  dsimp only
  constructor
  · split <;> (split <;> rfl)
  · split <;> (split <;> rfl)

theorem boot_logFlush : (logFlush s).flash.boot = s.flash.boot := by
  have hnote : ∀ u, (logLostNote u).flash = u.flash := fun u => by
    unfold logLostNote
    split <;> rfl
  rw [logFlush, logCount_flash.1, hnote, boot_logDrain]

theorem boot_logAdd : (logAdd cls num code d tm s).flash.boot = s.flash.boot := by
  unfold logAdd
  dsimp only
  split
  · split
    · exact boot_logFlush
    · rw [logCount_flash.1]
      rfl
  · rfl

theorem boot_noticeAt : (noticeAt cls num code d tm s).flash.boot = s.flash.boot := by
  have hone : ∀ m j u, (queueNotice m j u).flash = u.flash := fun m j u => by
    unfold queueNotice
    dsimp only
    split_ifs <;> rfl
  have hall : ∀ m (l : List Nat) u, (each l (queueNotice m) u).flash = u.flash := by
    intro m l
    induction l with
    | nil => exact fun _ => rfl
    | cons j l ih => exact fun u => (ih _).trans (hone ..)
  unfold noticeAt
  dsimp only
  split
  · rw [boot_logAdd, hall]
  · rw [hall]

theorem boot_noticeLog : (noticeLog cls num code d s).flash.boot = s.flash.boot := by
  unfold noticeLog noticeLogAt
  dsimp only
  split
  · exact boot_noticeAt
  · rw [boot_logAdd, boot_noticeAt]

theorem bootRecord_congr (h : t.flash.boot = s.flash.boot) : bootRecord t = bootRecord s := by rw [bootRecord, bootRecord, h]

/-- A boot record that is written is in use, but for its sequence. -/
theorem bootRecord_set {x : BootRecord} : ∃ q, bootRecord (setBootRecord x s) = { x with seq := q } := by
  unfold setBootRecord
  dsimp only
  split
  · rename_i h
    exact ⟨x.seq, h.symm⟩
  · refine ⟨(bootRecord s).seq + 1, ?_⟩
    generalize bootRecord s = old
    unfold bootRecord
    dsimp only
    split
    · rfl
    · simp

/-! Field update (R363, R364). -/

theorem updateState_setN : updateState (setN 0x0110 3 n s) = n := getN_setN_self ..

theorem updateState_setN_ne {k v : Nat} (h : key 0x0110 3 ≠ key 0x0110 k) : updateState (setN 0x0110 k v s) = updateState s := getN_setN_ne _ _ h

theorem imageData_staged {o : Nat} (h : getN 0x0220 2 s ≠ 1) (h2 : updateState s ≠ 2) (h3 : updateState s ≠ 3)
    (hb : o + d.length ≤ bankBytes (updateTarget s)) : imageData o d s = setN 0x0110 4 0 (setN 0x0110 3 1
      (modUpdate (fun u => { u with staged := overlay (if updateState s = 1 then s.pilot.update.staged else []) o d }) s)) := by
  unfold imageData
  rw [if_neg h, if_neg (by simp [h2, h3]), if_neg (by omega)]

theorem verifyAndWrite_runs (h : getN 0x0220 2 s ≠ 1) (h1 : updateState s = 1) : verifyAndWrite s =
    setN 0x0110 3 2 (modUpdate (fun u => { u with bank := inactiveBank (updateTarget s) s }) s) := by
  unfold verifyAndWrite
  rw [if_neg h, if_neg (by simp [h1])]

/-- A staged image is refused for its cause, or written into its bank, or fails to be written. -/
theorem updateReady_ends {ok : Bool} {c : Nat} (h2 : updateState s = 2)
    (hc : c = imageCause (if s.pilot.update.bank < 2 then 1 else 2) s.pilot.update.staged s) :
    updateState (updateReady ok s) = (if c = 0 ∧ ok = true then 4 else 5) ∧
      (c ≠ 0 → getN 0x0110 4 (updateReady ok s) = c ∧ (updateReady ok s).flash = s.flash) ∧
      (c = 0 → ok = false → getN 0x0110 4 (updateReady ok s) = 4) ∧
      (c = 0 → ok = true → imageOf s.pilot.update.bank (updateReady ok s) = s.pilot.update.staged) := by
  unfold updateReady
  rw [if_neg (by simp [h2])]
  dsimp only
  rw [← hc]
  by_cases h0 : c = 0
  · rw [if_neg (by simp [h0])]
    cases ok
    case false =>
      refine ⟨?_, fun hn => absurd h0 hn, fun _ _ => getN_setN_self .., nofun⟩
      rw [if_neg Bool.false_ne_true, updateState_setN_ne (by decide), updateState_setN, if_neg (by simp)]
    case true =>
      refine ⟨?_, fun hn => absurd h0 hn, nofun, fun _ _ => ?_⟩
      · rw [if_pos rfl, updateState_setN, if_pos ⟨h0, rfl⟩]
      · rw [if_pos rfl]
        show (Tab.find s.pilot.update.bank (Tab.put s.pilot.update.bank s.pilot.update.staged s.flash.images)).getD _ = _
        rw [Tab.find_put_self, Option.getD_some]
  · rw [if_pos h0]
    refine ⟨?_, fun _ => ⟨getN_setN_self .., rfl⟩, fun h => absurd h h0, fun h => absurd h h0⟩
    rw [updateState_setN_ne (by decide), updateState_setN, if_neg (fun h => h0 h.1)]

/-- The boot record names the new bank on trial. -/
theorem activateImage_names (h4 : updateState s = 4) : updateState (activateImage s) = 6 ∧
    (s.pilot.update.bank < 2 → (bootRecord (activateImage s)).pilotBank = s.pilot.update.bank ∧ (bootRecord (activateImage s)).pilotTrial = 1) ∧
    (2 ≤ s.pilot.update.bank →
      (bootRecord (activateImage s)).berthBank = s.pilot.update.bank - 2 ∧ (bootRecord (activateImage s)).berthTrial = 1) := by
  obtain ⟨d, heq⟩ : ∃ d, activateImage s = noticeLog 0 0 0x0290 d (setN 0x0110 3 6 (setBootRecord
      (if s.pilot.update.bank < 2 then { bootRecord s with pilotBank := s.pilot.update.bank, pilotTrial := 1 }
        else { bootRecord s with berthBank := s.pilot.update.bank - 2, berthTrial := 1 }) s)) := ⟨_, if_neg (by simp [h4])⟩
  have hset : ∀ x : BootRecord, ∃ q, bootRecord (setN 0x0110 3 6 (setBootRecord x s)) = { x with seq := q } := fun x => bootRecord_set
  rw [heq]
  refine ⟨?_, fun h => ?_, fun h => ?_⟩
  · rw [updateState, (quiet_noticeLog ..).getN (by simp [noticeKey, key])]
    exact getN_setN_self ..
  · rw [bootRecord_congr boot_noticeLog, if_pos h]
    obtain ⟨q, hq⟩ := hset { bootRecord s with pilotBank := s.pilot.update.bank, pilotTrial := 1 }
    rw [hq]
    exact ⟨rfl, rfl⟩
  · rw [bootRecord_congr boot_noticeLog, if_neg (by omega)]
    obtain ⟨q, hq⟩ := hset { bootRecord s with berthBank := s.pilot.update.bank - 2, berthTrial := 1 }
    rw [hq]
    exact ⟨rfl, rfl⟩

theorem setBootRecord_obj {x : BootRecord} : (setBootRecord x s).obj = s.obj := by
  unfold setBootRecord
  dsimp only
  split <;> rfl

/-- Settles O45. -/
theorem fieldUpdate : Obligations.FieldUpdate := by
  unfold Obligations.FieldUpdate
  refine ⟨fun o d s hr h h2 h3 hb => ⟨_, gated_run hr.1 hr.2, ?_⟩, fun s hr h h1 => ⟨_, gated_run hr.1 hr.2, ?_⟩,
    fun ok c s hr h2 hc => ⟨_, gated_run hr.1 hr.2, updateReady_ends (s := fresh s) h2 hc⟩,
    fun s hr h4 => ⟨_, gated_run hr.1 hr.2, activateImage_names (s := fresh s) h4⟩, fun s hr => ⟨_, gated_run hr.1 hr.2, ?_⟩,
    fun s hr => ⟨_, exec_effect hr nofun, ?_⟩⟩
  · rw [imageData_staged (s := fresh s) h h2 h3 hb]
    exact ⟨(updateState_setN_ne (by decide)).trans updateState_setN, getN_setN_self .., rfl, rfl, rfl⟩
  · rw [verifyAndWrite_runs (s := fresh s) h h1]
    exact ⟨updateState_setN, rfl, rfl, rfl⟩
  · exact ⟨(updateState_setN_ne (by decide)).trans updateState_setN, rfl, rfl⟩
  · obtain ⟨q, hq⟩ := bootRecord_set (s := fresh s) (x := { bootRecord (fresh s) with pilotTrial := 0, berthTrial := 0 })
    dsimp only [effect]
    rw [hq]
    exact ⟨rfl, rfl, rfl, setBootRecord_obj⟩

/-! The logbook (R365 to R373). -/

/-- Staged records that do not fill the circulating area are all written: none begins an erase, and each adds one to what flash holds. -/
theorem logDrain_all {l : List LogRecord} (he : s.log.erasing = false) (hl : s.flash.circulating.length + l.length < 10240) :
    (logDrain l s).log = { s.log with staging := [] } ∧ (logHeld (logDrain l s)).length = (logHeld s).length + l.length := by
  induction l generalizing s with
  | nil => exact ⟨rfl, rfl⟩
  | cons r l ih =>
    have hone : (logProgram r s).log = s.log ∧ (logProgram r s).flash.circulating.length ≤ s.flash.circulating.length + 1 ∧
        (logHeld (logProgram r s)).length = (logHeld s).length + 1 := by
      rw [List.length_cons] at hl
      unfold logProgram
      split
      · exact ⟨rfl, Nat.le_succ _, by simp only [logHeld, List.length_append, List.length_cons, List.length_nil]; omega⟩
      · rw [if_neg (by omega)]
        exact ⟨rfl, by simp, by simp only [logHeld, List.length_append, List.length_cons, List.length_nil]; omega⟩
    obtain ⟨hlog, hcirc, hheld⟩ := hone
    have heq : logDrain (r :: l) s = logDrain l (logProgram r s) := if_neg (by simp [he])
    rw [List.length_cons] at hl
    obtain ⟨h1, h2⟩ := ih (s := logProgram r s) (by rw [hlog, he]) (by omega)
    rw [heq, h1, h2, hlog, hheld, List.length_cons]
    exact ⟨rfl, by omega⟩

/-- A flush while no erase begins empties the staging into flash (R368). -/
theorem logFlush_all (he : s.log.erasing = false) (h0 : s.log.lost = 0) (hl : s.flash.circulating.length + s.log.staging.length < 10240) :
    (logFlush s).log.staging = [] ∧ getN 0x0500 6 (logFlush s) = 0 ∧ (logFlush s).log.erasing = false ∧
      (logHeld (logFlush s)).length = (logHeld s).length + s.log.staging.length := by
  obtain ⟨h1, h2⟩ := logDrain_all he hl
  have hnote : logLostNote (logDrain s.log.staging s) = logDrain s.log.staging s := if_neg (by simp [h1, h0])
  rw [logFlush, hnote]
  obtain ⟨hflash, hlog⟩ := logCount_flash (s := logDrain s.log.staging s)
  refine ⟨by rw [hlog, h1], ?_, by rw [hlog, h1, he], by rw [logHeld, hflash, ← logHeld, h2]⟩
  rw [logCount, getN_setN_self, h1]
  rfl

/-- A read of the window moves the session's cursor past the last record it returns, and nothing else (R373). -/
theorem logWindow_moves : (∀ r, (windowRecords n s).getLast? = some r → (sess n (logWindow n s).2).cursor = (r.index + 1) % 2 ^ 32) ∧
    (logWindow n s).2.flash = s.flash ∧ (logWindow n s).2.obj = s.obj ∧ (logWindow n s).2.out = s.out := by
  unfold logWindow
  dsimp only
  split
  next h => exact ⟨fun r hr => (nomatch h.symm.trans hr), rfl, rfl, rfl⟩
  next x h =>
    refine ⟨fun r hr => ?_, rfl, rfl, rfl⟩
    obtain rfl : x = r := Option.some.inj (h.symm.trans hr)
    exact congrArg Session.cursor (sess_modSess_self ..)

/-- Settles O46. -/
theorem logbookCommands : Obligations.LogbookCommands := by
  unfold Obligations.LogbookCommands
  refine ⟨fun c s hc hr he h0 hl => ?_, fun s hr he h0 hl => ⟨_, gated_run hr.1 hr.2, ?_⟩, fun n s hr => ⟨_, exec_effect hr nofun, ?_⟩⟩
  · obtain rfl | rfl := hc
    · exact ⟨_, gated_run hr.1 hr.2, logFlush_all (s := fresh s) he h0 hl⟩
    · exact ⟨_, gated_run hr.1 hr.2, logFlush_all (s := fresh s) he h0 hl⟩
  · rw [blockEraseComplete, if_pos (show (fresh s).log.erasing = true from he)]
    obtain ⟨h1, -, h3, -⟩ := logFlush_all (s := { fresh s with log := { (fresh s).log with erasing := false } }) rfl h0 hl
    exact ⟨h1, h3⟩
  · obtain ⟨hcur, hflash, hobj, hout⟩ := logWindow_moves (n := n) (s := fresh s)
    refine ⟨?_, hcur, hflash, hobj⟩
    dsimp only [effect]
    rw [emit_out, hout]
    rfl

/-- Whether a berth is Armed or Exposing, of all berths. -/
theorem anyExposing_all : anyExposing allBerths s = true ↔ ∃ b, b < 24 ∧ (bState b s = 1 ∨ bState b s = 2) := by
  have hbit : ∀ b < 24, bit allBerths b = true := by decide
  simp only [anyExposing, List.any_eq_true, berthList, List.mem_range, Bool.and_eq_true, Bool.or_eq_true, beq_iff_eq]
  exact exists_congr fun b => and_congr_right fun hb => by simp [hbit b hb]

/-- A record that enters an empty staging is staged alone. -/
theorem logAdd_first (h : s.log.staging = []) : logAdd cls num code d tm s = logCount (logStage cls num code d tm s) := by
  unfold logAdd
  rw [if_pos (by simp [h])]
  refine if_neg ?_
  show ¬ 8 ≤ (s.log.staging ++ [_]).length
  simp [h]

/-- The logbook after an accepted clear holds one staged record, that of the clear, as index 0 (R372). -/
theorem logClear_taken {v : Nat} (hv : v = getN 0x0500 1 s) (hx : anyExposing allBerths s = false) : (logClear v s).flash.permanent = [] ∧
    (logClear v s).flash.circulating = [] ∧ (∃ r : LogRecord, (logClear v s).log.staging = [r] ∧ r.code = 0x0270 ∧ r.index = 0) ∧
      getN 0x0500 1 (logClear v s) = 1 ∧ (logClear v s).result = s.result := by
  have hcount : ∀ u, getN 0x0500 1 (logCount u) = getN 0x0500 1 u := fun u => by
    unfold logCount
    dsimp only
    rw [getN_setN_ne _ _ (by decide)]
    split
    · split
      · rfl
      · exact getN_setN_ne _ _ (by decide)
    · split
      · rfl
      · exact getN_setN_ne _ _ (by decide)
  have hresult : ∀ u, (logCount u).result = u.result := fun u => quiet_logCount.result
  obtain ⟨d, u, heq, hst, hp, hc, hn, hr⟩ : ∃ d u, logClear v s = logCount (logStage 5 0 0x0270 d s.now u) ∧ u.log.staging = [] ∧
      u.flash.permanent = [] ∧ u.flash.circulating = [] ∧ getN 0x0500 1 u = 0 ∧ u.result = s.result := by
    refine ⟨toLe 4 (getN 0x0500 1 s) ++ toLe 8 0, setN 0x0500 1 0 { s with
      flash := { s.flash with permanent := [], circulating := [] }, log := { s.log with staging := [], erasing := false } }, ?_, rfl, rfl, rfl, getN_setN_self .., rfl⟩
    unfold logClear
    dsimp only
    rw [if_neg (by simp [hv, hx])]
    exact logAdd_first rfl
  rw [heq, logCount_flash.1, logCount_flash.2, hcount, hresult]
  refine ⟨hp, hc, ⟨{ index := getN 0x0500 1 u, cls := 5, num := 0, code := 0x0270, t := s.now, detail := slice d 0 12 }, ?_, rfl, hn⟩, ?_, hr⟩
  · show u.log.staging ++ [_] = _
    rw [hst]
    rfl
  · rw [logStage, addN, getN_setN_self]
    exact congrArg (fun n => (n + 1) % 2 ^ 32) hn

/-- Settles O55. -/
theorem logbookClear : Obligations.LogbookClear := by
  unfold Obligations.LogbookClear
  refine fun v s hr => ⟨fun h => ?_, fun hv hb => ?_⟩
  · have heq : logClear v (fresh s) = withResult 4 (fresh s) := if_pos (h.imp_right anyExposing_all.mpr)
    refine ⟨_, gated_run hr.1 hr.2, ?_⟩
    rw [heq]
    exact ⟨Nat.succ_ne_zero 3, rfl, rfl, rfl⟩
  · have hx : anyExposing allBerths s = false := Bool.eq_false_iff.mpr fun h => by
      obtain ⟨b, hlt, h⟩ := anyExposing_all.mp h
      exact h.elim (hb b hlt).1 (hb b hlt).2
    obtain ⟨hp, hc, ⟨r, hs, hcode, hi⟩, hn, h0⟩ := logClear_taken (s := fresh s) hv hx
    exact ⟨_, r, gated_run hr.1 hr.2, hp, hc, hs, hcode, hi, hn, h0⟩

end Sys2Proof.Machine
end

section
/-!
PROOFS: the in-situ stitching calibration (R377 to R381).
-/
namespace Sys2Proof.Machine

variable {s t u : State} {b c i k n : Nat} {l : List Nat} {tm : Time}

/-! Marking the berths of a calibration (R378). -/

theorem updateLen_cal : (updateLen b tm s).cal = s.cal := by
  unfold updateLen
  dsimp only
  split
  · rfl
  · split <;> rfl

theorem calibrating_updateLen : (berth c (updateLen b tm s)).calibrating = (berth c s).calibrating := by
  by_cases h : c = b
  · subst h
    obtain ⟨v, p, he⟩ := berth_updateLen (b := c) (tm := tm) (s := s)
    rw [he]
  · rw [berth_updateLen_ne h]

/-- Marks a berth as one of a calibration, or no longer, and drives its output. -/
def calSet (v : Bool) (b : Nat) (s : State) : State := updateLen b s.now (modBerth b (fun x => { x with calibrating := v }) s)

theorem calSet_spec {v : Bool} : (calSet v b s).obj = s.obj ∧ (calSet v b s).cal = s.cal ∧ (calSet v b s).result = s.result ∧
    ∀ c, (berth c (calSet v b s)).calibrating = if c = b then v else (berth c s).calibrating := by
  refine ⟨updateLen_obj, updateLen_cal, moors_updateLen.result, fun c => calibrating_updateLen.trans ?_⟩
  split
  · rename_i h
    rw [h, berth_modBerth_self]
  · rw [berth_modBerth_ne _ _ _ ‹_›]

theorem calSets_spec {v : Bool} : (each l (calSet v) s).obj = s.obj ∧ (each l (calSet v) s).cal = s.cal ∧ (each l (calSet v) s).result = s.result ∧
    ∀ c, (berth c (each l (calSet v) s)).calibrating = if c ∈ l then v else (berth c s).calibrating := by
  induction l generalizing s with
  | nil => exact ⟨rfl, rfl, rfl, fun c => rfl⟩
  | cons b l ih =>
    obtain ⟨ho, hc, hr, hb⟩ := calSet_spec (b := b) (v := v) (s := s)
    obtain ⟨ho', hc', hr', hb'⟩ := ih (s := calSet v b s)
    refine ⟨ho'.trans ho, hc'.trans hc, hr'.trans hr, fun c => (hb' c).trans ?_⟩
    rw [hb]
    by_cases h : c = b <;> simp [h]

theorem mem_maskBerths {m : Nat} (hb : b < 24) (hm : bit m b = true) : b ∈ berthList.filter (fun b => bit m b) :=
  List.mem_filter.mpr ⟨List.mem_range.mpr hb, hm⟩

/-! What the runs leave alone. -/

/-- From s to t a calibration goes on: what it shows, its mask, its berths and the result stand. -/
structure CalGoes (s t : State) : Prop where
  shows : ∀ k, k < 256 → getV 0x0603 k t = getV 0x0603 k s
  mask : t.cal.mask = s.cal.mask
  berths : ∀ b, (berth b t).calibrating = (berth b s).calibrating

theorem CalGoes.refl (s : State) : CalGoes s s := ⟨fun _ _ => rfl, rfl, fun _ => rfl⟩

theorem CalGoes.step (h : CalGoes t u) (h' : CalGoes s t) : CalGoes s u :=
  ⟨fun k hk => (h.shows k hk).trans (h'.shows k hk), h.mask.trans h'.mask, fun b => (h.berths b).trans (h'.berths b)⟩

theorem CalGoes.each {f : Nat → State → State} (h : ∀ n s, CalGoes s (f n s)) : CalGoes s (each l f s) := by
  induction l generalizing s with
  | nil => exact .refl s
  | cons n l ih => exact .step ih (h n s)

theorem CalGoes.getN (h : CalGoes s t) (hk : k < 256) : getN 0x0603 k t = getN 0x0603 k s := by rw [getN_eq, h.shows k hk, ← getN_eq]

theorem goes_modCal {f : CalBerth → CalBerth} : CalGoes s (modCal b f s) := ⟨fun _ _ => rfl, rfl, fun _ => rfl⟩

theorem goes_modBerth {f : Berth → Berth} (h : (f (berth b s)).calibrating = (berth b s).calibrating) : CalGoes s (modBerth b f s) := by
  refine ⟨fun _ _ => rfl, rfl, fun c => ?_⟩
  by_cases hc : c = b
  · rw [hc, berth_modBerth_self, h]
  · rw [berth_modBerth_ne _ _ _ hc]

theorem goes_calGo : CalGoes s (calGo b s) := by
  unfold calGo
  split
  · exact goes_modCal
  · exact .step goes_modCal (goes_modBerth rfl)

theorem goes_calRun : CalGoes s (calRun s) := .each fun _ _ => .step goes_calGo goes_modCal

theorem goes_addN {w m : Nat} (hi : i ≠ 0x0603) (hk : k < 256) : CalGoes s (addN i k w m s) :=
  ⟨fun _ hj => getV_setV_ne _ _ (by unfold key; omega), rfl, fun _ => rfl⟩

theorem goes_calFit {run : Nat} : CalGoes s (calFit run b s) :=
  .step (goes_addN (by decide) (by decide)) (.step goes_modCal ⟨fun _ _ => rfl, rfl, fun _ => rfl⟩)

/-! Start and abort (R377 to R379). -/

theorem getN_calForget (hk : k < 256) : getN 0x0603 k (calForget s) = getN 0x0603 k s := by
  have h : ∀ j, j < 256 → key 0x0603 k ≠ key 0x0604 j := fun j hj => by unfold key; omega
  unfold calForget
  dsimp only
  rw [getN_setI_ne _ _ (h 4 (by decide)), getN_setI_ne _ _ (h 3 (by decide)), getN_setI_ne _ _ (h 2 (by decide)), getN_setN_ne _ _ (h 6 (by decide)),
    getN_setN_ne _ _ (h 9 (by decide)), getN_setN_ne _ _ (h 5 (by decide)), getN_setN_ne _ _ (h 1 (by decide))]
  rfl

/-- A start begins run 1 with the berths of the mask. -/
theorem calibrationStart_starts (h : calRunning s = false) (h0 : startCause s = 0) : getN 0x0603 3 (calibrationStart s) = 1 ∧
    getN 0x0603 4 (calibrationStart s) = 0 ∧ (calibrationStart s).cal.mask = getN 0x0603 1 s ∧
    ∀ b, b < 24 → bit (getN 0x0603 1 s) b = true → (berth b (calibrationStart s)).calibrating = true := by
  obtain ⟨u, hu3, hu4, hum, heq⟩ : ∃ u, getN 0x0603 3 u = 1 ∧ getN 0x0603 4 u = 0 ∧ u.cal.mask = getN 0x0603 1 s ∧
      calibrationStart s = calRun (each (berthList.filter (fun b => bit (getN 0x0603 1 s) b)) (calSet true) u) := by
    refine ⟨setN 0x0603 3 1 (setN 0x0603 4 0 { calForget s with cal := { (calForget s).cal with mask := getN 0x0603 1 s } }), getN_setN_self .., ?_, rfl, ?_⟩
    · rw [getN_setN_ne _ _ (by decide), getN_setN_self]
    · unfold calibrationStart
      rw [if_neg (by simp [h]), if_neg (by simp [h0])]
      rfl
  obtain ⟨ho, hc, -, hb⟩ := calSets_spec (v := true) (l := berthList.filter (fun b => bit (getN 0x0603 1 s) b)) (s := u)
  have hget : ∀ k, getN 0x0603 k (each (berthList.filter (fun b => bit (getN 0x0603 1 s) b)) (calSet true) u) = getN 0x0603 k u :=
    fun k => by rw [getN_eq, getV_congr ho, ← getN_eq]
  rw [heq]
  refine ⟨?_, ?_, ?_, fun b hlt hm => ?_⟩
  · rw [goes_calRun.getN (by decide), hget, hu3]
  · rw [goes_calRun.getN (by decide), hget, hu4]
  · rw [goes_calRun.mask, hc, hum]
  · rw [goes_calRun.berths, hb, if_pos (mem_maskBerths hlt hm)]

theorem calibrationStart_refused (h : calRunning s = false) (h0 : startCause s ≠ 0) :
    calibrationStart s = withResult 4 (setN 0x0603 4 (startCause s) s) := by
  unfold calibrationStart
  rw [if_neg (by simp [h]), if_pos h0]

/-- An abort shows itself, and its berths leave the calibration. -/
theorem calAbort_ends : getN 0x0603 3 (calAbort s) = 6 ∧ getN 0x0603 4 (calAbort s) = 5 ∧ (calAbort s).result = s.result ∧
    ∀ b, b < 24 → bit s.cal.mask b = true → (berth b (calAbort s)).calibrating = false := by
  obtain ⟨ho, hc, hr, hb⟩ := calSets_spec (v := false) (l := berthList.filter (fun b => bit s.cal.mask b)) (s := s)
  have hq : ∀ d u, Quiet u (calNotice 0x0261 d u) := fun d u => quiet_notice ..
  unfold calAbort
  dsimp only
  refine ⟨?_, ?_, (hq ..).result.trans hr, fun b hlt hm => ?_⟩
  · rw [(hq ..).getN (by simp [noticeKey, key])]
    exact (getN_setN_ne _ _ (by decide)).trans (getN_setN_self ..)
  · rw [(hq ..).getN (by simp [noticeKey, key])]
    exact getN_setN_self ..
  · rw [berth, (hq ..).berths]
    exact (hb b).trans (if_pos (mem_maskBerths hlt hm))

/-! The settle time (R378). -/

theorem cal_ite {p : Prop} [Decidable p] (h : t.cal = s.cal) (h' : u.cal = s.cal) : (if p then t else u).cal = s.cal := by
  split
  · exact h
  · exact h'

theorem cal_cameraTrigger {why : Nat} : (cameraTrigger c why tm s).cal = s.cal := by
  have hcommit : ∀ n u, (commitCtx c n u).cal = u.cal := fun n u => by
    unfold commitCtx
    split <;> rfl
  have hopen : ∀ v u, (openStrobe c v tm u).cal = u.cal := fun v u => by
    unfold openStrobe
    dsimp only
    split <;> rfl
  have hsend : ∀ ty p u, (sendFrame c ty p u).cal = u.cal := fun ty p u => by
    unfold sendFrame launchFrame
    dsimp only
    split <;> rfl
  have h : ∀ n v f g, (openStrobe c v tm (modCtx c f (commitCtx c n (setN (ci c 5) 1 g s)))).cal = s.cal := fun _ _ _ _ =>
    (hopen ..).trans (hcommit ..)
  unfold cameraTrigger
  refine cal_ite rfl (cal_ite rfl ?_)
  exact cal_ite ((hsend ..).trans (h ..)) (h ..)

theorem cal_calTrigger : (calTrigger b n s).cal = s.cal := by
  have h : ∀ (l : List Nat) (u : State), (l.foldl (fun s i => cameraTrigger b 0 (s.now + i * getN (ci b 0) 7 s * nsT) s) u).cal = u.cal := by
    intro l
    induction l with
    | nil => exact fun _ => rfl
    | cons i l ih => exact fun u => (ih _).trans cal_cameraTrigger
  exact h ..

theorem settleTime_settles (h : calRunning s = true) (hb : (berth b s).calibrating = true) (hd : (calOf b s).done = false)
    (hs : (calOf b s).settled = false) : (calOf b (settleTime b s)).settled = true ∧ (calOf b (settleTime b s)).mark = (calOf b s).mark := by
  have hcal : ∀ f n, calOf b (modCal b f (calTrigger b n s)) = f (calOf b s) := fun f n => by
    have : calOf b (calTrigger b n s) = calOf b s := by rw [calOf, cal_calTrigger, ← calOf]
    simp [calOf, modCal] at this ⊢
    rw [this]
  unfold settleTime
  dsimp only
  rw [if_neg (by simp [h, hb, hd, hs]), hcal]
  exact ⟨rfl, rfl⟩

/-! The end of a run (R379, R380). -/

theorem runComplete_fits (h : calRunning s = true) (hd : ∀ b, b < 24 → bit s.cal.mask b = true → (calOf b s).done = true) :
    ∃ u, CalGoes s u ∧ runComplete s = if getN 0x0603 3 s = 1 then calRun (setN 0x0603 3 2 u) else calJudge u := by
  refine ⟨eachBerth s.cal.mask (calFit (getN 0x0603 3 s)) s, .each fun _ _ => goes_calFit, if_neg fun hn => ?_⟩
  obtain hn | hn := hn
  · simp [h] at hn
  · obtain ⟨b, hmem, hb⟩ := List.any_eq_true.mp hn
    obtain ⟨hlt, hm⟩ := List.mem_filter.mp hmem
    rw [hd b (List.mem_range.mp hlt) hm] at hb
    exact nomatch hb

theorem calVerdict_cause {x y z w : Nat × Nat × Nat} : (calVerdict x y z w s).1 = 0 ∨ 6 ≤ (calVerdict x y z w s).1 ∧ (calVerdict x y z w s).1 ≤ 9 := by
  unfold calVerdict
  split_ifs <;> simp

/-- After run 2 the calibration is accepted, or refused for a cause of R380. -/
theorem calJudge_ends : getN 0x0603 3 (calJudge s) = 3 ∨ getN 0x0603 3 (calJudge s) = 4 ∧ 6 ≤ getN 0x0603 4 (calJudge s) ∧
    getN 0x0603 4 (calJudge s) ≤ 9 := by
  have hq : ∀ code d u, Quiet u (calNotice code d u) := fun code d u => quiet_notice ..
  unfold calJudge
  dsimp only
  split
  · refine .inr ⟨?_, ?_⟩
    · rw [(hq ..).getN (by simp [noticeKey, key]), getN_setN_ne _ _ (by decide), getN_setN_ne _ _ (by decide), getN_setN_self]
    · rw [(hq ..).getN (by simp [noticeKey, key]), getN_setN_ne _ _ (by decide), getN_setN_self]
      exact calVerdict_cause.resolve_left ‹_›
  · refine .inl ?_
    rw [(hq ..).getN (by simp [noticeKey, key])]
    refine (CalGoes.each (fun b u => ?_)).getN (by decide) |>.trans ?_
    · exact ⟨fun _ _ => rfl, rfl, fun _ => rfl⟩
    · rw [getN_setN_ne _ _ (by decide), getN_setN_self]

/-! Apply (R381). -/

/-- The new map and generation enter a berth's shadows. -/
def applyTo (g : Nat) (b : Nat) (s : State) : State :=
  setShadow (bi b 5) 1 (.int g) (setShadow (bi b 5) 5 (.blob (s.cal.result.getD b [])) s)

theorem applied_find {g : Nat} (h : b ∈ l ∨ s.shadow.find (key (bi b 5) 1) = some (.int g)) :
    (each l (applyTo g) s).shadow.find (key (bi b 5) 1) = some (.int g) := by
  induction l generalizing s with
  | nil => exact h.resolve_left nofun
  | cons c l ih =>
    refine ih (s := applyTo g c s) ?_
    by_cases hc : b = c
    · subst hc
      exact .inr (Tab.find_put_self ..)
    · refine h.imp (fun hm => (List.mem_cons.mp hm).resolve_left hc) fun hs => ?_
      show Tab.find _ (Tab.put _ _ (Tab.put _ _ s.shadow)) = _
      rw [Tab.find_put_ne _ _ (by unfold key bi; omega), Tab.find_put_ne _ _ (by unfold key bi; omega), hs]

theorem applied_result {g : Nat} : (each l (applyTo g) s).result = s.result := by
  induction l generalizing s with
  | nil => rfl
  | cons c l ih => exact ih (s := applyTo g c s)

theorem calApply_applies (h3 : getN 0x0603 3 s = 3) (hs : ∀ b, b < 24 → bit s.cal.mask b = true → sealOf (4 + b) s = 0) :
    calApply s = setN 0x0604 6 (newGeneration s) (setN 0x0603 3 5 (each (berthList.filter (fun b => bit s.cal.mask b)) (applyTo (newGeneration s)) s)) := by
  have hseal : berthList.any (fun b => bit s.cal.mask b && sealOf (4 + b) s != 0) = false := List.any_eq_false.mpr fun b hmem => by
    cases hm : bit s.cal.mask b
    · simp
    · simp [hs b (List.mem_range.mp hmem) hm]
  unfold calApply
  rw [if_neg (by simp [h3]), if_neg (by simp [hseal])]
  rfl

/-- Settles O47. -/
theorem calibration : Obligations.Calibration := by
  unfold Obligations.Calibration
  refine ⟨fun s hr h h0 => ⟨_, gated_run hr.1 hr.2, calibrationStart_starts (s := fresh s) h h0⟩, fun s hr h h0 => ⟨_, gated_run hr.1 hr.2, ?_⟩,
    fun b s hr h hb hd hs => ⟨_, gated_run hr.1 hr.2, settleTime_settles (s := fresh s) h hb hd hs⟩, fun s hr h1 hd => ⟨_, gated_run hr.1 hr.2, ?_⟩,
    fun s hr h2 hd => ⟨_, gated_run hr.1 hr.2, ?_⟩, fun s hr h => ⟨_, exec_effect hr nofun, ?_⟩, fun s hr h3 hs => ⟨_, gated_run hr.1 hr.2, ?_⟩,
    fun s hr h => ⟨_, gated_run hr.1 hr.2, ?_⟩⟩
  · rw [calibrationStart_refused (s := fresh s) h h0]
    exact ⟨rfl, getN_setN_self .., rfl⟩
  · obtain ⟨u, hu, heq⟩ := runComplete_fits (s := fresh s) (by rw [calRunning]; simp [show getN 0x0603 3 (fresh s) = 1 from h1]) hd
    rw [heq, if_pos (show getN 0x0603 3 (fresh s) = 1 from h1), goes_calRun.getN (by decide), goes_calRun.mask]
    exact ⟨getN_setN_self .., hu.mask⟩
  · obtain ⟨u, -, heq⟩ := runComplete_fits (s := fresh s) (by rw [calRunning]; simp [show getN 0x0603 3 (fresh s) = 2 from h2]) hd
    rw [heq, if_neg (by rw [show getN 0x0603 3 (fresh s) = 2 from h2]; decide)]
    exact calJudge_ends
  · dsimp only [effect]
    rw [if_pos (show calRunning (fresh s) = true from h)]
    obtain ⟨h3, h4, h0, hb⟩ := calAbort_ends (s := fresh s)
    exact ⟨h3, h4, h0, hb⟩
  · rw [calApply_applies (s := fresh s) h3 hs]
    refine ⟨?_, ?_, fun b hlt hm => ?_⟩
    · rw [getN_setN_ne _ _ (by decide), getN_setN_self]
    · exact applied_result (s := fresh s)
    · have hfind := applied_find (s := fresh s) (g := newGeneration (fresh s)) (.inl (mem_maskBerths hlt hm))
      show asInt ((Tab.find _ (each _ (applyTo _) _).shadow).getD _) = _
      rw [show (fresh s).cal.mask = s.cal.mask from rfl, hfind]
      rfl
  · have heq : calibrationDiscard (fresh s) = setN 0x0603 4 0 (setN 0x0603 3 0 (calForget (fresh s))) := if_neg (by simp [show calRunning (fresh s) = false from h])
    rw [heq]
    exact ⟨(getN_setN_ne _ _ (by decide)).trans (getN_setN_self ..), getN_setN_self .., rfl, rfl⟩

end Sys2Proof.Machine
end

section
/-!
PROOFS: the count of warm resets (R349), at a state whose objects are out of order.
-/
namespace Sys2Proof.Machine

/-- A state whose table lists 0x0405:11, a V object, before 0x0301:03, the count of warm resets, which a look-up then misses: it reads 0.
Its banks hold no image that verifies, so that the boot ends in ROM recovery. -/
def countOutOfOrder : State := { State.reset with
  obj := [(key 0x0405 0x11, .int 1), (key 0x0301 3, .int 5)], flash := { State.reset.flash with images := [(0, []), (1, [])] } }

theorem count_countOutOfOrder : getN 0x0301 3 countOutOfOrder = 0 := by decide

/-- The warm reset takes the V objects from the table; that brings the count listed there to light. -/
theorem count_warmReset_countOutOfOrder : getN 0x0301 3 (warmReset 3 (fresh countOutOfOrder)) = 6 := by decide +kernel

/-- Refutes O44: at `countOutOfOrder`, whose table is not in the order of its keys, the watchdog turns a count of warm resets that reads 0
into 6, not 1. -/
theorem not_resets : ¬ Obligations.Resets := by
  unfold Obligations.Resets
  intro h
  have hr : Ready .watchdog countOutOfOrder := by decide
  obtain ⟨-, -, hwatchdog, -⟩ := h
  obtain ⟨t, ht, -, -, -, hcount, -⟩ := hwatchdog _ hr
  obtain rfl : warmReset 3 (fresh countOutOfOrder) = t := Host.Outcome.next.inj ((gated_run hr.1 hr.2).symm.trans ht)
  rw [count_warmReset_countOutOfOrder, count_countOutOfOrder] at hcount
  exact absurd hcount (by decide)

end Sys2Proof.Machine
end

section
/-!
PROOFS: what the commands of the network, the clock, the logbook and the store leave alone: the process, its objects and DRAM (R271,
R275, R279, R282, R286, R290, R293, R295, R298, R300, R368, R397).
-/
namespace Sys2Proof.Machine

/-- The state but for what the host's side owns: output, result, drawn values, objects, network, clock, flash, pilot and logbook. -/
def process (s : State) : State :=
  { s with out := [], result := 0, free := 0, timeSet := none, obj := [], net := {}, ptp := {}, flash := {}, pilot := {}, log := {} }

/-- An object of the host's side: the chip's, the sessions', the logbook's, the network's, the clock's and the die temperature. -/
def hostObject (i k : Nat) : Bool :=
  k < 256 && (i < 0x0400 || 0x0500 ≤ i && i < 0x0600 || 0x0800 ≤ i && i < 0x0806 || 0xF000 ≤ i)

/-- Nothing changed but the host's side. -/
structure HostSide (s t : State) : Prop where
  process : process t = process s
  obj : ∀ i k, k < 256 → hostObject i k = false → getV i k t = getV i k s

variable {s t u : State} {i k n id p w : Nat} {m : PtpMsg} {f : EthFrame}

theorem HostSide.refl (s : State) : HostSide s s := ⟨rfl, fun _ _ _ _ => rfl⟩

/-- `HostSide` after a step, in the order a proof meets them. -/
theorem HostSide.step (h : HostSide t u) (h' : HostSide s t) : HostSide s u :=
  ⟨h.process.trans h'.process, fun i k hk hn => (h.obj i k hk hn).trans (h'.obj i k hk hn)⟩

theorem HostSide.ite {c : Prop} [Decidable c] (h : c → HostSide s t) (h' : ¬ c → HostSide s u) :
    HostSide s (if c then t else u) := by
  split
  · exact h ‹_›
  · exact h' ‹_›

theorem HostSide.of_eq (h : Machine.process t = Machine.process s) (ho : t.obj = s.obj) : HostSide s t :=
  ⟨h, fun _ _ _ _ => getV_congr ho⟩

theorem hostObject_of_noticeKey (hk : k < 256) (h : noticeKey (key i k)) : hostObject i k = true := by
  simp only [hostObject, Bool.and_eq_true, Bool.or_eq_true, decide_eq_true_eq]
  unfold noticeKey key at h
  omega

theorem HostSide.of_quiet (h : Quiet s t) : HostSide s t where
  process := by
    simp only [Machine.process, h.pending, h.now, h.frame, h.shadow, h.dram, h.berths, h.loops, h.ctxs, h.links, h.axes, h.ctrs, h.hm,
      h.commit, h.vision, h.chart, h.bw, h.rcd, h.wake, h.mem, h.mains, h.cal]
  obj i k hk hn := h.obj i k fun e => by simp [hostObject_of_noticeKey hk e] at hn

/-! The operations on the state. -/

theorem host_setV {v : Val} (h : hostObject i k = true := by decide) : HostSide s (setV i k v s) where
  process := rfl
  obj j l hl hn := getV_setV_ne _ _ fun e => by
    have hk : k < 256 := by simp only [hostObject, Bool.and_eq_true, decide_eq_true_eq] at h; exact h.1
    obtain ⟨rfl, rfl⟩ := (key_inj hl hk).1 e
    simp [h] at hn

theorem host_setN {v : Nat} (h : hostObject i k = true := by decide) : HostSide s (setN i k v s) := host_setV h
theorem host_setI {v : Int} (h : hostObject i k = true := by decide) : HostSide s (setI i k v s) := host_setV h
theorem host_setTime {v : Time} (h : hostObject i k = true := by decide) : HostSide s (setTime i k v s) := host_setV h
theorem host_addN {v : Nat} (h : hostObject i k = true := by decide) : HostSide s (addN i k w v s) := host_setV h
theorem host_emit {o : Out} : HostSide s (emit o s) := .of_eq rfl rfl
theorem host_withResult {r : Nat} : HostSide s (withResult r s) := .of_eq rfl rfl
theorem host_modPtp {g : Ptp → Ptp} : HostSide s (modPtp g s) := .of_eq rfl rfl
theorem host_modSess {g : Session → Session} : HostSide s (modSess n g s) := .of_eq rfl rfl
theorem host_net {x : Net} : HostSide s { s with net := x } := .of_eq rfl rfl
theorem host_flash {x : Flash} {y : Pilot} : HostSide s { s with flash := x, pilot := y } := .of_eq rfl rfl
theorem host_modBulks {g : Tab Bulk → Tab Bulk} : HostSide s (modBulks n g s) := host_modSess
theorem host_drawn : HostSide s (drawn s) := .of_eq rfl rfl

/-! The datagrams and the sessions. -/

theorem host_feed : HostSide s (feed s) := .ite (fun _ => host_setN) fun _ => .refl s

theorem host_datagram : HostSide s (datagram n s) := .ite (fun _ => .step host_feed host_addN) fun _ => host_addN

theorem host_mopOut {type seq flags : Nat} {l : List Byte} : HostSide s (mopOut n type seq flags l s) := host_emit

theorem host_presenceOut : HostSide s (presenceOut s) := host_emit

theorem host_presence {x : PresenceMsg} : HostSide s (presence x s) :=
  .ite (fun _ => host_datagram) fun _ =>
    have h : HostSide s (setNotice 0 0 0x0801 5 1 (datagram 0xFF s)) :=
      .step (.of_quiet (quiet_noticeObj ..)) <| .step host_setI host_datagram
    .ite (fun _ => .step host_presenceOut <| .step host_net h) fun _ => h

theorem host_openSession {r : OpenReq} : HostSide s (openSession r s) := by
  unfold openSession
  dsimp only
  refine .ite (fun _ => .step host_mopOut host_datagram) fun _ => .step host_mopOut <| .step host_modSess ?_
  exact .ite (fun _ => .step host_drawn host_datagram) fun _ => host_datagram

theorem host_closeNow : HostSide s (closeNow n s) := host_modSess

theorem host_sendNotices : HostSide s (sendNotices n k s) := by
  induction k generalizing s with
  | zero => exact .refl s
  | succ k ih => exact .ite (fun _ => .refl s) fun _ => .step ih <| .step host_modSess <| .step host_modSess host_mopOut

theorem host_sendReport : HostSide s (sendReport n k s) := by
  unfold sendReport
  split
  · exact .refl s
  · exact .step host_modSess host_mopOut

theorem host_sendPieces {b : Bulk} {top off : Nat} : HostSide s (sendPieces n id b top k off s) := by
  induction k generalizing s off with
  | zero => exact .refl s
  | succ k ih => exact .ite (fun _ => .refl s) fun _ => .step ih host_mopOut

theorem host_bulkSend {b : Bulk} : HostSide s (bulkSend n id b s) :=
  .ite (fun _ => .step host_modBulks host_mopOut) fun _ => .step host_modBulks host_sendPieces

theorem host_bulkAck {received : Nat} : HostSide s (bulkAck n id received s) := by
  unfold bulkAck
  split
  · exact .refl s
  · exact .ite (fun _ => .refl s) fun _ => .ite (fun _ => host_modBulks) fun _ => host_bulkSend

theorem host_bulkResend : HostSide s (bulkResend n id s) := by
  unfold bulkResend
  split
  · exact .refl s
  · exact .ite (fun _ => host_bulkSend) fun _ => .refl s

theorem host_bulkAckInterval : HostSide s (bulkAckInterval n id s) := by
  unfold bulkAckInterval
  split
  · exact .refl s
  · exact .ite (fun _ => .refl s) fun _ => .step host_modBulks host_mopOut

theorem host_spiSeen : HostSide s (spiSeen s) := .ite (fun _ => host_feed) fun _ => .refl s

theorem host_spiOut {cmd : Nat} {l : List Byte} : HostSide s (spiOut cmd l s) := host_emit

/-! The ports. -/

theorem host_portBit {v : Bool} : HostSide s (portBit p v s) := host_setN

theorem host_portLinkUp : HostSide s (portLinkUp p s) :=
  .ite (fun _ => .step host_presenceOut host_portBit) fun _ => .refl s

theorem host_counted : HostSide s (counted s) := host_addN

theorem host_transparent : HostSide s (transparent p f s).2 := by
  unfold transparent
  dsimp only
  split
  · exact .refl s
  · split
    · split
      · exact host_modPtp (g := fun p => { p with residences := _ })
      · exact host_counted
    · split
      · split
        · exact host_addN
        · exact .step host_counted host_modPtp
      · exact .refl s

theorem host_forward : HostSide s (forward p f s) := by
  unfold forward
  split
  · have h := host_transparent (s := s) (p := p) (f := f)
    split <;> rename_i e <;> rw [e] at h
    · exact h
    · exact .step host_emit h
  · exact host_emit

theorem host_learn : HostSide s (learn p f s) := .ite (fun _ => .refl s) fun _ => .of_eq rfl rfl

theorem host_ethernetFrame : HostSide s (ethernetFrame p f s) := by
  unfold ethernetFrame
  refine .ite (fun _ => .refl s) fun _ => .ite (fun _ => .step host_addN host_addN) fun _ => ?_
  dsimp only
  have hl : HostSide s (if bridgeOn (addN 0x0800 0x0A 64 1 s) then learn p f (addN 0x0800 0x0A 64 1 s) else addN 0x0800 0x0A 64 1 s) :=
    .ite (fun _ => .step host_learn host_addN) fun _ => host_addN
  have hd : ∀ t, HostSide t (if forNode f t then emit (.deliver f) (if f.mop = [] ∨ mopGood f.mop then t else addN 0x0805 2 32 1 t) else t) :=
    fun t => .ite (fun _ => .step host_emit <| .ite (fun _ => .refl t) fun _ => host_addN) fun _ => .refl t
  exact .ite (fun _ => .step host_forward <| .step (hd _) hl) fun _ => .step (hd _) hl

/-! The clock. -/

theorem host_stepTo {ns : Nat} : HostSide s (stepTo ns s) := .of_eq rfl rfl

theorem host_steer {dt : Nat} : HostSide s (steer dt s) :=
  .ite (fun _ => .step host_modPtp <| .step host_setI host_drawn) fun _ => .step host_modPtp <| .step host_setI host_drawn

theorem host_servoOffset {off : Int} {dt : Nat} : HostSide s (servoOffset off dt s) :=
  .ite (fun _ => .refl s) fun _ => .ite (fun _ => .step host_setN <| .step host_stepTo host_setN) fun _ =>
    .step host_steer <| .step host_setN host_setN

theorem host_syncOffset {t1 t2 : Int} {port : Nat} : HostSide s (syncOffset t1 t2 port s) :=
  .step host_servoOffset <| .step host_setI <| .step host_setN host_modPtp

theorem host_sync : HostSide s (sync m s) := .ite (fun _ => .refl s) fun _ => .ite (fun _ => host_modPtp) fun _ => host_syncOffset

theorem host_followUp : HostSide s (followUp m s) := by
  unfold followUp
  split
  · exact .refl s
  · exact .ite (fun _ => host_syncOffset) fun _ => .refl s

theorem host_delayReq : HostSide s (delayReq m s) := .ite (fun _ => host_emit) fun _ => .refl s

theorem host_delayResp : HostSide s (delayResp m s) := by
  unfold delayResp
  split
  · exact .ite (fun _ => .step host_setI host_modPtp) fun _ => .refl s
  · exact .refl s

theorem host_pdelayReq : HostSide s (pdelayReq m s) :=
  .ite (fun _ => .refl s) fun _ => .ite (fun _ => .step host_emit host_emit) fun _ => host_emit

theorem host_pdelayResp : HostSide s (pdelayResp m s) := by
  unfold pdelayResp
  split
  · exact .refl s
  · exact .ite (fun _ => .refl s) fun _ => .step host_setI host_modPtp

theorem host_becomeMaster : HostSide s (becomeMaster s) :=
  .step host_setN <| .step host_setN <| .step host_setN <| .step host_modPtp <| .ite (fun _ => host_setN) fun _ => .refl s

theorem host_becomeSlave : HostSide s (becomeSlave m s) :=
  have h : HostSide s (setN 0x0803 0x0F ((m.steps + 1) % 2 ^ 16) (setN 0x0803 0x0E m.gm
      (modPtp (fun p => { p with master := some m, announceAt := s.now }) s))) := .step host_setN <| .step host_setN host_modPtp
  .ite (fun _ => h) fun _ => .step host_setN <| .step host_modPtp h

theorem host_announce : HostSide s (announce m s) := by
  unfold announce
  refine .ite (fun _ => .refl s) fun _ => ?_
  dsimp only
  split
  · exact host_modPtp
  · exact .ite (fun _ => .step host_becomeMaster host_modPtp) fun _ => .step host_becomeSlave host_modPtp

theorem host_announceReceiptTimeout : HostSide s (announceReceiptTimeout s) := by
  unfold announceReceiptTimeout
  split
  · exact .step host_becomeMaster host_modPtp
  · exact .step host_setN <| .step host_modPtp <| .ite (fun _ => host_setN) fun _ => .refl s

theorem host_timeSet {ns : Nat} : HostSide s (timeSet ns s) :=
  .ite (fun _ => host_withResult) fun _ => .step host_setN host_stepTo

theorem host_nextSeq : HostSide s (nextSeq s) := host_modPtp

theorem host_syncInterval : HostSide s (syncInterval s) :=
  .ite (fun _ => .refl s) fun _ => .step host_nextSeq <| .ite (fun _ => .step host_emit host_emit) fun _ => host_emit

theorem host_minimumDelayInterval : HostSide s (minimumDelayInterval s) :=
  .ite (fun _ => .step host_nextSeq <| .step host_emit host_modPtp) fun _ =>
    .ite (fun _ => .step host_nextSeq <| .step host_emit host_modPtp) fun _ => .refl s

/-! The logbook, the store and the die temperature. -/

theorem host_logWindow : HostSide s (logWindow n s).2 := by
  unfold logWindow
  dsimp only
  split
  · exact .refl s
  · exact host_modSess

theorem host_logFlush : HostSide s (logFlush s) := .of_quiet quiet_logFlush

theorem host_blockEraseComplete : HostSide s (blockEraseComplete s) :=
  .ite (fun _ => .step host_logFlush (.of_eq rfl rfl)) fun _ => .refl s

theorem host_logClear {v : Nat} : HostSide s (logClear v s) :=
  .ite (fun _ => host_withResult) fun _ => .step (.of_quiet (quiet_logAdd ..)) <| .step host_setN (.of_eq rfl rfl)

theorem host_storeStart : HostSide s (storeStart s) :=
  .ite (fun _ => host_withResult) fun _ => .step host_setN (.of_eq rfl rfl)

theorem host_storeComplete {ok : Bool} : HostSide s (storeComplete ok s) := by
  unfold storeComplete
  split
  · exact .refl s
  · exact .ite (fun _ => .step host_setN (.of_eq rfl rfl)) fun _ =>
      .step host_flash <| .step host_setTime <| .step host_addN <| .step host_setN <| .step host_drawn (.of_eq rfl rfl)

theorem host_restoreDefaults : HostSide s (restoreDefaults s) :=
  .ite (fun _ => host_withResult) fun _ => .step host_setN (.of_eq rfl rfl)

theorem host_dieTemperature {v : Int} : HostSide s (dieTemperature v s) :=
  have h : HostSide s (setI 0xF000 1 v { s with pilot := { s.pilot with hot := heatStep v } }) := .step host_setI (.of_eq rfl rfl)
  .ite (fun _ => .step (.of_quiet (quiet_noticeObj ..)) h) fun _ => h

/-! The commands. -/

theorem host_effect {c : Instr} (h : servesTheHost c = true) : HostSide s (effect c s) := by
  cases c with
  | sync _ => exact host_sync
  | followUp _ => exact host_followUp
  | delayReq _ => exact host_delayReq
  | delayResp _ => exact host_delayResp
  | pdelayReq _ => exact host_pdelayReq
  | pdelayResp _ => exact host_pdelayResp
  | announce _ => exact host_announce
  | announceReceiptTimeout => exact host_announceReceiptTimeout
  | servoLocked => exact .ite (fun _ => host_setN) fun _ => .refl s
  | timeSet _ => exact host_timeSet
  | syncInterval => exact host_syncInterval
  | announceInterval => exact .ite (fun _ => .step host_nextSeq host_emit) fun _ => .refl s
  | minimumDelayInterval => exact host_minimumDelayInterval
  | discover => exact .step host_presenceOut host_datagram
  | presence _ => exact host_presence
  | portLinkUp _ => exact host_portLinkUp
  | portLinkDown _ => exact host_portBit
  | ethernetFrame _ _ => exact host_ethernetFrame
  | openSession _ => exact host_openSession
  | sessionTimeout _ => exact host_closeNow
  | noticeBatch _ => exact host_sendNotices
  | reportPeriod _ _ => exact host_sendReport
  | bulkAck _ _ _ => exact .step host_bulkAck host_datagram
  | bulkResendTimeout _ _ => exact host_bulkResend
  | bulkAckInterval _ _ => exact host_bulkAckInterval
  | signedLockoutEnd => exact host_setN
  | spiStatus => exact .step host_spiOut host_spiSeen
  | fetchReply => exact .step host_spiOut host_spiSeen
  | fetchNotices => exact .step host_spiOut <| .step host_modSess host_spiSeen
  | fence _ => exact .ite (fun _ => .refl s) fun _ => host_withResult
  | window _ => exact .step host_emit host_logWindow
  | flush => exact host_logFlush
  | logbookFlushTimer => exact host_logFlush
  | blockEraseComplete => exact host_blockEraseComplete
  | clear _ => exact host_logClear
  | store => exact host_storeStart
  | storeComplete _ => exact host_storeComplete
  | restoreDefaults => exact host_restoreDefaults
  | dieTemperature _ => exact host_dieTemperature
  | _ => cases h

/-- A gated command keeps the process where its operation does: a gate shut changes the output and the result alone. -/
theorem host_gated {c : Instr} {g : State → State} (h : HostSide (fresh s) (g (fresh s))) (e : gated c g s = .next t) : HostSide s t := by
  cases e
  have hf : HostSide s (fresh s) := .of_eq rfl rfl
  exact .ite (fun _ => .of_eq rfl rfl) fun _ => .ite (fun _ => .step h hf) fun _ => .of_eq rfl rfl

theorem host_exec {c : Instr} (h : servesTheHost c = true) (e : exec c s = .next t) : HostSide s t := by
  rw [exec_eq_gated fun r hc => by rw [hc] at h; cases h] at e
  exact host_gated (host_effect h) e

theorem HostSide.getV (h : HostSide s t) (hk : k < 256) (h0 : 0x0400 ≤ i) (h1 : ¬ (0x0500 ≤ i ∧ i < 0x0600))
    (h2 : ¬ (0x0800 ≤ i ∧ i < 0x0806)) (h3 : i < 0xF000) : Machine.getV i k t = Machine.getV i k s :=
  h.obj i k hk <| by
    simp only [hostObject, Bool.and_eq_false_imp, Bool.or_eq_false_iff, decide_eq_true_eq, decide_eq_false_iff_not]
    omega

/-- Settles O59: every command of the list changes the host's side alone. -/
theorem hostCommandsLeaveTheProcess : Obligations.HostCommandsLeaveTheProcess := by
  unfold Obligations.HostCommandsLeaveTheProcess
  intro c s t hc e
  have h := host_exec hc e
  have hp := h.process
  simp only [process, State.mk.injEq] at hp
  obtain ⟨-, -, -, -, -, -, -, -, hshadow, hdram, hberths, hloops, hctxs, hlinks, haxes, hctrs, hhm, hcommit, hvision, hchart, hbw, hrcd,
    hwake, -, -, hmem, hmains, -, -, -, hcal⟩ := hp
  refine ⟨⟨hberths, hloops, hctxs, hcommit, hcal, hbw, hdram, fun i k hk hi => ?_⟩, hlinks, haxes, hctrs, hwake, hhm, hvision, hchart,
    hrcd, hmem, hmains, hshadow, fun i k hk hi => ?_⟩
  · exact h.getV hk (by omega) (by omega) (by omega) (by omega)
  · exact h.getV hk (by omega) (by omega) (by omega) (by omega)

end Sys2Proof.Machine
end

section
/-!
PROOFS: the node ID at a whole-chip reset, and a write of its source or of the stored ID (R273, R349, R350).
-/
namespace Sys2Proof.Machine

/-- A key that a look-up finds, or that the table does not list at all: no other entry can hide it. -/
def Settled (n : Nat) (o : Tab Val) : Prop := (∃ v, o.find n = some v) ∨ ∀ e ∈ o, e.1 ≠ n

/-- The node ID's objects are settled: the ID in use, its source, the stored ID and the straps. -/
def NodeSettled (o : Tab Val) : Prop := ∀ k, 1 ≤ k → k ≤ 4 → Settled (key 0x0801 k) o

/-- From s to t the node ID's objects read what they read. -/
structure NodeStands (s t : State) : Prop where
  obj : ∀ k, 1 ≤ k → k ≤ 4 → getV 0x0801 k t = getV 0x0801 k s

variable {s t u : State} {b i k l m n : Nat} {v : Val} {o : Tab Val} {tm : Time} {x : List Nat}

/-! A settled key. -/

theorem Settled.put (h : Settled n o) : Settled n (o.put k v) := by
  by_cases hn : n = k
  · subst hn
    exact .inl ⟨v, Tab.find_put_self ..⟩
  · refine h.imp (fun ⟨w, hw⟩ => ⟨w, by rw [Tab.find_put_ne _ _ hn, hw]⟩) fun h e he => ?_
    rcases Tab.mem_put he with rfl | he
    · exact fun hk => hn hk.symm
    · exact h e he

/-- A key that is found stays found where another is taken out. -/
theorem Tab.find_del_of_find {w : Val} (h : o.find n = some w) (hn : n ≠ k) : (o.del k).find n = some w := by
  induction o with
  | nil => cases h
  | cons e l ih =>
    obtain ⟨j, y⟩ := e
    unfold Tab.find at h
    unfold Tab.del
    split_ifs at h with hlt heq
    · cases h
      subst heq
      rw [if_neg hn.symm]
      split <;> simp [Tab.find]
    · split_ifs
      · simpa [Tab.find, hlt, heq] using h
      · exact h
      · simpa [Tab.find, hlt, heq] using ih h

theorem Settled.del (h : Settled n o) (hn : n ≠ k) : Settled n (o.del k) :=
  h.imp (fun ⟨w, hw⟩ => ⟨w, Tab.find_del_of_find hw hn⟩) fun h e he => h e (Tab.mem_del he)

theorem Settled.foldl_put {l : Tab Val} (h : Settled n o) : Settled n (l.foldl (fun o e => o.put e.1 e.2) o) := by
  induction l generalizing o with
  | nil => exact h
  | cons e l ih => exact ih h.put

/-- A filter that keeps a settled key shows what was found. -/
theorem Settled.find_filter {p : Nat × Val → Bool} (h : Settled n o) (hp : ∀ w, p (n, w) = true) : Tab.find n (o.filter p) = o.find n := by
  rcases h with ⟨w, hw⟩ | h
  · rw [hw, Tab.find_filter hw (hp w)]
  · rw [Tab.find_eq_none h, Tab.find_eq_none fun e he => h e (List.mem_filter.1 he).1]

theorem NodeSettled.setV (h : NodeSettled s.obj) : NodeSettled (setV i k v s).obj := fun j h1 h4 => (h j h1 h4).put

/-! What leaves the node ID alone. -/

theorem NodeStands.refl (s : State) : NodeStands s s := ⟨fun _ _ _ => rfl⟩

/-- `NodeStands` after a step, in the order a proof meets them. -/
theorem NodeStands.step (h : NodeStands t u) (h' : NodeStands s t) : NodeStands s u :=
  ⟨fun k h1 h4 => (h.obj k h1 h4).trans (h'.obj k h1 h4)⟩

theorem NodeStands.getN (h : NodeStands s t) (h1 : 1 ≤ k) (h4 : k ≤ 4) : getN 0x0801 k t = getN 0x0801 k s := by
  rw [getN_eq, h.obj k h1 h4, ← getN_eq]

theorem NodeStands.ite {c : Prop} [Decidable c] (h : c → NodeStands s t) (h' : ¬ c → NodeStands s u) :
    NodeStands s (if c then t else u) := by
  split
  · exact h ‹_›
  · exact h' ‹_›

theorem NodeStands.each {f : Nat → State → State} (h : ∀ n ∈ x, ∀ s, NodeStands s (f n s)) : NodeStands s (each x f s) := by
  unfold Machine.each
  induction x generalizing s with
  | nil => exact .refl s
  | cons n x ih =>
    obtain ⟨hn, hx⟩ := List.forall_mem_cons.1 h
    exact .step (ih hx) (hn s)

theorem NodeStands.of_eq (h : t.obj = s.obj) : NodeStands s t := ⟨fun _ _ _ => getV_congr h⟩

theorem NodeStands.of_quiet (h : Quiet s t) : NodeStands s t :=
  ⟨fun k _ _ => h.obj _ k (by unfold noticeKey key; omega)⟩

theorem NodeStands.of_stands {α : Type} {f : Harbour → α} (h : Stands f s t) : NodeStands s t :=
  ⟨fun k _ _ => h.obj _ k (by unfold stopKey noticeKey berthKey key; omega)⟩

theorem NodeStands.of_chip (h : ChipStands s t) : NodeStands s t :=
  ⟨fun k _ _ => h _ k (by decide) (by omega) (by unfold noticeKey key; omega)⟩

theorem node_setV (h : i < 0x0801 ∧ k < 256 ∨ 0x0801 < i) : NodeStands s (setV i k v s) :=
  ⟨fun j _ _ => getV_setV_ne _ _ (by unfold key; omega)⟩

theorem node_setN {v : Nat} (h : i < 0x0801 ∧ k < 256 ∨ 0x0801 < i) : NodeStands s (setN i k v s) := node_setV h

/-! The boot up to its domains: every write is of another object. -/

theorem obj_tideUp : (tideUp s).obj =
    (setN 0x0401 8 4 (setN 0x0400 9 (getN 0x0400 1 s) (setN 0x0400 7 0 s))).obj := rfl

theorem node_tideUp : NodeStands s (tideUp s) :=
  .step (node_setN (by decide)) <| .step (node_setN (by decide)) <| .step (node_setN (by decide)) (.of_eq rfl)

theorem NodeSettled.tideUp (h : NodeSettled s.obj) : NodeSettled (tideUp s).obj := by
  rw [obj_tideUp]
  exact h.setV.setV.setV

theorem obj_driveLens : (driveLens s).obj = s.obj := by
  unfold driveLens Machine.each
  have h : ∀ (x : List Nat) (s : State), (x.foldl (fun s b => emit (.len b (getN (bi b 2) 4 s != 1) s.now)
      (modBerth b (fun y => { y with len := false, lenPin := getN (bi b 2) 4 s != 1 }) s)) s).obj = s.obj := fun x => by
    induction x with
    | nil => exact fun _ => rfl
    | cons b x ih => exact fun s => ih _
  exact h _ s

theorem node_loadBreakwater : NodeStands s (loadBreakwater s) := by
  unfold loadBreakwater
  split
  · exact .step (node_setV (by decide)) <| .step (node_setV (by decide)) <| .step (node_setN (by decide)) <|
      .step (node_setN (by decide)) <| .step (node_setN (by decide)) (.of_eq rfl)
  · exact .step (node_setN (by decide)) <| .step (node_setN (by decide)) (.of_eq rfl)

theorem NodeSettled.loadBreakwater (h : NodeSettled s.obj) : NodeSettled (loadBreakwater s).obj := by
  unfold Machine.loadBreakwater
  split
  · exact NodeSettled.setV <| .setV <| .setV <| .setV <| .setV h
  · exact NodeSettled.setV <| .setV h

theorem node_showVersions {p q : List Byte} : NodeStands s (showVersions p q n s) :=
  .step (node_setV (by decide)) <| .step (node_setN (by decide)) <| .step (node_setN (by decide)) <| .step (node_setN (by decide)) <|
    .step (node_setN (by decide)) (node_setN (by decide))

theorem NodeSettled.showVersions {p q : List Byte} (h : NodeSettled s.obj) : NodeSettled (showVersions p q n s).obj :=
  NodeSettled.setV <| .setV <| .setV <| .setV <| .setV <| .setV h

theorem NodeSettled.logCount (h : NodeSettled s.obj) : NodeSettled (logCount s).obj := by
  have hold : ∀ v, NodeSettled (if getN 0x0500 2 s = v then s else setN 0x0500 2 v s).obj := fun v => by
    split
    · exact h
    · exact h.setV
  exact NodeSettled.setV (hold _)

theorem node_logScan : NodeStands s (logScan s) :=
  .step (.of_quiet quiet_logCount) <| .step (node_setN (by decide)) (node_setN (by decide))

theorem NodeSettled.logScan (h : NodeSettled s.obj) : NodeSettled (logScan s).obj := NodeSettled.logCount <| .setV <| .setV h

/-- The objects of the network are kept where the domains are held in reset. -/
theorem node_holdDomains (h : NodeSettled s.obj) : NodeStands s (holdDomains s) := by
  refine ⟨fun k h1 h4 => ?_⟩
  have hk : kindOf (key 0x0801 k) ≠ none := by interval_cases k <;> decide
  have hi : key 0x0801 k / 256 = 0x0801 := by unfold key; omega
  obtain ⟨κ, hκ⟩ := Option.ne_none_iff_exists'.1 hk
  unfold holdDomains keepObjects getV
  dsimp only
  rw [Settled.find_filter (h k h1 h4) fun w => ?_]
  rw [hκ, hi]
  exact Bool.or_eq_true_iff.2 (.inl (Bool.or_eq_true_iff.2 (.inl (Bool.or_eq_true_iff.2 (.inr rfl)))))

/-! The domains, and the outputs. -/

theorem obj_eachEmit {e : Nat → Out} : (each x (fun k => emit (e k)) s).obj = s.obj := by
  unfold each
  induction x generalizing s with
  | nil => rfl
  | cons k x ih => exact ih

theorem node_floatOutputs : NodeStands s (floatOutputs s) := .of_eq <| by simp only [floatOutputs, obj_eachEmit]

theorem node_pilot {y : Pilot} : NodeStands s { s with pilot := y } := .of_eq rfl

theorem node_enterAnchorage {cause : Nat} {p q : List Byte} (h : NodeSettled s.obj) : NodeStands s (enterAnchorage cause p q s) :=
  .step (.of_quiet (quiet_noticeLog ..)) <| .step (node_setN (by decide)) <| .step node_pilot <| .step node_floatOutputs (node_holdDomains h)

theorem node_modAxis {f : Axis → Axis} : NodeStands s (modAxis m f s) := .of_eq rfl

theorem node_axisFlag {w : Bool} : NodeStands s (axisFlag m n w s) := node_setN (by unfold mi; omega)

theorem node_axisStart : NodeStands s (axisStart m s) := by
  have hset : ∀ {k v s}, NodeStands s (setN (mi m 1) k v s) := node_setN (by unfold mi; omega)
  have hpos : ∀ {k v s}, NodeStands s (setI (mi m 1) k v s) := node_setV (by unfold mi; omega)
  exact .step node_axisFlag <| .step node_axisFlag <| .step node_axisFlag <| .step node_modAxis <|
    .step hpos <| .step hpos <| .step hset node_modAxis

theorem node_modCtx {f : Context → Context} : NodeStands s (modCtx n f s) := .of_eq rfl

theorem node_emit {e : Out} : NodeStands s (emit e s) := .of_eq rfl

theorem node_contextEnable : NodeStands s (contextEnable n true s) := by
  have hset : ∀ {i k v s}, NodeStands s (setN (ci n i) k v s) := node_setN (by unfold ci; omega)
  unfold contextEnable
  refine .ite (fun _ => .refl s) fun _ => ?_
  rw [if_neg (by decide)]
  refine .ite (fun _ => .of_eq rfl) fun _ => ?_
  split
  · exact .of_eq rfl
  · have hon : ∀ y, NodeStands s (setN (ci n 0) 1 1 (setN (ci n 5) 1 0 (setN (ci n 5) 2 0 { s with vision := y }))) := fun _ =>
      .step hset <| .step hset <| .step hset (.of_eq rfl)
    exact .step node_modCtx (.ite (fun _ => .step node_emit (hon _)) fun _ => hon _)

theorem node_enterDetect : NodeStands s (enterDetect l s) :=
  .of_chip <| .step (.of_eq rfl) <| .step (chip_setV le_index_lki) <| .step (chip_setV le_index_lki) <| .step chip_setLinkState <|
    .ite (fun _ => .refl s) fun _ => .of_eq rfl

theorem node_enableDomains : NodeStands s (enableDomains s) := by
  have htrips : ∀ u, NodeStands u (reportTrips u) := fun u => .each fun n _ _ => node_setN (by unfold li; omega)
  refine .step (.each fun _ _ u => .ite (fun _ => node_enterDetect) fun _ => .refl u) ?_
  refine .step (.each fun _ _ u => .ite (fun _ => .step node_contextEnable (node_setN (by unfold ci; omega))) fun _ => .refl u) ?_
  refine .step (.each fun _ _ u => .ite (fun _ => node_axisStart) fun _ => .refl u) ?_
  exact .step (htrips _) <| .step (node_setN (by decide)) <| .step (node_setN (by decide)) (node_setN (by decide))

theorem node_boot (h : NodeSettled s.obj) : NodeStands s (boot s) := by
  have hrec : ∀ r, (setBootRecord r (driveLens s)).obj = s.obj := fun r => setBootRecord_obj.trans obj_driveLens
  unfold boot
  dsimp only
  split
  · exact .of_eq (hrec _)
  · have hs : ∀ r, NodeSettled (setBootRecord r (driveLens s)).obj := fun r => (hrec r).symm ▸ h
    have hseen : ∀ r p q n, NodeStands s (logScan (showVersions p q n (loadBreakwater (setBootRecord r (driveLens s))))) :=
      fun r p q n => .step node_logScan <| .step node_showVersions <| .step node_loadBreakwater (.of_eq (hrec r))
    exact .ite (fun _ => .step node_enableDomains (hseen _ _ _ _)) fun _ =>
      .step (node_enterAnchorage (hs _).loadBreakwater.showVersions.logScan) (hseen _ _ _ _)

/-! The bollards at a reset (R388). -/

theorem node_stopDecelerate : NodeStands s (stopDecelerate m s) :=
  .ite (fun _ => .step node_modAxis <| .step (node_setN (by unfold mi; omega)) (node_setV (by unfold mi; omega))) fun _ => .refl s

theorem node_bolActs : NodeStands s (bolActs i tm s) := by
  unfold bolActs
  dsimp only
  refine .step (.of_eq updateAll_obj) <| .step (.ite (fun _ => .each fun _ _ _ => node_stopDecelerate) fun _ => .refl _) ?_
  refine .step (.ite (fun _ => .of_stands stands_faultStop) fun _ => .ite (fun _ => ?_) fun _ => .refl _) ?_
  · exact .of_stands (.eachBerth fun _ _ => stands_stopBerth)
  · exact .each fun _ _ _ => .of_stands (f := Harbour.untriggered) stands_calStop

theorem node_bolLatch (hi : i < 16) : NodeStands s (bolLatch i tm s) := by
  by_cases h : bolLatched i s = true ∨ bolRole i s = 0
  · rw [show bolLatch i tm s = s from if_pos h]
    exact .refl s
  · obtain ⟨hl, h0⟩ := not_or.1 h
    obtain ⟨d, heq⟩ := bolLatch_acts (tm := tm) (by simpa using hl) h0
    have hnoted : NodeStands (bolCounted i s) (bolNoted i tm (bolCounted i s)) :=
      ⟨fun k _ _ => getV_bolNoted (by unfold noticeKey key; omega)⟩
    rw [heq]
    exact .step node_bolActs <| .step hnoted
      ⟨fun k _ _ => getV_bolCounted (by unfold key; omega) (by unfold key; omega) (by unfold key; omega)⟩

theorem node_bolBoot : NodeStands s (bolBoot n s) := by
  refine .step (.each fun i hi u => node_bolLatch ?_) (.step (node_setN (by decide)) (.of_eq rfl))
  exact (mem_bitsOf.1 hi).1

theorem node_resetNote {cause rung : Nat} : NodeStands s (resetNote cause rung s) :=
  .step (.of_quiet (quiet_logAdd ..)) (node_setN (by decide))

/-! The reset of the whole chip. -/

/-- No object of the node ID is factory-set or protected, so a whole-chip reset takes them all from the table (R350). -/
theorem nodeSettled_kept : NodeSettled (keepObjects (fun _ k => k == .f || k == .p) s).obj := by
  intro k h1 h4
  refine .inr fun e he hk => ?_
  have hkind : kindOf (key 0x0801 k) = some .v ∨ kindOf (key 0x0801 k) = some .s := by interval_cases k <;> decide
  have hkept := (List.mem_filter.1 he).2
  rw [hk] at hkept
  rcases hkind with h | h <;> simp [h] at hkept

theorem NodeSettled.loadStored (h : NodeSettled s.obj) : NodeSettled (loadStored s).obj := by
  unfold Machine.loadStored
  dsimp only
  have hstored : NodeSettled ((s.flash.store.getD []).foldl (fun o e => o.put e.1 e.2) s.obj) := fun k h1 h4 => (h k h1 h4).foldl_put
  split
  · exact hstored
  · unfold eachBerth Machine.each
    have hall : ∀ (x : List Nat) (u : State), NodeSettled u.obj → NodeSettled
        (x.foldl (fun s b => setN (bi b 5) 1 0 { s with obj := s.obj.del (key (bi b 5) 5) }) u).obj := fun x => by
      induction x with
      | nil => exact fun _ hu => hu
      | cons b x ih => exact fun u hu => ih _ <| NodeSettled.setV fun k h1 h4 => (hu k h1 h4).del (by unfold key bi; omega)
    exact hall _ _ hstored

theorem getN_strapNode : getN 0x0801 4 (strapNode n s) = n ∧ getN 0x0801 1 (strapNode n s) =
    if getN 0x0801 2 (strapNode n s) = 1 then getN 0x0801 3 (strapNode n s) else n := by
  have h : ∀ k, k < 256 → k ≠ 1 → getN 0x0801 k (strapNode n s) = getN 0x0801 k (setN 0x0801 4 n s) := fun k hk hne =>
    getN_setN_ne _ _ (by unfold key; omega)
  have h' : ∀ k, k < 256 → k ≠ 4 → getN 0x0801 k (setN 0x0801 4 n s) = getN 0x0801 k s := fun k hk hne =>
    getN_setN_ne _ _ (by unfold key; omega)
  rw [h 4 (by decide) (by decide), h 2 (by decide) (by decide), h 3 (by decide) (by decide), h' 2 (by decide) (by decide),
    h' 3 (by decide) (by decide)]
  exact ⟨getN_setN_self .., getN_setN_self ..⟩

/-- A whole-chip reset latches the straps over a table in which the node ID's objects are settled, then boots. -/
theorem wholeReset_stages {cause : Nat} {g : Logbook} {p : Straps} : ∃ u r, NodeSettled u.obj ∧ wholeReset cause tm n g p s =
    resetNote cause r (bolBoot p.bol (boot (setN 0x6000 1 1 (tideUp (strapNode p.node u))))) := by
  unfold wholeReset
  dsimp only
  refine ⟨_, _, ?_, rfl⟩
  exact NodeSettled.loadStored (nodeSettled_kept (s := s))

/-- After a whole-chip reset the node ID in use is the one of its source (R273). -/
theorem node_wholeReset {cause : Nat} {g : Logbook} {p : Straps} : getN 0x0801 4 (wholeReset cause tm n g p s) = p.node ∧
    getN 0x0801 1 (wholeReset cause tm n g p s) = if getN 0x0801 2 (wholeReset cause tm n g p s) = 1
      then getN 0x0801 3 (wholeReset cause tm n g p s) else p.node := by
  obtain ⟨u, r, hu, heq⟩ := wholeReset_stages (cause := cause) (tm := tm) (n := n) (g := g) (p := p) (s := s)
  have hstrap : NodeSettled (strapNode p.node u).obj := NodeSettled.setV hu.setV
  have hall : NodeStands (strapNode p.node u) (wholeReset cause tm n g p s) := by
    rw [heq]
    exact .step node_resetNote <| .step node_bolBoot <| .step (node_boot hstrap.tideUp.setV) <| .step (node_setN (by decide)) node_tideUp
  rw [hall.getN (by decide) (by decide), hall.getN (by decide) (by decide), hall.getN (by decide) (by decide), hall.getN (by decide) (by decide)]
  exact getN_strapNode

/-! A write of the source or of the stored ID. -/

theorem findRow_nodeSource : findRow 0x0801 2 = some ⟨0x0801, 0x0, 1, 0x02, 1, .u8, .rw, .s, 0, .oneOf [0, 1]⟩ := by decide

theorem findRow_storedNode : findRow 0x0801 3 = some ⟨0x0801, 0x0, 1, 0x03, 1, .u16, .rw, .s, 0, .range (0) (1023)⟩ := by decide

theorem plain_nodeSource (h : k = 2 ∨ k = 3) : plain 0x0801 k v s = setV 0x0801 k v s := by
  rcases h with rfl | rfl
  · rw [plain, findRow_nodeSource]
  · rw [plain, findRow_storedNode]

/-- Such a write is refused with a result, or puts its value in force. -/
theorem applyWrite_nodeSource {d g : List Byte} (h : k = 2 ∨ k = 3) : (∃ r, applyWrite n 0x0801 k false 0 v d g s = withResult r s) ∨
    applyWrite n 0x0801 k false 0 v d g s = setV 0x0801 k v (withResult 0 s) := by
  by_cases hb : writeBarred n 0x0801 k (withResult 0 s) = 0
  · by_cases hv : valueBarred 0x0801 k false 0 v (withResult 0 s) = 0
    · refine .inr (((if_neg (not_not.2 hb)).trans (if_neg (not_not.2 hv))).trans ?_)
      cases v with
      | int y =>
        rw [← plain_nodeSource h]
        rcases h with rfl | rfl
        · rw [findRow_nodeSource]
          rfl
        · rw [findRow_storedNode]
          rfl
      | blob y =>
        rcases h with rfl | rfl
        · exact absurd hv (by decide : (5 : Nat) ≠ 0)
        · exact absurd hv (by decide : (5 : Nat) ≠ 0)
    · exact .inl ⟨_, (if_neg (not_not.2 hb)).trans (if_pos hv)⟩
  · exact .inl ⟨_, if_pos hb⟩

/-- Settles O56. -/
theorem nodeIdIsLatchedAtReset : Obligations.NodeIdIsLatchedAtReset := by
  unfold Obligations.NodeIdIsLatchedAtReset
  refine ⟨fun c p s hc hr => ?_, fun n k v s hr hk => ?_⟩
  · have hwf : (Instr.powerOnReset p).wf = true → p.node < 1024 := fun h => of_decide_eq_true (Bool.and_eq_true_iff.1 h).1
    rcases hc with rfl | rfl
    · exact ⟨_, exec_effect hr nofun, hwf hr.1, node_wholeReset⟩
    · exact ⟨_, exec_effect hr nofun, hwf hr.1, node_wholeReset⟩
  · refine ⟨_, exec_effect hr nofun, ?_⟩
    dsimp only [effect]
    rcases applyWrite_nodeSource (n := n) (v := v) (d := valueBytes 0x0801 k v) (g := []) (s := fresh s) hk with ⟨r, h⟩ | h
    · rw [h]
      exact ⟨rfl, rfl⟩
    · have hne : ∀ j, j ≠ k → j < 256 → getN 0x0801 j (setV 0x0801 k v (withResult 0 (fresh s))) = getN 0x0801 j s := fun j hj hlt => by
        rw [getN_eq, getV_setV_ne _ _ (by unfold key; omega)]
        rfl
      rw [h]
      exact ⟨hne 1 (by omega) (by decide), hne 4 (by omega) (by decide)⟩

end Sys2Proof.Machine
end
